-- ==== Sys2Proof/Word.lean ====
section
/-! DEFINITION. The word types of the model: the widths that the manual treats as bits. -/

namespace Sys2Proof

/-- One byte (R13). -/
abbrev Byte := BitVec 8
/-- One vendor register (R17). -/
abbrev Word := BitVec 32
/-- A 64-bit quantity: a DPA, a media address, a register pair (R17). -/
abbrev Dword := BitVec 64
/-- The 64 data bytes of a line; byte k is bits 8k+7..8k (R13). -/
abbrev Line := BitVec 512
/-- A controller tile number, 0 to 7 (R4); a head has its tile's number. -/
abbrev TileId := Fin 8
/-- A media channel of a tile. -/
abbrev ChanId := Fin 4

end Sys2Proof
end

