-- ==== Sys2Proof/Syntax.lean ====
section
/-! DEFINITION. The commands and events of the part: one constructor of Instr per row of spec/opcode_table.json, and the
types of their operands. The spec gives a row no operands; each row's operands are what an event of its kind can bring:
who acts, on what, and what the medium, a pin, a link partner or the environment answered. An operand of type Unit carries nothing. -/

namespace Sys2Proof

/-- A mailbox interface: the primary or secondary mailbox of a head, or the sideband's MCTP endpoint (R27, R340). -/
inductive Iface where
  | head (h : TileId) (secondary : Bool)
  | mctp
deriving DecidableEq, Repr

/-- A port: Widar port p of tile t (R453), or peer port p of the package (R499). -/
inductive PortId where
  | widar (t : TileId) (p : Fin 4)
  | peer (p : Fin 4)
deriving DecidableEq, Repr

/-- What reads of several lines get wrong: for a line (a page line, or an index of a stripe) the places of its codeword of
680 bits that come back flipped. Places 0 to 39 are its address bits, place 40 + 8k + 7 - b is bit b of byte k. A line
that is not listed comes back as it was written. -/
abbrev Noise := List (Nat × List Nat)

/-- What the reads of a whole page get wrong: those of rung 3, and those of rung 4, which reads again the dies that gave
FAILED lines (R237). -/
abbrev PageNoise := Noise × Noise

/-- What a host request addresses at a head: configuration space, BAR0 or BAR2 (R333). -/
inductive HostSpace where
  | config | bar0 | bar2
deriving DecidableEq, Repr

/-- The SRAM array of a word, and what the word holds (R228). -/
inductive SramWord where
  | cacheData (line : Nat)
  | cacheTag
  | directory (bucket : Nat)
  | placement (unit : Nat)
  | headRange
  | age (idx : Nat)
  | gaitTable (c : ChanId) (pos : Fin 9)
  | foldBuffer (unit pidx : Nat)
  | tcm
  | velvet (rec : Nat)
  | other
deriving DecidableEq, Repr

/-- A read of an SRAM word (R224 to R226): the bits of data and check that come back wrong, the bits in which the address
of the word that answers differs from the one accessed, and whether the two copies of its valid bit disagree. -/
structure SramAccess where
  flips : List Nat := []
  diff : List Nat := []
  latch : Bool := false
deriving DecidableEq, Repr

/-- What STATUS after tINIT brings (R83): the polls that no die answers, and the flags that each die reports. -/
structure InitStatus where
  lost : List (Nat × Nat) := []
  flags : List (Nat × BitVec 6) := []
deriving DecidableEq, Repr

/-- What the reads of a fold get wrong: those of each staged stripe, by its line, and those of the old page (R171). -/
abbrev FoldNoise := List (Nat × Noise) × PageNoise

/-- What the reads of a patrol visit get wrong: those of a page, and those of each stripe of a segment, by its number (R252). -/
abbrev VisitNoise := PageNoise × List (Nat × Noise)

/-- A SUSPEND frame (R76, R79): its wrong beat bits, and whether the part sees the acknowledgement that the die gives. -/
structure SuspendTry where
  flips : List Nat := []
  seen : Bool := true
deriving DecidableEq, Repr

/-- What the lines of a channel carry for a command (R73, R93): the temperature of the die that READ_TEMP asks, and, by physical
position, the beat bits and the burst bits that come wrong. -/
structure IssueLine where
  reading : BitVec 16 := 0x8000
  ca : Noise := []
  dq : Noise := []
deriving DecidableEq, Repr

/-- A YALERT_N edge of a channel (R74, R81), with the die and partition whose program was abandoned, if one was. -/
structure YAlert where
  chan : ChanId
  abandoned : Option (Fin 9 × Fin 16) := none
deriving DecidableEq, Repr

/-- A visit to an SRAM word (R224 to R228): the reads of its two copies, and whether an ordinary access makes it. -/
structure SramVisit where
  word : SramWord
  read : SramAccess := {}
  twin : SramAccess := {}
  access : Bool := false
deriving DecidableEq, Repr

/-- Where a host request of a head goes (R333). -/
structure HostAddr where
  space : HostSpace
  offset : Nat
deriving DecidableEq, Repr

/-- An access through a TAP (R687, R708). -/
inductive JtagKind where
  | idcode | boundary | debug | memory
deriving DecidableEq, Repr

/-- The BODY of an INIT flit (R464, R501). -/
structure InitFlit where
  role : BitVec 8
  position : BitVec 8
  version : BitVec 8 := 1
  flags : BitVec 8 := 0
  flitBuf : BitVec 16 := 8
  crdReq : BitVec 16 := 64
  crdRsp : BitVec 16 := 64
  expectSeq : BitVec 16 := 0
  key : BitVec 64 := 0
  serialCrc : BitVec 32 := 0
deriving DecidableEq, Repr

/-- A Widar message (R468). `dslots` is the DSLOTS field as received; `data` the bytes of its data slots. -/
structure Msg where
  opcode : BitVec 8
  dslots : BitVec 3 := 0
  scope : BitVec 2 := 0
  poison : Bool := false
  early : Bool := false
  tag : BitVec 12 := 0
  src : BitVec 3 := 0
  dst : BitVec 3 := 0
  len : BitVec 7 := 0
  status : BitVec 8 := 0
  addr : BitVec 52 := 0
  data : List Byte := []
deriving DecidableEq, Repr

/-- A mesh message (R506). -/
structure MMsg where
  opcode : BitVec 8
  dslots : BitVec 3 := 0
  poison : Bool := false
  early : Bool := false
  strict : Bool := false
  tag : BitVec 12 := 0
  src : BitVec 6 := 0
  dst : BitVec 6 := 0
  hops : BitVec 8 := 63
  status : BitVec 8 := 0
  addr : BitVec 44 := 0
  aux : BitVec 16 := 0
  data : List Byte := []
deriving DecidableEq, Repr

/-- The header fields and messages of a flit (R459). -/
structure Flit where
  type : BitVec 2 := 0
  seq : BitVec 10 := 0
  ackSeq : BitVec 10 := 0
  ackV : Bool := false
  fcrd : BitVec 4 := 0
  crdReq : BitVec 12 := 0
  crdRsp : BitVec 12 := 0
  msgs : List Msg := []
  mmsgs : List MMsg := []
deriving DecidableEq, Repr

/-- The commands and events of the part, one per row of spec/opcode_table.json. -/
inductive Instr where
  /-- VAON_GOOD (R382). VAON reaches power-good after being absent, so the supervisor starts and a POWER_ON package reset begins. -/
  | vaonGood
  /-- VAON_LOSS (R704). VAON falls below 1.62 V, so every output goes undriven or to its reset state at once, no flush runs and the seconds clock will restart. -/
  | vaonLoss
  /-- XTAL_START_TIMEOUT (R704). The 25 MHz crystal has not started within 10 ms, so the fixed rails stay off and the supervisor retries every 100 ms. -/
  | xtalStartTimeout
  /-- FIXED_RAIL_PG_TIMEOUT (R541). A fixed rail has not shown SEQ_PG within 5 ms of its SEQ_EN, so the supervisor disables all four fixed rails. -/
  | fixedRailPgTimeout (rail : Fin 4)
  /-- FIXED_RAIL_RESTART_TIMER (R541). The 100 ms wait after a fixed-rail failure expires and fixed-rail sequencing starts again. -/
  | fixedRailRestartTimer
  /-- ROOT_PLL_LOCK (R590). The root PLL achieves lock after the fixed rails are good, which allows package reset release. -/
  | rootPllLock
  /-- PACKAGE_RESET_RELEASE (R383). Power-good holds, PKG_RST_N is high and the PLL is locked on an HKCLK edge, so BOOT begins and every tile starts its self-test. -/
  | packageResetRelease
  /-- PKG_RST_N_FALL (R384). PKG_RST_N falls at its filter output; outside FLUSHING this starts a package reset and asserts MEDRST_N, and during FLUSHING it is deferred. -/
  | pkgRstNFall
  /-- PKG_RST_N_RISE (R384). PKG_RST_N is released, which allows package reset release once R383 holds. -/
  | pkgRstNRise
  /-- TILE_SELFTEST_DONE (R28). A tile completes its self-test and reports its pass line and fused serial number to the rail supervisor. -/
  | tileSelftestDone (t : TileId) (pass : Bool)
  /-- SELFTEST_WINDOW_CLOSE (R29). The self-test window closes 8 ms after release, and the supervisor latches SELFTEST_PASS. -/
  | selftestWindowClose
  /-- OPTION_AREA_READ (R408). In phase 2 the option area is read and each defined entry's word and inverse are checked. -/
  | optionAreaRead
  /-- FIRMWARE_SLOT_CHOICE (R385). The lead ROM reads the boot-select record, chooses a slot and verifies the image. -/
  | firmwareSlotChoice
  /-- TILE_FIRMWARE_VERIFY (R387). A non-lead tile verifies its copy of the slot the lead names, and a failure triggers a rewrite from the lead's copy. -/
  | tileFirmwareVerify (t : TileId)
  /-- TILE_FIRMWARE_REWRITE_DONE (R387). The lead finishes rewriting a tile's firmware bank, and that tile starts. -/
  | tileFirmwareRewriteDone (t : TileId)
  /-- RECOVERY_RESTART_TIMER (R388). The 100 ms after a successful Activate FW under the recovery loader expires, and a RECOVERY_RESTART package reset follows. -/
  | recoveryRestartTimer
  /-- MAILBOX_READY (R389). Phase 3 ends with firmware running in every tile, so the mailbox becomes ready and the part moves to MEDIA_INIT or CONFIG_HOLD. -/
  | mailboxReady
  /-- RECORD_JUDGE (R424). In phase 4 both record copies are read and judged to select the record in force, or the part enters CONFIG_HOLD. -/
  | recordJudge
  /-- RAIL_POWER_GOOD (R544). A rail shows SEQ_PG, and every rail whose AFTER set is now satisfied is enabled on the same edge. -/
  | railPowerGood (rail : Fin 16)
  /-- RAIL_RAMP_TIMEOUT (R545). A media rail has not shown SEQ_PG within RAMP_US, so its group is held off and its channels go out of service. -/
  | railRampTimeout (rail : Fin 16)
  /-- RAIL_RUNNING_FAULT (R547). SEQ_PG falls for 2 µs or more while SEQ_EN is high, and the rail's REACTION is applied. -/
  | railRunningFault (rail : Fin 16)
  /-- RAIL_RETRY_TIMER (R547). The 1 ms retry interval of a RETRY reaction expires and the rail is enabled again. -/
  | railRetryTimer
  /-- MEDIA_RAIL_LOWER_STEP (R544). During lowering, a rail is disabled once its dependants read SEQ_PG low or once 1 ms has passed. -/
  | mediaRailLowerStep
  /-- MEDRST_STRETCH_END (R550). The rails of a channel's groups have been good for the full stretch, so MEDRST_N rises and the die tINIT starts. -/
  | medrstStretchEnd (t : TileId) (c : ChanId)
  /-- BOARD_RST_STRETCH_END (R550). BOARD_RST_N rises after its stretch following package reset release. -/
  | boardRstStretchEnd
  /-- DIE_TINIT_END (R82). The 50 µs tINIT after a die reset ends, and channel initialisation proceeds. -/
  | dieTinitEnd (t : TileId) (c : ChanId) (status : InitStatus)
  /-- UNIT_RECORD_CHECK (R110). In phase 8 the unit records are read and checked against the layout and the epoch. -/
  | unitRecordCheck
  /-- INTERRUPTED_ERASE_COMPLETION (R680). In phase 9 an interrupted erase is completed, or a relayout discard runs. -/
  | interruptedEraseCompletion
  /-- STATIC_EXTENT_CREATE (R133). In phase 10 the static extent entry and the head range tables are created from the record. -/
  | staticExtentCreate
  /-- REPLAY_START (R391). Staging log replay begins in each tile with the power-fail summary, unit records and segment screening. -/
  | replayStart
  /-- REPLAY_END (R393). The staging directory has been rebuilt, and the part enters ACTIVE or DEGRADED with Memory_Active set. -/
  | replayEnd (replayMs : Nat) (activeMs : Nat)
  /-- LEAD_HEARTBEAT_TIMER (R35). Every 100 µs the lead sends a heartbeat to every other tile in service. -/
  | leadHeartbeatTimer
  /-- TILE_HEARTBEAT_TIMEOUT (R35). A tile has missed three consecutive heartbeats and is declared lost. -/
  | tileHeartbeatTimeout (t : TileId)
  /-- TILE_FATAL_REPORT (R35). A tile reports an internal FATAL condition and is declared lost at once. -/
  | tileFatalReport (t : TileId)
  /-- RESCUE_FLUSH_DONE (R36). The rescue flush ends, unsaved lines are poisoned, and the part enters DEGRADED, or FLUSHING after a lead loss. -/
  | rescueFlushDone (unsaved : List Nat)
  /-- LEAD_REPORT_ABSENT (R712). The supervisor finds the lead's housekeeping report absent for 10 rounds with no other tile in service, and starts the hardware flush. -/
  | leadReportAbsent
  /-- LONE_LOSS_FLUSH_END (R712). DATA_END arrives or the 5 ms watchdog expires, so the supervisor lowers the media rails and sets FAILED. -/
  | loneLossFlushEnd (dataEnd : Bool)
  /-- MEMRD (R314). A MemRd or MemRdData load of one line is admitted and routed to its owner tile. -/
  | memrd (h : TileId) (hpa : BitVec 64)
  /-- MEMSPECRD (R314). A MemSpecRd is taken as a hint that may warm the owner cache, and no response is sent. -/
  | memspecrd (h : TileId) (hpa : BitVec 64)
  /-- MEMINV (R314). A MemInv or MemInvNT completes with Cmp and leaves the line unchanged. -/
  | meminv (h : TileId) (hpa : BitVec 64)
  /-- MEMCLNEVCT (R314). A MemClnEvct completes with Cmp. -/
  | memclnevct (h : TileId) (hpa : BitVec 64)
  /-- MEMWR (R314). A full-line store is admitted, routed to its owner, merged into the cache and staged according to its policy. -/
  | memwr (h : TileId) (hpa : BitVec 64) (data : Line) (poison : Bool)
  /-- MEMWRPTL (R314). A partial store is merged under its byte enables, after reading the line on a miss. -/
  | memwrptl (h : TileId) (hpa : BitVec 64) (data : Line) (mask : BitVec 64) (poison : Bool)
  /-- FORBIDDEN_MEM_MESSAGE (R314). A received MemRdFwd, MemWrFwd or BI message is discarded and counted as a link protocol error. -/
  | forbiddenMemMessage (h : TileId)
  /-- STRIPE_CLOSE_TIMER (R160). 100 ns after its first line entered, an assembly stripe is closed. -/
  | stripeCloseTimer (t : TileId) (area : Fin 5)
  /-- STRIPE_PROGRAM_END (R160). A stripe's eight SLC programs end with their final VERIFY results. -/
  | stripeProgramEnd (t : TileId) (seq : BitVec 64) (note : Unit)
  /-- BUCKET_SLOT_FREED (R168). A slot frees in a full directory bucket and a waiting line's entry is inserted. -/
  | bucketSlotFreed (t : TileId)
  /-- POSTED_HOLD_RELEASE (R152). A staging verify lowers the Posted-dirty count, so a held Posted store proceeds. -/
  | postedHoldRelease (t : TileId)
  /-- WAY_WAIT_RELEASE (R149). A way of the set becomes free or verifies, so a store that waited for it takes it. -/
  | wayWaitRelease (t : TileId)
  /-- STORE_ACKNOWLEDGE (R42). The owner reports that the store reached its acknowledgement point, and the receiving head sends Cmp. -/
  | storeAcknowledge (h : TileId) (id : Nat)
  /-- LOAD_RESPONSE_EGRESS (R38). A load's response reaches the receiving head and leaves it, or is discarded after a deadline. -/
  | loadResponseEgress (h : TileId) (id : Nat) (ns : Nat)
  /-- LOAD_DEADLINE_EXPIRY (R218). A load's deadline timer reaches 7.9 µs, so the head sends a poisoned completion and counts it. -/
  | loadDeadlineExpiry (h : TileId) (id : Nat) (stage : Nat)
  /-- GPF_FLUSH_DONE (R182). Every Posted-dirty line staged for a flush has verified, and flush completion is reported. -/
  | gpfFlushDone (us : Vector Nat 8)
  /-- STAGING_STALL_TIMEOUT (R184). While stores of an area are held, 1 ms passes without a fold completion, and the part enters FAILED with FAIL_CAUSE 0x6. -/
  | stagingStallTimeout (t : TileId) (area : Fin 5)
  /-- FOLD_CLAIM (R171). A fold page is chosen and F1 claims its directory entries and takes FOLD_SEQ. -/
  | foldClaim (t : TileId) (unit : Nat) (pidx : Nat)
  /-- FOLD_READ_DONE (R171). The gather and old-page reads complete, and the fold merges, encodes and starts its carries. -/
  | foldReadDone (t : TileId) (unit : Nat) (pidx : Nat) (noise : FoldNoise)
  /-- FOLD_CARRY_VERIFIED (R173). The fold's carry stripes have verified, and F6 programs the page. -/
  | foldCarryVerified (t : TileId) (unit : Nat) (pidx : Nat)
  /-- FOLD_PROGRAM_END (R171). The MLC program of F6 ends, and a pass leads to read-back while a failure leads to a remap and a repeat. -/
  | foldProgramEnd (t : TileId) (unit : Nat) (pidx : Nat) (note : Unit)
  /-- FOLD_READBACK_DONE (R171). F7 read-back decodes, then the fold accounts the counted program and releases its claimed entries. -/
  | foldReadbackDone (t : TileId) (unit : Nat) (pidx : Nat) (noise : Noise)
  /-- GAP_MOVE_START (R117). A due gap move of a ring starts, reading the page below the gap. -/
  | gapMoveStart (t : TileId) (unit : Nat)
  /-- GAP_MOVE_VERIFY (R117). The destination of a gap move verifies, M increases and a placement record is appended. -/
  | gapMoveVerify (t : TileId) (unit : Nat) (noise : PageNoise)
  /-- UNIT_RECORD_WRITE (R127). After 1,024 placement records of a unit, a new unit record is written. -/
  | unitRecordWrite (t : TileId) (unit : Nat)
  /-- ROW_RECLAIM_DONE (R136). All staged lines of a lent row have folded, so an add that waited for that row proceeds. -/
  | rowReclaimDone (row : Nat)
  /-- EXTENT_RELEASE_COMPLETE (R132). Admitted requests and folds on a released range have finished, its pages are zeroed or unwritten, and the release completes. -/
  | extentReleaseComplete (base : Nat)
  /-- AGE_SWEEP_STEP (R207). The hardware age sweep replaces a stamp with step(st). -/
  | ageSweepStep (t : TileId) (idx : Nat)
  /-- AGE_CATCHUP_STEP (R208). After leaving S1 or S2 the catch-up applies step() to the next stamp and advances P. -/
  | ageCatchupStep (t : TileId)
  /-- RECOVERY_SWEEP_VISIT (R209). The recovery sweep reads one line of a page group with an UNKNOWN stamp and sets the stamp. -/
  | recoverySweepVisit (t : TileId) (idx : Nat) (tries : List (List Nat))
  /-- FOREGROUND_READ_ARRIVAL (R213). A foreground read reaches its channel scheduler, which suspends the program if needed and issues the read frame. -/
  | foregroundReadArrival (t : TileId) (c : ChanId) (die : Fin 8) (part : Fin 16) (sus : SuspendTry × SuspendTry) (ca : List Nat)
  /-- LADDER_RUNG_DONE (R237). A home-line decode rung completes, and the line is returned or the next rung starts. -/
  | ladderRungDone (t : TileId) (id : Nat) (noise : Noise)
  /-- STAGED_LADDER_RUNG_DONE (R239). A staged-line decode rung completes, and the line is returned, repeated or rebuilt from the stripe. -/
  | stagedLadderRungDone (t : TileId) (id : Nat) (noise : Noise)
  /-- SPARE_REBUILD_STEP (R245). One stripe line or page of a rebuild into the spare is programmed and its spare-valid bit is set. -/
  | spareRebuildStep (t : TileId) (c : ChanId) (noise : PageNoise)
  /-- WORK_DISPATCH (R280). A context frees and the dispatcher gives it the oldest eligible item in source order, stealing from other herds if needed. -/
  | workDispatch (t : TileId) (duiker : Fin 64) (ctx : Fin 4)
  /-- QUEUE_ROOM_FREED (R276). A full herd queue gains room and a waiting producer enqueues its item. -/
  | queueRoomFreed (t : TileId)
  /-- GAIT_END (R285). A Gait END step ends the program with PASS or VERIFY_FAIL. -/
  | gaitEnd (t : TileId) (duiker : Fin 64) (ctx : Fin 4)
  /-- GAIT_ISSUE (R286). A Gait ISSUE step sends its command frames to the target dies. -/
  | gaitIssue (t : TileId) (duiker : Fin 64) (ctx : Fin 4) (line : IssueLine)
  /-- GAIT_WAIT (R287). A Gait WAIT step starts a literal or waveform wait. -/
  | gaitWait (t : TileId) (duiker : Fin 64) (ctx : Fin 4)
  /-- GAIT_WAIT_EXPIRY (R287). The wait of a Gait WAIT step ends for the latest target die, extended by any suspension. -/
  | gaitWaitExpiry (t : TileId) (duiker : Fin 64) (ctx : Fin 4)
  /-- GAIT_FETCH (R287). A Gait FETCH step issues FETCH to the target dies once their read time has passed. -/
  | gaitFetch (t : TileId) (duiker : Fin 64) (ctx : Fin 4)
  /-- FETCH_BURST_RECEIVED (R287). A result burst is received and CRC-checked, which ends or continues the FETCH step. -/
  | fetchBurstReceived (t : TileId) (duiker : Fin 64) (ctx : Fin 4) (die : Fin 9) (dq : List Nat) (counts : List (BitVec 8))
  /-- GAIT_VCHK (R285). A Gait VCHK step jumps if every failing-cell count is within the limit. -/
  | gaitVchk (t : TileId) (duiker : Fin 64) (ctx : Fin 4)
  /-- GAIT_SETC (R285). A Gait SETC step loads counter K0 or K1. -/
  | gaitSetc (t : TileId) (duiker : Fin 64) (ctx : Fin 4)
  /-- GAIT_DECJ (R285). A Gait DECJ step decrements a counter and jumps back if the result is nonzero. -/
  | gaitDecj (t : TileId) (duiker : Fin 64) (ctx : Fin 4)
  /-- GAIT_JUMP (R285). A Gait JUMP step jumps forward to TARGET. -/
  | gaitJump (t : TileId) (duiker : Fin 64) (ctx : Fin 4)
  /-- YALERT_ASSERT (R74). YALERT_N is asserted, and a STATUS poll of each selected die is queued within 2 µs. -/
  | yalertAssert (t : TileId) (alert : YAlert)
  /-- STATUS_POLL_RESULT (R75). A die's STATUS block is received and its flags are acted on. -/
  | statusPollResult (t : TileId) (c : ChanId) (pos : Fin 9) (dq : List Nat) (us : Nat) (ca : List Nat) (note : Unit)
  /-- SCRAMBLE_COUNTER_EXHAUSTED (R97). A channel's frame counter is exhausted and the channel is reset as a fatal channel fault. -/
  | scrambleCounterExhausted (t : TileId) (c : ChanId)
  /-- SRAM_SCRUB_VISIT (R227). The hardware scrubber reads a valid SRAM word and corrects or reports it. -/
  | sramScrubVisit (t : TileId) (visit : SramVisit)
  /-- DIRECTORY_BUCKET_REBUILT (R228). A directory bucket rebuilt from tag lines is restored and the loads that waited proceed. -/
  | directoryBucketRebuilt (t : TileId) (bucket : Nat)
  /-- PLACEMENT_WORD_RELOADED (R228). A placement SRAM word reloaded from unit and placement records is restored. -/
  | placementWordReloaded (t : TileId) (unit : Nat)
  /-- PATROL_VISIT_START (R249). The patrol starts a visit to the next slot at the unit's cursor. -/
  | patrolVisitStart (t : TileId) (unit : Nat)
  /-- PATROL_VISIT_DONE (R250). A patrol visit's reads complete, and a refresh, poisoning or skip is decided. -/
  | patrolVisitDone (t : TileId) (unit : Nat) (noise : VisitNoise)
  /-- PATROL_CURSOR_SAVE (R249). Once per hour the lead writes every unit's patrol cursor to the parameter store. -/
  | patrolCursorSave
  /-- HEAD_LINK_UP (R310). A head's link trains in CXL mode, and HEAD_DOWN is updated. -/
  | headLinkUp (h : TileId) (speed : BitVec 4) (width : BitVec 4) (flit256 : Bool) (lopt : Bool)
  /-- HEAD_LINK_DOWN (R313). A head's link goes down, and requests past ingress complete with their responses discarded. -/
  | headLinkDown (h : TileId)
  /-- HEAD_TRAIN_RETRY (R311). Every 100 ms a head whose link is down retries training. -/
  | headTrainRetry (h : TileId)
  /-- HEAD_REFCLK_LOSS (R593). Loss of a head's 100 MHz reference takes that head's link down. -/
  | headRefclkLoss (h : TileId)
  /-- CONFIG_REQUEST (R47). A configuration request reaches a head and is served, or receives Request Retry Status before the mailbox is ready. -/
  | configRequest (h : TileId) (write : Bool) (at_ : HostAddr) (value : BitVec 32)
  /-- HDM_DECODER_COMMIT (R317). A Commit to an HDM decoder is checked against the supported capabilities and commits or reports Error Not Committed. -/
  | hdmDecoderCommit (h : TileId) (n : Fin 4) (base : BitVec 64) (size : BitVec 64) (skip : BitVec 64) (ways : Nat) (gran : Nat) (lock : Bool)
  /-- D3HOT_TRANSITION (R331). A head enters or leaves D3hot, which stops its CXL.io traffic only. -/
  | d3hotTransition (h : TileId) (enter : Bool)
  /-- GPF_PHASE1 (R323). GPF Phase 1 completes at once at the head. -/
  | gpfPhase1 (h : TileId)
  /-- GPF_PHASE2 (R323). GPF Phase 2 starts or joins a flush in every tile. -/
  | gpfPhase2 (h : TileId)
  /-- DC_OFFER_TIMEOUT (R321). An unanswered add offer is withdrawn after 10 s and the fabric manager's command reports the timeout. -/
  | dcOfferTimeout (h : TileId)
  /-- DC_RELEASE_HOST_TIMEOUT (R321). A non-forced release is unanswered for 10 s and the fabric manager's command reports the timeout. -/
  | dcReleaseHostTimeout (h : TileId)
  /-- IDE_INTEGRITY_FAILURE (R329). An IDE integrity failure drops flits and takes the head's streams insecure until keys are re-established. -/
  | ideIntegrityFailure (h : TileId) (mem : Bool)
  /-- CXL_IDE_KM (R329). A CXL_IDE_KM message over a secured SPDM session programs or refreshes a head's IDE keys. -/
  | cxlIdeKm (h : TileId) (io : Bool) (mem : Bool)
  /-- DOE_DISCOVERY (R328). A DOE Discovery request is answered by the head's DOE mailbox. -/
  | doeDiscovery (h : TileId) (index : BitVec 8)
  /-- SPDM_REQUEST (R684). An SPDM 1.2 request is served by the responder with its certificates and measurements. -/
  | spdmRequest (h : TileId) (code : BitVec 8)
  /-- CDAT_TABLE_ACCESS (R330). A CDAT Table Access request returns the head's CDAT entries. -/
  | cdatTableAccess (h : TileId) (entry : Nat)
  /-- CONVENTIONAL_RESET (R400). PERST_N, a hot reset, a link disable or a link down resets one head's state. -/
  | conventionalReset (h : TileId)
  /-- FUNCTION_LEVEL_RESET (R400). FLR resets a head's CXL.io function state only. -/
  | functionLevelReset (h : TileId)
  /-- CXL_RESET (R400). CXL Reset resets a head's CXL.io state and its CXL.mem state, including the HDM decoders. -/
  | cxlReset (h : TileId)
  /-- MAILBOX_DOORBELL (R341). A mailbox doorbell is rung and the command waits for the lead Stag to take it in round-robin order. -/
  | mailboxDoorbell (m : Iface) (opcode : BitVec 16) (input : List Byte)
  /-- UNSUPPORTED_COMMAND (R353). An opcode the part does not support returns Unsupported. -/
  | unsupportedCommand (m : Iface)
  /-- IDENTIFY (R353). The Identify command returns the Type 3 component identity. -/
  | identify (m : Iface)
  /-- BACKGROUND_OPERATION_STATUS (R349). The Background Operation Status command reports the running or last background operation. -/
  | backgroundOperationStatus (m : Iface)
  /-- GET_RESPONSE_MESSAGE_LIMIT (R353). The Get Response Message Limit command returns the response limit. -/
  | getResponseMessageLimit (m : Iface)
  /-- SET_RESPONSE_MESSAGE_LIMIT (R353). The Set Response Message Limit command sets the response limit between 256 and 65,536 bytes. -/
  | setResponseMessageLimit (m : Iface)
  /-- REQUEST_ABORT_BACKGROUND_OPERATION (R351). The Request Abort Background Operation command aborts Scan Media or Mesh Discover, or refuses for the erase commands. -/
  | requestAbortBackgroundOperation (m : Iface)
  /-- GET_EVENT_RECORDS (R326). The Get Event Records command returns records of a head's CXL event log. -/
  | getEventRecords (m : Iface)
  /-- CLEAR_EVENT_RECORDS (R326). The Clear Event Records command clears records of a head's CXL event log. -/
  | clearEventRecords (m : Iface)
  /-- GET_EVENT_INTERRUPT_POLICY (R327). The Get Event Interrupt Policy command returns each log's interrupt setting and vector. -/
  | getEventInterruptPolicy (m : Iface)
  /-- SET_EVENT_INTERRUPT_POLICY (R327). The Set Event Interrupt Policy command sets MSI/MSI-X or none per log, and firmware mode is refused. -/
  | setEventInterruptPolicy (m : Iface)
  /-- GET_MCTP_EVENT_INTERRUPT_POLICY (R353). The Get MCTP Event Interrupt Policy command is answered on the sideband MCTP endpoint only. -/
  | getMctpEventInterruptPolicy (m : Iface)
  /-- SET_MCTP_EVENT_INTERRUPT_POLICY (R353). The Set MCTP Event Interrupt Policy command is accepted on the sideband MCTP endpoint only. -/
  | setMctpEventInterruptPolicy (m : Iface)
  /-- GET_FW_INFO (R353). The Get FW Info command returns the two slots and their revision strings. -/
  | getFwInfo (m : Iface)
  /-- TRANSFER_FW (R353). The Transfer FW command writes an image part into the named slot of every tile in service. -/
  | transferFw (m : Iface) (note : Unit)
  /-- ACTIVATE_FW (R353). The Activate FW command verifies an image and writes PENDING_SLOT for the next cold reset. -/
  | activateFw (m : Iface)
  /-- GET_TIMESTAMP (R353). The Get Timestamp command returns a head's timestamp. -/
  | getTimestamp (m : Iface)
  /-- SET_TIMESTAMP (R353). The Set Timestamp command sets the timestamp used for that head's event logs. -/
  | setTimestamp (m : Iface)
  /-- GET_SUPPORTED_LOGS (R353). The Get Supported Logs command lists the Command Effects Log. -/
  | getSupportedLogs (m : Iface)
  /-- GET_LOG (R353). The Get Log command returns part of the Command Effects Log. -/
  | getLog (m : Iface)
  /-- GET_SUPPORTED_FEATURES (R353). The Get Supported Features command returns no features. -/
  | getSupportedFeatures (m : Iface)
  /-- IDENTIFY_MEMORY_DEVICE (R353). The Identify Memory Device command returns the capacities, LSA size and poison limits. -/
  | identifyMemoryDevice (m : Iface)
  /-- GET_PARTITION_INFO (R353). The Get Partition Info command returns zero volatile capacity. -/
  | getPartitionInfo (m : Iface)
  /-- GET_LSA (R353). The Get LSA command reads the label storage area from the lead's config flash. -/
  | getLsa (m : Iface)
  /-- SET_LSA (R428). The Set LSA command rewrites the touched LSA sectors after a supply check. -/
  | setLsa (m : Iface)
  /-- GET_HEALTH_INFO (R353). The Get Health Info command returns life used, temperature and the dirty shutdown count. -/
  | getHealthInfo (m : Iface)
  /-- GET_ALERT_CONFIGURATION (R353). The Get Alert Configuration command returns the alert thresholds. -/
  | getAlertConfiguration (m : Iface)
  /-- SET_ALERT_CONFIGURATION (R353). The Set Alert Configuration command sets the life-used, temperature and corrected-error thresholds. -/
  | setAlertConfiguration (m : Iface)
  /-- GET_SHUTDOWN_STATE (R353). The Get Shutdown State command returns the shutdown state. -/
  | getShutdownState (m : Iface)
  /-- SET_SHUTDOWN_STATE (R353). The Set Shutdown State command sets the shutdown state. -/
  | setShutdownState (m : Iface)
  /-- GET_POISON_LIST (R309). The Get Poison List command returns the poison entries that the receiving head admits. -/
  | getPoisonList (m : Iface)
  /-- INJECT_POISON (R257). The Inject Poison command writes a poisoned full-line store and completes once its stripe verifies. -/
  | injectPoison (m : Iface)
  /-- CLEAR_POISON (R256). The Clear Poison command writes the supplied data as a Strict store and removes the poison entry. -/
  | clearPoison (m : Iface)
  /-- GET_SCAN_MEDIA_CAPABILITIES (R258). The Get Scan Media Capabilities command returns a scan time estimate for a range. -/
  | getScanMediaCapabilities (m : Iface)
  /-- SCAN_MEDIA (R258). The Scan Media command starts a background scan of a range through the decode ladder. -/
  | scanMedia (m : Iface)
  /-- GET_SCAN_MEDIA_RESULTS (R258). The Get Scan Media Results command returns the scan results. -/
  | getScanMediaResults (m : Iface)
  /-- SANITIZE (R679). The Sanitize command starts a background erase that destroys keys, discards data and erases the LSA. -/
  | sanitize (m : Iface)
  /-- SECURE_ERASE (R679). The Secure Erase command starts a background erase that destroys keys and discards data. -/
  | secureErase (m : Iface)
  /-- GET_SECURITY_STATE (R676). The Get Security State command returns the passphrase, lock, freeze and attempt-limit state. -/
  | getSecurityState (m : Iface)
  /-- SET_PASSPHRASE (R676). The Set Passphrase command sets a user or master passphrase verifier. -/
  | setPassphrase (m : Iface)
  /-- DISABLE_PASSPHRASE (R676). The Disable Passphrase command removes a passphrase. -/
  | disablePassphrase (m : Iface)
  /-- UNLOCK (R677). The Unlock command checks the passphrase and admits CXL.mem at every head. -/
  | unlock (m : Iface)
  /-- FREEZE_SECURITY_STATE (R676). The Freeze Security State command freezes the security state until package reset. -/
  | freezeSecurityState (m : Iface)
  /-- PASSPHRASE_SECURE_ERASE (R679). The Passphrase Secure Erase command starts an erase that also removes the user passphrase. -/
  | passphraseSecureErase (m : Iface)
  /-- GET_DYNAMIC_CAPACITY_CONFIGURATION (R319). The Get Dynamic Capacity Configuration command returns the DC region configuration. -/
  | getDynamicCapacityConfiguration (m : Iface)
  /-- GET_DYNAMIC_CAPACITY_EXTENT_LIST (R353). The Get Dynamic Capacity Extent List command lists the extents granted to the receiving head. -/
  | getDynamicCapacityExtentList (m : Iface)
  /-- ADD_DYNAMIC_CAPACITY_RESPONSE (R321). The host accepts offered extents, which become entries admitted at the head before the response completes. -/
  | addDynamicCapacityResponse (m : Iface)
  /-- RELEASE_DYNAMIC_CAPACITY (R132). The host releases a range of a head's grant, splitting entries and discarding the data as needed. -/
  | releaseDynamicCapacity (m : Iface)
  /-- GET_DCD_INFO (R353). The FM API Get DCD Info command is answered. -/
  | getDcdInfo (m : Iface)
  /-- GET_HOST_DC_REGION_CONFIGURATION (R353). The FM API Get Host DC Region Configuration command is answered. -/
  | getHostDcRegionConfiguration (m : Iface)
  /-- SET_DC_REGION_CONFIGURATION (R353). The FM API Set DC Region Configuration command changes the block size of an empty region and the sharable flag. -/
  | setDcRegionConfiguration (m : Iface)
  /-- GET_DC_REGION_EXTENT_LISTS (R353). The FM API Get DC Region Extent Lists command returns the extent lists. -/
  | getDcRegionExtentLists (m : Iface)
  /-- INITIATE_DYNAMIC_CAPACITY_ADD (R321). The fabric manager offers up to 1,024 extents to a head, which are checked and posted to its DC log. -/
  | initiateDynamicCapacityAdd (m : Iface)
  /-- INITIATE_DYNAMIC_CAPACITY_RELEASE (R321). The fabric manager requests release of an extent, or forces its removal. -/
  | initiateDynamicCapacityRelease (m : Iface)
  /-- GET_TILE_STATUS (R355). The Get Tile Status command returns the device header and the eight tile records. -/
  | getTileStatus (m : Iface)
  /-- LOAD_CONFIGURATION (R356). The Load Configuration command checks a 4,096-byte record image and holds it as the loaded image. -/
  | loadConfiguration (m : Iface)
  /-- COMMIT_CONFIGURATION (R357). The Commit Configuration command checks the loaded image and writes it as the next record copy in every tile. -/
  | commitConfiguration (m : Iface)
  /-- COMMIT_COPY_READBACK (R422). A record copy's write and read-back complete, and the commit continues, repeats the copy or fails. -/
  | commitCopyReadback (t : TileId) (bankB : Bool) (ok : Bool)
  /-- READ_CONFIGURATION (R358). The Read Configuration command returns bytes of the record in force, of a copy or of the loaded image. -/
  | readConfiguration (m : Iface)
  /-- SET_POWER_STATE (R359). The Set Power State command starts or queues a sleep entry, a resume or a P-level change. -/
  | setPowerState (m : Iface)
  /-- GET_POWER_STATE (R360). The Get Power State command returns the state, P-level, transition, queue and throttle. -/
  | getPowerState (m : Iface)
  /-- READ_EVENT_WINDOW (R361). The Read Event Window command copies up to 8 held event records at one instant. -/
  | readEventWindow (m : Iface)
  /-- READ_BLACK_BOX (R362). The Read Black Box command returns black box slots from the flash copy or the media copy. -/
  | readBlackBox (m : Iface)
  /-- SET_REGION_ACK_POLICY (R363). The Set Region Ack Policy command changes a region's Posted or Strict policy and commits the record. -/
  | setRegionAckPolicy (m : Iface)
  /-- GET_HOLD_UP_REPORT (R364). The Get Hold-up Report command returns the last measurement and can request a new one. -/
  | getHoldUpReport (m : Iface)
  /-- PERFORMANCE_SNAPSHOT (R365). The Performance Snapshot command snapshots, freezes, unfreezes or clears the overflow bits of the counters on one FABCLK edge. -/
  | performanceSnapshot (m : Iface)
  /-- READ_PERFORMANCE_COUNTERS (R366). The Read Performance Counters command returns live or snapshot counters of a block. -/
  | readPerformanceCounters (m : Iface)
  /-- CONFIGURE_REQUEST_TAGGING (R367). The Configure Request Tagging command starts, stops, reads or reports request tagging. -/
  | configureRequestTagging (m : Iface)
  /-- MESH_DISCOVER (R368). The Mesh Discover command starts a background HELLO discovery. -/
  | meshDiscover (m : Iface)
  /-- GET_MESH_TOPOLOGY (R369). The Get Mesh Topology command returns the ID, the pair state and the routes. -/
  | getMeshTopology (m : Iface)
  /-- SET_MIRROR_GROUP (R526). The Set Mirror Group command forms, dissolves or re-admits a pair, or sets the takeover heads. -/
  | setMirrorGroup (m : Iface)
  /-- READ_PARAMETER_STORE (R371). The Read Parameter Store command reads bytes of the parameter store, with sealed pages returned as zero. -/
  | readParameterStore (m : Iface)
  /-- WRITE_PARAMETER_STORE (R371). The Write Parameter Store command writes the owner partition after the lock and supply checks. -/
  | writeParameterStore (m : Iface)
  /-- PARAMETER_STORE_PASSWORD (R372). The Parameter Store Password command unlocks, locks, sets or clears the parameter store password. -/
  | parameterStorePassword (m : Iface)
  /-- SET_READOUT_PROTECTION (R373). The Set Readout Protection command raises the level, or lowers 1 to 0 by setting the erase mark. -/
  | setReadoutProtection (m : Iface)
  /-- RDP_ERASE_DONE (R373). The whole config flash erase ends, the option area is written, the mark is cleared and a RECOVERY_RESTART reset follows. -/
  | rdpEraseDone
  /-- CACHE_PARTITION (R374). The Cache Partition command converts cache ways to scratch or back in the named tiles. -/
  | cachePartition (m : Iface)
  /-- CACHE_WAY_POWER (R374). The Cache Way Power command powers way pairs down or up after staging them. -/
  | cacheWayPower (m : Iface)
  /-- PATROL_CONTROL (R375). The Patrol Control command sets the patrol enable, thresholds and periods in every tile. -/
  | patrolControl (m : Iface)
  /-- RAIL_POLICY (R376). The Rail Policy command changes a rail's fault reaction and returns the reactions in force. -/
  | railPolicy (m : Iface)
  /-- READ_VENDOR_REGISTER (R378). The Read Vendor Register command reads COUNT registers of a block. -/
  | readVendorRegister (m : Iface)
  /-- WRITE_VENDOR_REGISTER (R379). The Write Vendor Register command writes a register that has no behaviour of its own under its access codes, such as a W1C flag. -/
  | writeVendorRegister (m : Iface)
  /-- HDC_RD_LAT_MAX_CLEAR (R221). Writing 1 to HDC_RD_LAT_MAX.CLEAR sets MAX_NS to zero. -/
  | hdcRdLatMaxClear (m : Iface)
  /-- MSH_ACK_CLEAR (R535). Writing 1 to MSH_ACK.CLEAR sets MAX_NS to zero. -/
  | mshAckClear (m : Iface)
  /-- EVR_CTRL_CLEAR_DROPS (R661). Writing 1 to EVR_CTRL.CLEAR_DROPS zeroes the four drop counters. -/
  | evrCtrlClearDrops (m : Iface)
  /-- EVR_WIN_CURSOR_WRITE (R634). Writing the window cursor selects the eight records shown in EVR_WIN. -/
  | evrWinCursorWrite (m : Iface)
  /-- PMC_CTRL_OVF_MSIX_WRITE (R668). Writing PMC_CTRL.OVF_MSIX enables or disables the counter overflow interrupt. -/
  | pmcCtrlOvfMsixWrite (m : Iface)
  /-- PRM_PROTECT_BP_WRITE (R435). Writing PRM_PROTECT.BP stores the new block protection in page 2 after a supply check. -/
  | prmProtectBpWrite (m : Iface)
  /-- BACKGROUND_OP_COMPLETE (R350). A background operation ends, its status is posted, event 0x9020 is raised and vector 0 is signalled. -/
  | backgroundOpComplete (noise : List (Nat × PageNoise))
  /-- STAG_WATCHDOG_EXPIRY (R398). The Stag watchdog expires after 50 µs: a warm reset on a non-lead tile, an internal FATAL condition on the lead. -/
  | stagWatchdogExpiry (t : TileId)
  /-- DUIKER_RECOVERABLE_FAULT (R398). A Duiker internal fault reported as recoverable starts a tile warm reset. -/
  | duikerRecoverableFault (t : TileId)
  /-- WARM_RESET_STAGED (R399). The warm reset's staging of Posted-dirty lines ends, and the Stag store buffer drain starts. -/
  | warmResetStaged (t : TileId)
  /-- WARM_RESET_DRAIN_END (R399). The 2 µs drain ends, the remaining stores are discarded, and the Stag and DKR_ block reset and resume. -/
  | warmResetDrainEnd (t : TileId) (drained : Nat)
  /-- FLASH_ERASE_DONE (R416). A config flash sector erase completes, and its tag and CLOSE are programmed. -/
  | flashEraseDone (t : TileId) (bankB : Bool)
  /-- FLASH_PAGE_PROGRAM_DONE (R410). A config flash page program completes. -/
  | flashPageProgramDone (t : TileId) (bankB : Bool)
  /-- PRM_PAGE_WRITE_DONE (R430). A parameter store page write completes, and the next queued page write starts. -/
  | prmPageWriteDone
  /-- SIDEBAND_EEPROM_WRITE (R434). A sideband write to the EEPROM-emulation window is performed as one page write, subject to protection and the supply check. -/
  | sidebandEepromWrite (offset : BitVec 16) (count : BitVec 8) (data : List Byte)
  /-- SIDEBAND_EEPROM_READ (R434). A sideband read of the EEPROM-emulation window is served. -/
  | sidebandEepromRead (offset : BitVec 16) (count : BitVec 8)
  /-- SIDEBAND_THERMAL_READOUT (R603). An SMBus block read with code 0x10 returns the thermal readout. -/
  | sidebandThermalReadout
  /-- SIDEBAND_STATUS_READOUT (R604). An SMBus block read with code 0x11 returns the status readout kept by the supervisor. -/
  | sidebandStatusReadout
  /-- MCTP_REQUEST (R25). An MCTP message arrives at the sideband endpoint and is served as a management-head command, or refused as not-ready without a lead. -/
  | mctpRequest (opcode : BitVec 16) (input : List Byte)
  /-- I3C_SETDASA (R707). SETDASA assigns the sideband its I3C dynamic address from the static address. -/
  | i3cSetdasa (static : BitVec 7) (dynamic : BitVec 7)
  /-- I3C_SETAASA (R707). SETAASA assigns the sideband its I3C dynamic address. -/
  | i3cSetaasa
  /-- I3C_RSTDAA (R707). RSTDAA returns the sideband to SMBus. -/
  | i3cRstdaa
  /-- SMBUS_CLOCK_LOW_TIMEOUT (R707). The SMBus clock is held low past the 25 to 35 ms timeout and the transfer is abandoned. -/
  | smbusClockLowTimeout
  /-- WIDAR_LINK_TRAINED (R453). A Widar or peer port completes UCIe training and sends its unscrambled INIT. -/
  | widarLinkTrained (l : PortId) (speed : BitVec 2) (width : BitVec 2) (repaired : BitVec 4)
  /-- WIDAR_INIT (R464). An INIT flit is received and checked, and the link enters service or is refused. -/
  | widarInit (t : TileId) (p : Fin 4) (wire : List Byte)
  /-- WIDAR_PAYLOAD_FLIT (R460). A PAYLOAD flit is received, checked and its messages queued, with its acknowledgement and credit returned. -/
  | widarPayloadFlit (l : PortId) (wire : List Byte)
  /-- WIDAR_NULL_FLIT (R461). A NULL flit is received and its acknowledgement and credit fields are taken. -/
  | widarNullFlit (l : PortId) (wire : List Byte)
  /-- WIDAR_RETRY_REQ (R462). A RETRY_REQ is received and the transmitter replays from the named flit. -/
  | widarRetryReq (l : PortId) (wire : List Byte)
  /-- RETRY_REQ_RESEND_TIMER (R462). 200 ns pass without the wanted flit, so the RETRY_REQ is sent again and the link retrains after four. -/
  | retryReqResendTimer (l : PortId)
  /-- WIDAR_TX_IDLE_TIMER (R463). 100 ns pass without a sent flit, so a NULL flit is sent. -/
  | widarTxIdleTimer (l : PortId)
  /-- WIDAR_RX_TIMEOUT (R463). No good flit for 1 µs starts a link retrain. -/
  | widarRxTimeout (t : TileId) (p : Fin 4)
  /-- PEER_LINK_RX_TIMEOUT (R500). No good flit on a peer link for 2 µs starts a retrain. -/
  | peerLinkRxTimeout (p : Fin 4)
  /-- WIDAR_RETRAIN_DONE (R463). A retrain completes and unacknowledged flits are replayed from EXPECT_SEQ. -/
  | widarRetrainDone (l : PortId) (ok : Bool) (wire : List Byte)
  /-- WIDAR_TRAIN_RETRY_TIMER (R463). Every 100 ms an out-of-service link is trained again. -/
  | widarTrainRetryTimer (l : PortId)
  /-- FRAME_NUMBER_EXHAUSTED (R466). A link's frame number is exhausted, forcing a fatal link reset with new keys. -/
  | frameNumberExhausted (l : PortId)
  /-- WIDAR_RD (R469). An RD request is served by the window its address selects, subject to access rights and length rules. -/
  | widarRd (t : TileId) (msg : Msg)
  /-- WIDAR_WR (R469). A WR request is performed by the window its address selects and acknowledged early or when performed. -/
  | widarWr (t : TileId) (msg : Msg)
  /-- WIDAR_BAR (R481). A BAR is received and CMP is returned once every earlier request from its source is performed. -/
  | widarBar (t : TileId) (msg : Msg)
  /-- WIDAR_HEARTBEAT (R469). A heartbeat MSG is received and answered with a heartbeat reply. -/
  | widarHeartbeat (t : TileId) (msg : Msg)
  /-- WIDAR_HEARTBEAT_REPLY (R469). A heartbeat reply is received, which clears the missed count of its source. -/
  | widarHeartbeatReply (t : TileId) (msg : Msg)
  /-- WIDAR_CMP (R469). A CMP response completes a WR, BAR or MSG at the requester, or is discarded if its tag is unknown. -/
  | widarCmp (t : TileId) (msg : Msg)
  /-- WIDAR_RDATA (R469). An RDATA response completes an RD at the requester. -/
  | widarRdata (t : TileId) (msg : Msg)
  /-- ROUTE_UPDATE (R458). A link or position fails, so new routes are applied and outstanding requests on it complete with DEAD. -/
  | routeUpdate (t : TileId) (pos : BitVec 3)
  /-- STAG_STORE (R483). A Stag store enters its 8-entry store buffer and is issued in program order. -/
  | stagStore (t : TileId) (addr : BitVec 52) (data : List Byte)
  /-- STAG_FENCE (R483). A FENCE over writes drains the store buffer and issues a core-scope barrier. -/
  | stagFence (t : TileId)
  /-- GUEST_HEARTBEAT_TIMEOUT (R485). The guest misses three heartbeat replies, or loses every link, and is declared dead. -/
  | guestHeartbeatTimeout
  /-- MESH_INIT (R501). An INIT on a peer link is checked for role, loopback and ID conflict. -/
  | meshInit (p : Fin 4) (wire : List Byte)
  /-- HELLO (R504). A HELLO updates the distance to its origin and is flooded onward if it improves it. -/
  | hello (p : Fin 4) (msg : MMsg)
  /-- DISCOVERY_END (R504). 5 ms without a distance change, or 50 ms overall, passes and the new route table replaces the old. -/
  | discoveryEnd
  /-- MWR (R513). A mirror write is stored at the peer owner tile and an MCMP is returned at its persistence point. -/
  | mwr (p : Fin 4) (msg : MMsg)
  /-- RWR (R519). A resync write is accepted early and stored as a Strict store. -/
  | rwr (p : Fin 4) (msg : MMsg)
  /-- MRD (R516). A repair read returns the peer's copy of a line in MDATA. -/
  | mrd (p : Fin 4) (msg : MMsg)
  /-- MBAR (R519). The peer part of a system barrier completes once earlier RWRs are performed. -/
  | mbar (p : Fin 4) (msg : MMsg)
  /-- MEXT (R512). A replica extent add, release or discard-all is applied at the peer. -/
  | mext (p : Fin 4) (msg : MMsg)
  /-- MPAIR (R511). A pair exchange is judged and the roles and pair state are updated. -/
  | mpair (p : Fin 4) (msg : MMsg)
  /-- MHB (R520). A mesh heartbeat is answered at once, or a reply is recorded. -/
  | mhb (p : Fin 4) (msg : MMsg)
  /-- MBYE (R520). A departure message declares the peer dead, degrades the pair or dissolves it according to AUX. -/
  | mbye (p : Fin 4) (msg : MMsg)
  /-- MCMP (R513). An MCMP completes a mesh request, and a non-OK status for an MWR degrades the pair. -/
  | mcmp (p : Fin 4) (msg : MMsg) (ns : Nat)
  /-- MDATA (R516). An MDATA response returns a repaired line, which is written locally, or poisoning proceeds. -/
  | mdata (p : Fin 4) (msg : MMsg)
  /-- MESH_HEARTBEAT_TIMER (R520). Every 50 µs an MHB is sent to the peer. -/
  | meshHeartbeatTimer
  /-- PEER_SILENCE_CHECK (R520). Every 10 µs the part checks whether the peer has been silent for 250 µs. -/
  | peerSilenceCheck
  /-- MESH_FORWARD_EXPIRY (R509). A message held 2 µs while being forwarded is discarded, and DEAD is returned for a request. -/
  | meshForwardExpiry (p : Fin 4) (msg : MMsg)
  /-- MWR_ROUTE_HOLD_END (R517). After a route change the hold ends, and uncompleted MWRs of the line are resent on the new port. -/
  | mwrRouteHoldEnd (line : Nat)
  /-- PAIR_CONTACT_TIMEOUT (R524). 2 s pass without contact, so the peer is declared absent and the primaries are served alone. -/
  | pairContactTimeout
  /-- RESYNC_WALK_STEP (R518). An owner tile reads a line of a mirrored extent and sends it as an RWR, issuing barriers every 256. -/
  | resyncWalkStep (t : TileId)
  /-- POWER_FAIL_DETECT (R556). PWRFAIL_N low or VIN below 10.8 V for 1 µs starts FLUSHING and the flush work. -/
  | powerFailDetect (vin : Bool)
  /-- INPUT_RETURN (R556). VIN and PWRFAIL_N have been good together for 10 ms, so input counts as returned. -/
  | inputReturn
  /-- FLUSH_TILE_DATA_END (R557). Every stripe of a tile's flush has verified, and DATA_END is written in Velvet. -/
  | flushTileDataEnd (t : TileId)
  /-- FLUSH_WATCHDOG (R558). At D + 5 ms the supervisor ends the flush work whatever has been done. -/
  | flushWatchdog
  /-- VHOLD_COLLAPSE (R558). During the hold-down VHOLD falls below 7.0 V and the part powers off. -/
  | vholdCollapse
  /-- BROWNOUT_HOLD_END (R562). After the rails are off, the 10 ms hold ends with input returned, and a BROWNOUT_RETURN or PKG_RESET_PIN reset follows. -/
  | brownoutHoldEnd
  /-- HOLDUP_MEASUREMENT_START (R552). A hold-up measurement starts: charge off and a 100 mA sink from VHOLD. -/
  | holdupMeasurementStart
  /-- HOLDUP_SINK_END (R552). VHOLD has fallen 200 mV or 200 ms pass, so the sink stops and charging resumes. -/
  | holdupSinkEnd (us : BitVec 32) (limit : Bool)
  /-- HOLDUP_MEASUREMENT_COMPLETE (R552). VHOLD recovers or the 1 s limit ends, so the capacitance and budget are computed and recorded. -/
  | holdupMeasurementComplete (slow : Bool) (vholdMv : BitVec 16)
  /-- PLEVEL_CHANGE (R565). A P-level change starts by moving VCORE over PMBus or by changing assists and the divider. -/
  | plevelChange
  /-- PLEVEL_VCORE_SETTLED (R565). SEQ_PG[0] plus 20 µs pass after a VCORE change, so the assists, bias and divider are set. -/
  | plevelVcoreSettled
  /-- SLEEP_ENTRY_DRAINED (R567). Dirty lines have staged and programs have finished, so the sleep state's own actions follow. -/
  | sleepEntryDrained
  /-- RESUME_END (R568). The controller resume and media bring-up are done, and the state held before sleep is restored. -/
  | resumeEnd (us : BitVec 32)
  /-- PWR_PAD_RELEASE (R570). The Stag writes PWR_PAD.RELEASE, which releases the latched YMI pads. -/
  | pwrPadRelease (t : TileId)
  /-- PMB_ALERT (R704). PMB_ALERT_N from the VCORE regulator is treated as a running fault of rail 0. -/
  | pmbAlert
  /-- THERMAL_TRIP (R610). A sensor comparator reaches 115 °C, so THERMTRIP_N asserts and the heads stop admitting. -/
  | thermalTrip (t : TileId) (sensor : Fin 12)
  /-- TRIP_STAGED (R611). After a trip every dirty line has staged, so the records are written and the part enters FAILED. -/
  | tripStaged
  /-- PLL_LOCK_LOSS (R592). The root PLL loses lock and enters hold-over. -/
  | pllLockLoss
  /-- PLL_HOLDOVER_TIMEOUT (R592). Hold-over lasts 1 ms and event 0x6040 is raised. -/
  | pllHoldoverTimeout
  /-- PLL_RELOCK (R592). The root PLL relocks without a glitch. -/
  | pllRelock
  /-- CLOCK_DOMAIN_IDLE_GATE (R595). A domain idle for 64 of its cycles is gated. -/
  | clockDomainIdleGate (t : TileId) (domain : Fin 37)
  /-- SECONDS_TICK (R596). The seconds clock advances after 32,768 oscillator ticks. -/
  | secondsTick
  /-- HOUSEKEEPING_STROBE (R598). The 1 ms strobe starts sensor conversions, voltage sampling and READ_TEMP items. -/
  | housekeepingStrobe (vin : BitVec 16) (vhold : BitVec 16) (vaon : BitVec 16) (vcore : BitVec 16) (edges : BitVec 64)
  /-- SENSOR_RESULT_HOLD (R598). 40 µs into the round the sensor results are held. -/
  | sensorResultHold (t : TileId) (readings : Vector (Option (BitVec 16)) 12)
  /-- HOUSEKEEPING_DECIDE (R598). At 600 µs the round decides the bands, throttling, media hold, hold-up energy and once-per-round events. -/
  | housekeepingDecide
  /-- DELAY_RECALIBRATION (R607). A channel or Widar port recalibrates its capture delays on its interval or at a band change. -/
  | delayRecalibration (t : TileId)
  /-- EVENT_ENTRY (R632). The recorder enters a queued record with the next SEQ, overwriting by severity or dropping it. -/
  | eventEntry (t : TileId)
  /-- EVENT_FLUSH_START (R636). A recorder flush of the unflushed records to the flash log starts. -/
  | eventFlushStart
  /-- EVENT_FLUSH_DONE (R637). A flush ends with its marker written and the SEQ limit updated. -/
  | eventFlushDone
  /-- JTAG_ACCESS (R687). A JTAG or Stag debug access is served or blocked according to the readout protection level. -/
  | jtagAccess (tap : Fin 9) (kind : JtagKind) (addr : Nat)
  /-- TILE_REJOIN_TIMEOUT (R573). A tile that has not rejoined Widar within 100 ms of the controller resume is declared lost under R36. -/
  | tileRejoinTimeout (t : TileId)
  /-- DIE_NOT_READY_TIMEOUT (R242). A die still reporting NOT_READY 1 ms after tINIT following a reset in service is declared failed. -/
  | dieNotReadyTimeout (t : TileId) (c : ChanId) (pos : Fin 9)
  /-- READ_TEMP_HOLD_EXPIRY (R294). The hold on new FOLD and PATROL PROG_STEP starts on a die whose READ_TEMP was deferred twice ends after at most 2 µs, even if the read has not succeeded. -/
  | readTempHoldExpiry (t : TileId) (c : ChanId) (pos : Fin 9)
deriving DecidableEq, Repr

end Sys2Proof
end

