-- ==== Sys2Proof/Machine/Crypto.lean ====
section
/-! DEFINITION. The functions that R681, R682 and R684 name: SHA-384 (FIPS 180-4) and the verification of an ECDSA signature on P-384
(FIPS 186-5, SEC 1), on natural numbers. Integers and hashes are big-endian byte strings, as those standards write them (PRESUMED,
log 102). -/

namespace Sys2Proof.Machine

/-- `f n`, with `n` computed first. -/
def strict {α : Type} (n : Nat) (f : Nat → α) : α := match n with | 0 => f 0 | k + 1 => f (Nat.succ k)

theorem strict_eq {α : Type} (n : Nat) (f : Nat → α) : strict n f = f n := by cases n <;> rfl

/-- The number that bytes spell, first byte highest. -/
def beNat (bs : List Byte) : Nat := bs.foldl (fun n b => 256 * n + b.toNat) 0

/-- A number as `n` bytes, first byte highest. -/
def beBytes (n v : Nat) : List Byte := ((List.range n).map fun i => BitVec.ofNat 8 (v / 256 ^ i)).reverse

/-! ### SHA-384 -/

/-- The round constants. -/
def Crypto.k0 : List Nat :=
  [0x428a2f98d728ae22, 0x7137449123ef65cd, 0xb5c0fbcfec4d3b2f, 0xe9b5dba58189dbbc, 0x3956c25bf348b538, 0x59f111f1b605d019,
   0x923f82a4af194f9b, 0xab1c5ed5da6d8118, 0xd807aa98a3030242, 0x12835b0145706fbe, 0x243185be4ee4b28c, 0x550c7dc3d5ffb4e2,
   0x72be5d74f27b896f, 0x80deb1fe3b1696b1, 0x9bdc06a725c71235, 0xc19bf174cf692694]
def Crypto.k1 : List Nat :=
  [0xe49b69c19ef14ad2, 0xefbe4786384f25e3, 0xfc19dc68b8cd5b5, 0x240ca1cc77ac9c65, 0x2de92c6f592b0275, 0x4a7484aa6ea6e483,
   0x5cb0a9dcbd41fbd4, 0x76f988da831153b5, 0x983e5152ee66dfab, 0xa831c66d2db43210, 0xb00327c898fb213f, 0xbf597fc7beef0ee4,
   0xc6e00bf33da88fc2, 0xd5a79147930aa725, 0x6ca6351e003826f, 0x142929670a0e6e70]
def Crypto.k2 : List Nat :=
  [0x27b70a8546d22ffc, 0x2e1b21385c26c926, 0x4d2c6dfc5ac42aed, 0x53380d139d95b3df, 0x650a73548baf63de, 0x766a0abb3c77b2a8,
   0x81c2c92e47edaee6, 0x92722c851482353b, 0xa2bfe8a14cf10364, 0xa81a664bbc423001, 0xc24b8b70d0f89791, 0xc76c51a30654be30,
   0xd192e819d6ef5218, 0xd69906245565a910, 0xf40e35855771202a, 0x106aa07032bbd1b8]
def Crypto.k3 : List Nat :=
  [0x19a4c116b8d2d0c8, 0x1e376c085141ab53, 0x2748774cdf8eeb99, 0x34b0bcb5e19b48a8, 0x391c0cb3c5c95a63, 0x4ed8aa4ae3418acb,
   0x5b9cca4f7763e373, 0x682e6ff3d6b2b8a3, 0x748f82ee5defb2fc, 0x78a5636f43172f60, 0x84c87814a1f0ab72, 0x8cc702081a6439ec,
   0x90befffa23631e28, 0xa4506cebde82bde9, 0xbef9a3f7b2c67915, 0xc67178f2e372532b]
def Crypto.k4 : List Nat :=
  [0xca273eceea26619c, 0xd186b8c721c0c207, 0xeada7dd6cde0eb1e, 0xf57d4f7fee6ed178, 0x6f067aa72176fba, 0xa637dc5a2c898a6,
   0x113f9804bef90dae, 0x1b710b35131c471b, 0x28db77f523047d84, 0x32caab7b40c72493, 0x3c9ebe0a15c9bebc, 0x431d67c49c100d4c,
   0x4cc5d4becb3e42b6, 0x597f299cfc657e2a, 0x5fcb6fab3ad6faec, 0x6c44198c4a475817]
def Crypto.rounds : List Nat := Crypto.k0 ++ Crypto.k1 ++ Crypto.k2 ++ Crypto.k3 ++ Crypto.k4

/-- The initial hash value: eight words, the first highest. -/
def Crypto.sha384Init : Nat :=
  0xcbbb9d5dc1059ed8629a292a367cd5079159015a3070dd17152fecd8f70e593967332667ffc00b318eb44a8768581511db0c2e0d64f98fa747b5481dbefa4fa4

def Crypto.rotr (n x : Nat) : Nat := (x / 2 ^ n) ||| (x * 2 ^ (64 - n) % 2 ^ 64)

/-- Word `i`, counted from the highest, of `n` words. -/
def Crypto.wordOf (n x i : Nat) : Nat := x / 2 ^ (64 * (n - 1 - i)) % 2 ^ 64

/-- One round: the working variables a to h after it. -/
def Crypto.shaRound (k w x : Nat) : Nat :=
  strict (Crypto.wordOf 8 x 0) fun a => strict (Crypto.wordOf 8 x 4) fun e =>
  let s1 := Crypto.rotr 14 e ^^^ Crypto.rotr 18 e ^^^ Crypto.rotr 41 e
  let ch := (e &&& Crypto.wordOf 8 x 5) ^^^ ((2 ^ 64 - 1 - e) &&& Crypto.wordOf 8 x 6)
  let s0 := Crypto.rotr 28 a ^^^ Crypto.rotr 34 a ^^^ Crypto.rotr 39 a
  let b := Crypto.wordOf 8 x 1
  let c := Crypto.wordOf 8 x 2
  let maj := (a &&& b) ^^^ (a &&& c) ^^^ (b &&& c)
  strict (Crypto.wordOf 8 x 7 + s1 + ch + k + w) fun t1 =>
  strict ((t1 + s0 + maj) % 2 ^ 64) fun a' =>
  strict ((Crypto.wordOf 8 x 3 + t1) % 2 ^ 64) fun e' =>
  a' * 2 ^ 448 + x / 2 ^ 320 % 2 ^ 192 * 2 ^ 256 + e' * 2 ^ 192 + x / 2 ^ 64 % 2 ^ 192

/-- The sixteen schedule words after the first of them is used. -/
def Crypto.schedule (m : Nat) : Nat :=
  let x := Crypto.wordOf 16 m 1
  let y := Crypto.wordOf 16 m 14
  let s0 := Crypto.rotr 1 x ^^^ Crypto.rotr 8 x ^^^ (x / 2 ^ 7)
  let s1 := Crypto.rotr 19 y ^^^ Crypto.rotr 61 y ^^^ (y / 2 ^ 6)
  m % 2 ^ 960 * 2 ^ 64 + (s1 + Crypto.wordOf 16 m 9 + s0 + Crypto.wordOf 16 m 0) % 2 ^ 64

/-- The rounds on one block. -/
def Crypto.shaRounds : List Nat → Nat → Nat → Nat
  | [], _, x => x
  | k :: ks, m, x =>
    strict (Crypto.shaRound k (Crypto.wordOf 16 m 0) x) fun x => strict (Crypto.schedule m) fun m => Crypto.shaRounds ks m x

/-- Two hash values, added word by word. -/
def Crypto.addWords (x y : Nat) : Nat :=
  (List.range 8).foldl (fun n i => n * 2 ^ 64 + (Crypto.wordOf 8 x i + Crypto.wordOf 8 y i) % 2 ^ 64) 0

/-- The hash value after `n` blocks of 128 bytes. -/
def Crypto.shaBlocks : Nat → List Byte → Nat → Nat
  | 0, _, h => h
  | n + 1, bs, h =>
    strict (beNat (bs.take 128)) fun m => strict (Crypto.shaRounds Crypto.rounds m h) fun x =>
    strict (Crypto.addWords h x) fun h => Crypto.shaBlocks n (bs.drop 128) h

/-- SHA-384: the padded message's blocks, and the first six words of the hash value. -/
def sha384 (bs : List Byte) : Nat :=
  let n := bs.length
  let z := (239 - n % 128) % 128
  Crypto.shaBlocks ((n + 17 + z) / 128) (bs ++ (0x80 : Byte) :: List.replicate z 0 ++ beBytes 16 (8 * n)) Crypto.sha384Init / 2 ^ 128

/-! ### P-384 -/

/-- The field prime. -/
def P384.p : Nat := 2 ^ 384 - 2 ^ 128 - 2 ^ 96 + 2 ^ 32 - 1

/-- The order of the base point. -/
def P384.n : Nat :=
  0xFFFFFFFFFFFFFFFFFFFFFFFFFFFFFFFFFFFFFFFFFFFFFFFFC7634D81F4372DDF581A0DB248B0A77AECEC196ACCC52973

/-- The coefficient b of y² = x³ - 3x + b. -/
def P384.b : Nat :=
  0xB3312FA7E23EE7E4988E056BE3F82D19181D9C6EFE8141120314088F5013875AC656398D8A2ED19D2A85C8EDD3EC2AEF

/-- A point: x/z² and y/z³ modulo p; z = 0 is the point at infinity. -/
structure P384.Point where
  x : Nat
  y : Nat
  z : Nat
deriving DecidableEq, Repr

/-- The base point. -/
def P384.base : P384.Point :=
  ⟨0xAA87CA22BE8B05378EB1C71EF320AD746E1D3B628BA79B9859F741E082542A385502F25DBF55296C3A545E3872760AB7,
   0x3617DE4A96262C6F5D9E98BF9292DC29F8F41DBD289A147CE9DA3113B5F0B8C00A60B1CE1D7E819D7A431D7C90EA0E5F, 1⟩

def P384.sub (a b : Nat) : Nat := (a + (P384.p - b % P384.p)) % P384.p

/-- Twice a point. -/
def P384.double (q : P384.Point) : P384.Point :=
  strict (q.z * q.z % P384.p) fun zz => strict (q.y * q.y % P384.p) fun yy => strict (q.x * yy % P384.p) fun b =>
  strict (3 * P384.sub q.x zz * (q.x + zz) % P384.p) fun a => strict (P384.sub (a * a) (8 * b)) fun x =>
  strict (P384.sub (a * P384.sub (4 * b) x) (8 * yy * yy)) fun y => strict (2 * q.y * q.z % P384.p) fun z => ⟨x, y, z⟩

/-- The sum of two points. -/
def P384.add (q r : P384.Point) : P384.Point :=
  if q.z = 0 then r
  else if r.z = 0 then q
  else
    strict (q.z * q.z % P384.p) fun qq => strict (r.z * r.z % P384.p) fun rr =>
    strict (q.x * rr % P384.p) fun u => strict (q.y * r.z * rr % P384.p) fun s =>
    strict (P384.sub (r.x * qq) u) fun h => strict (P384.sub (r.y * q.z * qq) s) fun d =>
    if h = 0 then if d = 0 then P384.double q else ⟨1, 1, 0⟩
    else
      strict (h * h % P384.p) fun hh => strict (u * hh % P384.p) fun v => strict (P384.sub (d * d) (h * hh + 2 * v)) fun x =>
      strict (P384.sub (d * P384.sub v x) (s * h * hh)) fun y => strict (h * q.z * r.z % P384.p) fun z => ⟨x, y, z⟩

/-- `k` times a point, by the low `bits` bits of `k`. -/
def P384.times : (bits k : Nat) → P384.Point → P384.Point
  | 0, _, _ => ⟨1, 1, 0⟩
  | bits + 1, k, q =>
    match P384.times bits (k / 2) q with
    | ⟨x, y, z⟩ => match P384.double ⟨x, y, z⟩ with
      | ⟨x, y, z⟩ => if k % 2 = 1 then P384.add ⟨x, y, z⟩ q else ⟨x, y, z⟩

/-- `a` to the power `e` modulo `m`, by the low `bits` bits of `e`. -/
def powMod (m : Nat) : (bits a e : Nat) → Nat
  | 0, _, _ => 1
  | bits + 1, a, e => strict (powMod m bits a (e / 2)) fun x => if e % 2 = 1 then x * x % m * a % m else x * x % m

/-- A point lies on the curve, with coordinates below p. -/
def P384.onCurve (x y : Nat) : Bool :=
  decide (x < P384.p) && decide (y < P384.p) && decide (y * y % P384.p = (x * x * x + (P384.p - 3) * x + P384.b) % P384.p)

/-- ECDSA on P-384 with SHA-384: (r, s) signs a message whose hash is `e`, under the public key (x, y). -/
def ecdsaOk (x y e r s : Nat) : Bool :=
  P384.onCurve x y && decide (0 < r ∧ r < P384.n ∧ 0 < s ∧ s < P384.n) &&
  strict (powMod P384.n 384 s (P384.n - 2)) fun w =>
  strict (e * w % P384.n) fun u => strict (r * w % P384.n) fun v =>
  match P384.add (P384.times 384 u P384.base) (P384.times 384 v ⟨x, y, 1⟩) with
  | ⟨a, _, z⟩ => decide (z ≠ 0) && strict (powMod P384.p 384 z (P384.p - 2)) fun i => decide (a * i % P384.p * i % P384.p % P384.n = r)

end Sys2Proof.Machine
end

