-- ==== Sys2Proof/Config.lean ====
section
/-! DEFINITION. What the spec leaves open: values that no rule fixes, as constants without a body. -/

namespace Sys2Proof

/-- The free values: draw `n` of the part. A draw stands for a value that the spec does not fix (random numbers,
undefined media, torn words, the contents seen under another key, a replacement choice); no rule constrains it. -/
opaque Config.free : Nat → Nat

/-- The key of the verifiers of R678, which the device root key derives; the spec gives no derivation. -/
opaque Config.verifierKey : BitVec 384

/-- The PCI-SIG identifier assigned to Paovosar Microsystems (R306), which the spec names without its value. -/
opaque Config.vendorId : BitVec 16

/-- Silicon stepping (R306). -/
opaque Config.revision : BitVec 8

/-- Media key `key` of key draw `draw` (R673, R674): 64 bytes from the TRNG, least significant first, two AES-256 keys. -/
opaque Config.mediaKey : (draw key : Nat) → BitVec 512

/-- The initial class slots that the part advertises in INIT, for REQ and RSP (R464), from 64 to 4,095: taken as 64 and this value
modulo 4,032. -/
opaque Config.classSlots : (rsp : Bool) → Nat

/-- SHA-384 of the boot ROM (R684). -/
opaque Config.romHash : BitVec 384

/-- The JEP106 code of Paovosar Microsystems with the low IDCODE bit, and the version field (R708), which the spec does not give. -/
opaque Config.jep106 : BitVec 12
opaque Config.idVersion : BitVec 4

/-- The effects that the Command Effects Log gives for an opcode (R353), which the spec does not list. -/
opaque Config.commandEffect : BitVec 16 → BitVec 16

/-- The critical alert limits of Get Alert Configuration (R353), which the spec does not give: life used, highest and lowest device
temperature. -/
opaque Config.alertLimit : Fin 3 → BitVec 16

end Sys2Proof
end

