-- ==== Sys2Proof/Machine/Flags.lean ====
section
/-! DEFINITION. Check words, and the small computed values that several rules share. -/

namespace Sys2Proof.Machine

/-- One byte into the CRC-16 of R414, R432, R437 and R629: polynomial 0x1021, most significant bit first. -/
def crc16Byte (c : BitVec 16) (b : Byte) : BitVec 16 :=
  (List.range 8).foldl (fun c _ => if c.msb then (c <<< 1) ^^^ 0x1021 else c <<< 1) (c ^^^ (b.zeroExtend 16 <<< 8))

/-- The CRC-16 with initial value 0xFFFF. -/
def crc16 (bs : List Byte) : BitVec 16 := bs.foldl crc16Byte 0xFFFF

/-- One byte into the reflected Castagnoli CRC of R230. -/
def crc32cByte (c : BitVec 32) (b : Byte) : BitVec 32 :=
  (List.range 8).foldl (fun c _ => if c.getLsbD 0 then (c >>> 1) ^^^ 0x82F63B78 else c >>> 1) (c ^^^ b.zeroExtend 32)

/-- CRC-32C with initial value and final XOR of 0xFFFF_FFFF (R230). -/
def crc32c (bs : List Byte) : BitVec 32 := bs.foldl crc32cByte 0xFFFFFFFF ^^^ 0xFFFFFFFF

/-- Saturating addition at `2^w - 1`. -/
def satAdd {w : Nat} (x : BitVec w) (n : Nat) : BitVec w := BitVec.ofNat w (min (x.toNat + n) (2 ^ w - 1))

/-- Addition that wraps. -/
def wrapAdd {w : Nat} (x : BitVec w) (n : Nat) : BitVec w := BitVec.ofNat w (x.toNat + n)

/-- Bit `n` of a mask set. -/
def bitOn {w : Nat} (x : BitVec w) (n : Nat) : BitVec w := x ||| BitVec.ofNat w (2 ^ n)

/-- Bit `n` of a mask cleared. -/
def bitOff {w : Nat} (x : BitVec w) (n : Nat) : BitVec w := x &&& ~~~ (BitVec.ofNat w (2 ^ n))

/-- Bit `n` of a mask set or cleared. -/
def bitSet {w : Nat} (x : BitVec w) (n : Nat) (v : Bool) : BitVec w := if v then bitOn x n else bitOff x n

/-- The numbers below `n` whose bits are set, ascending. -/
def bitsOf {w : Nat} (x : BitVec w) : List Nat := (List.range w).filter fun i => x.getLsbD i

/-- The value of a Bool as a bit. -/
def b2n (b : Bool) : Nat := if b then 1 else 0

/-- A register of 32 bits from its fields: (lowest bit, value), each value already within its field's width. -/
def packFields (fs : List (Nat × Nat)) : BitVec 32 := BitVec.ofNat 32 (fs.foldl (fun a f => a + f.2 * 2 ^ f.1) 0)

/-- One step of the request-tagging LFSR (R649). -/
def lfsrStep (x : BitVec 32) : BitVec 32 := if x.getLsbD 0 then (x >>> 1) ^^^ 0x80200003 else x >>> 1

/-- Whether the LFSR tags the request (R649). -/
def lfsrTags (x : BitVec 32) (log2n : Nat) : Bool := x.toNat % 2 ^ log2n = 0

end Sys2Proof.Machine
end

