-- ==== Sys2Proof/Machine/Sparse.lean ====
section
/-! DEFINITION. Sparse tables: lists of (key, value) pairs with strictly rising keys and no entry equal to what an
unlisted key reads as, so that equal tables are equal data. Every byte memory of the part (parameter store, label
storage area, Velvet, tightly coupled memory, scratch ways) is such a table of Host.Cell. -/

namespace Sys2Proof.Machine

/-- What key `k` reads as; `d k` where nothing is listed. -/
def Sparse.getF {α : Type} (d : Nat → α) : List (Nat × α) → Nat → α
  | [], k => d k
  | (j, v) :: r, k => if j = k then v else if k < j then d k else Sparse.getF d r k

/-- Write `v` at `k`, keeping the canonical form: a value equal to the default removes the entry. -/
def Sparse.setF {α : Type} [DecidableEq α] (d : Nat → α) : List (Nat × α) → Nat → α → List (Nat × α)
  | [], k, v => if v = d k then [] else [(k, v)]
  | (j, w) :: r, k, v =>
    if k < j then (if v = d k then (j, w) :: r else (k, v) :: (j, w) :: r)
    else if k = j then (if v = d k then r else (k, v) :: r)
    else (j, w) :: Sparse.setF d r k v

/-- Every key of the list is `k` or above, in strictly rising order, and no value is the default of its key. -/
def Sparse.wfFrom {α : Type} [DecidableEq α] (d : Nat → α) : Nat → List (Nat × α) → Bool
  | _, [] => true
  | k, (j, v) :: r => decide (k ≤ j) && decide (v ≠ d j) && Sparse.wfFrom d (j + 1) r

/-- The canonical form of a table. -/
def Sparse.wf {α : Type} [DecidableEq α] (d : Nat → α) (m : List (Nat × α)) : Bool := Sparse.wfFrom d 0 m

/-- `getF` with one default for every key. -/
def Sparse.get {α : Type} (d : α) (m : List (Nat × α)) (k : Nat) : α := Sparse.getF (fun _ => d) m k

/-- `setF` with one default for every key. -/
def Sparse.set {α : Type} [DecidableEq α] (d : α) (m : List (Nat × α)) (k : Nat) (v : α) : List (Nat × α) :=
  Sparse.setF (fun _ => d) m k v

/-- Keep only the entries whose key satisfies `p` (the others read as the default afterwards). -/
def Sparse.keep {α : Type} (p : Nat → Bool) (m : List (Nat × α)) : List (Nat × α) := m.filter fun e => p e.1

/-- The canonical form of a byte memory whose unlisted bytes read as `d` says. -/
def Memory.wf (d : Nat → BitVec 8) (m : List Host.Cell) : Bool := Sparse.wf d m

/-- Read `n` bytes from address `a` upward. -/
def Memory.readBytes (d : Nat → BitVec 8) (m : List Host.Cell) (a : Nat) : Nat → List (BitVec 8)
  | 0 => []
  | n + 1 => Sparse.getF d m a :: Memory.readBytes d m (a + 1) n

/-- Write bytes from address `a` upward. -/
def Memory.writeBytes (d : Nat → BitVec 8) (m : List Host.Cell) (a : Nat) : List (BitVec 8) → List Host.Cell
  | [] => m
  | b :: r => Memory.writeBytes d (Sparse.setF d m a b) (a + 1) r

end Sys2Proof.Machine
end

