-- ==== Sys2Proof/Machine/Factory.lean ====
section
/-! DEFINITION. What the stores of a part hold as it leaves manufacture, before anything has written them. -/

namespace Sys2Proof.Machine

/-- CHECK of slot k of a ladder whose VALUE is 0 (R437). -/
def Factory.ladderCheck (k : Nat) : Nat :=
  [0xF1CE, 0x49AF, 0x912D, 0x294C, 0x3008, 0x8869, 0x50EB, 0xE88A,
   0x6263, 0xDA02, 0x0280, 0xBAE1, 0xA3A5, 0x1BC4, 0xC346, 0x7B27].getD k 0

/-- Byte `b` of one copy of a twin of GEN 1 with all content zero, but for byte 4 (R432). -/
def Factory.twinByte (first : Nat) (check : Nat) (b : Nat) : Byte :=
  match b with
  | 0 => 1
  | 4 => BitVec.ofNat 8 first
  | 30 => BitVec.ofNat 8 check
  | 31 => BitVec.ofNat 8 (check / 256)
  | _ => 0

/-- A byte of the parameter store that nothing has written: the header (R431), the twins of pages 1, 2, 3 and 14 with
both copies valid (slot 1 active, nothing pending; no block protection; no password; a scatter key of zero), the
ladders at 0 (R437), and zero elsewhere. -/
def Factory.prm (a : Nat) : Byte :=
  let page := a / 64
  let b := a % 64
  if page = 0 then
    (match b with | 0 => 0x53 | 1 => 0x52 | 2 => 0x50 | 3 => 0x59 | 4 => 0x01 | _ => 0)
  else if page = 1 then Factory.twinByte 1 0x8F3B (b % 32)
  else if page = 2 ∨ page = 3 ∨ page = 14 then Factory.twinByte 0 0x235A (b % 32)
  else if 4 ≤ page ∧ page ≤ 13 then
    let k := b / 8 + 8 * (page % 2)
    (match b % 8 with
     | 6 => BitVec.ofNat 8 (Factory.ladderCheck k)
     | 7 => BitVec.ofNat 8 (Factory.ladderCheck k / 256)
     | _ => 0)
  else 0

/-- Copy A of the record at manufacture: sequence 1, no media and no rails, every head enabled, tile 0 the management
head ("First power of a new part"); the layout, budget and patrol fields at legal values, the CRC as R418 gives. -/
def Factory.record : List Byte :=
  [0x52, 0x43, 0x44, 0x59, 1, 0, 0, 0, 1, 0, 0, 0, 0, 0, 0, 0, 4, 4, 136, 6, 0, 15, 1, 0, 0, 0, 0, 0, 0, 0, 0, 0,
   0, 0, 1, 0] ++ List.replicate 8 0 ++ [1, 5, 14, 10, 5, 0, 168, 0, 72, 0, 0, 0, 80, 98, 0, 0]
  ++ List.replicate 1604 0
  ++ (List.replicate 16 [(0x10 : Byte), 0x32, 0x54, 0x76]).flatten ++ List.replicate 64 0
  ++ List.replicate 2300 0 ++ [0x6F, 0x8F, 0xC1, 0xD8]

/-- The firmware of slot 1 at manufacture (R681): revision KRY-3.0.0, SEC_VERSION 0, a body of one zero byte, signed by the key of slot 0
(DESIGN CHOICE, log 103: the spec gives neither an image nor a key). -/
def Factory.firmware : List Byte :=
  [(0x59 : Byte), 0x52, 0x4B, 0x59, 0x01, 0x00, 0x00, 0x00, 0x00, 0x00, 0x00, 0x00, 0x01, 0x00, 0x00, 0x00, 0x4B, 0x52, 0x59, 0x2D,
   0x33, 0x2E, 0x30, 0x2E, 0x30, 0x00, 0x00, 0x00, 0x00, 0x00, 0x00, 0x00]
  ++ [(0xBE : Byte), 0xC0, 0x21, 0xB4, 0xF3, 0x68, 0xE3, 0x06, 0x91, 0x34, 0xE0, 0x12, 0xC2, 0xB4, 0x30, 0x70, 0x83, 0xD3, 0xA9, 0xBD,
   0xD2, 0x06, 0xE2, 0x4E, 0x5F, 0x0D, 0x86, 0xE1, 0x3D, 0x66, 0x36, 0x65, 0x59, 0x33, 0xEC, 0x2B, 0x41, 0x34, 0x65, 0x96,
   0x68, 0x17, 0xA9, 0xC2, 0x08, 0xA1, 0x17, 0x17]
  ++ [(0x04 : Byte), 0x5D, 0x65, 0xE0, 0x84, 0x6E, 0x30, 0x58, 0x9F, 0xD0, 0x16, 0x22, 0x1B, 0xA2, 0xA1, 0xF0, 0x02, 0x61, 0x00, 0x1A,
   0xEB, 0x15, 0x89, 0x8C, 0x6D, 0x8B, 0xC8, 0xF9, 0xF4, 0xED, 0xA6, 0x9B, 0xB7, 0x3A, 0x76, 0xE7, 0x84, 0x42, 0x1B, 0x3F,
   0x73, 0xB4, 0x31, 0x74, 0xA4, 0x66, 0x86, 0x19, 0x96, 0x25, 0xC8, 0x30, 0xD8, 0x8B, 0xD3, 0x54, 0xFF, 0x0C, 0x7A, 0x55,
   0x37, 0x29, 0xCB, 0x95, 0x45, 0xE0, 0xA4, 0xB2, 0x53, 0xD1, 0xC1, 0x6A, 0xB7, 0xA4, 0x02, 0xBC, 0x5F, 0xA7, 0x2D, 0x1F,
   0xFD, 0xB3, 0x9B, 0x1D, 0xBB, 0xCA, 0x36, 0xB3, 0xCC, 0x7D, 0xC3, 0x87, 0x5A, 0xFE, 0x79, 0x71, 0x55]
  ++ List.replicate 239 0
  ++ [(0x99 : Byte), 0x2C, 0xD5, 0x46, 0xEC, 0xBC, 0x0C, 0xD0, 0xAD, 0x4E, 0x7B, 0x5F, 0xC4, 0x66, 0x93, 0x0B, 0xF3, 0xDC, 0xDE, 0x15,
   0x17, 0xE8, 0x2A, 0xF2, 0x01, 0x21, 0x55, 0xC8, 0x36, 0xC2, 0x07, 0xF8, 0x06, 0x66, 0xB6, 0xA5, 0xEE, 0xAF, 0xDC, 0xE1,
   0x4B, 0xAC, 0x61, 0x2E, 0x5B, 0xBF, 0x2F, 0x8B]
  ++ [(0xD8 : Byte), 0x4B, 0x7F, 0x71, 0xA1, 0x02, 0xC5, 0x54, 0x4F, 0x45, 0x19, 0x31, 0xCF, 0xC9, 0x63, 0xD4, 0xF6, 0xE7, 0x43, 0xA3,
   0xDA, 0x57, 0x40, 0x30, 0x77, 0x35, 0x65, 0x3E, 0xF2, 0x1E, 0xA4, 0x65, 0x56, 0x5B, 0xCA, 0x24, 0xDD, 0x9E, 0x46, 0xF1,
   0xD7, 0x6C, 0x0D, 0x36, 0xDD, 0x73, 0x66, 0xD0]
  ++ [0]

/-- The key hash that the fuses of key slot 0 hold: SHA-384 of that key (log 103). -/
def Factory.keyHash : BitVec 384 :=
  0x2e32e758703c953b81912c9ccffca6392d7facda33bf4313aa037f65116c74a9fc563fbb6c2d79d376921ac8204c0110

end Sys2Proof.Machine
end

