-- ==== Sys2Proof/Machine/StateCore.lean ====
section
/-! DEFINITION. The package-wide part of the state: device state and tiles (01), boot (10), non-volatile stores (11),
rails, hold-up and power (14), clocks and temperature (15), recorder, black box and counters (16), security (17) and
pins (18). Every default value is the value at reset. -/

namespace Sys2Proof.Machine

/-- The four variants of R2. -/
inductive Variant where
  | yd4820 | yd4840 | yd4880 | yd4871g
deriving DecidableEq, Repr

/-- The device states of R47. -/
inductive DevState where
  | boot | mediaInit | configHold | replay | active | degraded | flushing | sleepS1 | sleepS2 | sleepS3 | failed
deriving DecidableEq, Repr

/-- The degrade causes of R53, in bit order from bit 16 upward. -/
inductive DegradeCause where
  | tileLost | channelOff | dieRebuild | mirror | railGroup | headDown | widarLink
deriving DecidableEq, Repr

/-- FAIL_CAUSE of R53. -/
inductive FailCause where
  | none | leadTileLost | sramFault | firmwareFatal | thermalTrip | mediaUnreachable | stagingStalled
deriving DecidableEq, Repr

/-- The package reset causes of R382. -/
inductive ResetCause where
  | powerOn | pkgResetPin | brownoutReturn | railSystemReset | recoveryRestart
deriving DecidableEq, Repr

/-- Event severities (R630), in ascending order. -/
inductive Severity where
  | info | warn | error | fatal
deriving DecidableEq, Repr

/-- One event record (R629); CHECK is computed when the record is laid out as bytes. `args` is the six ARGS bytes,
the first item lowest. -/
structure EventRec where
  seq : Nat := 0
  code : BitVec 16 := 0
  sev : Severity := .info
  held : Bool := false
  reloaded : Bool := false
  source : BitVec 8 := 0
  boot : BitVec 16 := 0
  addr : BitVec 64 := 0
  count : BitVec 32 := 0
  args : BitVec 48 := 0
deriving DecidableEq, Repr

/-- One black box record (R641); MARK and CRC are computed when it is laid out as bytes. -/
structure BBRec where
  kind : BitVec 8
  slot : Nat
  seq : BitVec 32
  boots : BitVec 32
  body : BitVec 384
deriving DecidableEq, Repr

/-- The bytes of a firmware image from its header on (R681). -/
abbrev FwImage := List Byte

/-- What a config flash operation is for (R416, R422, R428, R635, R643, R353). -/
inductive FlashUse where
  | record (image : List Byte)          -- a record copy
  | lsa (bytes : List Byte)             -- one LSA sector
  | blackBox (group : Nat)              -- rotation of a black box group
  | eventFlush                          -- pages of an event flush
  | firmware (slot : Nat) (img : FwImage)
  | fwPart (slot : Nat)                  -- part of a slot, before its image is complete
  | option (words : List (BitVec 32))
  | repair                              -- erase of an undefined sector before use
  | journal (half : Nat)                -- a journal sector is erased for reuse (R415)
deriving DecidableEq, Repr

/-- A running program or erase of one bank (R413, R416). -/
structure FlashOp where
  sector : Nat
  erasing : Bool
  suspended : Bool := false
  pages : Nat            -- page programs still to run once the erase has ended
  use : FlashUse
deriving DecidableEq, Repr

/-- The key set of R674: the media keys are named by the number of the draw that made them. A verifier is
(SALT, TAG); none is the all-zero verifier. -/
structure KeySet where
  gen : BitVec 32 := 1
  epoch : BitVec 32 := 0
  pending : Bool := false
  kind : BitVec 3 := 0
  keys : Nat := 0
  userPw : Option (BitVec 128 × BitVec 256) := none
  masterPw : Option (BitVec 128 × BitVec 256) := none
deriving DecidableEq, Repr

/-- An entry of an erase journal (R415), at `place` of its 512: SECTOR, JSEQ, and whether CLOSE is programmed. -/
structure JEntry where
  place : Nat
  sector : Nat
  seq : BitVec 32
  closed : Bool := false
deriving DecidableEq, Repr

/-- The non-volatile stores of one tile beside its media (R407 to R431, R674). Sector keys are
1,025 × bank + sector, with sector 1,024 of bank 0 for the option area. -/
structure TileNv where
  opt : List (BitVec 32) := [0xFFFE0001, 0xFFFF0000, 0x9DAF6250, 0xFFFF0000]
  tags : List (Nat × List Byte) := []      -- sector tags (R414); an unlisted one has ERASES 1 + fullErases
  fullErases : Nat := 0                    -- erases of the whole config flash (R373)
  journals : Vector (List JEntry) 2 := .replicate 2 []   -- erase journals for bank A with the option area, and for bank B
  fw : Vector (Option FwImage) 2 := #v[some Factory.firmware, none]
  copies : Vector (List Byte) 2 := #v[Factory.record, []]   -- record copies A and B; [] is erased
  lsa : List Host.Cell := []               -- unlisted bytes read 0xFF (erased)
  evFlash : List (Nat × EventRec) := []    -- event flush slots that pass CHECK
  evPos : Nat := 0                         -- the event flush write position
  bb : List (Nat × BBRec) := []            -- black box slots: 1,024 × half + slot
  bbFill : BitVec 16 := 0xFFFF             -- bit g: the fill sector of group g is sector g + 16
  prm : List Host.Cell := []               -- parameter store; unlisted bytes read Factory.prm
  keys : Vector (Option KeySet) 2 := .replicate 2 (some {})
  velvetJ : List (BitVec 32 × BitVec 8 × Nat × Nat × Bool) := []  -- flush journal: FLUSH_ID, KIND, VALUE, COUNT, torn
  saveOk : Bool := false                   -- the save area holds registers whose CRC-32C checks (R569)
deriving DecidableEq, Repr

/-- What is fixed at manufacture (R2, R26, R429, R681). -/
structure Fuses where
  variant : Variant := .yd4840
  serials : Vector (BitVec 64) 8 := .replicate 8 1
  rdpFuse : Bool := false
  revoked : BitVec 4 := 0
  programmed : BitVec 4 := 1
  keyHash : Vector (BitVec 384) 4 := #v[Factory.keyHash, 0, 0, 0]   -- of the slots that are programmed
deriving DecidableEq, Repr

/-- Device state, tile map and the lead's bookkeeping (R29, R35 to R37, R47 to R55, R712). -/
structure Sys where
  state : DevState := .boot
  prev : DevState := .boot
  memActive : Bool := false
  mbReady : Bool := false
  postedCert : Bool := false
  degrade : BitVec 7 := 0
  failCause : FailCause := .none
  changes : BitVec 16 := 0
  passLines : BitVec 8 := 0
  reported : Vector (BitVec 64) 8 := .replicate 8 0   -- serial number reported with the pass line
  windowOpen : Bool := false
  selftestPass : BitVec 8 := 0
  inService : BitVec 8 := 0
  lead : Option TileId := none
  noLead : Bool := false
  rescueLead : Bool := false
  fwRunning : BitVec 8 := 0
  awaiting : BitVec 8 := 0                            -- heartbeats sent and not yet answered
  missed : Vector Nat 8 := .replicate 8 0
  rescueOf : List TileId := []                        -- lost tiles whose rescue flush runs or waits, oldest first
  leadLoss : Bool := false                            -- the lead tile was lost (R37)
  cutOff : Bool := false                              -- a link's loss left a tile unreachable (R50)
  loneLost : Bool := false                            -- the lead was lost with no other tile in service (R712)
  wakeNeeded : Bool := false                          -- surviving tiles are being woken (R37, sleep)
  admitStop : Bool := false                           -- heads have stopped admitting CXL.mem
  roundPoisoned : Nat := 0                            -- loads poisoned in the round (0x9011)
  roundDiscarded : Nat := 0                           -- stores discarded in the round (0x9011)
  roundLocked : Nat := 0                              -- requests refused while locked in the round (0x8010)
  roundDebug : Nat := 0                               -- debug accesses blocked in the round (0x8041)
  roundSupply : Nat := 0                              -- supply refusals in the round (0x7022)
deriving DecidableEq, Repr

/-- Boot and reset reporting (R404 to R406) and the progress of the bring-up of R389. -/
structure Boot where
  cause : ResetCause := .powerOn
  flushDone : Bool := false
  afterFlush : Bool := false             -- a flush preceded this reset (R390)
  warmResets : BitVec 16 := 0
  slot : BitVec 2 := 0
  fallback : Bool := false
  trial : Bool := false
  recovery : Bool := false
  holdReason : BitVec 4 := 0
  phase : BitVec 4 := 1
  activeMs : BitVec 16 := 0
  replayMs : BitVec 11 := 0
  refolded : BitVec 16 := 0
  released : Bool := false               -- package reset release has happened
  optRead : Bool := false
  slotChosen : Bool := false
  relayout : Bool := false               -- this MEDIA_INIT follows a commit with RELAYOUT (R425)
  warmAt : Vector (Option (BitVec 32)) 8 := .replicate 8 none  -- seconds clock of the tile's last warm reset
  warmStep : Vector Nat 8 := .replicate 8 0    -- step of R399 that a running warm reset has reached; 0 none
deriving DecidableEq, Repr

/-- The CFL_ registers of one tile that are not computed from its flash (R445 to R449). -/
structure Cfl where
  fetchEn : BitVec 2 := 0
  ops : Vector (Option FlashOp) 2 := .replicate 2 none
  lastSector : Nat := 0
  samebank : Bool := false
  supply : Bool := false
  undef : Bool := false
  mismatch : BitVec 4 := 0
  rdp : BitVec 2 := 1
  aValid : Bool := false
  bValid : Bool := false
  aUndef : Bool := false
  bUndef : Bool := false
  inForceB : Bool := false
  twinConflict : Bool := false
  repaired : Bool := false
  seqA : BitVec 32 := 0
  seqB : BitVec 32 := 0
  spare : Vector (List FlashOp) 2 := .replicate 2 []   -- operations that wait for the bank (R413, R442)
deriving DecidableEq, Repr

/-- A running commit (R422): copies are numbered 2 × tile + bank. -/
structure CommitRun where
  image : List Byte
  todo : List Nat                        -- copies that have not read back, in the order each tile writes them
  retried : List Nat := []               -- copies already written a second time
  relayout : Bool := false
  host : Bool                            -- Commit Configuration, rather than an internal commit
  cause : Nat := 0                       -- of an internal commit: 0 a vendor command, 1 a rebuild into a spare
deriving DecidableEq, Repr

/-- The configuration the lead acts on: option values, the loaded image and the record in force (R407, R356, R424). -/
structure Cfg where
  optWords : Vector (BitVec 16) 4 := #v[0x0001, 0x0000, 0x6250, 0x0000]   -- option words in force
  record : List Byte := []               -- the record in force; [] when none
  chosen : List Byte := []               -- the copy that phase 4 chose, in force or refused; [] when none
  loaded : Option (List Byte) := none    -- image of Load Configuration
  commit : Option CommitRun := none
  deferred : List Nat := []              -- internal writes refused by the supply check, to be retried (R440)
deriving DecidableEq, Repr

/-- A page write that waits in the parameter store (R436): byte address and the bytes, all in one page; `tag` names
the requester: 0 other, 1 mailbox, 2 sideband, 3 the RDP_ERASE mark, 4 scatter-key twin, 5 key set. -/
structure PageWrite where
  addr : Nat
  bytes : List Byte
  tag : Nat := 0
deriving DecidableEq, Repr

/-- The PRM_ registers (R450, R451) and the writes in progress. -/
structure Prm where
  bp : BitVec 2 := 0
  unlocked : Bool := false
  tries : BitVec 3 := 5
  queue : List PageWrite := []
  sbSupplyRefused : BitVec 8 := 0
  sbProtectHits : BitVec 16 := 0
deriving DecidableEq, Repr

/-- A held event record and whether a completed flush has written it (R635). -/
structure HeldRec where
  r : EventRec
  flushed : Bool := false
deriving DecidableEq, Repr

/-- The event recorder (R631 to R639, R657 to R662). -/
structure Evr where
  queues : Vector (List EventRec) 8 := .replicate 8 []
  held : List HeldRec := []              -- ascending SEQ
  nextSeq : Nat := 1
  limit : Nat := 65536
  drops : Vector (BitVec 16) 4 := .replicate 4 0     -- INFO, WARN, ERROR, FATAL
  flushRunning : Bool := false
  flushDue : Bool := false               -- another flush is to start
  batch : List EventRec := []            -- records of the running flush not yet programmed
  batchTop : Nat := 0                    -- highest SEQ of the running flush
  written : Nat := 0                     -- records the running flush has programmed
  flushes : BitVec 16 := 0
  cursor : BitVec 48 := 0
  velvet : List EventRec := []           -- records raised during FLUSHING (R574)
deriving DecidableEq, Repr

/-- The black box beside its flash copy (R640 to R645, R664 to R667). -/
structure Bbx where
  dropped : BitVec 16 := 0
  second : Nat := 0                      -- records taken in the running second
  roundDropped : Bool := false
  buffer : Option (List (Nat × BBRec)) := none    -- the rescue lead's buffer (R37)
  media : Vector (List (Nat × BBRec)) 8 := .replicate 8 []   -- media copies (R645), by SLOT
  pos : Nat := 0                         -- slot where the search for the next slot starts (R642)
deriving DecidableEq, Repr

/-- One request sample (R651). -/
structure Sample where
  seq : BitVec 32
  head : Nat
  owner : Nat
  op : Nat
  path : Nat
  addr : BitVec 64
  t0 : BitVec 64
  delta : List (BitVec 32)               -- stages 1 to 7
deriving DecidableEq, Repr

/-- Performance counters, snapshot and request tagging (R646 to R652, R668 to R671). A counter's key is
(32 × tile + block) × 8 + index, tile 15 for package blocks. -/
structure Pmc where
  ctr : List (Nat × BitVec 48) := []
  ovf : List Nat := []                   -- keys whose sticky overflow bit is set
  newOver : List Nat := []               -- those that set in this round
  frozen : Bool := false
  ovfMsix : Bool := false
  snap : List (Nat × BitVec 48) := []
  edge : BitVec 64 := 0
  tagging : Bool := false
  wrapMode : Bool := false
  wrapped : Bool := false
  log2n : BitVec 5 := 0
  heads : BitVec 8 := 0
  lfsr : Vector (BitVec 32) 8 := .replicate 8 0
  samples : List Sample := []
  sampleSeq : BitVec 32 := 0
deriving DecidableEq, Repr

/-- Security state that is not in the key set (R676, R691, R692). -/
structure Sec where
  locked : Bool := false
  frozen : Bool := false
  userTries : BitVec 4 := 10
  masterTries : BitVec 4 := 10
  erases : BitVec 8 := 0
  conflict : Bool := false
  engine : Nat := 0                      -- the key draw that the key engine holds
  nextDraw : Nat := 1                    -- number of the next draw of media keys
  eraseStep : Nat := 0                   -- step of R680 that a running erase has reached; 0 none
  keyWrite : Option (Fin 2 × KeySet) := none   -- the key-set copy that is being written (R675)
deriving DecidableEq, Repr

/-- What stays powered from VAON (R541, R550, R585, R596, R704, R712), with the pins the supervisor samples. -/
structure Aon where
  vaon : Bool := false                   -- VAON is good
  vaonLost : Bool := true                -- VAON was lost since the last package reset release (R597)
  pwrfailN : Bool := true
  pkgRstN : Bool := true
  vinLow : Bool := false                 -- VIN was last seen below 10.8 V (R556)
  vinMv : BitVec 16 := 12000
  vholdMv : BitVec 16 := 12000
  inputOk : Bool := true                -- the return condition of R556 holds
  seconds : BitVec 32 := 0
  loneLoss : Option TileId := none       -- the lone-loss mark (R712)
  loneSaved : Bool := false              -- that flush wrote DATA_END
  boardExtra : BitVec 16 := 0
  boardFlags : BitVec 8 := 0
  flushUs : BitVec 12 := 0
  flushComplete : Bool := false
  flushReturned : Bool := false
  flushTrigger : BitVec 2 := 0
  flushUnsaved : BitVec 16 := 0
  flushBefore : Bool := false            -- a flush preceded this reset
  trim : BitVec 16 := 0                  -- oscillator trim in compensation mode (R615)
deriving DecidableEq, Repr

/-- The rail sequencer (R541 to R550, R576 to R579). -/
structure Seq where
  en : BitVec 16 := 0
  pg : BitVec 16 := 0
  fault : BitVec 16 := 0
  off : BitVec 16 := 0
  lastRail : BitVec 4 := 0
  lastReaction : BitVec 2 := 0
  retries : BitVec 2 := 0
  boardRst : Bool := true
  raising : Bool := false
  lowering : Bool := false
  wanted : BitVec 16 := 0                -- media rails the running raise is to bring up
  medrst : BitVec 32 := 0xFFFFFFFF
  chOff : BitVec 32 := 0                 -- channels out of service because of a rail
  tileOff : BitVec 8 := 0                -- tiles that serve none of their share (R546)
  ignored : BitVec 16 := 0               -- rails whose ignored fault persists
  retryRail : Option Nat := none
  fixedWait : Bool := false              -- all fixed rails off for 100 ms after a failure
  react : Vector (BitVec 2) 16 := .replicate 16 3   -- reactions in force (R376, R542)
deriving DecidableEq, Repr

/-- The hold-up monitor (R552 to R555, R580 to R584). -/
structure Hld where
  measuring : Bool := false
  chargeOff : Bool := false
  sinking : Bool := false
  vrest : BitVec 16 := 0
  sinkUs : BitVec 32 := 0
  cap : BitVec 32 := 0
  measured : Nat := 0                    -- measured budget in force, lines per tile
  usable : Nat := 0                      -- usable energy of the round, µJ
  energyAtSink : Nat := 0
  firstDone : Bool := false
  lastAt : BitVec 32 := 0
  due : Bool := false
  report : List Byte := []               -- record of the newest completed measurement (R555)
deriving DecidableEq, Repr

/-- A power-fail flush, or the hardware flush of R712 (R556 to R562). -/
structure FlushRun where
  trigger : BitVec 2
  stateAtD : DevState
  dataEnd : BitVec 8 := 0
  staged : Vector Nat 8 := .replicate 8 0
  unsaved : List (Nat × Nat) := []       -- ranges of lines (first line number, length)
  returned : Bool := false
  pkgRst : Bool := false
  railReset : Bool := false
  leadLoss : Bool := false
  tagsLost : Bool := false               -- a lost tile's tags could not be read
  workEnded : Bool := false
  brownHold : Bool := false              -- the hold of R562 runs
deriving DecidableEq, Repr

/-- Performance levels and sleep (R564 to R573, R586 to R589). -/
structure Pwr where
  effective : BitVec 2 := 0
  requested : BitVec 2 := 0
  target : BitVec 2 := 0                 -- level a running change moves to
  changing : Bool := false
  sleep : BitVec 2 := 0
  transition : BitVec 2 := 0             -- 0 none, 1 entering, 2 resuming
  transTarget : BitVec 2 := 0            -- sleep state the running sequence moves to
  held : DevState := .active             -- the state held before sleep entry (R49)
  queued : BitVec 3 := 0
  queuedLevel : BitVec 2 := 0
  lastResumeUs : BitVec 32 := 0
  ctrlDone : Bool := false
  padLatched : BitVec 8 := 0
  saved : BitVec 8 := 0
  restoreFailed : BitVec 8 := 0
  s3Exits : BitVec 16 := 0
  readAssist : BitVec 3 := 0
  writeAssist : BitVec 4 := 0
  bias : BitVec 4 := 0
  vcoreMv : BitVec 16 := 850
deriving DecidableEq, Repr

/-- Clocks (R590 to R600, R619 to R622). -/
structure Clk where
  xtal : Bool := false
  locked : Bool := false
  holdover : Bool := false
  holdoverLong : Bool := false
  relocks : BitVec 8 := 0
  compMode : Bool := false
  seeded : Bool := false
  round : BitVec 32 := 0
  gate : Vector (BitVec 31) 8 := .replicate 8 0
  pkgGate : BitVec 6 := 0                -- the package domains MESH0 to MESH3, SUPV and SBND (R23, R594)
  noReport : Nat := 0                    -- consecutive rounds without the lead's report (R604, R712)
  refclk : BitVec 8 := 0xFF              -- bit h: the reference clock of head h is present
  report : Option (DevState × BitVec 8 × Bool) := none   -- the lead's last report: state, IN_SERVICE, RESCUE_LEAD (R604)
deriving DecidableEq, Repr

/-- Sensors of one tile (R601, R602, R623, R627, R628). Readings are in 1/16 °C. -/
structure TileThm where
  sensor : Vector (BitVec 16) 12 := .replicate 12 0
  bad : BitVec 12 := 0                   -- sensors that failed in the last round
  excluded : BitVec 12 := 0
  max : BitVec 16 := 0
  band : BitVec 3 := 0
  bandSet : Bool := false
  stale : Bool := false
  hold : BitVec 4 := 0                   -- media hold of each channel
  recal : Nat := 0                       -- recalibrations started
deriving DecidableEq, Repr

/-- Package-level temperature state (R603, R608, R624 to R626). -/
structure Thm where
  ctrlMax : BitVec 16 := 0
  mediaMax : BitVec 16 := 0x8000
  imposed : BitVec 2 := 0
  active : Bool := false
  trip : Bool := false
  tripAt : Option (TileId × Fin 12) := none   -- tile and sensor of the trip, until its records are written (R611)
  rounds : BitVec 16 := 0
  vcoreMv : BitVec 16 := 0
  vaonMv : BitVec 16 := 0
deriving DecidableEq, Repr

end Sys2Proof.Machine
end

