-- ==== Sys2Proof/Machine/StateMedia.lean ====
section
/-! DEFINITION. The media part of the state: dies and channels (02), home pages, unit records, placement SRAM and
extents (03). Every default value is the value at reset. -/

namespace Sys2Proof.Machine

/-- One line as stored: plaintext with the number of the key draw it was encrypted under (R672, R673), or a poisoned
line (R230). -/
structure StoredLine where
  data : Line := 0
  poison : Bool := false
  keys : Nat := 0
deriving DecidableEq, Repr

/-- One share-slot row across the eight data dies of a unit, as the controller sees it: a programmed MLC page, with
unlisted lines holding zeros under `keys`. `defined = false`: some program of it was cut short (R65). `lost` lists the
line positions whose cells an SLC program has used since (R58). -/
structure Page where
  defined : Bool := false
  keys : Nat := 0
  foldSeq : BitVec 64 := 0
  lines : List (Nat × StoredLine) := []
  lost : List Nat := []
deriving DecidableEq, Repr

/-- A curve entry (R88): level codes REF1, REF2, REF3, REF_SLC. -/
structure CurveEntry where
  ref1 : BitVec 12 := 1
  ref2 : BitVec 12 := 2
  ref3 : BitVec 12 := 3
  refSlc : BitVec 12 := 2
deriving DecidableEq, Repr

/-- One level entry of a waveform record (R89). -/
structure WaveLevel where
  seg0 : BitVec 32 := 0
  seg1 : BitVec 32 := 0
  seg2 : BitVec 32 := 0
  verifyRef : BitVec 16 := 0
  maxApply : BitVec 8 := 0
  stepInc : BitVec 8 := 0
deriving DecidableEq, Repr

/-- A waveform record: its four level entries (R89). -/
abbrev WaveRec := Vector WaveLevel 4

/-- One copy of a die's parameter page, field by field (R84); reserved bytes are zero. Curve entries are keyed
16 × band + bucket, waveforms 4 × band + waveform; those not listed hold their defaults. `crcDelta` is what the stored
CRC differs by from the CRC-32C of the page. -/
structure ParamPage where
  signature : BitVec 32 := 0x594D5050
  format : BitVec 16 := 1
  supplier : BitVec 16 := 0
  model : BitVec 64 := 0
  serial : BitVec 128 := 0
  cellsLog2 : BitVec 32 := 38
  partitions : BitVec 8 := 16
  linesMlc : BitVec 8 := 10
  linesSlc : BitVec 8 := 5
  slots : BitVec 32 := 5242880
  enduranceMlc : BitVec 32 := 2000000
  enduranceSlc : BitVec 32 := 10000000
  tSusrdPs : BitVec 16 := 12000
  tResumeNs : BitVec 16 := 40
  tSusmaxUs : BitVec 32 := 1000
  maxProgs : BitVec 16 := 4
  readNs : Vector Nat 6 := .replicate 6 110
  slcNs : Vector Nat 6 := .replicate 6 280
  mlcNs : Vector Nat 6 := .replicate 6 2400
  qualId : BitVec 32 := 0
  curves : List (Nat × CurveEntry) := []
  waves : List (Nat × WaveRec) := []
  crcDelta : BitVec 32 := 0
deriving DecidableEq, Repr

/-- A die as fitted, with the two copies of its parameter page (R84). -/
structure DieNv where
  fitted : Bool := true
  copy0 : ParamPage := {}
  copy1 : ParamPage := {}
deriving DecidableEq, Repr

/-- The program of a partition (R60, R78): PART_STATE of R75 but for a held result. -/
inductive PartState where
  | idle | programming | suspended
deriving DecidableEq, Repr

/-- The result register of a partition (R72): the bytes of a line or share, or a VERIFY's counts, which the burst brings. -/
inductive Held where
  | data (bytes : List Byte)
  | verify
deriving DecidableEq, Repr

/-- One partition of a die (R58 to R60, R68, R72, R73, R78, R80, R89). -/
structure Part where
  st : PartState := .idle
  result : Option Held := none          -- the result register
  ready : Bool := false                 -- its array access has ended
  buf : List Byte := []                 -- the program buffer; empty while invalid (R73, R82)
  slc : Bool := false
  slot : Nat := 0
  line : Nat := 0
  waveSlot : Nat := 0                   -- waveform slot of the last PROG_STEP
  refSlot : Nat := 0                    -- reference slot of the last read
  inhibit : Bool := false               -- a VERIFY since CONT = 0 inhibits the cells that passed
  applied : List (Nat × Nat) := []      -- applications of each waveform slot in this program (R89)
  pulse : List (Nat × List (BitVec 32)) := []   -- segments being applied, by level entry
deriving DecidableEq, Repr

/-- The volatile state of one die (R68, R75, R82, R90). Flags are in FLAGS order, bit 0 ILLEGAL to bit 5 NOT_READY. -/
structure Die where
  parts : Vector Part 16 := .replicate 16 {}
  flags : BitVec 6 := 0
  abandonedPart : BitVec 4 := 0
  refs : List (Nat × CurveEntry) := []   -- loaded reference slots 0 to 31
  waves : List (Nat × WaveRec) := []     -- loaded waveform slots 0 to 7
  key : Option (BitVec 64) := none       -- scramble key
  frame : BitVec 64 := 0                 -- scramble frame counter
  band : BitVec 3 := 0
  bandSet : Bool := false
  bankB : Bool := false
  temp : BitVec 16 := 0x8000             -- last good reading
  missed : Nat := 0                      -- rounds without a good reading
  thisRound : Option (BitVec 16) := none -- reading returned in this round
  doubleMiss : List (BitVec 32) := []    -- seconds of recent double acknowledgement misses (R79)
  calib : Nat := 0
deriving DecidableEq, Repr

/-- One media channel (R98 to R106), beside its dies. YALERT_N is low while a die holds a flag (R74). -/
structure Chan where
  enable : Bool := false
  scrambleEn : Bool := true
  spareArmed : Bool := false
  up : Bool := false
  inReset : Bool := true
  tinit : Bool := false                  -- tINIT runs (R82)
  spareInUse : Bool := false
  failedDie : BitVec 3 := 0
  failedValid : Bool := false
  dieMap : BitVec 32 := 0x76543210
  present : BitVec 9 := 0
  expected : BitVec 9 := 0               -- dies that had passed R83 when the running reset began
  failed : BitVec 9 := 0
  suspendCount : BitVec 32 := 0
  sackSingle : BitVec 16 := 0
  sackDouble : BitVec 16 := 0
  errFlags : BitVec 6 := 0
  band : BitVec 3 := 0
  key : BitVec 64 := 0
  frame : BitVec 64 := 0
  dies : Vector Die 9 := .replicate 9 {}
  outOfService : Bool := false           -- a second lost die (R248)
  paramLeft : List (Nat × Nat) := []     -- (copy, unit) of the spare's page that a pass has still to read (R94)
  paramBad : List Nat := []              -- copies of it that this reading could not take
deriving DecidableEq, Repr

/-- A remap entry (R125) beside the unit that holds it. -/
structure RemapEntry where
  unit : Nat
  slot : Nat
  pool : Nat
deriving DecidableEq, Repr

/-- A unit record (R127) with the layout fields of R110, for which its byte layout has no place (log 79). `spent` are the
pool slots never to be used again (R126): entries with VALID = 0 that name them (log 80). `crcDelta` is what the stored CRC
differs by from the CRC-32C of the record. -/
structure UnitRec where
  signature : BitVec 32 := 0x594C5552
  gen : BitVec 32 := 1
  tile : Nat := 0
  unit : Nat := 0
  logSeq : BitVec 64 := 0
  moves : Nat := 0
  epoch : BitVec 32 := 0
  layout : Nat := 0                      -- T, C and the tile list, packed as CFG_LAYOUT (R141)
  remap : List (Nat × Nat) := []         -- (SLOT, POOL)
  spent : List Nat := []
  written : List Nat := []               -- rings whose WRITTEN bit is 1
  crcDelta : BitVec 32 := 0
deriving DecidableEq, Repr

/-- A placement record that the staging log holds (R158): one unit's change since its last unit record. -/
inductive PlacementRec where
  | move (unit : Nat) (m : Nat)
  | written (unit : Nat) (ring : Nat) (v : Bool)
  | remap (unit slot pool : Nat)
deriving DecidableEq, Repr

/-- The placement SRAM of one tile (R128): M, due moves, counted programs, WRITTEN bits, remap tables. -/
structure Placement where
  moves : List (Nat × Nat) := []         -- M of each unit; 0 where unlisted
  due : List (Nat × Nat) := []           -- due moves of each unit
  counted : List (Nat × Nat) := []       -- counted programs since the last due move
  written : List (Nat × Bool) := []      -- key 20,480 × unit + ring; false where unlisted
  remap : List RemapEntry := []
  spent : List (Nat × Nat) := []         -- (unit, pool) never to be used again
  recCount : List (Nat × Nat) := []      -- placement records since the unit record
  moving : List Nat := []                -- units whose oldest due move runs
  copying : List Nat := []               -- of these, units whose copy's program has started
  exhausted : List Nat := []             -- units with no free pool slot that lacked one
  unloaded : List Nat := []              -- words that could not be read and are being reloaded (R228)
deriving DecidableEq, Repr

/-- An extent entry (R130). -/
structure Extent where
  base : Nat                             -- in units of 2 MiB
  blocks : Nat
  heads : BitVec 8
  region : Nat := 0
  isStatic : Bool := false
  releasing : Bool := false
  cleared : Bool := false                -- its lines have been discarded and its rings cleared (R132)
  tag : BitVec 128 := 0                  -- tag given by the fabric manager
deriving DecidableEq, Repr

/-- The non-volatile media of one tile. -/
structure Media where
  dies : Vector (Vector DieNv 9) 4 := .replicate 4 (.replicate 9 {})
  pages : List (Nat × Page) := []        -- key 5,242,880 × unit + page slot; unprogrammed where unlisted
  unitRecs : List (Nat × UnitRec) := []  -- key 8 × unit + i: ring-slots 2i and 2i + 1 of ring 20,479 (R127)
  placementLog : List (Nat × PlacementRec) := []   -- placement records with their LOG_SEQ, oldest first
  owedPoison : List Nat := []            -- lines lost with no staging place for their poison (R36, log 90)
deriving DecidableEq, Repr

end Sys2Proof.Machine
end

