-- ==== Sys2Proof/Machine/StateData.lean ====
section
/-! DEFINITION. The data-path part of a tile's state: cache, staging log and directory, fold (04), loads in flight and
age stamps (05). A line is named by its line number, DPA div 64. Every default value is the value at reset. -/

namespace Sys2Proof.Machine

/-- States of a cacheable way (R148); INVALID ways hold no entry. -/
inductive CState where
  | clean | dirty | staging | stream
deriving DecidableEq, Repr

/-- A cached line, with its poison bit (R254). `posted`: it holds a Posted-acknowledged value; `wrote` and `used` order writes and uses. -/
structure CLine where
  line : Nat
  way : Nat
  st : CState
  data : Line
  poison : Bool := false
  posted : Bool := false
  region : Nat := 8
  wrote : Nat := 0
  used : Nat := 0
  inFlight : Bool := false               -- a copy of the line is being appended and has not verified (R151)
  owed : Bool := false                   -- it is to be appended once that copy has verified (R150, R151)
deriving DecidableEq, Repr

/-- Source of a poison list entry (R254). -/
inductive PoisonSrc where
  | unknown | external | internal | injected | vendor
deriving DecidableEq, Repr

/-- A store on its way to acknowledgement (R42, R149, R152, R183). `phase`: 0 waits for a way, 1 held at the cache
(R152, R183), 2 in the cache and waiting for its stripe (Strict), 3 waits for the mirror peer, 4 ready to be
acknowledged, 5 waits for the old line of a partial store. -/
structure StoreReq where
  id : Nat
  head : TileId
  line : Nat
  data : Line
  mask : BitVec 64                       -- byte enables
  stream : Bool := false
  region : Nat := 8
  strict : Bool := false                 -- it is acknowledged as Strict whatever its region's policy
  byPolicy : Bool := false               -- it waits as Strict because its region is (R177, R181)
  mirrored : Bool := false
  peerDone : Bool := true
  phase : Nat := 0
  appended : Bool := false               -- its value has been appended to a stripe
  poison : Bool := false
  src : PoisonSrc := .external           -- the source under which its poison is entered (R254)
  full : Bool := false                   -- it arrived as a full-line store
  discarded : Bool := false              -- completes without effect (R36, R47, R316, R548, R677)
  missed : Bool := false                 -- it has been counted as a store miss
  noMirror : Bool := false               -- never sent to the mirror peer (R513, R516, R519)
  peer : Option (BitVec 12 × BitVec 6) := none   -- tag and source of the MWR or RWR that it serves
  internal : Bool := false               -- a store of the part itself: nothing is acknowledged
  early : Bool := false                  -- an RWR, already acknowledged early (R519)
  wid : Option (BitVec 3 × BitVec 12) := none    -- source and tag of the Widar WR that it serves (R476)
  waitWay : Option Nat := none           -- the way of a DIRTY victim that it waits for
  ptl : Bool := false                    -- it arrived as MemWrPtl
  tagged : Bool := false
  t0 : BitVec 64 := 0
deriving DecidableEq, Repr

/-- Where a load finds its line (R200). -/
inductive LoadSrc where
  | cache | foldBuffer | unwritten | staged (unit ring sslot spos sidx : Nat) | home (unit slot : Nat) | none
deriving DecidableEq, Repr

/-- What reading a line gives (R232): the corrected count, the places still wrong after correction, and whether CHECK
reads as the complement of what was written. -/
inductive LineRead where
  | good (n : Nat) (left : List Nat) (inv : Bool)
  | misdirected
  | failed
deriving DecidableEq, Repr

/-- A load in flight. `result`: data and poison once decided; `rung` counts rungs of the decode ladder. -/
structure LoadReq where
  id : Nat
  head : TileId
  owner : TileId
  line : Nat
  src : LoadSrc
  rung : Nat := 0
  bucket : Nat := 8                      -- the bucket of its first read (R210, R211)
  dead : List Nat := []                  -- logical dies whose lines are taken as erased (R79)
  reads : List (Nat × LineRead) := []    -- what rungs 3 and 4 gave of the page's lines (R237)
  result : Option (Line × Bool) := none
  expired : Bool := false
  tagged : Bool := false
  t0 : BitVec 64 := 0
  mirrorWait : Bool := false             -- a repair read to the peer is outstanding (R516)
  peer : Option (BitVec 12 × BitVec 6) := none   -- tag and source of the MRD that it serves (R516)
  wid : Option (Msg) := none             -- the Widar RD that it serves (R476)
  forStore : Option Nat := none          -- the read is for a partial store of that number (R149)
  internal : Bool := false               -- a repair of the patrol (R516): nothing is answered
  hint : Bool := false                   -- it only warms the cache (R314)
deriving DecidableEq, Repr

/-- The load waits to be looked up. -/
def LoadReq.unstarted (r : LoadReq) : Bool := r.src = .none && r.result.isNone

/-- KIND of a stripe entry (R158), with the record a record line holds (R163). -/
inductive EntryKind where
  | data | carry | placement (r : PlacementRec) | discard (first len : Nat) | blackBox (r : BBRec)
deriving DecidableEq, Repr

/-- One of the six entries of a stripe: a line number (0 for a record) and what it stores. -/
structure StripeEntry where
  kind : EntryKind
  line : Nat
  val : StoredLine
  dead : Bool := false                   -- its line was discarded while its stripe was on its way (R132, R163)
deriving DecidableEq, Repr

/-- A stripe (R157, R158). -/
structure Stripe where
  seq : BitVec 64
  epoch : BitVec 32
  area : Nat
  entries : List StripeEntry
  unit : Nat := 0
  ring : Nat := 0
  t : Nat := 0
  placed : Bool := false
  program : Bool := false                -- its eight SLC programs run
  carries : Bool := false                -- it holds carry lines (R185)
deriving DecidableEq, Repr

/-- A staging directory entry (R167) with VALID set. -/
structure DirEntry where
  line : Nat
  fold : Bool := false
  area : Nat := 0
  unit : Nat
  ring : Nat
  sslot : Nat
  spos : Nat
  sidx : Nat
deriving DecidableEq, Repr

/-- A segment that is open or in use (R162). -/
structure Segment where
  unit : Nat
  ring : Nat
  area : Nat
  isOpen : Bool
  nextT : Nat := 0
  order : Nat := 0
deriving DecidableEq, Repr

/-- An open fold (R171). `step`: 1 to 9 for F1 to F9; 10 while the lines of an excluded page are appended again. -/
structure Fold where
  unit : Nat
  pidx : Nat
  step : Nat
  foldSeq : BitVec 64
  claimed : List DirEntry := []
  buf : List (Nat × StoredLine) := []    -- merged data lines, by line within the page
  carries : List Nat := []               -- lines whose carry copies have not verified
  tries : Nat := 0                       -- F6 programs into the same slot with an exhausted pool
  refresh : Bool := false                -- a patrol refresh
  opens : Bool := false                  -- opens an unwritten ring (R123)
  opened : Nat := 0                      -- pages of that ring programmed so far
  parked : Bool := false                 -- its next program waits for a due gap move (R119)
  started : Bool := false                -- its program has applied a step
deriving DecidableEq, Repr

/-- One tile's cache, staging and fold. -/
structure TileData where
  cache : List CLine := []
  clock : Nat := 0                       -- orders uses and writes
  wayUse : List (Nat × Nat) := []        -- last use of each way, keyed 16 × set + way (R156)
  cleaning : Bool := false               -- the cleaner runs until the count falls to 3/4 of the budget (R150)
  afterFolds : List (Nat × Nat) := []    -- folds that staging of a full area's Posted-dirty lines waits for (R185)
  scratchWays : BitVec 4 := 0
  offPairs : BitVec 3 := 0
  offMap : BitVec 8 := 0                 -- way pairs powered down
  leaving : List Nat := []               -- ways that a conversion takes out of the cache (R153, R154)
  scratch : List Host.Cell := []         -- scratch ways as bytes; unlisted bytes read 0
  budget : Nat := 0
  stores : List StoreReq := []
  asm : Vector (List StripeEntry) 5 := .replicate 5 []   -- assembly stripe of each area
  closed : List Stripe := []             -- closed stripes not yet verified, in LOG_SEQ order
  logSeq : BitVec 64 := 0                -- last LOG_SEQ assigned
  dir : List DirEntry := []              -- oldest first
  waiting : List (Nat × DirEntry) := []  -- verified lines that wait for a bucket slot (R168)
  bucketWaits : BitVec 16 := 0
  segs : List Segment := []
  freed : List (Nat × Nat) := []         -- (unit, ring) freed, longest ago first
  segOrder : Nat := 0
  exclSlots : List (Nat × Nat) := []     -- (unit, share slot) excluded from staging (R161)
  lent : List Nat := []                  -- home rows on loan to staging
  zeroing : List (Nat × BitVec 64) := [] -- released pages still to be programmed with zeros: first line, FOLD_SEQ (R132)
  rings : Nat := 2560                    -- staging area of every unit, in rings (R134)
  folds : List Fold := []
  foldCount : BitVec 32 := 0
  exclPages : List (Nat × Nat) := []     -- (unit, pidx) excluded from fold (R171)
  urgent : List (Nat × Nat) := []        -- pages named under R168
  refresh : List (Nat × Nat) := []       -- pages queued for refresh (R238, R251)
  refreshLow : List (Nat × Nat) := []    -- pages whose refresh waits below 75 % (R253)
  remapNext : List (Nat × Nat) := []     -- pages whose next refresh programs a pool slot (R241)
  pressure : Vector Bool 5 := .replicate 5 false
  hold : Vector Bool 5 := .replicate 5 false
  lastFold : Vector Bool 5 := .replicate 5 false   -- a fold of the area completed since its hold timer started
  gpf : Option (List (Nat × Nat)) := none    -- a running Global Persistent Flush: its lines, with the verifies each awaits
  stampTab : List (Nat × BitVec 8) := [] -- age stamps; 0xFF where unlisted
  catchP : Nat := 5242880
  eClk : BitVec 32 := 0
  sweepAt : Nat := 0
  recovery : Bool := false
  swept : List Nat := []                 -- stamp indexes at which no bucket gave the recovery sweep a line
  hints : List (Nat × BitVec 4) := []    -- recovery hint of each unit; 8 where unlisted
  otherBucket : BitVec 16 := 0
  pageCode : BitVec 16 := 0
  rebuildAt : Vector (Option (BitVec 32)) 4 := .replicate 4 none
deriving DecidableEq, Repr

/-- Staged stripes of one tile on media (R157), newest last. -/
structure StagedMedia where
  stripes : List Stripe := []
  top : Nat := 0                         -- the highest LOG_SEQ on the media, freed segments included (R160)
deriving DecidableEq, Repr

end Sys2Proof.Machine
end

