-- ==== Sys2Proof/Machine/StateEngine.lean ====
section
/-! DEFINITION. The Duiker engines and channel schedulers (07), and error handling and patrol (06), of one tile, with
the package's poison list. Every default value is the value at reset. -/

namespace Sys2Proof.Machine

/-- Work item classes (R276), in the dispatch order of R280. -/
inductive WorkClass where
  | fgRead | fgWrite | telemetry | fold | patrol
deriving DecidableEq, Repr

/-- What a work item is for. -/
inductive WorkUse where
  | load (id : Nat)                      -- a host load, and every rung it climbs
  | stripe (seq : BitVec 64)
  | statusPoll
  | readTemp
  | readParam
  | fold (unit pidx : Nat)               -- F6 program of a fold
  | gapMove (unit : Nat)
  | unitRecord (unit : Nat)
  | zeroing (unit slot : Nat)
  | patrolVisit (unit : Nat)
  | recovery (unit : Nat)
  | rebuild (chan : Nat)
deriving DecidableEq, Repr

/-- A work item (R276). `role` is the program role of R283; `targets` the logical dies (empty: all eight), for roles 4
to 6 the physical position. -/
structure WorkItem where
  id : Nat
  role : Nat
  cls : WorkClass
  herd : Nat                             -- herd of the target channel
  chan : Nat
  unit : Nat := 0
  part : Nat := 0
  slot : Nat := 0
  line : Nat := 0
  slc : Bool := false
  bucket : Nat := 8
  targets : List Nat := []
  area : Nat := 0
  use : WorkUse
deriving DecidableEq, Repr

/-- Why a context is not ready for its next step. -/
inductive CtxWait where
  | ready
  | wait                                 -- a WAIT has not expired (R287)
  | fetch                                -- FETCH bursts are outstanding
deriving DecidableEq, Repr

/-- One program context of a Duiker (R273, R274) running a Gait program (R285). -/
structure Context where
  duiker : Nat
  ctx : Nat
  item : WorkItem
  pslot : Nat                            -- program slot
  pc : Nat := 0
  k0 : Nat := 0
  k1 : Nat := 0
  st : CtxWait := .ready
  cmd : Nat := 0                         -- command of the last ISSUE, as ARG_A codes it
  arg : Nat := 0                         -- its ARG_B
  released : Bool := false               -- released at its last FETCH, with bursts outstanding (R274)
  issued : List Nat := []                -- physical positions whose result is to be fetched
  sent : List (Nat × List Byte) := []    -- payloads of the bursts that dies have sent and that are still to be received
  counts : List (Nat × Nat) := []        -- failing-cell counts of the last fetched VERIFY results, by physical position
  exceeding : List Nat := []                  -- positions with a count above the limit of the last VCHK
  retried : List Nat := []               -- positions whose command was reissued once (R73)
  progStarted : Bool := false
  suspended : List Nat := []             -- positions now suspended
  reverify : List Nat := []              -- positions whose VERIFY must be repeated (R288)
deriving DecidableEq, Repr

/-- The engines of one tile (R273 to R305). Queues are keyed 5 × herd + class. -/
structure Engine where
  queues : Vector (List WorkItem) 20 := .replicate 20 []
  full : List WorkItem := []             -- items whose producer waits for room (R276)
  ctxs : List Context := []
  results : List (WorkUse × BitVec 8) := []        -- how programs ended: the logical dies whose final VERIFY failed
  nextId : Nat := 0
  programs : List (Nat × List (BitVec 32)) := []   -- override programs of slots 8 to 31
  mapSlc : Vector (BitVec 5) 6 := .replicate 6 2
  mapMlc : Vector (BitVec 5) 6 := .replicate 6 3
  valid : BitVec 32 := 0x7F
  reject : BitVec 32 := 0
  stolenFrom : Vector (BitVec 16) 4 := .replicate 4 0
  stolenBy : Vector (BitVec 16) 4 := .replicate 4 0
  abandonCount : BitVec 16 := 0
  longestUs : BitVec 16 := 0
  deferred : BitVec 16 := 0
  maxRun : BitVec 8 := 0
  tempHold : List (Nat × Nat) := []      -- (channel, physical die) with PROG_STEP starts held (R294)
  stopDispatch : Bool := false           -- a warm reset has stopped dispatch (R399)
deriving DecidableEq, Repr

/-- A patrol visit in progress (R249, R250). -/
structure Visit where
  unit : Nat
  slot : Nat
deriving DecidableEq, Repr

/-- The rebuild of one channel into its spare (R245). -/
structure Rebuild where
  active : Bool := false
  ldie : BitVec 3 := 0
  percent : BitVec 7 := 0
  start : BitVec 32 := 0
  stage : Nat := 0                       -- 0 staging, 1 unit records, 2 pool slots, 3 home rings
  rings : Nat := 0                       -- rings whose spare-valid bits are set in this stage
  piece : Nat := 0                       -- stripes or page slots of the running ring below this one are rebuilt
  busy : Bool := false                   -- a piece is being read and programmed
  started : Bool := false                -- its program has applied a step
  valid : List (Nat × Nat) := []         -- spare-valid bits: (partition, ring)
deriving DecidableEq, Repr

/-- Error accounting and patrol of one tile (R249 to R253, R260 to R272). -/
structure Integrity where
  corr : Vector (BitVec 32) 4 := .replicate 4 0
  escPage : Vector (BitVec 16) 4 := .replicate 4 0
  escStripe : Vector (BitVec 16) 4 := .replicate 4 0
  uncorr : Vector (BitVec 16) 4 := .replicate 4 0
  misdirect : Vector (BitVec 16) 4 := .replicate 4 0
  rebuild : Vector Rebuild 4 := .replicate 4 {}
  enable : Bool := true
  active : Bool := false
  yielding : Bool := false
  coolH : BitVec 12 := 168
  hotH : BitVec 12 := 72
  thCorr : BitVec 4 := 5
  ageCool : BitVec 4 := 14
  ageHot : BitVec 4 := 10
  stageAge : BitVec 4 := 5
  passes : BitVec 16 := 0
  late : BitVec 16 := 0
  refreshes : BitVec 32 := 0
  cursors : List (Nat × BitVec 32) := [] -- patrol cursor of each unit
  unitPass : List (Nat × Nat) := []      -- passes each unit has completed
  passBase : Nat := 0                    -- seconds clock when the patrol started
  passStart : List (Nat × Nat) := []     -- seconds clock when each unit's pass started; passBase where unlisted
  lateUnits : List Nat := []             -- units whose running pass has been reported late
  skip : List (Nat × Nat) := []          -- (unit, slot) that a gap-move copy has visited in the running pass (R249)
  visits : List Visit := []
  lastRefresh : List (Nat × Nat) := []   -- key slot: pass number of a refresh for corrected count (R241)
  corrected : BitVec 16 := 0
  uncorrected : BitVec 8 := 0
  addressErr : BitVec 8 := 0
  failedPages : List (Nat × Nat) := []   -- (channel and die, second) of pages FAILED on one die (R242)
  failedSlots : List (Nat × Nat) := []
  crcFails : List (Nat × Nat) := []
  rebuildDirs : List Nat := []           -- directory buckets being rebuilt (R228)
  scrubDue : Bool := false
deriving DecidableEq, Repr

/-- A poison list entry: first line number and length in lines (R255). -/
structure PoisonEntry where
  line : Nat
  len : Nat
  src : PoisonSrc
deriving DecidableEq, Repr

/-- The poison list, and scan results (R255, R258). -/
structure Poison where
  list : List PoisonEntry := []
  overflow : Bool := false
  madeThisBoot : List (Nat × PoisonSrc) := []   -- lines that this boot poisoned, with the source
  scan : List PoisonEntry := []
  scanMore : Bool := false
  scanRest : Nat × Nat := (0, 0)         -- first line number and length in lines of what a full scan left out
deriving DecidableEq, Repr

/-- The undirected part of one tile: all of its state. -/
structure Tile where
  pl : Placement := {}
  d : TileData := {}
  eng : Engine := {}
  it : Integrity := {}
  ch : Vector Chan 4 := .replicate 4 {}
  thm : TileThm := {}
  cfl : Cfl := {}
deriving DecidableEq, Repr

end Sys2Proof.Machine
end

