-- ==== Sys2Proof/Machine/StateHost.lean ====
section
/-! DEFINITION. The CXL heads (08): link, HDM decoders, event logs, CXL.io state, IDE, Dynamic Capacity offers, and the
mailboxes of a head with the package-wide mailbox service (09). Every default value is the value at reset. -/

namespace Sys2Proof.Machine

/-- An HDM decoder (R317). Sizes and bases in bytes; `ways` and `gran` as numbers. -/
structure Decoder where
  base : Nat := 0
  size : Nat := 0
  skip : Nat := 0
  ways : Nat := 1
  gran : Nat := 256
  lock : Bool := false
  committed : Bool := false
  err : Bool := false                    -- Error Not Committed
deriving DecidableEq, Repr

/-- One record of a head's CXL event log (R326): the log entry's kind, and the vendor event it follows. -/
structure LogRec where
  handle : BitVec 16 := 0
  kind : Nat                             -- 0 Memory Module, 1 General Media, 2 Dynamic Capacity
  code : BitVec 16 := 0
  addr : BitVec 64 := 0
  len : Nat := 0
  dcType : Nat := 0                      -- 0 add, 1 release, 2 forced removal
  more : Bool := false
  stamp : BitVec 64 := 0
deriving DecidableEq, Repr

/-- One CXL event log of a head (R326). -/
structure EventLog where
  recs : List LogRec := []
  overflow : BitVec 16 := 0
  firstOver : BitVec 64 := 0
  lastOver : BitVec 64 := 0
  nextHandle : BitVec 16 := 1
  msix : Bool := false                   -- Set Event Interrupt Policy: MSI/MSI-X mode
deriving DecidableEq, Repr

/-- A stream tracker (R155). -/
structure Tracker where
  next : Nat := 0
  count : Nat := 0
  inUse : Bool := false
  used : Nat := 0
deriving DecidableEq, Repr

/-- A command that a mailbox holds between its doorbell and its completion. -/
structure MbCmd where
  opcode : BitVec 16
  input : List Byte
deriving DecidableEq, Repr

/-- One mailbox interface (R341 to R343): doorbell, the accepted command, return code, vendor extended status and
output payload. -/
structure Mailbox where
  doorbell : Bool := false
  cmd : Option MbCmd := none
  status : BitVec 16 := 0
  ext : BitVec 16 := 0
  output : List Byte := []
  bgActive : Bool := false               -- the interface started the running background operation
  bgOpcode : BitVec 16 := 0
  bgPercent : BitVec 7 := 0
  bgStatus : BitVec 16 := 0
  bgExt : BitVec 16 := 0
  dropped : Bool := false                -- a head reset came: the completion will be discarded (R400)
  limit : Nat := 65536                   -- response message limit, bytes (R353)
  irq : Bool := false                    -- the host has enabled the doorbell interrupt (R341)
  bgIrq : Bool := false                  -- the host has enabled the background completion interrupt (R327)
deriving DecidableEq, Repr

/-- One CXL head with the registers of R220, R221 and R335 to R338. -/
structure Head where
  speed : BitVec 4 := 0
  width : BitVec 4 := 0
  flit256 : Bool := false
  lopt : Bool := false
  idle : Bool := true                    -- electrical idle
  ideIo : Bool := false
  ideMem : Bool := false
  ideFailed : Bool := false              -- containment: no CXL.mem until keys are re-established (R329)
  degraded : Bool := false
  config : List (Nat × BitVec 32) := []  -- configuration space writes that stick; 0 where unlisted
  d3hot : Bool := false
  memActive : Bool := false
  admitLoads : BitVec 16 := 0
  admitStores : BitVec 16 := 0
  gpfCount : BitVec 16 := 0
  gpfLast : BitVec 16 := 0
  gpfWait : Nat := 0                     -- Phase 2 requests that wait for the running flush
  gpfNext : Nat := 0                     -- Phase 2 requests that wait for the next flush
  devLoadMax : BitVec 2 := 0
  devLoadRound : BitVec 2 := 0
  rdDeadline : BitVec 16 := 0
  latMax : BitVec 14 := 0
  roundDeadline : Nat := 0
  deadlineFirst : BitVec 64 := 0
  deadlineOwner : Nat := 0
  deadlineStage : Nat := 0
  roundMiss : Nat := 0
  missFirst : BitVec 64 := 0
  decoders : Vector Decoder 4 := .replicate 4 {}
  trackers : Vector Tracker 16 := .replicate 16 {}
  trackClock : Nat := 0
  logs : Vector EventLog 5 := .replicate 5 {}  -- informational, warning, failure, fatal, dynamic capacity
  stamp : BitVec 64 := 0                 -- Set Timestamp value
  msix : BitVec 16 := 0                  -- vectors signalled
  vectors : List (Nat × BitVec 32) := [] -- MSI-X table by dword; an unlisted vector is masked, its other dwords 0 (R333)
  pba : BitVec 16 := 0                   -- MSI-X pending bits
  aerErrors : BitVec 16 := 0
  doe : List Byte := []                  -- last DOE response
  spdm : Bool := false                   -- a secured SPDM session exists
  spdmKx : Bool := false                 -- a KEY_EXCHANGE has been answered and no FINISH has followed
  cfgRetry : Bool := false               -- the last configuration request got Request Retry Status
  cfgData : BitVec 32 := 0               -- data of the last configuration read
  cdatChanged : Bool := false
  cmps : Nat := 0                        -- store completions sent
  lastData : Option (Option Line) := none    -- last MemData sent; none inside for a poisoned one
  lastDevLoad : BitVec 2 := 0
  dropped : Nat := 0                     -- responses discarded
  mb : Vector Mailbox 2 := .replicate 2 {}   -- primary, secondary
  alerts : List (BitVec 16) := [0, 0, 0, 0, 0, 0]  -- programmable alert thresholds
  alertEn : BitVec 8 := 0
  shutdown : BitVec 8 := 0               -- shutdown state
deriving DecidableEq, Repr

/-- An add offer of R321: the extents one request offered to one head. -/
structure Offer where
  head : TileId
  exts : List (Nat × Nat)                -- base and blocks, in units of 2 MiB
deriving DecidableEq, Repr

/-- A release that waits for the host (R321 step 5) or for R132's work. -/
structure Release where
  head : TileId
  base : Nat
  blocks : Nat
  awaitHost : Bool
deriving DecidableEq, Repr

/-- A background operation (R349, R350). -/
structure Background where
  opcode : BitVec 16
  head : Option TileId                   -- none: MCTP
  seqNo : BitVec 16 := 0
  percent : BitVec 7 := 0
  input : List Byte := []
  abortReq : Bool := false
deriving DecidableEq, Repr

/-- What a taken command waits for before it completes (R341). -/
inductive MbWait where
  | store (t : TileId) (id : Nat)        -- the stripe of its store verifies (R256, R257)
  | prm                                  -- its parameter store page writes
  | flash                                -- its config flash operations
  | commit                               -- the copies of its commit (R422)
  | staged (cache : List Byte)           -- cache lines of the ways that it takes away (R153, R154): the CACHE field to be
  | keys                                 -- its key-set copy (R675)
  | add (h : TileId) (exts : List (Nat × Nat))   -- rows of the extents granted to h are reclaimed (R132, R136)
deriving DecidableEq, Repr

/-- The package-wide mailbox service and Dynamic Capacity bookkeeping (R321, R341 to R381). -/
structure Svc where
  mctp : Mailbox := {}
  waiting : Option (Iface × MbWait) := none
  waitOut : List Byte := []              -- output of the command that waits
  bg : Option Background := none
  bgSeq : BitVec 16 := 0
  lastBg : Option (BitVec 16 × BitVec 16 × BitVec 16) := none  -- opcode, return code, extended status
  offers : List Offer := []
  releases : List Release := []
  dcReports : List (TileId × Bool) := []           -- timeouts reported to the fabric manager: head, and add or release
  extents : List Extent := []
  dcGen : BitVec 32 := 0
  policies : Vector Bool 9 := .replicate 9 false   -- Strict
  slices : Vector Nat 9 := .replicate 9 0
  fwXfer : Option (Nat × FwImage) := none          -- slot and bytes received of a transfer in progress
  mctpPolicy : BitVec 8 := 0
  reply : List Byte := []                -- last sideband or MCTP reply
  jtag : Option (List Byte) := none      -- what the last JTAG access returned; none while TDO is not driven (R687, R708)
  sbAck : Bool := false                  -- the last sideband transfer was acknowledged in full
  i3cAddr : Option (BitVec 7) := none    -- dynamic address (R707)
  i3cMode : Bool := false
  rdpPending : Bool := false             -- the RDP_ERASE mark is set (R373)
  lastMb : Nat := 16                     -- the mailbox served last, in the round of R341
  recoveryRestart : Bool := false        -- Activate FW has succeeded under the recovery loader (R388)
deriving DecidableEq, Repr

end Sys2Proof.Machine
end

