-- ==== Sys2Proof/Machine/StateNet.lean ====
section
/-! DEFINITION. Widar links, routes, requests, barriers and the guest (12), and the Widar Mesh ports, discovery and
mirror pair (13). Every default value is the value at reset. -/

namespace Sys2Proof.Machine

/-- One Widar port or peer port with its link layer (R459 to R466, R489 to R492, R538 to R540). -/
structure Link where
  trained : Bool := false                -- the physical layer has trained
  up : Bool := false                     -- in service
  outOfService : Bool := false
  bonded : Bool := false
  speed : BitVec 2 := 0
  width : BitVec 2 := 0
  peer : BitVec 6 := 0
  peerSerial : BitVec 32 := 0
  repaired : BitVec 4 := 0
  retrains : BitVec 4 := 0
  retraining : Bool := false
  recent : List (BitVec 32) := []        -- seconds clock of recent retrains
  crcErrors : BitVec 16 := 0
  replays : BitVec 16 := 0
  roundReplays : Nat := 0
  flags : BitVec 8 := 0
  txSeq : BitVec 10 := 0
  peerAck : BitVec 10 := 0x3FF           -- newest sequence number that the peer has taken; 0x3FF before the first
  lastAck : BitVec 10 := 0               -- newest ACK_SEQ received (R492)
  unacked : List (BitVec 10 × List Msg × List MMsg) := []
  waiting : List Msg := []               -- messages that wait for a flit
  mwaiting : List MMsg := []
  expect : BitVec 10 := 0
  heard : Bool := false                  -- a PAYLOAD flit has been received good and in order
  flitCredits : Nat := 0
  reqCredits : Nat := 0
  rspCredits : Nat := 0
  ackDue : Bool := false                 -- an acknowledgement is to be returned
  fcrdDue : Nat := 0
  reqDue : Nat := 0
  rspDue : Nat := 0
  nullDue : Bool := false                -- a NULL flit is to be started
  discarding : Bool := false             -- PAYLOAD flits are discarded until `expect` arrives
  retryTries : Nat := 0                  -- RETRY_REQs sent or received for the same flit
  retrySent : Nat := 0
  txKey : BitVec 64 := 0
  rxKey : BitVec 64 := 0
  txFrame : BitVec 64 := 0
  rxFrame : BitVec 64 := 0
  sent : List Byte := []                 -- the last flit that the port started, as it crosses the link
  initSent : Bool := false
  init : Option InitFlit := none         -- the peer's last INIT
  flitsSent : Nat := 0                   -- PAYLOAD flits sent
deriving DecidableEq, Repr

/-- A request that a tile's fabric interface has outstanding (R472, R477). -/
structure Outst where
  tag : BitVec 12
  opcode : BitVec 8
  dst : BitVec 3
  addr : BitVec 52
  guest : Bool := false                  -- a request of the guest die that entered the fabric at this tile
deriving DecidableEq, Repr

/-- A barrier that waits for CMPs (R480 to R482). -/
structure Barrier where
  scope : BitVec 2
  waits : List (BitVec 3)
  lost : List (BitVec 52) := []
  broken : Bool := false
  target : BitVec 3 := 0                 -- the dead position that broke it
deriving DecidableEq, Repr

/-- The fabric interface and Stag of one tile (R474 to R483, R493 to R497). -/
structure Fabric where
  ports : Vector Link 4 := .replicate 4 {}
  route : Vector (BitVec 3) 8 := .replicate 8 7
  alt : BitVec 8 := 0
  dead : BitVec 8 := 0
  refused : BitVec 16 := 0
  roundRefused : Nat := 0
  ackGuest : Bool := false
  barDone : BitVec 16 := 0
  barBroken : BitVec 16 := 0
  rejLength : BitVec 8 := 0
  rejDenied : BitVec 8 := 0
  rejUnmapped : BitVec 8 := 0
  rejState : BitVec 8 := 0
  roundRejects : Nat := 0
  outst : List Outst := []
  early : List (BitVec 3 × BitVec 52) := []   -- early-acknowledged writes not yet covered by a barrier
  barriers : List Barrier := []
  nextTag : BitVec 12 := 0
  storeBuf : List (BitVec 52 × List Byte) := []  -- Stag stores, in program order
  fence : Bool := false                  -- a FENCE waits for the buffer to drain
  barsIn : List (BitVec 3 × BitVec 12 × List Nat) := []   -- BARs received: source, tag, requests of that source still to perform
  rxq : List (Nat × Msg) := []           -- messages for this position in class queues, with their port
  tcm : List Host.Cell := []             -- Stag TCM; unlisted bytes read 0
  velvet : List Host.Cell := []          -- Velvet; unlisted bytes read 0
deriving DecidableEq, Repr

/-- The guest die as the lead sees it (R485, R498). -/
structure Guest where
  admitted : Bool := false
  dead : Bool := false
  links : BitVec 2 := 0
  missed : BitVec 8 := 0
  awaiting : Bool := false
  lastAdmitMs : Option Nat := none
deriving DecidableEq, Repr

/-- A mirrored store that waits for its MCMP (R513, R517). -/
structure MirrorWait where
  tag : BitVec 12
  owner : TileId
  line : Nat
  storeId : Nat
  port : Nat
  data : Line
  poison : Bool := false
  strict : Bool := false
deriving DecidableEq, Repr

/-- The resync walk of one owner tile (R518): the next line, RWRs acknowledged early since the last barrier, and whether
it walks (0), waits for a barrier (1), waits for its last barrier (2) or has finished (3). -/
structure Walk where
  tile : TileId
  next : Nat := 0
  since : Nat := 0
  phase : Nat := 0
deriving DecidableEq, Repr

/-- Widar Mesh: identity, discovery, pair and resync (R501 to R540). -/
structure Mesh where
  ports : Vector Link 4 := .replicate 4 {}
  conflict : Bool := false
  epoch : BitVec 16 := 0
  packages : BitVec 7 := 0
  dist : List ((Nat × Nat) × Nat) := []  -- ((origin, port), distance) of the running discovery
  epochs : List (Nat × BitVec 16) := []  -- newest epoch of each origin
  discovering : Bool := false
  startedAt : Option (BitVec 32) := none -- housekeeping round of the newest start of a discovery (R504)
  serials : List (Nat × Nat) := []       -- (origin, SERIAL_CRC) of the HELLOs since the last route table (R503)
  prim : Vector (BitVec 4) 64 := .replicate 64 0
  altm : Vector (BitVec 4) 64 := .replicate 64 0
  present : BitVec 64 := 0
  dropTable : Bool := false              -- the old route table is dropped: messages wait for the new one (R504)
  heldMsgs : List MMsg := []             -- those messages
  state : BitVec 3 := 0
  takenOver : Bool := false
  alone : Bool := false
  pairConflict : Bool := false
  regions : BitVec 9 := 0                -- primary regions under the governing record
  replica : BitVec 9 := 0
  peer : BitVec 6 := 0
  paired : Bool := false
  takeoverHeads : BitVec 8 := 0
  pairGen : BitVec 32 := 0
  peerGen : BitVec 32 := 0
  contact : Bool := false
  declared : BitVec 16 := 0
  missed : BitVec 8 := 0
  silentUs : Nat := 0                    -- time since the last message of the peer, in µs
  peerDead : Bool := false
  resyncPercent : BitVec 7 := 0
  resyncActive : Bool := false
  resyncSource : Bool := false
  resyncStep : Nat := 0                  -- step of R518
  resyncEarly : List (BitVec 44) := []   -- RWRs acknowledged early and not covered
  walks : List Walk := []
  rwrs : List (BitVec 12 × TileId × Nat) := []   -- RWRs not yet acknowledged: tag, owner, line
  bars : List (BitVec 12 × TileId) := []         -- outstanding MBARs: tag and the tile whose barrier waits
  barsIn : List (BitVec 6 × BitVec 12) := []     -- MBARs of a source that wait for its RWRs (R519)
  extIn : List (BitVec 6 × BitVec 12 × Nat × Nat) := []  -- MEXT adds that wait for rows (R512)
  relIn : List (BitVec 6 × BitVec 12 × Nat) := []        -- MEXT releases that have not completed
  peerPair : Option (BitVec 6 × List Byte) := none       -- last pair exchange received, and its sender
  extWaits : List (BitVec 12 × Nat) := []        -- outstanding MEXTs: tag and extent base
  peerState : BitVec 3 := 0              -- STATE of the peer's last MPAIR
  readmit : Bool := false                -- ACTION 2 waits for contact
  broken : BitVec 16 := 0
  ackMax : BitVec 14 := 0
  forwarded : BitVec 16 := 0
  expired : BitVec 8 := 0
  noRoute : BitVec 8 := 0
  roundRefused : Nat := 0
  waits : List MirrorWait := []
  repairs : List (BitVec 12 × Nat) := [] -- outstanding MRDs: tag and load id
  holdLines : List Nat := []             -- lines whose MWRs are held after a route change (R517)
  performed : List (BitVec 6 × BitVec 44) := []   -- accepted RWRs not yet performed
  nextTag : BitVec 12 := 0
  rxq : List (Nat × MMsg) := []          -- messages for this package in class queues, with their port
  heldRegions : BitVec 9 := 0            -- primaries held unadmitted (R524, R525)
deriving DecidableEq, Repr

end Sys2Proof.Machine
end

