-- ==== Sys2Proof/Machine/State.lean ====
section
/-! DEFINITION. The state of the whole part as plain data, its value after reset, and the two ways a step can stop. -/

namespace Sys2Proof.Machine

/-- Faults: none. The spec gives the part no command or event that stops it: every failure it describes is a state
of the part (FAILED, a lost tile, a poisoned line), which exec takes as a next state. -/
inductive Fault
deriving DecidableEq, Repr

/-- Refusals. -/
inductive Refusal where
  /-- Raised by exec alone, for a command whose meaning is not written. Safe: nothing can be concluded from it. -/
  | notModelled (mnemonic : String)
deriving DecidableEq, Repr

/-- The state of the part. Every register, store, queue, counter, mode and pin of the spec is in one of the groups. -/
structure State where
  /-- Commands and events that wait, first in, first out. -/
  pending : List Instr := []
  /-- The model's own field: the number of free values drawn so far (Config.free). -/
  fv : Nat := 0
  fuses : Fuses := {}
  /-- Non-volatile stores of each tile beside its media. -/
  nv : Vector TileNv 8 := .replicate 8 {}
  /-- Media of each tile: home pages, unit records, placement log. -/
  media : Vector Media 8 := .replicate 8 {}
  /-- Media of each tile: staged stripes. -/
  staged : Vector StagedMedia 8 := .replicate 8 {}
  aon : Aon := {}
  sys : Sys := {}
  boot : Boot := {}
  cfg : Cfg := {}
  prm : Prm := {}
  evr : Evr := {}
  bbx : Bbx := {}
  pmc : Pmc := {}
  sec : Sec := {}
  seq : Seq := {}
  hld : Hld := {}
  /-- The running power-fail flush, if any. -/
  flush : Option FlushRun := none
  pwr : Pwr := {}
  clk : Clk := {}
  thm : Thm := {}
  tiles : Vector Tile 8 := .replicate 8 {}
  heads : Vector Head 8 := .replicate 8 {}
  /-- Loads in flight, oldest first. -/
  loads : List LoadReq := []
  /-- The number of the next request. -/
  nextReq : Nat := 0
  fab : Vector Fabric 8 := .replicate 8 {}
  guest : Guest := {}
  mesh : Mesh := {}
  svc : Svc := {}
  poison : Poison := {}
deriving DecidableEq, Repr

/-- The part at reset: power absent, nothing programmed since manufacture, every volatile register at its reset
value (R382 to R384). -/
def State.reset : State := {}

end Sys2Proof.Machine
end

