-- ==== Sys2Proof/Machine/Operands.lean ====
section
/-! DEFINITION. Operand forms: little-endian fields of byte lists (R13), twins and ladders of the parameter store, and
the fields of a record image. -/

namespace Sys2Proof.Machine

/-! ### Bytes -/

/-- The low `n` bytes of `v`, least significant first (R13). -/
def leBytes : Nat → Nat → List Byte
  | 0, _ => []
  | n + 1, v => BitVec.ofNat 8 v :: leBytes n (v / 256)

/-- The number that bytes spell, least significant first. -/
def leNat : List Byte → Nat
  | [] => 0
  | b :: r => b.toNat + 256 * leNat r

/-- `n` bytes from offset `o`; bytes beyond the end read as zero. -/
def bytesAt (bs : List Byte) (o n : Nat) : List Byte :=
  let l := (bs.drop o).take n
  l ++ List.replicate (n - l.length) 0

/-- The field of `n` bytes at offset `o`. -/
def fieldAt (bs : List Byte) (o n : Nat) : Nat := leNat (bytesAt bs o n)

/-- `bs` with the bytes from offset `o` replaced by `new` (within its length). -/
def putBytes (bs : List Byte) (o : Nat) (new : List Byte) : List Byte :=
  (bs.take o ++ new ++ bs.drop (o + new.length)).take bs.length

/-- The 64 bytes of a line; byte k is bits 8k+7..8k (R13). -/
def lineBytes (l : Line) : List Byte := leBytes 64 l.toNat

/-- A line from its bytes. -/
def bytesLine (bs : List Byte) : Line := BitVec.ofNat 512 (leNat bs)

/-- The mask of 512 bits that byte enables spread to. -/
def maskBits (m : BitVec 64) : BitVec 512 :=
  BitVec.ofNat 512 ((List.range 64).foldl (fun a k => if m.getLsbD k then a + 255 * 2 ^ (8 * k) else a) 0)

/-- A line after a store under byte enables (R44). -/
def mergeLine (old new : Line) (m : BitVec 64) : Line := (old &&& ~~~ maskBits m) ||| (new &&& maskBits m)

/-! ### Twins and ladders of the parameter store (R432, R437, R438) -/

/-- A twin copy of 32 bytes is valid when its CRC-16 checks. -/
def twinValid (c : List Byte) : Bool := decide ((crc16 (c.take 30)).toNat = fieldAt c 30 2)

/-- What a reader of a twin page finds: the governing copy's content (bytes 4 to 29), and whether the copies conflict;
none when no copy is valid. -/
def twinRead (page : List Byte) : Option (List Byte) × Bool :=
  let c0 := page.take 32
  let c1 := (page.drop 32).take 32
  let g0 := fieldAt c0 0 4
  let g1 := fieldAt c1 0 4
  let body (c : List Byte) := (c.drop 4).take 26
  match twinValid c0, twinValid c1 with
  | true, true => (some (if g1 > g0 then body c1 else body c0), decide (g0 = g1 ∧ body c0 ≠ body c1))
  | true, false => (some (body c0), false)
  | false, true => (some (body c1), false)
  | false, false => (none, false)

/-- GEN of the governing copy of a twin page; 0 when no copy is valid. -/
def twinGen (page : List Byte) : Nat :=
  let c0 := page.take 32
  let c1 := (page.drop 32).take 32
  max (if twinValid c0 then fieldAt c0 0 4 else 0) (if twinValid c1 then fieldAt c1 0 4 else 0)

/-- Which copy a writer of a twin overwrites (R432). -/
def twinTarget (page : List Byte) : Nat :=
  let c0 := page.take 32
  let c1 := (page.drop 32).take 32
  match twinValid c0, twinValid c1 with
  | false, _ => 0
  | true, false => 1
  | true, true => if fieldAt c0 0 4 < fieldAt c1 0 4 then 0 else 1

/-- The 32 bytes that a writer of a twin stores for content of at most 26 bytes. -/
def twinImage (page content : List Byte) : List Byte :=
  let b := leBytes 4 (twinGen page + 1) ++ bytesAt content 0 26
  b ++ leBytes 2 (crc16 b).toNat

/-- The bytes of slot k of a ladder with VALUE v (R437). -/
def ladderImage (k v : Nat) : List Byte :=
  let b := leBytes 6 v
  b ++ leBytes 2 (crc16 (BitVec.ofNat 8 k :: b)).toNat

/-- Slot k of a ladder's 128 bytes, when its CHECK matches. -/
def ladderSlot (bs : List Byte) (k : Nat) : Option Nat :=
  let s := bytesAt bs (8 * k) 8
  if (crc16 (BitVec.ofNat 8 k :: s.take 6)).toNat = fieldAt s 6 2 then some (fieldAt s 0 6) else none

/-- read_ladder of R438: the value and the slot that holds it; no slot when none is valid. -/
def ladderRead (bs : List Byte) : Nat × Option Nat :=
  (List.range 16).foldl
    (fun best k => match ladderSlot bs k with
      | none => best
      | some v => if best.2 = none ∨ v ≥ best.1 then (v, some k) else best) (0, none)

/-! ### Fields of a record image (R418) -/

/-- T: the layout tile count. -/
def recT (r : List Byte) : Nat := fieldAt r 16 1 % 16
/-- C: channels per tile. -/
def recC (r : List Byte) : Nat := fieldAt r 17 1
/-- Entry i of TILE_LIST. -/
def recTile (r : List Byte) (i : Nat) : Nat := fieldAt r 18 3 / 8 ^ i % 8
/-- The layout tiles, in TILE_LIST order. -/
def recTiles (r : List Byte) : List Nat := (List.range (recT r)).map (recTile r)
/-- T, C and the tile list as one number, for comparison (R110). -/
def recLayout (r : List Byte) : Nat := fieldAt r 16 5
def recSeq (r : List Byte) : Nat := fieldAt r 8 4
def recHeads (r : List Byte) : BitVec 8 := BitVec.ofNat 8 (fieldAt r 21 1)
def recMgmt (r : List Byte) : BitVec 8 := BitVec.ofNat 8 (fieldAt r 22 1)
def recPackage (r : List Byte) : Nat := fieldAt r 23 1 % 64
def recSpareArm (r : List Byte) : BitVec 32 := BitVec.ofNat 32 (fieldAt r 28 4)
def recBudget (r : List Byte) : Nat := fieldAt r 32 4
/-- SCRATCH of tile t. -/
def recScratch (r : List Byte) (t : Nat) : Nat := fieldAt r (36 + t) 1 % 16
/-- OFF_PAIRS of tile t. -/
def recOffPairs (r : List Byte) (t : Nat) : Nat := fieldAt r (36 + t) 1 / 16 % 8
/-- SLICE_ROWS of slice k. -/
def recSlice (r : List Byte) (k : Nat) : Nat := fieldAt r (64 + 2 * k) 2
/-- BASE of region r in bytes. -/
def recRegBase (r : List Byte) (k : Nat) : Nat := fieldAt r (80 + 16 * k) 4 * 2 ^ 28
/-- LENGTH of region k in bytes. -/
def recRegLen (r : List Byte) (k : Nat) : Nat := fieldAt r (84 + 16 * k) 4 * 2 ^ 28
/-- Block size of a DC region in bytes. -/
def recRegBlock (r : List Byte) (k : Nat) : Nat := 2 ^ (21 + 3 * (fieldAt r (88 + 16 * k) 1 % 4))
def recRegFlags (r : List Byte) (k : Nat) : Nat := fieldAt r (89 + 16 * k) 1
def recRegSlice (r : List Byte) (k : Nat) : Nat := fieldAt r (90 + 16 * k) 1
def recRegHeads (r : List Byte) (k : Nat) : BitVec 8 := BitVec.ofNat 8 (fieldAt r (91 + 16 * k) 1)
/-- DIE_IDS entry of a die position. -/
def recDieId (r : List Byte) (t c p : Nat) : Nat := fieldAt r (512 + 4 * (36 * t + 9 * c + p)) 4
/-- DIE_MAP entry of a channel. -/
def recDieMap (r : List Byte) (t c : Nat) : BitVec 32 := BitVec.ofNat 32 (fieldAt r (1664 + 4 * (4 * t + c)) 4)
/-- Region that holds a DPA, 8 for the static region; none outside every region. -/
def recRegionOf (r : List Byte) (dpa : Nat) : Option Nat :=
  (List.range 9).find? fun k => decide (recRegBase r k ≤ dpa ∧ dpa < recRegBase r k + recRegLen r k)

/-- The CRC and the two identifying fields that make a record copy valid in itself (R424). -/
def recCrcOk (r : List Byte) : Bool :=
  decide (r.length = 4096 ∧ (crc32c (r.take 4092)).toNat = fieldAt r 4092 4)
def recIdOk (r : List Byte) : Bool := decide (fieldAt r 0 4 = 0x59444352 ∧ fieldAt r 4 2 = 1)

end Sys2Proof.Machine
end

