-- ==== Sys2Proof/Machine/Cipher.lean ====
section
/-! DEFINITION. The functions that R672 and R678 name: HMAC-SHA-384 (FIPS 198-1) and AES-256-XTS (FIPS 197, IEEE 1619). The keys
are free values of Config. -/

namespace Sys2Proof.Machine

/-! ### HMAC (FIPS 198-1) -/

/-- HMAC-SHA-384 of a message under a key of at most 128 bytes. -/
def hmac384 (key msg : List Byte) : List Byte :=
  let pad (x : Byte) : List Byte := (key ++ List.replicate (128 - key.length) 0).map (· ^^^ x)
  beBytes 48 (sha384 (pad 0x5C ++ beBytes 48 (sha384 (pad 0x36 ++ msg))))

/-! ### AES-256 (FIPS 197) -/

/-- A byte times x in GF(2^8). -/
def Aes.xtime (b : Byte) : Byte := (b <<< 1) ^^^ (if b.getLsbD 7 then 0x1B else 0)

/-- The product of two bytes, by the low `n` bits of the second. -/
def Aes.mul : Nat → Byte → Byte → Byte
  | 0, _, _ => 0
  | n + 1, a, b => (if b.getLsbD 0 then a else 0) ^^^ Aes.mul n (Aes.xtime a) (b >>> 1)

/-- The multiplicative inverse b^254, zero for zero: the product of the squares b^2 to b^128. -/
def Aes.inv (b : Byte) : Byte :=
  ((List.range 7).foldl (fun (a : Byte × Byte) _ =>
    let q := Aes.mul 8 a.1 a.1
    (q, Aes.mul 8 a.2 q)) (b, 1)).2

/-- The S-box. -/
def Aes.sbox (b : Byte) : Byte :=
  let i := Aes.inv b
  i ^^^ i.rotateLeft 1 ^^^ i.rotateLeft 2 ^^^ i.rotateLeft 3 ^^^ i.rotateLeft 4 ^^^ 0x63

def Aes.xor (a b : List Byte) : List Byte := List.zipWith (· ^^^ ·) a b

/-- The key schedule: 60 words of 4 bytes, the last one first; `r` is the round constant of the next eighth word. -/
def Aes.expand : (n : Nat) → (i : Nat) → (r : Byte) → List (List Byte) → List (List Byte)
  | 0, _, _, ws => ws
  | n + 1, i, r, ws =>
    let last := ws.headD []
    let g : List Byte :=
      if i % 8 = 0 then Aes.xor ((last.drop 1 ++ last.take 1).map Aes.sbox) [r, 0, 0, 0]
      else if i % 8 = 4 then last.map Aes.sbox else last
    Aes.expand n (i + 1) (if i % 8 = 0 then Aes.xtime r else r) (Aes.xor (ws.getD 7 []) g :: ws)

/-- The fifteen round keys of a 32-byte key. -/
def Aes.roundKeys (key : List Byte) : List (List Byte) :=
  let w := (Aes.expand 52 8 1 (((List.range 8).map fun i => (key.drop (4 * i)).take 4).reverse)).reverse
  (List.range 15).map fun r => ((w.drop (4 * r)).take 4).flatten

/-- A state with its rows shifted: byte r + 4c comes from column c + r. -/
def Aes.shiftRows (st : List Byte) : List Byte :=
  (List.range 16).map fun i => st.getD ((i + 4 * (i % 4)) % 16) 0

/-- A state with its columns mixed. -/
def Aes.mixColumns (st : List Byte) : List Byte :=
  (List.range 16).map fun i =>
    let b (k : Nat) : Byte := st.getD (4 * (i / 4) + (i + k) % 4) 0
    Aes.xtime (b 0) ^^^ Aes.xtime (b 1) ^^^ b 1 ^^^ b 2 ^^^ b 3

/-- One block of 16 bytes, encrypted under a 32-byte key. -/
def Aes.encrypt (key block : List Byte) : List Byte :=
  let ks := Aes.roundKeys key
  let sub (st : List Byte) : List Byte := Aes.shiftRows (st.map Aes.sbox)
  let st := ((ks.drop 1).take 13).foldl (fun st k => Aes.xor (Aes.mixColumns (sub st)) k) (Aes.xor block (ks.headD []))
  Aes.xor (sub st) (ks.getD 14 [])

/-- AES-256-XTS (IEEE 1619): the blocks of a data unit under a 64-byte key, the first 32 bytes for the data and the others for the
tweak `n`. -/
def Aes.xts (key : List Byte) (n : Nat) (unit : List Byte) : List Byte :=
  let k1 := key.take 32
  let next (t : Nat) : Nat := if t / 2 ^ 127 = 1 then (2 * t % 2 ^ 128) ^^^ 0x87 else 2 * t
  let t0 := leNat (Aes.encrypt (key.drop 32) (leBytes 16 n))
  (((List.range (unit.length / 16)).foldl (fun (a : List Byte × Nat) i =>
    let t := leBytes 16 a.2
    (a.1 ++ Aes.xor (Aes.encrypt k1 (Aes.xor ((unit.drop (16 * i)).take 16) t)) t, next a.2)) ([], t0)).1)

/-- HMAC-SHA-384 over SALT followed by the passphrase (R678), under the key that the device root key derives. -/
def verifierMac (salt pw : List Byte) : List Byte := hmac384 (leBytes 48 Config.verifierKey.toNat) (salt ++ pw)

/-- The ciphertext of a line (R672, R673): media key `key` of key draw `draw`, with line number `n` as tweak. -/
def cipherLine (draw key n : Nat) (data : Line) : List Byte :=
  Aes.xts (leBytes 64 (Config.mediaKey draw key).toNat) n (lineBytes data)

end Sys2Proof.Machine
end

