-- ==== Sys2Proof/Machine/Ops.lean ====
section
/-! DEFINITION. The named operations that the meanings share: access to the parts of the state, free values, events,
the device state with its degrade and fail causes, the black box, and config flash operations. -/

namespace Sys2Proof.Machine

/-! ### Access -/

/-- A vector with one element changed by `f`. -/
def vmod {α : Type} {n : Nat} (v : Vector α n) (i : Fin n) (f : α → α) : Vector α n := v.set i (f v[i])

/-- A vector with every element changed by `f`, which sees the index. -/
def vmap {α : Type} {n : Nat} (v : Vector α n) (f : Fin n → α → α) : Vector α n := Vector.ofFn fun i => f i v[i]

/-- The value at key `k` of a table with rising keys. -/
def tabGet {α : Type} (m : List (Nat × α)) (k : Nat) : Option α := (m.find? fun e => e.1 = k).map (·.2)

/-- Enter or replace the value at key `k`, keeping the keys rising. -/
def tabPut {α : Type} : List (Nat × α) → Nat → α → List (Nat × α)
  | [], k, v => [(k, v)]
  | (j, w) :: r, k, v => if k < j then (k, v) :: (j, w) :: r else if k = j then (k, v) :: r else (j, w) :: tabPut r k v

/-- Remove key `k`. -/
def tabDel {α : Type} (m : List (Nat × α)) (k : Nat) : List (Nat × α) := m.filter fun e => e.1 ≠ k

/-- Insert by `le`, after the elements that are not above. -/
def insertBy {α : Type} (le : α → α → Bool) (x : α) : List α → List α
  | [] => [x]
  | y :: r => if le x y then x :: y :: r else y :: insertBy le x r

/-- Sort by `le`, keeping the order of equal elements. -/
def sortBy {α : Type} (le : α → α → Bool) : List α → List α
  | [] => []
  | x :: r => insertBy le x (sortBy le r)

/-- Replace an element of a list that satisfies `p` by `f` of it. -/
def lmod {α : Type} (l : List α) (p : α → Bool) (f : α → α) : List α := l.map fun x => if p x then f x else x

def State.modTile (s : State) (t : TileId) (f : Tile → Tile) : State := { s with tiles := vmod s.tiles t f }
def State.modHead (s : State) (h : TileId) (f : Head → Head) : State := { s with heads := vmod s.heads h f }
def State.modNv (s : State) (t : TileId) (f : TileNv → TileNv) : State := { s with nv := vmod s.nv t f }
def State.modMedia (s : State) (t : TileId) (f : Media → Media) : State := { s with media := vmod s.media t f }
def State.modStaged (s : State) (t : TileId) (f : StagedMedia → StagedMedia) : State :=
  { s with staged := vmod s.staged t f }
def State.modFab (s : State) (t : TileId) (f : Fabric → Fabric) : State := { s with fab := vmod s.fab t f }

/-- One tile's cache, staging and fold state. -/
def State.modD (s : State) (t : TileId) (f : TileData → TileData) : State := s.modTile t fun x => { x with d := f x.d }
/-- One tile's placement SRAM. -/
def State.modPl (s : State) (t : TileId) (f : Placement → Placement) : State :=
  s.modTile t fun x => { x with pl := f x.pl }
/-- One tile's engines. -/
def State.modEng (s : State) (t : TileId) (f : Engine → Engine) : State := s.modTile t fun x => { x with eng := f x.eng }
/-- One tile's error accounting and patrol. -/
def State.modIt (s : State) (t : TileId) (f : Integrity → Integrity) : State := s.modTile t fun x => { x with it := f x.it }
/-- One channel. -/
def State.modCh (s : State) (t : TileId) (c : ChanId) (f : Chan → Chan) : State :=
  s.modTile t fun x => { x with ch := vmod x.ch c f }
/-- One die of a channel, by physical position. -/
def State.modDie (s : State) (t : TileId) (c : ChanId) (p : Fin 9) (f : Die → Die) : State :=
  s.modCh t c fun x => { x with dies := vmod x.dies p f }
/-- One tile's temperature state. -/
def State.modTherm (s : State) (t : TileId) (f : TileThm → TileThm) : State := s.modTile t fun x => { x with thm := f x.thm }
/-- One tile's config flash registers. -/
def State.modCfl (s : State) (t : TileId) (f : Cfl → Cfl) : State := s.modTile t fun x => { x with cfl := f x.cfl }

/-- A tile number from a number that a field spells; numbers wrap at 8. -/
def toTile (n : Nat) : TileId := ⟨n % 8, Nat.mod_lt _ (by decide)⟩
def toChan (n : Nat) : ChanId := ⟨n % 4, Nat.mod_lt _ (by decide)⟩
def toDie (n : Nat) : Fin 9 := ⟨n % 9, Nat.mod_lt _ (by decide)⟩
def toPart (n : Nat) : Fin 16 := ⟨n % 16, Nat.mod_lt _ (by decide)⟩
def allTiles : List TileId := [0, 1, 2, 3, 4, 5, 6, 7]
def allChans : List ChanId := [0, 1, 2, 3]
def allDies : List (Fin 9) := [0, 1, 2, 3, 4, 5, 6, 7, 8]

/-- The tile holds its place in service (R54), or it is the lone lost lead, which serves its hardware flush (R712). -/
def State.inSvc (s : State) (t : TileId) : Bool :=
  s.sys.inService.getLsbD t || (s.sys.loneLost && s.flush.isSome && s.sys.lead = some t)
/-- Every tile in service. -/
def State.svcTiles (s : State) : List TileId := allTiles.filter s.inSvc
/-- The tile that acts for the package: the lead, or tile 0 while there is none. -/
def State.lead (s : State) : TileId := s.sys.lead.getD 0
/-- A tile is fitted (R2, R54). -/
def fittedMask : Variant → BitVec 8
  | .yd4820 => 0x03 | .yd4840 => 0x0F | .yd4880 => 0xFF | .yd4871g => 0x7F
/-- Apply `f` for every element of a list, in order. -/
def forAll {α : Type} (l : List α) (f : α → State → State) (s : State) : State := l.foldl (fun s x => f x s) s

/-- Heads in ENABLED_HEADS of the record in force; every head while no record is in force (R308, R388). -/
def State.enabledHeads (s : State) : BitVec 8 := if s.cfg.record = [] then 0xFF else recHeads s.cfg.record
/-- Heads in MGMT_HEADS: tile 0 only while no record is in force (R308), every head under the recovery loader (R388). -/
def State.mgmtHeads (s : State) : BitVec 8 :=
  if s.boot.recovery then 0xFF else if s.cfg.record = [] then 0x01 else recMgmt s.cfg.record

/-! ### Free values -/

/-- Draw one free value (Config.free). -/
def State.draw (s : State) : Nat × State := (Config.free s.fv, { s with fv := s.fv + 1 })

/-- Choose one of several: the spec gives no order among them, so the choice is free. -/
def State.pick {α : Type} (s : State) : List α → Option α × State
  | [] => (none, s)
  | [x] => (some x, s)
  | x :: r =>
    let (v, s) := s.draw
    ((x :: r)[v % (r.length + 1)]?, s)

/-! ### Parameter store -/

/-- Bytes of a tile's parameter store. -/
def State.prmBytes (s : State) (t : TileId) (a n : Nat) : List Byte := Memory.readBytes Factory.prm s.nv[t].prm a n
/-- A page of the lead's parameter store. -/
def State.prmPage (s : State) (p : Nat) : List Byte := s.prmBytes s.lead (64 * p) 64
/-- Write bytes into a tile's parameter store. -/
def State.prmPut (s : State) (t : TileId) (a : Nat) (bs : List Byte) : State :=
  s.modNv t fun v => { v with prm := Memory.writeBytes Factory.prm v.prm a bs }
/-- The pages that R431 marks Standby and that hold bytes (the security area is held as key sets). -/
def standbyPage (p : Nat) : Bool := p = 1 ∨ p = 3 ∨ (4 ≤ p ∧ p ≤ 14)
/-- A write by the lead: to its own store, and for a standby page to every other tile in service (R431). -/
def State.prmWrite (s : State) (a : Nat) (bs : List Byte) : State :=
  let s := s.prmPut s.lead a bs
  if standbyPage (a / 64) then forAll (s.svcTiles.filter (· ≠ s.lead)) (fun t s => s.prmPut t a bs) s else s
/-- Write new content into a twin page (R432). -/
def State.twinWrite (s : State) (page : Nat) (content : List Byte) : State :=
  let p := s.prmPage page
  s.prmWrite (64 * page + 32 * twinTarget p) (twinImage p content)
/-- A ladder of the lead's store, by its first page: value and slot (R438). -/
def State.ladder (s : State) (page : Nat) : Nat × Option Nat := ladderRead (s.prmBytes s.lead (64 * page) 128)
/-- advance of R438. -/
def State.ladderAdvance (s : State) (page new : Nat) : State :=
  let k := ((s.ladder page).2.getD 15 + 1) % 16
  s.prmWrite (64 * page + 8 * k) (ladderImage k new)
/-- The Boots ladder (R439). -/
def State.boots (s : State) : Nat := (s.ladder 6).1

/-! ### Events (R629 to R632) -/

/-- Severity as coded in ATTR (R630). -/
def Severity.code : Severity → Nat
  | .info => 0 | .warn => 1 | .error => 2 | .fatal => 3

/-- An event record before it is queued: code, severity, SOURCE (tile or 0xF, and the sub-unit plus 1 or 0), ARGS as
(bytes, value) pairs in order, ADDR and COUNT. -/
def mkEv (code : Nat) (sev : Severity) (tile sub : Nat) (args : List (Nat × Nat) := []) (addr : Nat := 0)
    (count : Nat := 0) : EventRec :=
  { code := BitVec.ofNat 16 code, sev := sev, source := BitVec.ofNat 8 (tile % 16 + 16 * sub),
    addr := BitVec.ofNat 64 addr, count := BitVec.ofNat 32 (min count (2 ^ 32 - 1)),
    args := BitVec.ofNat 48 (leNat (args.flatMap fun a => leBytes a.1 a.2)) }

/-- The drop counter of a severity. -/
def Severity.idx : Severity → Fin 4
  | .info => 0 | .warn => 1 | .error => 2 | .fatal => 3

/-- One more drop of a severity, saturating (R632). -/
def Evr.drop (e : Evr) (v : Severity) : Evr := { e with drops := vmod e.drops v.idx (satAdd · 1) }

/-- The tile whose queue takes a record that tile `t` raises: its own while it is in service, else the lead's. -/
def State.evTile (s : State) (t : Nat) : TileId :=
  if t < 8 ∧ s.inSvc (toTile t) then toTile t else s.lead

/-- Head h admits the line: an extent entry that holds it grants the head (R129), and its region is not held until the peer
of a mirror pair is heard (R524, R525). -/
def State.admits (s : State) (h n : Nat) : Bool :=
  s.svc.extents.any fun e => e.heads.getLsbD h && !s.mesh.heldRegions.getLsbD e.region
    && decide (e.base * 32768 ≤ n ∧ n < (e.base + e.blocks) * 32768)

/-- Records that a CXL event log of a head holds (R326): informational, warning, failure, fatal, dynamic capacity. -/
def logCap (k : Fin 5) : Nat :=
  match k.val with
  | 0 => 32 | 1 => 64 | 2 => 64 | 3 => 16 | _ => 64

/-- A dword of a head's MSI-X table: the mask bit of a vector is 1 until it is written. -/
def Head.vectorWord (x : Head) (k : Nat) : BitVec 32 := (tabGet x.vectors k).getD (if k % 4 = 3 then 1 else 0)

/-- A vector is masked: MSI-X is not enabled, the function is masked, or the vector is (R327, R331). -/
def Head.vectorMasked (x : Head) (v : Nat) : Bool :=
  let c := (tabGet x.config 36).getD 0
  !c.getLsbD 31 || c.getLsbD 30 || (x.vectorWord (4 * v + 3)).getLsbD 0

/-- A vector is signalled; while it is masked its pending bit is set. -/
def Head.signal (x : Head) (v : Nat) : Head :=
  { x with msix := bitOn x.msix v, pba := if x.vectorMasked v then bitOn x.pba v else x.pba }

/-- Vectors that are no longer masked send what was pending. -/
def Head.sendPending (x : Head) : Head :=
  { x with pba := (List.range 16).foldl (fun p v => if x.vectorMasked v then p else bitOff p v) x.pba }

/-- Enter a record in a log of a head; a full log drops it and keeps the overflow count and times (R326). The log's
vector is signalled where its policy is MSI/MSI-X (R327). -/
def State.logPush (s : State) (h : TileId) (k : Fin 5) (r : LogRec) : State :=
  s.modHead h fun x =>
    let l := x.logs[k]
    if l.recs.length < logCap k then
      let x : Head := { x with
        logs := x.logs.set k { l with
          recs := l.recs ++ [{ r with handle := l.nextHandle, stamp := x.stamp }],
          nextHandle := if l.nextHandle = 0xFFFF then 1 else l.nextHandle + 1 } }
      if l.msix then x.signal (1 + k.val) else x
    else
      { x with logs := x.logs.set k { l with
          overflow := satAdd l.overflow 1, lastOver := x.stamp,
          firstOver := if l.overflow = 0 then x.stamp else l.firstOver } }

/-- Enter a record in the log of every enabled head. -/
def State.logAll (s : State) (k : Fin 5) (r : LogRec) : State :=
  forAll (allTiles.filter fun (h : TileId) => s.enabledHeads.getLsbD h) (fun h s => s.logPush h k r) s

/-- The CXL event log records that follow from an event (R326). -/
def State.hostLog (s : State) (e : EventRec) : State :=
  let r (kind : Nat) : LogRec := { kind := kind, code := e.code, addr := e.addr }
  match e.code.toNat with
  | 0x9001 => if e.args.toNat / 256 % 256 = 4 then s.logAll 0 (r 0) else s
  | 0x1022 => s.logAll 0 (r 0)
  | 0x9002 => s.logAll 1 (r 0)
  | 0x5032 => s.logAll 1 (r 0)
  | 0x1070 => s.logAll 2 (r 0)
  | 0x1010 =>
    forAll (allTiles.filter fun (h : TileId) => s.admits h.val (e.addr.toNat / 64)) (fun h s => s.logPush h 2 (r 1)) s
  | 0x9003 => s.logAll 3 (r 0)
  | _ => s

/-- Raise a record: it is queued in its tile, at most 32 deep, or dropped and counted (R631); during FLUSHING it is
held in Velvet (R574). The CXL event logs that it concerns take their records (R326). -/
def State.raise (s : State) (e : EventRec) : State :=
  let e := { e with boot := BitVec.ofNat 16 s.boots }
  let s := s.hostLog e
  if s.sys.state = .flushing || s.flush.isSome then { s with evr := { s.evr with velvet := s.evr.velvet ++ [e] } }
  else
    let t := s.evTile (e.source.toNat % 16)
    if s.evr.queues[t].length < 32 then
      { s with evr := { s.evr with queues := vmod s.evr.queues t (· ++ [e]) } }
    else { s with evr := s.evr.drop e.sev }

/-! ### The black box (R640 to R645) -/

/-- The record that slot k of the flash copy reads as (R644): the copy with the higher SEQ. -/
def bbFlashSlot (v : TileNv) (k : Nat) : Option BBRec :=
  match tabGet v.bb k, tabGet v.bb (1024 + k) with
  | some a, some b => some (if b.seq.toNat > a.seq.toNat then b else a)
  | some a, none => some a
  | none, r => r

/-- The record that a slot of the governing copy holds: the rescue lead's buffer, or the flash copy. -/
def State.bbSlot (s : State) (k : Nat) : Option BBRec :=
  match s.bbx.buffer with
  | some b => tabGet b k
  | none => bbFlashSlot s.nv[s.lead] k

/-- The slots that hold records of the governing copy, with the records. -/
def State.bbHeld (s : State) : List (Nat × BBRec) :=
  match s.bbx.buffer with
  | some b => b
  | none => (s.nv[s.lead].bb.map (·.1 % 1024)).eraseDups.filterMap fun k => (bbFlashSlot s.nv[s.lead] k).map (k, ·)

/-- The highest SEQ of the governing copy and of the acting lead's media copy; 0 when none exists. -/
def State.bbMaxSeq (s : State) : Nat :=
  ((s.bbHeld ++ s.bbx.media[s.lead]).map fun e => e.2.seq.toNat).foldl max 0

/-- The slot that the next record takes: from the write position on, skipping slots that hold FATAL records (R642). -/
def State.bbNext (s : State) : Option Nat :=
  ((List.range 1024).map fun i => (s.bbx.pos + i) % 1024).find? fun k =>
    match s.bbSlot k with
    | some r => r.kind ≠ 1
    | none => true

/-- The media rails are on: some media rail is good and none is being lowered. -/
def State.mediaOn (s : State) : Bool := !s.seq.lowering && s.seq.pg.toNat / 16 ≠ 0

/-! ### Config flash operations (R410 to R417) -/

/-- The key of a sector: 1,025 × bank + sector. -/
def sectorKey (bank sector : Nat) : Nat := 1025 * bank + sector

/-- The 16 bytes of a sector tag: marker, ERASES, CRC-16, two erased bytes (R414). -/
def sectorTag (erases : Nat) : List Byte :=
  let b := leBytes 8 0x3CF0A55AC30F5AA5 ++ leBytes 4 erases
  b ++ leBytes 2 (crc16 b).toNat ++ ([0xFF, 0xFF] : List Byte)

/-- ERASES of a sector; zero where its tag does not check. A sector that nothing has erased since manufacture was erased once
then. -/
def erasesOf (v : TileNv) (k : Nat) : Nat :=
  match tabGet v.tags k with
  | none => 1 + v.fullErases
  | some b =>
    if fieldAt b 0 8 = 0x3CF0A55AC30F5AA5 ∧ (crc16 (b.take 12)).toNat = fieldAt b 12 2 then fieldAt b 8 4 else 0

/-- The 16 bytes of a journal entry (R415). -/
def JEntry.bytes (e : JEntry) : List Byte :=
  leBytes 2 e.sector ++ leBytes 2 (65535 - e.sector) ++ leBytes 4 e.seq.toNat ++ leBytes 4 (if e.closed then 0 else 0xFFFFFFFF)
    ++ leBytes 4 0xFFFFFFFF

/-- The sectors that open entries of a tile's journals name. -/
def openKeys (v : TileNv) : List Nat :=
  ([0, 1] : List (Fin 2)).flatMap fun b => (v.journals[b].filter fun e => !e.closed).map fun e => sectorKey b e.sector

/-- A sector is defined when its tag checks and no open journal entry names it (R417). -/
def sectorDefined (v : TileNv) (k : Nat) : Bool := decide (erasesOf v k ≠ 0) && !(openKeys v).contains k

/-- The newest entry of a journal. -/
def newestJ (l : List JEntry) : Option JEntry :=
  l.foldl (fun (b : Option JEntry) e => match b with
    | some x => if e.seq.toNat > x.seq.toNat then some e else b
    | none => some e) none

/-- An open entry for an erase is programmed in the place after the newest (R415, R416). -/
def jOpen (v : TileNv) (bank : Fin 2) (sector : Nat) : TileNv :=
  let l := v.journals[bank]
  let e : JEntry := match newestJ l with
    | some x => { place := (x.place + 1) % 512, sector := sector, seq := x.seq + 1 }
    | none => { place := 0, sector := sector, seq := 1 }
  { v with journals := v.journals.set bank (l ++ [e]) }

/-- The erase of a sector has ended: its tag is programmed with ERASES one higher, and CLOSE in the entries that name it
(R414, R416, R417). -/
def jClose (v : TileNv) (bank : Fin 2) (sector : Nat) : TileNv :=
  let k := sectorKey bank sector
  { v with tags := tabPut v.tags k (sectorTag (erasesOf v k + 1))
           journals := vmod v.journals bank fun l => lmod l (fun e => e.sector = sector) fun e => { e with closed := true } }

/-- A sector is erased with its journal steps (R416). -/
def jErase (v : TileNv) (bank : Fin 2) (sector : Nat) : TileNv := jClose (jOpen v bank sector) bank sector

/-- The half of a bank's journal to be erased for reuse: its 256 entries are closed, and the newest lies in the other half
(R415). When that erase comes is the model's choice (DESIGN CHOICE, log 99). -/
def jReuse (l : List JEntry) : Option Nat :=
  match newestJ l with
  | none => none
  | some x =>
    let half := 1 - x.place / 256
    let es := l.filter fun e => e.place / 256 = half
    if es.length = 256 ∧ es.all (·.closed) then some half else none

/-- Start an operation in a bank, or queue it behind the running one (R413, R442). An erase programs an open journal
entry first (R416). -/
def State.flashStart (s : State) (t : TileId) (bank : Fin 2) (op : FlashOp) : State :=
  match s.tiles[t].cfl.ops[bank] with
  | some _ => s.modCfl t fun c => { c with spare := vmod c.spare bank (· ++ [op]) }
  | none =>
    let s := s.modCfl t fun c => { c with ops := c.ops.set bank (some op), lastSector := op.sector }
    if op.erasing then s.modNv t fun v => jOpen v bank op.sector else s

/-- The running operation of a bank has ended: the next that waits starts. -/
def State.flashNext (s : State) (t : TileId) (bank : Fin 2) : State :=
  let s := s.modCfl t fun c => { c with ops := c.ops.set bank none }
  match s.tiles[t].cfl.spare[bank] with
  | [] => s
  | op :: r => (s.modCfl t fun c => { c with spare := c.spare.set bank r }).flashStart t bank op

/-- A journal whose older half can be used again has it erased, which the other journal records (R415). -/
def State.journalReuse (s : State) (t : TileId) (bank : Fin 2) : State :=
  match jReuse s.nv[t].journals[bank] with
  | none => s
  | some half =>
    let other : Fin 2 := 1 - bank
    let mine (op : FlashOp) : Bool := op.use = .journal half
    if s.tiles[t].cfl.ops[other].any mine || s.tiles[t].cfl.spare[other].any mine then s
    else s.flashStart t other { sector := 513 + half, erasing := true, pages := 0, use := .journal half }

/-- The write position leaves group g: the FATAL records of the old sector are copied to the fill sector, and the erase
of the old sector starts (R643). -/
def State.bbRotate (s : State) (g : Nat) : State :=
  let fillHalf := if s.nv[s.lead].bbFill.getLsbD g then 1 else 0
  let oldHalf := 1 - fillHalf
  let s := s.modNv s.lead fun v =>
    { v with bb := (List.range 64).foldl (fun b j =>
        let k := 64 * g + j
        match tabGet b (1024 * oldHalf + k), tabGet b (1024 * fillHalf + k) with
        | some r, none => if r.kind = 1 then tabPut b (1024 * fillHalf + k) r else b
        | _, _ => b) v.bb }
  s.flashStart s.lead 1 { sector := 516 + g + 16 * oldHalf, erasing := true, pages := 0, use := .blackBox g }

/-- The 32 bytes of an event record (R629). -/
def evBytes (e : EventRec) : List Byte :=
  let b := leBytes 6 e.seq ++ leBytes 2 e.code.toNat
    ++ [BitVec.ofNat 8 (e.sev.code + 4 * b2n e.held + 8 * b2n e.reloaded), e.source]
    ++ leBytes 2 e.boot.toNat ++ leBytes 8 e.addr.toNat ++ leBytes 4 e.count.toNat ++ leBytes 6 e.args.toNat
  b ++ leBytes 2 (crc16 b).toNat

/-- The 64 bytes of a black box record (R641). -/
def bbBytes (r : BBRec) : List Byte :=
  let b := [0x03, r.kind] ++ leBytes 2 (r.slot % 1024) ++ leBytes 4 r.seq.toNat ++ leBytes 4 r.boots.toNat
    ++ leBytes 48 r.body.toNat
  b ++ leBytes 4 (crc32c b).toNat

/-! ### Device state (R47 to R51) -/

/-- The code of a device state (R47). -/
def DevState.code : DevState → Nat
  | .boot => 0 | .mediaInit => 1 | .configHold => 2 | .replay => 3 | .active => 4 | .degraded => 5 | .flushing => 6
  | .sleepS1 => 7 | .sleepS2 => 8 | .sleepS3 => 9 | .failed => 10

/-- The place of a degrade cause in DEGRADE_CAUSE (R53). -/
def DegradeCause.idx : DegradeCause → Nat
  | .tileLost => 0 | .channelOff => 1 | .dieRebuild => 2 | .mirror => 3 | .railGroup => 4 | .headDown => 5
  | .widarLink => 6

/-- FAIL_CAUSE codes (R53). -/
def FailCause.code : FailCause → Nat
  | .none => 0 | .leadTileLost => 1 | .sramFault => 2 | .firmwareFatal => 3 | .thermalTrip => 4
  | .mediaUnreachable => 5 | .stagingStalled => 6

def DevState.isSleep (d : DevState) : Bool := d = .sleepS1 ∨ d = .sleepS2 ∨ d = .sleepS3
def DevState.isServing (d : DevState) : Bool := d = .active ∨ d = .degraded

/-- New folds, gap moves and patrol visits may start (R47, R567, R611). -/
def State.background (s : State) : Bool := s.sys.state.isServing && s.pwr.transition = 0 && !s.thm.trip

/-- A request ungates the clock domains that it needs (R595). -/
def State.ungate (s : State) (t : TileId) (domains : BitVec 31) : State :=
  { s with clk := { s.clk with gate := vmod s.clk.gate t (· &&& ~~~ domains) } }

/-- A request ungates a package domain (R23, R595). -/
def State.ungatePkg (s : State) (domain : Nat) : State :=
  { s with clk := { s.clk with pkgGate := bitOff s.clk.pkgGate domain } }

/-- The device state becomes `d`: PREV_STATE, COUNT and the event of R51, whose second item for DEGRADED is the cause
that arose and for FAILED the FAIL_CAUSE. -/
def State.setDev (s : State) (d : DevState) (arg : Nat := 0) : State :=
  if s.sys.state = d then s
  else
    let old := s.sys.state
    let s := { s with sys := { s.sys with state := d, prev := old, changes := wrapAdd s.sys.changes 1 } }
    match d with
    | .degraded => s.raise (mkEv 0x9002 .error 15 0 [(1, old.code), (1, arg)])
    | .failed => s.raise (mkEv 0x9003 .fatal 15 0 [(1, old.code), (1, arg)])
    | _ => s.raise (mkEv 0x9001 .info 15 0 [(1, old.code), (1, d.code)])

/-- A degrade cause arises (R49, R50); a new one takes a record in the warning log of every enabled head (R326). -/
def State.addCause (s : State) (c : DegradeCause) : State :=
  let s := if s.sys.degrade.getLsbD c.idx then s else s.logAll 1 { kind := 0, code := BitVec.ofNat 16 c.idx }
  let s := { s with sys := { s.sys with degrade := bitOn s.sys.degrade c.idx } }
  if s.sys.state = .active then s.setDev .degraded c.idx else s

/-- A degrade cause clears; the loss of a tile, of a link that left a tile unreachable, and of a rail group clear only at the
next package reset (R50). -/
def State.clearCause (s : State) (c : DegradeCause) : State :=
  if c = .tileLost ∨ c = .railGroup ∨ (c = .widarLink ∧ s.sys.cutOff) then s
  else
    let s := { s with sys := { s.sys with degrade := bitOff s.sys.degrade c.idx } }
    if s.sys.state = .degraded ∧ s.sys.degrade = 0 then s.setDev .active else s

/-- Memory_Active at every enabled head of a tile in service (R325), and MEM_ACTIVE (R53). -/
def State.setMemActive (s : State) (v : Bool) : State :=
  { s with sys := { s.sys with memActive := v },
           heads := vmap s.heads fun h x =>
             { x with memActive := v && s.enabledHeads.getLsbD h && s.inSvc h } }

/-- The volatile state of a die after MEDRST_N or RESET_DIE (R82). -/
def Die.afterReset (d : Die) : Die :=
  { temp := d.temp, missed := d.missed, band := d.band, bandSet := d.bandSet, calib := d.calib, doubleMiss := d.doubleMiss }

/-- The media rails are lowered in dependency order (R544), MEDRST_N asserted with the rails off (R550), which resets every
die: none has passed R83 any more (R82, R102). The next first reading sets each die's band without hysteresis (R605). -/
def State.lowerMedia (s : State) : State :=
  { s with
    seq := { s.seq with
      lowering := decide (s.seq.en.toNat / 16 ≠ 0), raising := false, wanted := 0, medrst := 0xFFFFFFFF }
    tiles := vmap s.tiles fun _ x =>
      { x with ch := vmap x.ch fun _ c =>
          { c with inReset := true, up := false, tinit := false, key := 0, frame := 0, paramLeft := [], paramBad := []
                   expected := c.expected ||| c.present, present := 0
                   dies := vmap c.dies fun _ d => { d.afterReset with bandSet := false } } } }

/-- Entry into CONFIG_HOLD with its reason (R396): no record is in force (R354), the media rails are lowered and MEDRST_N
asserted. -/
def State.configHold (s : State) (reason : Nat) : State :=
  let s := { s with
    boot := { s.boot with holdReason := BitVec.ofNat 4 reason }, cfg := { s.cfg with record := [] } }
  (s.setDev .configHold).lowerMedia

/-- Signal an MSI-X vector at a head (R327). -/
def State.vector (s : State) (h : TileId) (v : Nat) : State := s.modHead h (·.signal v)
/-- Signal an MSI-X vector at every management head. -/
def State.vectorMgmt (s : State) (v : Nat) : State :=
  { s with heads := vmap s.heads fun h x =>
      if s.mgmtHeads.getLsbD h && s.inSvc h then x.signal v else x }

/-! ### Mailboxes (R341, R343) -/

/-- Return codes (R343) with the values that CXL 3.1 assigns. -/
inductive Ret where
  | success | started | invalidInput | unsupported | internalError | retryRequired | busy | mediaDisabled
  | fwInProgress | fwOutOfOrder | fwVerify | invalidSlot | coldReset | invalidHandle | invalidAddress | injectLimit
  | aborted | securityState | passphrase | wrongMailbox | payloadLength
deriving DecidableEq, Repr

def Ret.code : Ret → Nat
  | .success => 0 | .started => 1 | .invalidInput => 2 | .unsupported => 3 | .internalError => 4 | .retryRequired => 5
  | .busy => 6 | .mediaDisabled => 7 | .fwInProgress => 8 | .fwOutOfOrder => 9 | .fwVerify => 10 | .invalidSlot => 11
  | .coldReset => 13 | .invalidHandle => 14 | .invalidAddress => 15 | .injectLimit => 16 | .aborted => 18
  | .securityState => 19 | .passphrase => 20 | .wrongMailbox => 21 | .payloadLength => 22

/-- One mailbox interface. -/
def State.mbox (s : State) : Iface → Mailbox
  | .head h sec => if sec then s.heads[h].mb[1] else s.heads[h].mb[0]
  | .mctp => s.svc.mctp

def State.modMb (s : State) (m : Iface) (f : Mailbox → Mailbox) : State :=
  match m with
  | .head h sec => s.modHead h fun x => { x with mb := vmod x.mb (if sec then 1 else 0) f }
  | .mctp => { s with svc := { s.svc with mctp := f s.svc.mctp } }

/-- The head whose own state a command acts on: the head it came through; for the sideband endpoint, the lead tile's. -/
def State.headOf (s : State) : Iface → TileId
  | .head h _ => h
  | .mctp => s.lead

/-- The place of a mailbox in the round of R341: the primary and secondary mailbox of each head, then the MCTP endpoint. -/
def ifaceIdx : Iface → Nat
  | .head h sec => 2 * h.val + b2n sec
  | .mctp => 16

/-- The mailboxes in the order of the round. -/
def ifaces : List Iface := (allTiles.flatMap fun (h : TileId) => [.head h false, .head h true]) ++ [.mctp]

/-- The mailbox that the Stag serves next: the first with a rung doorbell after the one served last (R341). -/
def State.nextMb (s : State) : Option Iface :=
  let k := s.svc.lastMb + 1
  (ifaces.drop k ++ ifaces.take k).find? fun m => (s.mbox m).cmd.isSome

/-- A command completes: return code, extended status and output are posted, the doorbell clears and, if the host enabled it,
vector 0 of the head is signalled (R341, R344); after a reset of the head the completion is discarded (R400). -/
def State.mbFinish (s : State) (m : Iface) (code : Ret) (ext : Nat := 0) (out : List Byte := []) : State :=
  let posted := !(s.mbox m).dropped && (s.mbox m).irq
  let s := s.modMb m fun b =>
    if b.dropped then { b with doorbell := false, cmd := none, dropped := false }
    else { b with doorbell := false, cmd := none, status := BitVec.ofNat 16 code.code, ext := BitVec.ofNat 16 ext,
                  output := out }
  let s := if s.svc.waiting.map (·.1) = some m then { s with svc := { s.svc with waiting := none, waitOut := [] } } else s
  let s := { s with svc := { s.svc with lastMb := ifaceIdx m } }
  match m with
  | .head h _ => if posted then s.vector h 0 else s
  | .mctp => s

/-- The command and the background operation that the lead executes are abandoned (R381): what flash and store writes already made
durable stays, the writes under way finish, entries of extents that were not admitted yet go, and nothing completes. -/
def State.abandonCommands (s : State) : State :=
  let s := { s with svc := { s.svc with bg := none } }
  match s.svc.waiting with
  | none => s
  | some (m, w) =>
    let s := s.modMb m fun b => { b with cmd := none }
    let s := match w with
      | .add _ exts => { s with
          mesh := { s.mesh with extWaits := [] }
          svc := { s.svc with extents := s.svc.extents.filter fun e => !(e.heads = 0 && exts.contains (e.base, e.blocks)) } }
      | _ => s
    { s with svc := { s.svc with waiting := none, waitOut := [] } }

/-! ### Performance counters (R646, R647) -/

/-- Block codes with counters in the collector. -/
def ctrKey (tile block index : Nat) : Nat := (32 * tile + block) * 8 + index

/-- One counter increases; beyond its last value it continues from zero and its sticky overflow bit sets. -/
def State.count (s : State) (tile block index : Nat) (n : Nat := 1) : State :=
  if s.pmc.frozen then s
  else
    let k := ctrKey tile block index
    let v := (Sparse.get (0 : BitVec 48) s.pmc.ctr k).toNat + n
    let p := { s.pmc with ctr := Sparse.set 0 s.pmc.ctr k (BitVec.ofNat 48 v) }
    if v < 2 ^ 48 then { s with pmc := p }
    else { s with pmc := { p with ovf := if p.ovf.contains k then p.ovf else k :: p.ovf,
                                  newOver := if p.ovf.contains k then p.newOver else k :: p.newOver } }

end Sys2Proof.Machine
end

