-- ==== Sys2Proof/Machine/Codes.lean ====
section
/-! DEFINITION. The codes of SRAM words (R224, R225), stored lines (R229 to R233), stripes (R157 to R159, R234), pages
(R235, R236) and YMI bursts (R70, R73). Encoders give the bytes that are written. What a read gets wrong is a list of
bit places; every code here is linear, so a decoder needs those places alone to tell its result. -/

namespace Sys2Proof.Machine

/-- Flips of one bit cancel in pairs: the places that are listed an odd number of times. -/
def oddOnes (l : List Nat) : List Nat := l.eraseDups.filter fun x => l.count x % 2 = 1

/-- XOR of byte strings, as long as the longer one. -/
def xorBytes (a b : List Byte) : List Byte :=
  (List.range (max a.length b.length)).map fun i => a.getD i 0 ^^^ b.getD i 0

/-! ### SRAM words (R224 to R226) -/

/-- Ones in a column of up to 8 check bits. -/
def colWeight (x : Nat) : Nat := (List.range 8).countP (x.testBit ·)

/-- Data columns of a code with `r` check bits: odd weights of 3 or more, lowest first. The spec fixes their parity
alone; the order is a DESIGN CHOICE (log 76). -/
def secDataCols (r : Nat) : List Nat :=
  (List.range (2 ^ r)).filter (colWeight · = 3) ++ (List.range (2 ^ r)).filter (colWeight · = 5)

/-- Address columns: distinct, not zero, of even weight (log 76). -/
def secAddrCols (r : Nat) : List Nat :=
  (List.range (2 ^ r)).filter (colWeight · = 2) ++ (List.range (2 ^ r)).filter (colWeight · = 4)

/-- Columns of the data bits and then of the check bits. -/
def secCols (r bits : Nat) : List Nat := (secDataCols r).take bits ++ (List.range r).map (2 ^ ·)

/-- The syndrome of a read: `flips` are the bits that come back wrong (data bits first, then check bits), `diff` the bits
in which the word's own address differs from the address accessed. -/
def secSyndrome (r bits : Nat) (flips diff : List Nat) : Nat :=
  let x := (oddOnes flips).foldl (fun a k => a ^^^ (secCols r bits).getD k 0) 0
  (oddOnes diff).foldl (fun a k => a ^^^ (secAddrCols r).getD k 0) x

/-- What a read of an SRAM word gives. -/
inductive SramRead where
  | clean | corrected | bad
deriving DecidableEq, Repr

/-- R225: a zero syndrome is clean, one equal to the column of a data or check bit is corrected, any other is
uncorrectable; so is a word whose two valid bits disagree (R226). -/
def secRead (r bits : Nat) (flips diff : List Nat) (latch : Bool) : SramRead :=
  let x := secSyndrome r bits flips diff
  if latch then .bad else if x = 0 then .clean else if (secCols r bits).contains x then .corrected else .bad

/-! ### Finite fields -/

/-- Product in GF(2^deg) under the primitive polynomial `poly`, its top bit included. -/
def gfMul (poly deg a b : Nat) : Nat :=
  (List.range deg).reverse.foldl (fun r i =>
    let d := if (2 * r).testBit deg then (2 * r) ^^^ poly else 2 * r
    if b.testBit i then d ^^^ a else d) 0

/-- Power of an element. -/
def gfPow (poly deg a : Nat) : Nat → Nat
  | 0 => 1
  | n + 1 => gfMul poly deg a (gfPow poly deg a n)

/-- GF(2^10) of R231: x^10 + x^3 + 1. -/
def mul10 (a b : Nat) : Nat := gfMul 0x409 10 a b
/-- α^n. -/
def exp10 (n : Nat) : Nat := gfPow 0x409 10 2 (n % 1023)
/-- GF(2^8) of R235: x^8 + x^4 + x^3 + x^2 + 1. -/
def mul8 (a b : Nat) : Nat := gfMul 0x11D 8 a b
/-- β^n. -/
def exp8 (n : Nat) : Nat := gfPow 0x11D 8 2 (n % 255)

/-- The inverse of an element that is not zero. -/
def inv10 (a : Nat) : Nat := gfPow 0x409 10 a 1022

/-- Product of a polynomial (coefficients from x^0 up) with x - a. -/
def mulRoot (mul : Nat → Nat → Nat) (p : List Nat) (a : Nat) : List Nat :=
  (List.range (p.length + 1)).map fun i =>
    (if i = 0 then 0 else p.getD (i - 1) 0) ^^^ mul a (p.getD i 0)

/-- Value of a polynomial. -/
def evalPoly (mul : Nat → Nat → Nat) (p : List Nat) (x : Nat) : Nat := p.foldr (fun c r => c ^^^ mul x r) 0

/-! ### The line code (R231) -/

/-- The exponents of the roots of g: the conjugates of α^1, α^3, ... α^15. -/
def bchRoots : List Nat :=
  (((List.range 8).map fun k => 2 * k + 1).flatMap fun i => (List.range 10).map fun j => i * 2 ^ j % 1023).eraseDups

/-- The generator g(x) of R231 as a number whose bit k is the coefficient of x^k. -/
def bchGen : Nat :=
  let p := bchRoots.foldl (fun p i => mulRoot mul10 p (exp10 i)) [1]
  (List.range p.length).foldl (fun n k => n + p.getD k 0 * 2 ^ k) 0

/-- The bits of bytes, each from bit 7 down to bit 0. -/
def bitsDown (bs : List Byte) : List Bool := bs.flatMap fun b => (List.range 8).map fun i => b.getLsbD (7 - i)

/-- Bytes from bits, each from bit 7 down to bit 0. -/
def bytesDown (bits : List Bool) (n : Nat) : List Byte :=
  (List.range n).map fun k => BitVec.ofNat 8 ((List.range 8).foldl (fun v i => 2 * v + b2n (bits.getD (8 * k + i) false)) 0)

/-- The BCH field of a stored line: the remainder of message × x^80 by g, for the media address and bytes 0 to 69. -/
def bchField (ma : Nat) (head : List Byte) : List Byte :=
  let msg := ((List.range 40).map fun i => ma.testBit (39 - i)) ++ bitsDown head
  let r := msg.foldl (fun r b =>
    let d := (2 * r) % 2 ^ 80
    if r.testBit 79 != b then d ^^^ (bchGen % 2 ^ 80) else d) 0
  bytesDown ((List.range 80).map fun i => r.testBit (79 - i)) 10

/-- The syndrome S_j of a pattern of wrong places; place p is the coefficient of x^(679 - p). -/
def bchSyndrome (flips : List Nat) (j : Nat) : Nat := flips.foldl (fun a p => a ^^^ exp10 (j * (679 - p))) 0

/-- The state of the Berlekamp-Massey recursion. -/
structure BmState where
  c : List Nat := [1]
  b : List Nat := [1]
  len : Nat := 0
  shift : Nat := 1
  disc : Nat := 1
deriving DecidableEq, Repr

/-- One step of the recursion, on syndrome n. -/
def bmStep (syn : List Nat) (x : BmState) (n : Nat) : BmState :=
  let d := (List.range (x.len + 1)).foldl (fun a i => a ^^^ mul10 (x.c.getD i 0) (syn.getD (n - i) 0)) 0
  if d = 0 then { x with shift := x.shift + 1 }
  else
    let k := mul10 d (inv10 x.disc)
    let c := (List.range (max x.c.length (x.b.length + x.shift))).map fun i =>
      x.c.getD i 0 ^^^ (if i < x.shift then 0 else mul10 k (x.b.getD (i - x.shift) 0))
    if 2 * x.len ≤ n then { c := c, b := x.c, len := n + 1 - x.len, shift := 1, disc := d }
    else { x with c := c, shift := x.shift + 1 }

/-- The places that a bounded-distance decoder of R231 corrects: at most 8, or none. Up to 8 wrong places are found
exactly, since any two codewords differ in at least 17; with more, the pattern of 8 or fewer that has the same
syndromes is found where one exists. -/
def bchLocate (flips : List Nat) : Option (List Nat) :=
  if flips.length ≤ 8 then some flips
  else
    let syn := (List.range 16).map fun j => bchSyndrome flips (j + 1)
    let x := (List.range 16).foldl (bmStep syn) {}
    let at_ := (List.range 680).filter fun p => evalPoly mul10 x.c (exp10 (1023 * 680 - (679 - p))) = 0
    if x.len ≤ 8 ∧ at_.length = x.len then some at_ else none

/-! ### Stored lines (R229, R230, R232, R233) -/

/-- The CRC-32C C of R230 over a line's media address and bytes 0 to 65. -/
def lineCrc (ma : Nat) (head : List Byte) : BitVec 32 := crc32c (leBytes 5 ma ++ head.take 66)

/-- A line of 80 bytes: DATA and META, CHECK, BCH (R229). -/
def sealLine (ma : Nat) (head : List Byte) (check : BitVec 32) : List Byte :=
  let h := head ++ leBytes 4 check.toNat
  h ++ bchField ma h

/-- A data, carry, tag or record line as written (R230): a poisoned line has zero DATA and the complement of C. -/
def encodeLine (ma : Nat) (data : List Byte) (tag : Nat) (poison : Bool) : List Byte :=
  let head := (if poison then List.replicate 64 0 else data) ++ leBytes 2 tag
  sealLine ma head (if poison then ~~~ lineCrc ma head else lineCrc ma head)

/-- The bytes of a pattern of codeword places: the 5 address bytes, then bytes 0 to 69. -/
def patternBytes (places : List Nat) : List Byte :=
  let byteOf (p : Nat) : Nat × Nat := if p < 40 then ((39 - p) / 8, (39 - p) % 8) else (5 + (p - 40) / 8, 7 - (p - 40) % 8)
  (List.range 75).map fun k =>
    BitVec.ofNat 8 ((places.map byteOf).foldl (fun v x => if x.1 = k then v ^^^ 2 ^ x.2 else v) 0)

/-- How CHECK differs from C when these places are wrong. -/
def checkDelta (left : List Nat) : BitVec 32 :=
  let b := patternBytes left
  (b.take 71).foldl crc32cByte 0 ^^^ BitVec.ofNat 32 (leNat (b.drop 71))

/-- Decoding of a line whose codeword comes back wrong in `flips` (R232). A page parity line has the BCH condition
alone. Places 0 to 39 are the address bits, wrong where another address's line came back. -/
def readLine (parity : Bool) (flips : List Nat) : LineRead :=
  let f := oddOnes (flips.filter (· < 680))
  match bchLocate f with
  | none => .failed
  | some e =>
    if e.any (· < 40) then .misdirected
    else
      let left := oddOnes (f ++ e)
      if parity || left = [] then .good e.length left false
      else if checkDelta left = 0 then .good e.length left false
      else if checkDelta left = BitVec.allOnes 32 then .good e.length left true
      else .failed

/-- The corrected count of a line that decodes. -/
def LineRead.count : LineRead → Option Nat
  | .good n _ _ => some n
  | _ => none

def LineRead.ok (r : LineRead) : Bool := r.count.isSome

/-- What the reads of an event get wrong, by line; a line that is not listed comes back as it was written. -/
def noiseOf (noise : Noise) (l : Nat) : List Nat := (tabGet noise l).getD []

/-! ### The page code (R235, R236) -/

/-- The generator (x - β^0) ... (x - β^15), coefficients from x^0 up. -/
def rsGen : List Nat := (List.range 16).foldl (fun p i => mulRoot mul8 p (exp8 i)) [1]

/-- The 16 parity symbols of a lane, for lines 64 to 79: the remainder of its 64 symbols times x^16. -/
def rsParity (lane : List Nat) : List Nat :=
  lane.foldl (fun r v =>
    let f := v ^^^ r.headD 0
    (List.range 16).map fun i => r.getD (i + 1) 0 ^^^ mul8 f (rsGen.getD (15 - i) 0)) (List.replicate 16 0)

/-- Bytes 0 to 69 of page lines 64 to 79 from those of lines 0 to 63. -/
def pageParity (heads : List (List Byte)) : List (List Byte) :=
  let lanes := (List.range 70).map fun j => rsParity (heads.map fun h => (h.getD j 0).toNat)
  (List.range 16).map fun k => lanes.map fun p => BitVec.ofNat 8 (p.getD k 0)

/-- The reads of a page's 80 lines; `dead` are the lines of dies that give nothing. -/
def readPage (dead : List Nat) (noise : Noise) : List (Nat × LineRead) :=
  (List.range 80).map fun l => (l, if dead.contains l then .failed else readLine (decide (64 ≤ l)) (noiseOf noise l))

/-- Lines that the line code does not give: the erasures of R237. -/
def erased (reads : List (Nat × LineRead)) : List Nat := (reads.filter fun r => !r.2.ok).map (·.1)

/-- Lines that decode but are wrong, with their wrong bytes. -/
def wrongLines (reads : List (Nat × LineRead)) : List (Nat × List Byte) :=
  reads.filterMap fun r => match r.2 with
    | .good _ left _ => if left = [] then none else some (r.1, (patternBytes left).drop 5)
    | _ => none

/-- 2e + f ≤ 16 in every lane, with at most `e` wrong lines (R236). -/
def withinCode (reads : List (Nat × LineRead)) (most : Nat) : Bool :=
  let f := (erased reads).length
  let w := wrongLines reads
  (List.range 70).all fun j =>
    let e := w.countP fun x => x.2.getD j 0 ≠ 0
    decide (2 * e + f ≤ 16 ∧ e ≤ most)

/-- A syndrome of a lane, of the wrong symbols alone: a codeword's own syndromes are zero. -/
def laneSyndrome (w : List (Nat × List Byte)) (j i : Nat) : Nat :=
  w.foldl (fun a x => a ^^^ mul8 (x.2.getD j 0).toNat (exp8 (i * (79 - x.1)))) 0

/-- Rung 4 of R237: the dies that gave FAILED lines are read again, and each line that now decodes is replaced. -/
def rereadPage (dead : List Nat) (reads : List (Nat × LineRead)) (again : Noise) : List (Nat × LineRead) :=
  reads.map fun r =>
    if r.2.ok || dead.contains r.1 then r
    else
      let x := readLine (decide (64 ≤ r.1)) (noiseOf again r.1)
      if x.ok then (r.1, x) else r

/-- The page checks: every line is given, and all 70 lane syndromes are zero (R236). -/
def pageChecks (reads : List (Nat × LineRead)) : Bool :=
  erased reads = [] && (List.range 70).all fun j => (List.range 16).all fun i => laneSyndrome (wrongLines reads) j i = 0

/-- Rungs 3 to 5 give the lines that the line code did not: erasures alone, or within the bound of R236. -/
def pageGives (reads : List (Nat × LineRead)) : Bool := withinCode reads 0 || withinCode reads 8

/-- The largest corrected count of the lines that decode. -/
def worstCount (reads : List (Nat × LineRead)) : Nat := reads.foldl (fun m r => max m (r.2.count.getD 0)) 0

/-! ### Stripes (R157 to R159, R163, R234) -/

/-- One entry of a tag line, from the home unit, page index and line of a data or carry line (R158). -/
def tagEntry (kind u pidx line : Nat) : Nat := kind + u * 2 ^ 2 + pidx * 2 ^ 8 + line * 2 ^ 31

/-- The 64 data bytes of a tag line (R158), from its six entries. -/
def tagBytes (seq epoch area : Nat) (entries : List Nat) : List Byte :=
  let b := leBytes 8 seq ++ ((List.range 6).flatMap fun i => leBytes 8 (entries.getD i 0)) ++ leBytes 4 epoch
    ++ [BitVec.ofNat 8 (entries.countP (· % 4 ≠ 0)), BitVec.ofNat 8 area]
  b ++ leBytes 2 (crc16 b).toNat

/-- A tag line reads as written: its CRC-16 checks (R158). -/
def tagOk (b : List Byte) : Bool := decide (b.length = 64 ∧ (crc16 (b.take 62)).toNat = fieldAt b 62 2)

/-- The 64 bytes of a placement or discard record line (R163). -/
def recordLine (type unit change ring value length : Nat) : List Byte :=
  [BitVec.ofNat 8 type] ++ List.replicate 7 0 ++ [BitVec.ofNat 8 unit, BitVec.ofNat 8 change, 0, 0] ++ leBytes 4 ring
    ++ leBytes 8 value ++ leBytes 8 length ++ List.replicate 32 0

/-- Bytes 0 to 69 of a stripe's parity line: the XOR of those of the other seven (R157, R234). -/
def stripeParity (heads : List (List Byte)) : List Byte := heads.foldl xorBytes (List.replicate 70 0)

/-- The lines of a stripe that a read of its other lines rebuilds: one line alone (R239). Index 7 is the parity line. -/
def stripeGives (dead : List Nat) (noise : Noise) (i : Nat) : Bool :=
  (List.range 8).all fun k => k = i || (!dead.contains k && (readLine (decide (k = 7)) (noiseOf noise k)).ok)

/-- A staged line whose bytes at META come back wrong disagrees with its tag line (R159). -/
def metaWrong : LineRead → Bool
  | .good _ left _ => left.any fun p => decide (552 ≤ p ∧ p < 568)
  | _ => false

/-- Line `i` of a stripe is given by its own read, or rebuilt from the other seven (R159, R239). -/
def stagedGives (dead : List Nat) (noise : Noise) (i : Nat) : Bool :=
  let r := readLine false (noiseOf noise i)
  (!dead.contains i && r.ok && !metaWrong r) || stripeGives dead noise i

/-! ### YMI bursts (R70, R73) -/

/-- A burst: its payload, the CRC-16 over it, and zero padding to whole YCK cycles of 8 bytes. -/
def burstOf (payload : List Byte) : List Byte :=
  let b := payload ++ leBytes 2 (crc16 payload).toNat
  b ++ List.replicate ((8 - b.length % 8) % 8) 0

/-- YCK cycles of a burst (R70). -/
def burstCycles (payload : Nat) : Nat := (payload + 2 + 7) / 8

/-- The receiver's CRC check of a burst whose bits `flips` came wrong, for a payload of `n` bytes. The CRC is linear, so
the check is that of the pattern of wrong bits; those of the padding count for nothing. -/
def burstBad (n : Nat) (flips : List Nat) : Bool :=
  let f := (oddOnes flips).filter (· < 8 * n + 16)
  let byte (k : Nat) : Byte := BitVec.ofNat 8 (f.foldl (fun v p => if p / 8 = k then v ^^^ 2 ^ (p % 8) else v) 0)
  f ≠ [] && ((List.range n).map byte).foldl crc16Byte 0 != BitVec.ofNat 16 ((byte n).toNat + 256 * (byte (n + 1)).toNat)

end Sys2Proof.Machine
end

