-- ==== Sys2Proof/Machine/Param.lean ====
section
/-! DEFINITION. The parameter page of a media die: its bytes and its validity (R84, R85), curve entries and waveform
records (R88, R89), and the step time of a waveform (R287). -/

namespace Sys2Proof.Machine

/-- The 8 bytes of a curve entry (R88). -/
def curveBytes (e : CurveEntry) : List Byte :=
  leBytes 2 e.ref1.toNat ++ leBytes 2 e.ref2.toNat ++ leBytes 2 e.ref3.toNat ++ leBytes 2 e.refSlc.toNat

/-- A curve entry from its bytes. -/
def curveOf (b : List Byte) : CurveEntry :=
  { ref1 := BitVec.ofNat 12 (fieldAt b 0 2), ref2 := BitVec.ofNat 12 (fieldAt b 2 2),
    ref3 := BitVec.ofNat 12 (fieldAt b 4 2), refSlc := BitVec.ofNat 12 (fieldAt b 6 2) }

/-- The 64 bytes of a waveform record (R89). -/
def waveBytes (w : WaveRec) : List Byte :=
  w.toList.flatMap fun l => leBytes 4 l.seg0.toNat ++ leBytes 4 l.seg1.toNat ++ leBytes 4 l.seg2.toNat
    ++ leBytes 2 l.verifyRef.toNat ++ [l.maxApply, l.stepInc]

/-- A waveform record from its bytes. -/
def waveOf (b : List Byte) : WaveRec :=
  Vector.ofFn fun t =>
    let o := 16 * t.val
    { seg0 := BitVec.ofNat 32 (fieldAt b o 4), seg1 := BitVec.ofNat 32 (fieldAt b (o + 4) 4),
      seg2 := BitVec.ofNat 32 (fieldAt b (o + 8) 4), verifyRef := BitVec.ofNat 16 (fieldAt b (o + 12) 2),
      maxApply := BitVec.ofNat 8 (fieldAt b (o + 14) 1), stepInc := BitVec.ofNat 8 (fieldAt b (o + 15) 1) }

/-- The entry of a band and bucket in a curve table. -/
def curveAt (c : List (Nat × CurveEntry)) (band b : Nat) : CurveEntry := (tabGet c (16 * band + b)).getD {}

/-- The record of a band and waveform in a waveform table. -/
def waveAt (c : List (Nat × WaveRec)) (band w : Nat) : WaveRec := (tabGet c (4 * band + w)).getD (.replicate 4 {})

/-- A band's curve meets R88: references ascend in each entry, and none decreases with the bucket. -/
def curveOk (c : List (Nat × CurveEntry)) (band : Nat) : Bool :=
  ((List.range 16).all fun b =>
    let e := curveAt c band b
    decide (e.ref1.toNat < e.ref2.toNat ∧ e.ref2.toNat < e.ref3.toNat))
  && (List.range 15).all fun b =>
    let e := curveAt c band b
    let f := curveAt c band (b + 1)
    decide (e.ref1.toNat ≤ f.ref1.toNat ∧ e.ref2.toNat ≤ f.ref2.toNat ∧ e.ref3.toNat ≤ f.ref3.toNat)

/-- Every band's curve meets R88; a table that lists no entry holds the defaults, which do. -/
def curvesOk (c : List (Nat × CurveEntry)) : Bool := c = [] || (List.range 6).all (curveOk c)

/-- Offsets 0 to 4,091 of a copy (R84). -/
def ParamPage.body (p : ParamPage) : List Byte :=
  leBytes 4 p.signature.toNat ++ leBytes 2 p.format.toNat ++ leBytes 2 p.supplier.toNat ++ leBytes 8 p.model.toNat
    ++ leBytes 16 p.serial.toNat ++ leBytes 4 p.cellsLog2.toNat ++ [p.partitions, p.linesMlc, p.linesSlc, 0]
    ++ leBytes 4 p.slots.toNat ++ leBytes 4 p.enduranceMlc.toNat ++ leBytes 4 p.enduranceSlc.toNat
    ++ leBytes 2 p.tSusrdPs.toNat ++ leBytes 2 p.tResumeNs.toNat ++ leBytes 4 p.tSusmaxUs.toNat
    ++ leBytes 2 p.maxProgs.toNat ++ [0, 0]
    ++ ((List.range 6).flatMap fun b =>
        leBytes 2 (p.readNs.toList.getD b 0) ++ leBytes 2 (p.slcNs.toList.getD b 0) ++ leBytes 2 (p.mlcNs.toList.getD b 0) ++ [0, 0])
    ++ leBytes 4 p.qualId.toNat ++ List.replicate 12 0
    ++ ((List.range 96).flatMap fun k => curveBytes ((tabGet p.curves k).getD {}))
    ++ ((List.range 24).flatMap fun k => waveBytes ((tabGet p.waves k).getD (.replicate 4 {})))
    ++ List.replicate 1660 0

/-- The 4,096 bytes of a copy. -/
def ParamPage.bytes (p : ParamPage) : List Byte := p.body ++ leBytes 4 (crc32c p.body ^^^ p.crcDelta).toNat

/-- A copy is valid: CRC, SIGNATURE, FORMAT, geometry, timing limits, and R88 (R85). -/
def ParamPage.valid (p : ParamPage) : Bool :=
  p.crcDelta = 0 && p.signature = 0x594D5050 && p.format = 1
    && p.cellsLog2 = 38 && p.partitions = 16 && p.linesMlc = 10 && p.linesSlc = 5 && p.slots = 5242880
    && decide (p.tSusrdPs.toNat ≤ 12000 ∧ p.tResumeNs.toNat ≤ 40 ∧ 1000 ≤ p.tSusmaxUs.toNat)
    && p.readNs.toList.all (· ≤ 130) && p.slcNs.toList.all (· ≤ 340) && p.mlcNs.toList.all (· ≤ 3200)
    && curvesOk p.curves

/-- A copy of a die's parameter page. -/
def DieNv.copy (d : DieNv) (k : Nat) : ParamPage := if k = 0 then d.copy0 else d.copy1

/-- The copy that the part uses: copy 0 if it is valid, otherwise copy 1 (R85). -/
def DieNv.used (d : DieNv) : Option ParamPage :=
  if !d.fitted then none else if d.copy0.valid then some d.copy0 else if d.copy1.valid then some d.copy1 else none

/-- The page that the part works with; the default page of a die without a valid copy, which is not present. -/
def DieNv.page (d : DieNv) : ParamPage := d.used.getD {}

/-- The 64 bytes that READ_PARAM returns for a unit: 0 to 63 of copy 0, 64 to 127 of copy 1 (R84). -/
def DieNv.unit (d : DieNv) (u : Nat) : List Byte := bytesAt (d.copy (u / 64)).bytes (64 * (u % 64)) 64

/-- Total duration in ns of the present segments of a level entry (R287, R289). -/
def segNs (l : WaveLevel) : Nat :=
  let d (x : BitVec 32) : Nat := x.toNat / 1024 % 4096
  d l.seg0 + d l.seg1 + d l.seg2

/-- The step time of a waveform: the largest over its level entries (R287). -/
def waveNs (w : WaveRec) : Nat := w.toList.foldl (fun m l => max m (segNs l)) 0

/-- The segments that the n-th application of a level entry drives (R89): those present, with STEP_INC added to the
amplitude for each repeat; none beyond MAX_APPLY, nor where every segment is absent. -/
def applied (l : WaveLevel) (n : Nat) : List (BitVec 32) :=
  if segNs l = 0 ∨ n > l.maxApply.toNat then []
  else ([l.seg0, l.seg1, l.seg2].filter fun x => x.toNat / 1024 % 4096 ≠ 0).map fun x =>
    let amp := min 1023 (x.toNat % 1024 + (n - 1) * l.stepInc.toNat)
    BitVec.ofNat 32 (x.toNat - x.toNat % 1024 + amp)

/-- The level entries that a program step uses: 0 and 3 in SLC mode, all four in MLC mode (R89). -/
def levelsOf (slc : Bool) : List Nat := if slc then [0, 3] else [0, 1, 2, 3]

end Sys2Proof.Machine
end

