-- ==== Sys2Proof/Machine/Map.lean ====
section
/-! DEFINITION. Addresses: the home of a line (R112), media addresses (R114, R115), cache sets (R147), directory buckets
(R166), age stamps (R203 to R212), staging size and capacity (R134, R138). Line numbers are DPA div 64. -/

namespace Sys2Proof.Machine

/-- fold8 of R112: the XOR of the eight bytes of a 64-bit value. -/
def fold8 (x : Nat) : Nat := (List.range 8).foldl (fun a i => a ^^^ (x / 256 ^ i % 256)) 0

/-- The first number from `a` upward in steps of 2 that neither 3 nor 283 divides; the loop runs at most twice. -/
def scatterStep : Nat → Nat → Nat
  | 0, a => a
  | n + 1, a => if a % 3 = 0 ∨ a % 283 = 0 then scatterStep n (a + 2) else a

/-- The multiplier of step 3 of R112. -/
def scatterMul (key : Nat) : Nat := scatterStep 4 (key % 2 ^ 32 % 10188 * 2 + 1)

/-- The physical ring of row k (step 3 of R112). -/
def ringOfRow (key k : Nat) : Nat := (scatterMul key * k + key / 2 ^ 32 % 20376) % 20376

/-- The row whose physical ring is `ring`. -/
def rowOfRing (key ring : Nat) : Nat := ((List.range 20376).find? fun k => ringOfRow key k = ring).getD 0

/-- Where a line belongs: the results of steps 1 to 3 of R112. -/
structure Home where
  tile : TileId
  unit : Nat
  pidx : Nat
  line : Nat
  row : Nat
  ring : Nat
  jj : Nat
deriving DecidableEq, Repr

def Home.chan (h : Home) : ChanId := toChan (h.unit / 16)
def Home.part (h : Home) : Fin 16 := toPart h.unit

/-- Steps 1 to 3 of R112, on the inputs of R109, for line number `n` under record `r` and scatter key `key`. -/
def homeOf (r : List Byte) (key n : Nat) : Home :=
  let g := n / 64
  let tt := recT r
  let q := g / tt
  let v := recC r * 16
  let pidx := q / v
  let u := (q % v) ^^^ (fold8 pidx &&& (v - 1))
  let k := pidx / 255
  let ring := ringOfRow key k
  { tile := toTile (recTile r ((g % tt + fold8 q % tt) % tt)), unit := u, pidx := pidx, line := n % 64, row := k,
    ring := ring, jj := (pidx % 255 + (((key / 2 ^ 48) ^^^ ring) % 255)) % 255 }

/-- Moves that ring p has completed when its unit has completed m (step 4 of R112, before the modulus). -/
def ringMoves (m ring : Nat) : Nat := m / 20376 + b2n (decide (ring < m % 20376))

/-- The ring-slot of the page jj of a ring (step 4 of R112). -/
def ringSlotOf (m ring jj : Nat) : Nat :=
  let n := ringMoves m ring % 65280
  let b := (jj + n / 256) % 255
  if n % 256 ≠ 0 ∧ b ≥ 255 - n % 256 then b + 1 else b

/-- The ring-slot of the gap: 255 - x (R117). -/
def gapSlot (m ring : Nat) : Nat := 255 - ringMoves m ring % 65280 % 256

/-- Step 5 of R112. -/
def remapped (l : List RemapEntry) (unit slot : Nat) : Nat :=
  match l.find? fun e => e.unit = unit ∧ e.slot = slot with
  | some e => 256 * 20479 + e.pool
  | none => slot

/-- The page slot of a home, before step 5. -/
def homeSlotRaw (p : Placement) (h : Home) : Nat := 256 * h.ring + ringSlotOf (Sparse.get 0 p.moves h.unit) h.ring h.jj

/-- The page slot of a home (R112). -/
def homeSlot (p : Placement) (h : Home) : Nat := remapped p.remap h.unit (homeSlotRaw p h)

/-- The first line number of the page `pidx` of a unit: the inverse of steps 1 and 2 of R112 (R113). -/
def pageLine (r : List Byte) (tile : TileId) (unit pidx : Nat) : Nat :=
  let tt := recT r
  let v := recC r * 16
  let q := pidx * v + (unit ^^^ (fold8 pidx &&& (v - 1)))
  let t0 := ((List.range tt).find? fun t0 => toTile (recTile r ((t0 + fold8 q % tt) % tt)) = tile).getD 0
  (q * tt + t0) * 64

/-- The logical die that holds page line L of page slot s, and its line position (R114). -/
def lineDie (slot line : Nat) : Nat := (line + slot) % 8

/-- The media address of a stored line (R115). -/
def mediaAddress (mode tile chan ldie part slot pos : Nat) : Nat :=
  mode * 2 ^ 39 + tile * 2 ^ 36 + chan * 2 ^ 34 + ldie * 2 ^ 31 + part * 2 ^ 27 + slot * 2 ^ 4 + pos

/-- The cache set of a line (R147). -/
def cacheSet (h : Home) : Nat := (h.pidx % 256 * 64 + h.line) ^^^ (h.unit * 256)

/-- The directory bucket of a line (R166). -/
def dirBucket (h : Home) : Nat := (h.pidx % 2 ^ 17) ^^^ (h.unit * 2 ^ 11 + h.line * 2 ^ 5)

/-- The key of a page slot in a tile's media. -/
def pageKey (unit slot : Nat) : Nat := 5242880 * unit + slot

/-- The scatter key (R111): content bytes 4 to 11 of the twin in page 14. -/
def State.scatterKey (s : State) : Nat :=
  match (twinRead (s.prmPage 14)).1 with
  | some c => fieldAt c 0 8
  | none => 0

/-- The home of line number `n` under the record in force. -/
def State.home (s : State) (n : Nat) : Home := homeOf s.cfg.record s.scatterKey n

/-- The page slot of a home in its tile. -/
def State.slotOf (s : State) (h : Home) : Nat := homeSlot s.tiles[h.tile].pl h

/-- The home of a page of a unit of tile `t`. -/
def State.pageHome (s : State) (t : TileId) (unit pidx : Nat) : Home :=
  s.home (pageLine s.cfg.record t unit pidx)

/-- The WRITTEN bit of a ring (R122). -/
def ringWritten (p : Placement) (unit ring : Nat) : Bool := Sparse.get false p.written (20480 * unit + ring)

/-- The pidx of the page that a raw home slot of a unit holds: the inverse of step 4 of R112. -/
def State.slotPidx (s : State) (t : TileId) (unit slot : Nat) : Nat :=
  let key := s.scatterKey
  let ring := slot / 256
  let m := Sparse.get 0 s.tiles[t].pl.moves unit
  let jj := ((List.range 255).find? fun j => ringSlotOf m ring j = slot % 256).getD 0
  let c := ((key / 2 ^ 48) ^^^ ring) % 255
  255 * rowOfRing key ring + (jj + 255 - c) % 255

/-- The home slot that a page slot serves: itself, or the slot of the remap entry that names a pool slot (R125). -/
def servedSlot (l : List RemapEntry) (unit slot : Nat) : Nat :=
  match l.find? fun e => e.unit = unit ∧ 256 * 20479 + e.pool = slot with
  | some e => e.slot
  | none => slot

/-- The first line number of the page that a page slot of a unit holds. -/
def State.slotFirst (s : State) (t : TileId) (unit slot : Nat) : Nat :=
  pageLine s.cfg.record t unit (s.slotPidx t unit (servedSlot s.tiles[t].pl.remap unit slot))

/-! ### Age stamps (R203 to R212) -/

/-- The age bucket of an age in seconds (R87). -/
def bucketOf (age : Nat) : Nat := (List.range 15).foldl (fun b i => if age / 4096 / 2 ^ i ≠ 0 then b + 1 else b) 0

/-- The index of the stamp of a page slot's group of 64 slots (R108, R203). -/
def stampIdx (unit slot : Nat) : Nat := unit * 20480 * 4 + slot / 64

/-- Subtraction of 32-bit work values. -/
def sub32 (a b : Nat) : Nat := (a + 2 ^ 32 - b % 2 ^ 32) % 2 ^ 32

/-- tick_of of R206. -/
def tickOf (ref st : Nat) : Nat := sub32 (ref / 4096) (sub32 (ref / 4096) st % 128)

/-- coarse_of of R206. -/
def coarseOf (ref st : Nat) : Nat := sub32 (ref / 2 ^ 19) ((ref / 2 ^ 19 % 126 + 126 - (st - 0x80)) % 126)

/-- stamp_for of R206. -/
def stampFor (clk t : Nat) : Nat :=
  if sub32 (clk / 4096) (t / 4096) < 112 then t / 4096 % 128
  else if sub32 (clk / 2 ^ 19) (t / 2 ^ 19) ≥ 124 then 0xFE
  else 0x80 + t / 2 ^ 19 % 126

/-- age of R206; none when unknown. -/
def ageOf (clk ref st : Nat) : Option Nat :=
  if st = 0xFF then none
  else if st = 0xFE then some 0x04000000
  else if st < 0x80 then
    let d := sub32 (clk / 4096) (tickOf ref st)
    some (if d ≥ 16384 then 0x04000000 else d * 4096 + 2048)
  else
    let d := sub32 (clk / 2 ^ 19) (coarseOf ref st)
    some (if d ≥ 128 then 0x04000000 else d * 524288 + 262144)

/-- step of R207. -/
def stampStep (clk ref st : Nat) : Nat :=
  if st ≥ 0xFE then st
  else
    let fin (c : Nat) := if sub32 (clk / 2 ^ 19) c ≥ 124 then 0xFE else 0x80 + c % 126
    if st < 0x80 then
      let t := tickOf ref st
      if sub32 (clk / 4096) t < 112 then st else fin (t / 128)
    else fin (coarseOf ref st)

/-- The stamp of an index; UNKNOWN where none is held. -/
def stampAt (d : TileData) (idx : Nat) : Nat := (Sparse.get (0xFF : BitVec 8) d.stampTab idx).toNat

/-- The reference time of an index (R206). -/
def stampRef (d : TileData) (clk idx : Nat) : Nat := if idx ≥ d.catchP then d.eClk.toNat else clk

/-- Set the stamp of an index. -/
def setStamp (d : TileData) (idx v : Nat) : TileData :=
  { d with stampTab := Sparse.set 0xFF d.stampTab idx (BitVec.ofNat 8 v) }

/-- The seconds clock. -/
def State.clock (s : State) : Nat := s.aon.seconds.toNat

/-- A program of a page slot's group verifies now (R205). -/
def State.stampNow (s : State) (t : TileId) (unit slot : Nat) : State :=
  s.modD t fun d => setStamp d (stampIdx unit slot) (stampFor s.clock s.clock)

/-- The age bucket of a page slot: its stamp's, or the unit's hint for an UNKNOWN stamp (R63, R209 to R211). A line on the
spare takes the smaller of that age and the rebuild's (R212). -/
def State.bucketFor (s : State) (t : TileId) (unit slot : Nat) (onSpare : Bool := false) : Nat :=
  let d := s.tiles[t].d
  let idx := stampIdx unit slot
  match ageOf s.clock (stampRef d s.clock idx) (stampAt d idx) with
  | none => (Sparse.get (8 : BitVec 4) d.hints unit).toNat
  | some a =>
    match d.rebuildAt[toChan (unit / 16)], onSpare with
    | some c, true => bucketOf (min a (sub32 s.clock c.toNat))
    | _, _ => bucketOf a

/-! ### Rows, staging size and capacity -/

/-- Rows held by reserved slices (R137). -/
def sliceRows (r : List Byte) : Nat := recSlice r 0 + recSlice r 1 + recSlice r 2 + recSlice r 3

/-- Capacity in bytes, rounded down to 256 MiB (R138). -/
def capacityOf (r : List Byte) : Nat :=
  (20376 - sliceRows r) * 255 * recT r * recC r * 16 * 4096 / 2 ^ 28 * 2 ^ 28

/-- Bytes of DPA that one row spans (R138). -/
def rowBytes (r : List Byte) : Nat := 255 * (recT r * recC r * 16) * 4096

/-- An extent entry covers some page of row k. -/
def extentOnRow (r : List Byte) (e : Extent) (k : Nat) : Bool :=
  decide (e.base * 2 ^ 21 < (k + 1) * rowBytes r ∧ k * rowBytes r < (e.base + e.blocks) * 2 ^ 21)

/-- A row is taken when an extent covers one of its pages or its ring is written in any unit (R134). -/
def State.rowTaken (s : State) (k : Nat) : Bool :=
  s.svc.extents.any (extentOnRow s.cfg.record · k)
    || s.tiles.toList.any fun t => t.pl.written.any fun e => e.2 && e.1 % 20480 = ringOfRow s.scatterKey k

/-- Available rows (R134). -/
def State.availRows (s : State) : Nat := 20376 - sliceRows s.cfg.record

/-- Available rows that are not taken. -/
def State.freeRows (s : State) : List Nat := (List.range s.availRows).filter fun k => !s.rowTaken k

/-- The staging area of every unit in rings (R134). -/
def stagingRings (avail free : Nat) : Nat := 103 + 2457 * free / avail

/-- The rows that the staging area borrows: the highest-numbered free rows, as many as its size needs (R135). -/
def State.lentRows (s : State) : List Nat :=
  let f := s.freeRows
  f.reverse.take (stagingRings s.availRows f.length - 103)

/-- The size of the staging area follows the taken rows. Nothing more is appended to the rings of rows that it lends no
longer: their open segments close, and they are handed back as their staged lines fold (R134, R135). -/
def State.resizeStaging (s : State) : State :=
  let l := s.lentRows
  { s with tiles := vmap s.tiles fun _ x =>
      let excess (g : Segment) : Bool :=
        decide (g.area = 0 ∧ g.ring < 20376) && !(l.any fun k => ringOfRow s.scatterKey k = g.ring)
      { x with d := { x.d with
          rings := 103 + l.length, lent := l
          segs := x.d.segs.map fun g => if excess g then { g with isOpen := false } else g } } }

end Sys2Proof.Machine
end

