-- ==== Sys2Proof/Machine/Wire.lean ====
section
/-! DEFINITION. Flits as the links carry them: message headers (R468, R506), the body (R467), the header and CRC of a flit
(R459), the INIT (R464, R501), and the keyed scrambling (R465, R466). -/

namespace Sys2Proof.Machine

/-! ### The keyed generator (R465) -/

/-- One word of the generator. -/
def keyStep (s : BitVec 64) : BitVec 64 :=
  let s := s ^^^ (s <<< 13)
  let s := s ^^^ (s >>> 7)
  s ^^^ (s <<< 17)

/-- `n` words of the generator. -/
def keystreamFrom : Nat → BitVec 64 → List (BitVec 64)
  | 0, _ => []
  | n + 1, s => let s := keyStep s; s :: keystreamFrom n s

/-- The first `n` bytes of the keystream of a key and a frame number. -/
def keystream (key frame : BitVec 64) (n : Nat) : List Byte :=
  let s := key ^^^ (frame * 0x9E3779B97F4A7C15)
  let s := if s = 0 then 0x9E3779B97F4A7C15 else s
  ((keystreamFrom ((n + 7) / 8) s).flatMap fun w => leBytes 8 w.toNat).take n

/-- Bytes scrambled or descrambled: each XORed with the keystream (R466). -/
def scramble (key frame : BitVec 64) (bs : List Byte) : List Byte := bs.zipWith (· ^^^ ·) (keystream key frame bs.length)

/-! ### Messages (R467, R468, R506) -/

/-- Slots that a message takes: its header and its data slots. -/
def msgSlots (m : Msg) : Nat := 1 + m.dslots.toNat
def mmsgSlots (m : MMsg) : Nat := 1 + m.dslots.toNat
/-- The message belongs to the RSP class (R469). -/
def msgRsp (m : Msg) : Bool := m.opcode = 0x08 || m.opcode = 0x09
/-- The message belongs to the MRSP class (R507). -/
def mmsgRsp (m : MMsg) : Bool := m.opcode = 0x30 || m.opcode = 0x31

/-- Data slots, padded with zeros (R468). -/
def dataSlots (n : Nat) (data : List Byte) : List Byte := (data ++ List.replicate (16 * n - data.length) 0).take (16 * n)

/-- A Widar message slot by slot (R468). -/
def msgBytes (m : Msg) : List Byte :=
  let flags := m.dslots.toNat + 8 * m.scope.toNat + 32 * b2n m.poison + 64 * b2n m.early
  [m.opcode, BitVec.ofNat 8 flags] ++ leBytes 2 m.tag.toNat ++ [m.src.zeroExtend 8, m.dst.zeroExtend 8, m.len.zeroExtend 8, m.status]
    ++ leBytes 7 m.addr.toNat ++ [0] ++ dataSlots m.dslots.toNat m.data

/-- The Widar message that starts at the first of these bytes; its zero bits are not looked at (R18). -/
def msgOf (b : List Byte) : Msg :=
  let f := b.getD 1 0
  let n := f.toNat % 8
  { opcode := b.getD 0 0, dslots := BitVec.ofNat 3 n, scope := BitVec.ofNat 2 (f.toNat / 8), poison := f.getLsbD 5
    early := f.getLsbD 6, tag := BitVec.ofNat 12 (fieldAt b 2 2), src := (b.getD 4 0).setWidth 3, dst := (b.getD 5 0).setWidth 3
    len := (b.getD 6 0).setWidth 7, status := b.getD 7 0, addr := BitVec.ofNat 52 (fieldAt b 8 7), data := bytesAt b 16 (16 * n) }

/-- A mesh message slot by slot (R506). -/
def mmsgBytes (m : MMsg) : List Byte :=
  let flags := m.dslots.toNat + 8 * b2n m.poison + 16 * b2n m.early + 32 * b2n m.strict
  [m.opcode, BitVec.ofNat 8 flags] ++ leBytes 2 m.tag.toNat ++ [m.src.zeroExtend 8, m.dst.zeroExtend 8, m.hops, m.status]
    ++ leBytes 6 m.addr.toNat ++ leBytes 2 m.aux.toNat ++ dataSlots m.dslots.toNat m.data

/-- The mesh message that starts at the first of these bytes. -/
def mmsgOf (b : List Byte) : MMsg :=
  let f := b.getD 1 0
  let n := f.toNat % 8
  { opcode := b.getD 0 0, dslots := BitVec.ofNat 3 n, poison := f.getLsbD 3, early := f.getLsbD 4, strict := f.getLsbD 5
    tag := BitVec.ofNat 12 (fieldAt b 2 2), src := (b.getD 4 0).setWidth 6, dst := (b.getD 5 0).setWidth 6, hops := b.getD 6 0
    status := b.getD 7 0, addr := BitVec.ofNat 44 (fieldAt b 8 6), aux := BitVec.ofNat 16 (fieldAt b 14 2)
    data := bytesAt b 16 (16 * n) }

/-- The messages of a body, from slot 0 upward until a slot whose first byte is zero (R467), at most `n`. -/
def bodyMsgs {α : Type} (read : List Byte → α) (slots : α → Nat) : Nat → List Byte → List α
  | 0, _ => []
  | n + 1, b =>
    if b.headD 0 = 0 then []
    else
      let m := read b
      m :: bodyMsgs read slots n (b.drop (16 * slots m))

/-- The fifteen slots of a body that holds these message bytes (R459, R467). -/
def bodyOf (bs : List Byte) : List Byte := dataSlots 15 bs

/-! ### Flits (R459) -/

/-- The eight header bytes of a flit. -/
def flitHeader (f : Flit) : List Byte :=
  leBytes 8 (f.seq.toNat + f.ackSeq.toNat * 2 ^ 10 + b2n f.ackV * 2 ^ 20 + f.type.toNat * 2 ^ 21 + f.fcrd.toNat * 2 ^ 24
    + f.crdReq.toNat * 2 ^ 28 + f.crdRsp.toNat * 2 ^ 40)

/-- A flit of 256 bytes before scrambling: header, body, four zero bytes, and the CRC-32C over them (R230, R459). -/
def sealFlit (header body : List Byte) : List Byte :=
  let b := header ++ body ++ [0, 0, 0, 0]
  b ++ leBytes 4 (crc32c b).toNat

/-- A flit as its fields and messages make it. -/
def flitBytes (f : Flit) : List Byte := sealFlit (flitHeader f) (bodyOf (f.msgs.flatMap msgBytes ++ f.mmsgs.flatMap mmsgBytes))

/-- The CRC check of 256 received bytes. -/
def flitOk (b : List Byte) : Bool := decide (b.length = 256 ∧ (crc32c (b.take 252)).toNat = fieldAt b 252 4)

/-- The header fields and messages of a descrambled flit; `mesh` on a peer link. -/
def flitOf (mesh : Bool) (b : List Byte) : Flit :=
  let h := fieldAt b 0 8
  let body := bytesAt b 8 240
  { seq := BitVec.ofNat 10 h, ackSeq := BitVec.ofNat 10 (h / 2 ^ 10), ackV := h.testBit 20, type := BitVec.ofNat 2 (h / 2 ^ 21)
    fcrd := BitVec.ofNat 4 (h / 2 ^ 24), crdReq := BitVec.ofNat 12 (h / 2 ^ 28), crdRsp := BitVec.ofNat 12 (h / 2 ^ 40)
    msgs := if mesh then [] else bodyMsgs msgOf msgSlots 15 body
    mmsgs := if mesh then bodyMsgs mmsgOf mmsgSlots 15 body else [] }

/-- The flit in the bytes that a port receives: descrambled with the key and frame number of its direction, and checked (R461,
R466); none where the CRC fails. -/
def readFlit (mesh : Bool) (key frame : BitVec 64) (wire : List Byte) : Option Flit :=
  let b := scramble key frame wire
  if flitOk b then some (flitOf mesh b) else none

/-! ### INIT (R464, R501) -/

/-- An INIT flit, which is sent unscrambled and not sequenced. -/
def initBytes (i : InitFlit) : List Byte :=
  sealFlit (flitHeader { type := 3 })
    (bodyOf ([i.role, i.position, i.version, i.flags] ++ leBytes 2 i.flitBuf.toNat ++ leBytes 2 i.crdReq.toNat
      ++ leBytes 2 i.crdRsp.toNat ++ leBytes 2 i.expectSeq.toNat ++ leBytes 8 i.key.toNat ++ leBytes 4 i.serialCrc.toNat))

/-- The INIT in the bytes that a port receives; none where the CRC fails or the flit is of another type. -/
def readInit (b : List Byte) : Option InitFlit :=
  if flitOk b && fieldAt b 0 8 / 2 ^ 21 % 4 = 3 then
    some { role := b.getD 8 0, position := b.getD 9 0, version := b.getD 10 0, flags := b.getD 11 0
           flitBuf := BitVec.ofNat 16 (fieldAt b 12 2), crdReq := BitVec.ofNat 16 (fieldAt b 14 2)
           crdRsp := BitVec.ofNat 16 (fieldAt b 16 2), expectSeq := BitVec.ofNat 16 (fieldAt b 18 2)
           key := BitVec.ofNat 64 (fieldAt b 20 8), serialCrc := BitVec.ofNat 32 (fieldAt b 28 4) }
  else none

end Sys2Proof.Machine
end

