-- ==== Sys2Proof/Machine/Net.lean ====
section
/-! DEFINITION. The shared operations of the fabrics: link layer (R459 to R466), topology and routes (R455, R456),
sending on Widar and on Widar Mesh (R467, R509), and the mirror pair (R511 to R521). -/

namespace Sys2Proof.Machine

/-! ### Flits that are sent (R459 to R462, R466, R467) -/

/-- Messages that the next flit takes from a queue, in order within each class, while slots and class credits last; the
messages left, and slots and credits left. -/
def takeFlit {α : Type} (slots : α → Nat) (rsp : α → Bool) :
    List α → Nat → Nat → Nat → Bool → Bool → List α × List α × Nat × Nat × Nat
  | [], room, rq, rs, _, _ => ([], [], room, rq, rs)
  | m :: l, room, rq, rs, bq, bs =>
    if slots m ≤ room ∧ (if rsp m then !bs && decide (slots m ≤ rs) else !bq && decide (slots m ≤ rq)) then
      let (a, b, x) := takeFlit slots rsp l (room - slots m) (if rsp m then rq else rq - slots m)
        (if rsp m then rs - slots m else rs) bq bs
      (m :: a, b, x)
    else
      let (a, b, x) := takeFlit slots rsp l room rq rs (bq || !rsp m) (bs || rsp m)
      (a, m :: b, x)

/-- The returns of a link are carried by the flit that starts; FCRD has room for 15 (R459). -/
def Link.returned (k : Link) : Link :=
  { k with ackDue := false, fcrdDue := k.fcrdDue - 15, reqDue := k.reqDue - 4095, rspDue := k.rspDue - 4095, nullDue := false }

/-- The flit that starts on a link: its returns are those due (R459, R461). -/
def Link.flit (k : Link) (type : BitVec 2) (seq : BitVec 10) (msgs : List Msg) (mmsgs : List MMsg) : Flit :=
  { type := type, seq := seq, ackSeq := if k.heard then k.expect - 1 else 0, ackV := k.heard, fcrd := BitVec.ofNat 4 (min k.fcrdDue 15)
    crdReq := BitVec.ofNat 12 (min k.reqDue 4095), crdRsp := BitVec.ofNat 12 (min k.rspDue 4095), msgs := msgs, mmsgs := mmsgs }

/-- The messages of one PAYLOAD flit leave their queues, if a flit can go (R460, R467). -/
def Link.sendOne (k : Link) : Link :=
  if !k.up || k.retraining || k.flitCredits = 0 || k.unacked.length ≥ 256 then k
  else
    let (a, wa, room, rq, rs) := takeFlit msgSlots msgRsp k.waiting 15 k.reqCredits k.rspCredits false false
    let (b, wb, _, rq, rs) := takeFlit mmsgSlots mmsgRsp k.mwaiting room rq rs false false
    if a = [] ∧ b = [] then k
    else
      { k with
        waiting := wa, mwaiting := wb, unacked := k.unacked ++ [(k.txSeq, a, b)], txSeq := k.txSeq + 1,
        flitCredits := k.flitCredits - 1, reqCredits := rq, rspCredits := rs
        flitsSent := k.flitsSent + 1 }

/-- A sequence number is newer than another (R460). -/
def newer (s a : BitVec 10) : Bool := let d := (s - a).toNat; decide (1 ≤ d ∧ d ≤ 512)

/-! ### Topology and routes (R455, R456) -/

/-- The position at the other end of port p of tile t (R455). -/
def neighbour (v : Variant) (t p : Nat) : Option Nat :=
  match v with
  | .yd4820 => if p < 2 ∧ t < 2 then some (1 - t) else none
  | .yd4840 => if t < 4 ∧ p < 4 then some ((t + (match p with | 0 => 1 | 1 => 3 | _ => 2)) % 4) else none
  | .yd4880 | .yd4871g =>
    if p = 0 then (if t % 4 > 0 then some (t - 1) else none)
    else if p = 1 then (if t % 4 < 3 then some (t + 1) else none)
    else if p < 4 then some (t ^^^ 4)
    else none

/-- The lower port of a bonded pair is where its shared state is held (R454). -/
def bondHome (v : Variant) (p : Fin 4) : Fin 4 :=
  match v with
  | .yd4820 => if p.val = 1 then 0 else p
  | _ => if p.val = 3 then 2 else p

/-- The other member of a bonded pair. -/
def bondMate (v : Variant) (p : Fin 4) : Option (Fin 4) :=
  match v with
  | .yd4820 => if p.val = 0 then some 1 else if p.val = 1 then some 0 else none
  | _ => if p.val = 2 then some 3 else if p.val = 3 then some 2 else none

/-- A port of the part. -/
def State.link (s : State) : PortId → Link
  | .widar t p => s.fab[t].ports[p]
  | .peer p => s.mesh.ports[p]

def State.modLink (s : State) (l : PortId) (f : Link → Link) : State :=
  match l with
  | .widar t p => s.modFab t fun x => { x with ports := vmod x.ports p f }
  | .peer p => { s with mesh := { s.mesh with ports := vmod s.mesh.ports p f } }

/-- The port that holds the sequence space, queues and credits of a port's link (R454). -/
def State.linkHome (s : State) : PortId → PortId
  | .widar t p => .widar t (bondHome s.fuses.variant p)
  | .peer p => .peer p

/-- Some member of the link at a tile's port is in service. -/
def State.linkOk (s : State) (t : TileId) (p : Fin 4) : Bool :=
  s.fab[t].ports[p].up || (bondMate s.fuses.variant p).any fun q => s.fab[t].ports[q].up

/-- Positions that take part: tiles in service, and the guest while admitted; no dead position. -/
def State.alive (s : State) (d : Nat) : Bool :=
  if d = 7 ∧ s.fuses.variant = .yd4871g then s.guest.admitted else d < 8 && s.inSvc (toTile d)

/-- The first port of tile t that leads to position d over a link in service. -/
def State.portTo (s : State) (t : TileId) (d : Nat) : Option (Fin 4) :=
  ([0, 1, 2, 3] : List (Fin 4)).find? fun p => neighbour s.fuses.variant t.val p.val = some d && s.linkOk t p

/-- Positions along a row from column a to column b of row r. -/
def rowPath (r a b : Nat) : List Nat :=
  if a ≤ b then (List.range (b - a)).map fun i => 4 * r + a + i + 1
  else (List.range (a - b)).map fun i => 4 * r + a - i - 1

/-- The positions of a route after its source: row first or rows crossed first (R456). -/
def meshPath (rowFirst : Bool) (t d : Nat) : List Nat :=
  let cross := if t / 4 = d / 4 then [] else [(if rowFirst then d % 4 else t % 4) + 4 * (d / 4)]
  if rowFirst then rowPath (t / 4) (t % 4) (d % 4) ++ cross else cross ++ rowPath (d / 4) (t % 4) (d % 4)

/-- The default route of R456. -/
def defaultPath (v : Variant) (t d : Nat) : List Nat :=
  match v with
  | .yd4820 | .yd4840 => [d]
  | .yd4880 => meshPath true t d
  | .yd4871g =>
    let p := meshPath true t d
    if d ≠ 7 ∧ p.contains 7 then meshPath false t d else p

/-- A route is in service: every link is, and it passes through no dead position and not through the guest site. -/
def State.pathOk (s : State) (t : Nat) (path : List Nat) (d : Nat) : Bool :=
  ((t :: path).zip path).all fun h =>
    (s.portTo (toTile h.1) h.2).isSome && (h.2 = d || s.alive h.2)
      && !(s.fuses.variant = .yd4871g && h.2 = 7 && d ≠ 7)

/-- Hops from each position to d over links in service; 9 when none. -/
def State.hopsTo (s : State) (d : Nat) : List Nat :=
  let via (n : Nat) : Bool := n = d || (s.alive n && !(s.fuses.variant = .yd4871g && n = 7))
  (List.range 8).foldl (fun ds _ => (List.range 8).map fun t =>
    (List.range 8).foldl (fun b n =>
      if (s.portTo (toTile t) n).isSome && via n then min b (ds.getD n 9 + 1) else b) (ds.getD t 9))
    ((List.range 8).map fun t => if t = d then 0 else 9)

/-- The code of a next hop in WDR_ROUTE (R493). -/
def hopCode (v : Variant) (p : Fin 4) : BitVec 3 :=
  if (bondMate v p).isSome then (if p.val < 2 then 4 else 5) else BitVec.ofNat 3 p.val

/-- The next hop of tile t to position d, and whether the route is not the default (R456). -/
def State.routeTo (s : State) (t : TileId) (d : Nat) : BitVec 3 × Bool :=
  if d = t.val then (6, false)
  else
    let v := s.fuses.variant
    let code (n : Nat) : BitVec 3 := match s.portTo t n with | some p => hopCode v p | none => 7
    let def_ := defaultPath v t.val d
    let second := if v = .yd4820 ∨ v = .yd4840 then def_ else meshPath false t.val d
    if s.pathOk t.val def_ d then (code (def_.headD d), false)
    else if s.pathOk t.val second d then (code (second.headD d), true)
    else
      let ds := s.hopsTo d
      let best := (([0, 1, 2, 3] : List (Fin 4)).filter fun p => s.linkOk t p && match neighbour v t.val p.val with
        | some n => ds.getD n 9 + 1 = ds.getD t.val 9 && (n = d || s.alive n)
        | none => false)
      match ds.getD t.val 9, best with
      | 9, _ => (7, true)
      | _, p :: _ => (hopCode v p, true)
      | _, [] => (7, true)

/-- Every tile in service applies its routes (R456, R458). -/
def State.applyRoutes (s : State) : State :=
  { s with fab := vmap s.fab fun t x =>
      if s.inSvc t then
        { x with route := Vector.ofFn fun (d : Fin 8) => (s.routeTo t d.val).1
                 alt := (List.range 8).foldl (fun m d => bitSet m d (s.routeTo t d).2) 0 }
      else x }

/-- The port that a hop code names. -/
def hopPort (v : Variant) (c : BitVec 3) : Option (Fin 4) :=
  match c.toNat with
  | 0 => some 0 | 1 => some 1 | 2 => some 2 | 3 => some 3
  | 4 => some (bondHome v 0) | 5 => some (bondHome v 2) | _ => none

/-- The members of a link that are in service. -/
def State.membersUp (s : State) (l : PortId) : List PortId :=
  (match l with
    | .widar t p => [PortId.widar t (bondHome s.fuses.variant p)]
        ++ ((bondMate s.fuses.variant (bondHome s.fuses.variant p)).map (PortId.widar t)).toList
    | .peer p => [.peer p]).filter fun m => (s.link m).up && !(s.link m).retraining

/-- A flit of the link with home `h` starts on its member `m`: it carries the returns due, and crosses the link scrambled with
the member's key and frame number (R461, R466). -/
def State.startFlit (s : State) (h m : PortId) (type : BitVec 2) (seq : BitVec 10) (msgs : List Msg := []) (mmsgs : List MMsg := []) :
    State :=
  let f := (s.link h).flit type seq msgs mmsgs
  (s.modLink m fun x => { x with sent := scramble x.txKey x.txFrame (flitBytes f), txFrame := x.txFrame + 1 }).modLink h Link.returned

/-- The member that carries a PAYLOAD flit: the lower for an even number and the higher for an odd one, or the only one in
service (R454). -/
def State.memberFor (s : State) (h : PortId) (seq : BitVec 10) : Option PortId :=
  let ms := s.membersUp h
  ms[if ms.length = 2 then seq.toNat % 2 else 0]?

/-- Unacknowledged flits are sent again, in order, each with the next frame number of its member (R462, R466). -/
def State.replay (s : State) (h : PortId) (again : List (BitVec 10 × List Msg × List MMsg)) : State :=
  forAll again (fun u s =>
    match s.memberFor h u.1 with
    | some m => s.startFlit h m 1 u.1 u.2.1 u.2.2
    | none => s) s

/-- One PAYLOAD flit is sent, if a message can go, and counted (R646). `h` is the link's home. -/
def State.sendOne (s : State) (h : PortId) : State :=
  let k := s.link h
  let k' := { k with up := (s.membersUp h) ≠ [], retraining := false }.sendOne
  match k'.unacked.getLast?, s.memberFor h k.txSeq with
  | some u, some m =>
    if k'.flitsSent = k.flitsSent then s
    else
      let s := (s.modLink h fun _ => { k' with up := k.up, retraining := k.retraining }).startFlit h m 1 u.1 u.2.1 u.2.2
      match h with
      | .widar t _ => s.count t 9 0
      | .peer _ => s
  | _, _ => s

/-- Messages of a link are sent as far as credits allow. `h` is the link's home. -/
def State.pump (s : State) (h : PortId) : State :=
  forAll (List.range ((s.link h).waiting.length + (s.link h).mwaiting.length)) (fun _ s => s.sendOne h) s

/-- Put a message on its way from tile t: into the link towards its destination, or, for tile t itself, into its class
queue. False when no route exists. A response to the guest die ends its request at the tile that took it (R472). -/
def State.wsend (s : State) (t : TileId) (m : Msg) : Bool × State :=
  let s := if msgRsp m && m.dst = 7 && s.fuses.variant = .yd4871g then
      s.modFab t fun x => { x with outst := x.outst.filter fun o => !(o.guest && o.tag = m.tag) }
    else s
  if m.dst.toNat = t.val then (true, s.modFab t fun x => { x with rxq := x.rxq ++ [(9, m)] })
  else match hopPort s.fuses.variant s.fab[t].route[m.dst.toFin] with
    | none => (false, s)
    | some p =>
      let l := s.linkHome (.widar t p)
      (true, (s.modLink l fun k => { k with waiting := k.waiting ++ [m] }).pump l)

/-- The response to a request that tile t serves (R468 to R470); it carries DEAD responses into the count of R646. -/
def State.wReply (s : State) (t : TileId) (m : Msg) (status : Nat) (data : List Byte := []) (early : Bool := false) :
    State :=
  let r : Msg :=
    { opcode := if m.opcode = 1 then 9 else 8, dslots := BitVec.ofNat 3 ((data.length + 15) / 16), early := early,
      tag := m.tag, src := m.dst, dst := m.src, len := BitVec.ofNat 7 data.length, status := BitVec.ofNat 8 status,
      addr := m.addr, data := data }
  let s := if status = 5 then s.count t 9 6 else s
  (s.wsend t r).2

/-- BARs whose earlier requests of their source have all been performed are answered (R481). -/
def State.answerWidarBars (s : State) : State :=
  let live (i : Nat) : Bool :=
    (s.loads.any fun r => r.id = i) || s.tiles.toList.any fun x => x.d.stores.any fun r => r.id = i
  forAll allTiles (fun t s =>
    let ready := s.fab[t].barsIn.filter fun b => !b.2.2.any live
    let s := s.modFab t fun x => { x with barsIn := x.barsIn.filter fun b => b.2.2.any live }
    forAll ready (fun b s =>
      (s.wsend t { opcode := 8, tag := b.2.1, src := BitVec.ofNat 3 t.val, dst := b.1 }).2) s) s

/-! ### Widar Mesh (R502, R505, R509) -/

/-- The tile that peer port p is attached to (R23). -/
def peerTile (v : Variant) (p : Fin 4) : TileId :=
  match v with
  | .yd4820 => toTile (p.val % 2)
  | _ => toTile p.val

/-- The part originates and forwards mesh traffic (R502). -/
def State.meshTalks (s : State) : Bool :=
  match s.sys.state with
  | .active | .degraded | .sleepS1 | .replay => true
  | .mediaInit => decide (s.boot.phase.toNat ≥ 4)
  | _ => false

/-- This part's package ID (R503). -/
def State.pkgId (s : State) : Nat := recPackage s.cfg.record

/-- Peer ports in service: link up and tile in service (R500). -/
def State.peerUp (s : State) (p : Fin 4) : Bool := s.mesh.ports[p].up && s.inSvc (peerTile s.fuses.variant p)

/-- A port may train (R24, R31, R455): it is wired, and no tile at its ends failed self-test; a peer port's tile is in
service. Until the self-test window closes every fitted tile's ports train, as self-test needs (R28). -/
def State.portEnabled (s : State) (l : PortId) : Bool :=
  let v := s.fuses.variant
  let passed (n : Nat) : Bool := s.sys.windowOpen || s.sys.selftestPass.getLsbD n || (v = .yd4871g && n = 7)
  match l with
  | .widar t p => passed t.val && (neighbour v t.val p.val).any passed
  | .peer p => s.sys.windowOpen || s.inSvc (peerTile v p)

/-- A port that is held down. -/
def Link.disabled (k : Link) : Link :=
  { k with up := false, trained := false, initSent := false, retraining := false, bonded := false, speed := 0, width := 0 }

/-- Every port that may not train goes down (R24, R31). -/
def State.portsOff (s : State) : State :=
  { s with
    fab := vmap s.fab fun t f => { f with ports := vmap f.ports fun p k => if s.portEnabled (.widar t p) then k else k.disabled }
    mesh := { s.mesh with ports := vmap s.mesh.ports fun p k => if s.portEnabled (.peer p) then k else k.disabled } }

/-- Put a message into a peer port's queue. -/
def State.peerPut (s : State) (p : Fin 4) (m : MMsg) : State :=
  ((s.ungatePkg p.val).modLink (.peer p) fun k => { k with mwaiting := k.mwaiting ++ [m] }).pump (.peer p)

/-- One MBYE (R507) to the peer on every peer port in service. -/
def State.bye (s : State) (aux : Nat) : State :=
  if !s.meshTalks || !s.mesh.paired then s
  else
    let m : MMsg := { opcode := 0x29, dst := s.mesh.peer, src := BitVec.ofNat 6 s.pkgId, aux := BitVec.ofNat 16 aux }
    forAll ((([0, 1, 2, 3] : List (Fin 4))).filter s.peerUp) (fun p s => s.peerPut p m) s

/-- Entry into FAILED (R49, R51): not from FLUSHING. Memory_Active becomes 0, the media rails are lowered, the peer
is told (MBYE, R507), and an event flush is due (R636). -/
def State.fail (s : State) (c : FailCause) : State :=
  if s.sys.state = .flushing ∨ s.sys.state = .failed then s
  else
    let s := { s with sys := { s.sys with failCause := c }, evr := { s.evr with flushDue := true } }
    (((s.bye 3).setDev .failed c.code).setMemActive false).lowerMedia

/-- The message carries an address (R509). -/
def mHasAddr (m : MMsg) : Bool := m.opcode = 0x22 || m.opcode = 0x23 || m.opcode = 0x24

/-- The port that a message takes from a mask (R509). -/
def maskPort (mask : BitVec 4) (m : MMsg) : Option (Fin 4) :=
  let ps := ([0, 1, 2, 3] : List (Fin 4)).filter fun p => mask.getLsbD p.val
  let k := fold8 (if mHasAddr m then m.addr.toNat / 4096 else m.tag.toNat)
  match ps.length with
  | 0 => none
  | n => ps[k % n]?

/-- The port on which this part sends a message to a package. -/
def State.meshPort (s : State) (m : MMsg) : Option (Fin 4) := maskPort s.mesh.prim[m.dst.toFin] m

/-- Originate a message: HOPS 63 on the port of the destination's primary mask. False when it cannot be sent: no route, a
package-ID conflict (R503), or a state that originates nothing (R502). -/
def State.meshSend (s : State) (m : MMsg) : Bool × State :=
  if !s.meshTalks || s.mesh.conflict then (false, s)
  else if s.mesh.peerDead ∧ m.dst = s.mesh.peer ∧ 0x23 ≤ m.opcode.toNat ∧ m.opcode.toNat ≤ 0x26 then
    (false, { s with mesh := { s.mesh with roundRefused := s.mesh.roundRefused + 1 } })
  else
    let m := { m with src := BitVec.ofNat 6 s.pkgId, hops := 63 }
    if s.mesh.dropTable then (true, { s with mesh := { s.mesh with heldMsgs := s.mesh.heldMsgs ++ [m] } })
    else match s.meshPort m with
    | none => (false, { s with mesh := { s.mesh with noRoute := satAdd s.mesh.noRoute 1 } })
    | some p => (true, s.peerPut p m)

/-- The next tag of this part's mesh requests. -/
def State.meshTag (s : State) : BitVec 12 × State :=
  (s.mesh.nextTag, { s with mesh := { s.mesh with nextTag := s.mesh.nextTag + 1 } })

/-- A completion for a mesh request (R508). -/
def State.meshReply (s : State) (dst : BitVec 6) (tag : BitVec 12) (status : Nat) (early : Bool := false) : State :=
  (s.meshSend { opcode := 0x30, dst := dst, tag := tag, status := BitVec.ofNat 8 status, early := early }).2

/-! ### The mirror pair (R513, R520, R521) -/

/-- Stores to primary regions are sent to the peer (R513): forming, in sync or re-admitting. -/
def State.mirroring (s : State) : Bool :=
  s.mesh.paired && (s.mesh.state = 1 || s.mesh.state = 2 || s.mesh.state = 4)
    && (s.mesh.state = 2 || s.mesh.resyncStep ≥ 3)

/-- The data slot of this part's MPAIR (R511). -/
def State.pairData (s : State) : List Byte :=
  let r := s.cfg.record
  let crc := crc32c ((List.range 9).flatMap fun k =>
    if s.mesh.regions.getLsbD k || s.mesh.replica.getLsbD k then bytesAt r (80 + 16 * k) 9 else [])
  leBytes 4 s.mesh.pairGen.toNat ++ leBytes 2 (fieldAt r 226 2) ++ leBytes 2 (fieldAt r 228 2)
    ++ [s.mesh.state.zeroExtend 8,
        BitVec.ofNat 8 (b2n s.mesh.takenOver + 2 * b2n s.mesh.alone + 128 * b2n s.mesh.paired),
        s.mesh.peer.zeroExtend 8, 0]
    ++ leBytes 4 crc.toNat

/-- Send MPAIR to the peer (R511). -/
def State.sendPair (s : State) : State :=
  let (tag, s) := s.meshTag
  (s.meshSend { opcode := 0x27, dslots := 1, tag := tag, dst := s.mesh.peer, data := s.pairData }).2

/-- The pair state changes, with event 0x4030 (old and new state), and an MPAIR tells the peer (R511). -/
def State.setPair (s : State) (st : BitVec 3) : State :=
  if s.mesh.state = st then s
  else
    let s := s.raise (mkEv 0x4030 .info 15 0 [(1, s.mesh.state.toNat), (1, st.toNat)])
    let s := { s with mesh := { s.mesh with
      state := st, alone := if st = 2 then false else s.mesh.alone,
      resyncActive := s.mesh.resyncActive && (st = 1 || st = 4) } }
    let s := if st = 2 then s.clearCause .mirror else s
    if s.mesh.paired && !s.mesh.peerDead then s.sendPair else s

/-- Every store that waits only for the peer is acknowledged at its local point from now on (R513, R521). -/
def State.releaseMirrored (s : State) : State :=
  { s with
    mesh := { s.mesh with waits := [], holdLines := [] }
    tiles := vmap s.tiles fun _ x =>
      { x with d := { x.d with stores := x.d.stores.map fun r => { r with peerDone := true } } } }

/-- The pair moves to degraded without takeover (R513, R520). -/
def State.degradePair (s : State) : State :=
  if s.mesh.state = 0 ∨ s.mesh.state = 3 then s
  else (s.releaseMirrored.setPair 3).addCause .mirror

/-- The owner tile has merged a store to a line of a primary region: the whole line is sent to the peer (R513). A line
held after a route change waits for the hold's end (R517); without any route the pair is degraded. -/
def State.sendMwr (s : State) (t : TileId) (id line : Nat) (data : Line) (poison strict : Bool) : State :=
  let (tag, s) := s.meshTag
  let m : MMsg :=
    { opcode := 0x22, dslots := 4, poison := poison, strict := strict, tag := tag, dst := s.mesh.peer,
      addr := BitVec.ofNat 44 (64 * line), data := lineBytes data }
  let w (p : Nat) : MirrorWait :=
    { tag := tag, owner := t, line := line, storeId := id, port := p, data := data, poison := poison, strict := strict }
  if s.mesh.holdLines.contains line || s.mesh.dropTable then { s with mesh := { s.mesh with waits := s.mesh.waits ++ [w 9] } }
  else match s.meshPort m with
    | some p =>
      let s := { s with mesh := { s.mesh with waits := s.mesh.waits ++ [w p.val] } }
      ((s.meshSend m).2).count 15 10 0
    | none => s.degradePair

end Sys2Proof.Machine
end

