-- ==== Sys2Proof/Machine/Data.lean ====
section
/-! DEFINITION. The shared operations of the data path of a tile: cache (R147 to R156), assembly and closing of stripes
(R160), areas and occupancy (R164, R165, R183), the staging directory (R166 to R168), stores on their way to
acknowledgement, media reads and poison (R254 to R256). -/

namespace Sys2Proof.Machine

/-! ### Ways and cached lines -/

/-- The cacheable powered ways of a tile (R153, R154). -/
def cacheWays (d : TileData) : List Nat :=
  (List.range 16).filter fun w => w < 16 - d.scratchWays.toNat && !d.offMap.getLsbD (w / 2)

/-- The cached copy of a line. -/
def cached (d : TileData) (n : Nat) : Option CLine := d.cache.find? fun l => l.line = n

/-- Change the cached copy of a line. -/
def modLine (d : TileData) (n : Nat) (f : CLine → CLine) : TileData :=
  { d with cache := lmod d.cache (fun l => l.line = n) f }

/-- A line counts as Posted-dirty (R148). -/
def CLine.postedDirty (l : CLine) : Bool := l.posted && l.st ≠ .clean

/-- The Posted-dirty count of a tile (R152). -/
def postedCount (d : TileData) : Nat := (d.cache.filter CLine.postedDirty).length


/-- The effective policy of a region is Strict (R177). -/
def State.strictNow (s : State) (region : Nat) : Bool :=
  (s.svc.policies.toList.getD region true) || !s.sys.postedCert

/-- The area that a region stages into: 0 the main area, 1 to 4 slice 0 to 3 (R164, R177). -/
def State.areaOf (s : State) (region : Nat) : Fin 5 :=
  let k := s.svc.slices.toList.getD region 0
  if h : k < 5 then ⟨k, h⟩ else 0

/-- The region of a line; 8 outside every region. -/
def State.regionOf (s : State) (n : Nat) : Nat := (recRegionOf s.cfg.record (64 * n)).getD 8

/-! ### Areas and occupancy (R164, R165) -/

/-- Units of a tile under the record. -/
def State.unitsPerTile (s : State) : Nat := recC s.cfg.record * 16

/-- The defined slices. -/
def State.definedSlices (s : State) : Nat :=
  ((List.range 4).filter fun k => recSlice s.cfg.record k ≠ 0).length

/-- The entry allowance of an area (R165). -/
def State.allowance (s : State) (a : Fin 5) : Nat := if a = 0 then 1048576 - 65536 * s.definedSlices else 65536

/-- Rings of an area in every unit of tile `t`: the floor and the lent rows, or the rows of a slice, highest first
(R107, R135, R137). -/
def State.areaRings (s : State) (t : TileId) (a : Fin 5) : List Nat :=
  if a = 0 then (List.range 103).map (· + 20376) ++ s.tiles[t].d.lent.map (ringOfRow s.scatterKey)
  else
    let above := (List.range (a.val - 1)).foldl (fun n k => n + recSlice s.cfg.record k) 0
    (List.range (recSlice s.cfg.record (a.val - 1))).map fun i => ringOfRow s.scatterKey (20375 - above - i)

/-- The channel of a unit serves no lines because of a rail (R548). -/
def State.railOut (s : State) (t : TileId) (unit : Nat) : Bool := s.seq.chOff.getLsbD (4 * t.val + unit / 16)

/-- Segments of the area that count as not free: those in use or open, and every one of a channel that a rail keeps out of
service (R548). Segments that are being handed back lie in none of the area's rings (R165). -/
def State.areaUsed (s : State) (t : TileId) (a : Fin 5) : Nat :=
  let rings := s.areaRings t a
  let out := (List.range s.unitsPerTile).countP (s.railOut t ·)
  (s.tiles[t].d.segs.filter fun g => g.area = a.val && rings.contains g.ring && !s.railOut t g.unit).length
    + rings.length * out

/-- Occupancy of an area in whole percent (R165). -/
def State.occupancy (s : State) (t : TileId) (a : Fin 5) : Nat :=
  let held := (s.tiles[t].d.dir.filter fun e => e.area = a.val).length
  max (100 * held / s.allowance a) (100 * s.areaUsed t a / ((s.areaRings t a).length * s.unitsPerTile))

/-- The thresholds of R183 with their hysteresis: fold pressure from 75 % until below 70 %, hold from 95 % until
below 94 %. -/
def State.thresholds (s : State) (t : TileId) : State :=
  s.modD t fun d =>
    let occ (a : Fin 5) := s.occupancy t a
    { d with
      pressure := Vector.ofFn fun a => decide (occ a ≥ 75) || (d.pressure[a] && decide (occ a ≥ 70))
      hold := Vector.ofFn fun a => decide (occ a ≥ 95) || (d.hold[a] && decide (occ a ≥ 94)) }

/-- The staging area takes its new size, and occupancy follows (R134, R165, R183). -/
def State.resizeArea (s : State) : State :=
  let s := s.resizeStaging
  forAll s.svcTiles (fun t s => s.thresholds t) s

/-- DevLoad of a response for an area at an occupancy (R315). -/
def devLoad (occ : Nat) : BitVec 2 := if occ ≥ 95 then 3 else if occ ≥ 75 then 2 else if occ ≥ 50 then 1 else 0

/-! ### Work items (R276, R277) -/

/-- The depth of a herd queue by class (R276). -/
def WorkClass.depth : WorkClass → Nat
  | .fgRead => 64 | .fgWrite => 64 | .telemetry => 16 | .fold => 32 | .patrol => 32

/-- A read item of either kind. -/
def WorkItem.isRead (w : WorkItem) : Bool := w.role = 0 || w.role = 1
def WorkItem.isProgram (w : WorkItem) : Bool := w.role = 2 || w.role = 3

/-- The place of a class in the dispatch order (R280). -/
def WorkClass.idx : WorkClass → Nat
  | .fgRead => 0 | .fgWrite => 1 | .telemetry => 2 | .fold => 3 | .patrol => 4

/-- The queue of a herd and class. -/
def queueIdx (herd : Nat) (c : WorkClass) : Fin 20 := ⟨(5 * herd + c.idx) % 20, Nat.mod_lt _ (by decide)⟩

/-- Enter an item in its herd's queue; its producer waits when the queue is full (R276). -/
def enqueue (e : Engine) (w : WorkItem) : Engine :=
  let w := { w with id := e.nextId, herd := w.herd % 4 }
  let e := { e with nextId := e.nextId + 1 }
  let q := queueIdx w.herd w.cls
  if e.queues[q].length < w.cls.depth then { e with queues := vmod e.queues q (· ++ [w]) }
  else { e with full := e.full ++ [w] }

def State.enqueue (s : State) (t : TileId) (w : WorkItem) : State :=
  (s.modEng t (Machine.enqueue · w)).ungate t (bitOn (bitOn 0 (15 + w.herd % 4)) (19 + w.chan % 4))

/-- The clock domains that a load or store needs in its owner tile: cache ways, staging directory, placement and age SRAMs, codecs
(R594). -/
def dataDomains : BitVec 31 := 0x1007FF8

/-- Programs that the contexts of a tile run in a channel. -/
def chanPrograms (e : Engine) (c : Nat) : Nat :=
  (e.ctxs.filter fun x => x.item.chan = c && (x.item.role = 2 || x.item.role = 3)).length

/-- The herd whose channel holds the fewest programs, the lower on a tie (R277). -/
def stripeHerd (e : Engine) : Nat :=
  (List.range 4).foldl (fun b c => if chanPrograms e c < chanPrograms e b then c else b) 0

/-- The logical dies of a channel that have a serving die. -/
def servedDies (c : Chan) : List Nat :=
  (List.range 8).filter fun d => !c.failed.getLsbD (c.dieMap.toNat / 16 ^ d % 16)

/-! ### Stripes (R157 to R161) -/

/-- The work item of a closed stripe joins the FG_WRITE queue (R277). -/
def State.enqueueStripe (s : State) (t : TileId) (seq : BitVec 64) (area : Nat) : State :=
  let h := stripeHerd s.tiles[t].eng
  s.enqueue t { id := 0, role := 2, cls := .fgWrite, herd := h, chan := h, slc := true, area := area, use := .stripe seq }

/-- Close the assembly stripe of an area: it takes the next STG_LOG_SEQ and joins the FG_WRITE queue (R160, R277). -/
def State.closeStripe (s : State) (t : TileId) (a : Fin 5) : State :=
  let d := s.tiles[t].d
  match d.asm[a] with
  | [] => s
  | es =>
    let q := d.logSeq + 1
    let st : Stripe := { seq := q, epoch := BitVec.ofNat 32 (s.ladder 12).1, area := a.val, entries := es,
                         carries := es.any fun e => e.kind = .carry }
    let s := s.modD t fun d => { d with logSeq := q, asm := d.asm.set a [], closed := d.closed ++ [st] }
    s.enqueueStripe t q a.val

/-- An entry holds a carry line. -/
def StripeEntry.isCarry (e : StripeEntry) : Bool := e.kind = .carry

/-- Append one entry to an area's assembly stripe; a stripe never holds two copies of one line, and closes at six. -/
def State.append (s : State) (t : TileId) (a : Fin 5) (e : StripeEntry) : State :=
  let isLine (x : EntryKind) : Bool := x = .data || x = .carry
  let dup := s.tiles[t].d.asm[a].any fun x => isLine x.kind && isLine e.kind && x.line = e.line
  let s := if dup then s.closeStripe t a else s
  let s := s.modD t fun d => { d with asm := vmod d.asm a (· ++ [e]) }
  if s.tiles[t].d.asm[a].length ≥ 6 then s.closeStripe t a else s

/-- What a line is stored as: its data under the key engine's keys, or zero DATA when poisoned (R230, R672). -/
def State.stored (s : State) (data : Line) (poison : Bool) : StoredLine :=
  if poison then { data := 0, poison := true, keys := s.sec.engine } else { data := data, keys := s.sec.engine }

/-- A data copy of a line is being appended: it has not verified. -/
def copyPending (d : TileData) (n : Nat) : Bool :=
  (d.asm.toList.flatten ++ d.closed.flatMap (·.entries)).any fun e => e.kind = .data && e.line = n && !e.dead

/-- A verified copy of a line waits for its directory entry, or one is being appended. -/
def copyWaits (d : TileData) (n : Nat) : Bool := d.waiting.any fun w => w.2.line = n

/-- Append a cached line to staging: DIRTY moves to STAGING (R150). A line whose earlier copy has not verified is not
appended again before that (R151): it is owed. -/
def State.stageLine (s : State) (t : TileId) (n : Nat) : State :=
  match cached s.tiles[t].d n with
  | none => s
  | some l =>
    if l.st ≠ .dirty && l.st ≠ .stream then s
    else if l.inFlight || copyPending s.tiles[t].d n then
      if l.st = .dirty then s.modD t fun d => modLine d n fun l => { l with owed := true } else s
    else
      let s := s.modD t fun d =>
        { modLine d n (fun l => { l with st := if l.st = .dirty then .staging else l.st, inFlight := true, owed := false }) with
          stores := lmod d.stores (fun r => r.line = n && r.phase = 2) fun r => { r with appended := true } }
      s.append t (s.areaOf l.region) { kind := .data, line := n, val := s.stored l.data l.poison }

/-- Stage lines in order. -/
def State.stageAll (s : State) (t : TileId) (ns : List Nat) : State := forAll ns (fun n s => s.stageLine t n) s

/-- The DIRTY lines of a tile, least recently written first. -/
def dirtyLines (d : TileData) : List CLine :=
  sortBy (fun a b => decide (a.wrote ≤ b.wrote)) (d.cache.filter fun l => l.st = .dirty)

/-- A Posted-dirty line that is on its way to staging already, or owed. -/
def CLine.leaving (l : CLine) : Bool := l.postedDirty && (l.st ≠ .dirty || l.owed)

/-- The cleaner of R150: from 7/8 of the budget until the Posted-dirty count has fallen to 3/4 of it, it stages the least
recently written DIRTY lines, as many as the count exceeds 3/4 by. -/
def State.cleaner (s : State) (t : TileId) : State :=
  let d := s.tiles[t].d
  let n := postedCount d
  let run := decide (4 * n > 3 * d.budget) && (d.cleaning || decide (8 * n ≥ 7 * d.budget))
  let s := s.modD t fun d => { d with cleaning := run }
  if run then
    let want := n - (d.cache.filter CLine.leaving).length - 3 * d.budget / 4
    let ls := ((dirtyLines d).filter fun l => l.posted && !l.owed).take want |>.map (·.line)
    (s.stageAll t ls).count t 2 5 ls.length
  else s

/-! ### Sleep entry (R567) -/

/-- Steps 2 and 3 of a sleep entry, once no Global Persistent Flush and no age catch-up runs: heads stop admitting, every DIRTY line is
staged, and PATROL and TELEMETRY items that have not started are dropped (R296). -/
def State.sleepDrain (s : State) : State :=
  let busy := s.svcTiles.any fun t => s.tiles[t].d.gpf.isSome || decide (s.tiles[t].d.catchP < 5242880)
  if s.pwr.transition ≠ 1 || busy then s
  else
    let s := { s with sys := { s.sys with admitStop := true } }
    let stays (w : WorkItem) : Bool := w.cls ≠ .patrol && w.cls ≠ .telemetry
    forAll s.svcTiles (fun t s =>
      (s.modEng t fun e => { e with queues := e.queues.map (·.filter stays), full := e.full.filter stays }).stageAll t
        ((dirtyLines s.tiles[t].d).map (·.line))) s

/-! ### Poison (R254 to R256) -/

/-- Some extent entry admits the line at some head or at the guest (R255, R309). -/
def State.anyAdmits (s : State) (n : Nat) : Bool :=
  s.svc.extents.any fun e => e.heads ≠ 0 && decide (e.base * 32768 ≤ n ∧ n < (e.base + e.blocks) * 32768)

/-- The list holds an entry for the line. -/
def Poison.has (p : Poison) (n : Nat) : Bool := p.list.any fun e => decide (e.line ≤ n ∧ n < e.line + e.len)

/-- Enter a line in the poison list (R255): contiguous lines of one source share an entry; a full list takes no entry,
sets the overflow and raises 0x1060. -/
def State.listPoison (s : State) (n : Nat) (src : PoisonSrc) : State :=
  if s.poison.has n || !s.anyAdmits n then s
  else
    match s.poison.list.find? fun e => e.src = src ∧ (e.line + e.len = n ∨ n + 1 = e.line) with
    | some e =>
      let e' := if e.line = n + 1 then { e with line := n, len := e.len + 1 } else { e with len := e.len + 1 }
      { s with poison := { s.poison with list := s.poison.list.map fun x => if x = e then e' else x } }
    | none =>
      if s.poison.list.length < 8192 then
        { s with poison := { s.poison with list := s.poison.list ++ [{ line := n, len := 1, src := src }] } }
      else
        { s with poison := { s.poison with overflow := true } }.raise (mkEv 0x1060 .warn 15 0)

/-- Remove a line from the poison list; from the middle of an entry the entry splits, or, with the list full, its upper
part is dropped with the overflow set (R255, R256). -/
def State.unlistPoison (s : State) (n : Nat) : State :=
  match s.poison.list.find? fun e => e.line ≤ n ∧ n < e.line + e.len with
  | none => s
  | some e =>
    let low := if e.line < n then [{ e with len := n - e.line }] else []
    let high := if n + 1 < e.line + e.len then [{ e with line := n + 1, len := e.line + e.len - n - 1 }] else []
    let rest := s.poison.list.filter (· ≠ e)
    if rest.length + low.length + high.length ≤ 8192 then
      { s with poison := { s.poison with list := rest ++ low ++ high } }
    else
      { s with poison := { s.poison with list := rest ++ low, overflow := true } }.raise (mkEv 0x1060 .warn 15 0)

/-- A line becomes poisoned in its owner's cache, so that later loads return poison and it is staged poisoned; it is
entered in the list with its source (R254, R255). -/
def State.poisonCached (s : State) (n : Nat) (src : PoisonSrc) : State :=
  let s := s.modD (s.home n).tile fun d => modLine d n fun l => { l with poison := true }
  { s with poison := { s.poison with madeThisBoot := (n, src) :: s.poison.madeThisBoot } }.listPoison n src

/-- This boot has found the line's value lost: it stays poisoned until a full-line store merges (R254, R256). -/
def Poison.lost (p : Poison) (n : Nat) : Bool := p.madeThisBoot.any fun e => e.1 = n && (e.2 = .internal || e.2 = .vendor)

/-- A full-line store without poison has merged: its line holds a known value again. -/
def Poison.restored (p : Poison) (n : Nat) : Poison := { p with madeThisBoot := p.madeThisBoot.filter fun m => m.1 ≠ n }

/-- The source under which a line found poisoned is entered (R255). -/
def State.poisonSource (s : State) (n : Nat) : PoisonSrc := (tabGet s.poison.madeThisBoot n).getD .unknown

/-! ### Media reads -/

/-- A stored line as the decryption stage gives it: zero keys of another draw give a free value (R672, R680). -/
def State.decrypt (s : State) (l : StoredLine) : Line × State :=
  if l.keys = s.sec.engine ∨ l.poison then (l.data, s)
  else
    let (v, s) := s.draw
    (BitVec.ofNat 512 v, s)

/-- The stored line of a home page; a line of an undefined or never programmed page is free (R65). -/
def State.homeLine (s : State) (t : TileId) (unit slot line : Nat) : StoredLine × State :=
  match tabGet s.media[t].pages (pageKey unit slot) with
  | some p =>
    if p.defined && !p.lost.contains (line / 8) then ((tabGet p.lines line).getD { keys := p.keys }, s)
    else
      let (v, s) := s.draw
      ({ data := BitVec.ofNat 512 v, keys := s.sec.engine }, s)
  | none =>
    let (v, s) := s.draw
    ({ data := BitVec.ofNat 512 v, keys := s.sec.engine }, s)

/-- The staged copy that a directory entry names. -/
def State.stagedLine (s : State) (t : TileId) (e : DirEntry) : Option StoredLine :=
  (s.staged[t].stripes.reverse.find? fun x => x.unit = e.unit ∧ x.ring = e.ring ∧ x.t = 5 * e.sslot + e.spos).bind
    fun x => (x.entries.find? fun y => y.line = e.line ∧ (y.kind = .data ∨ y.kind = .carry)).map (·.val)

/-- The directory entry of a line. -/
def dirEntry (d : TileData) (n : Nat) : Option DirEntry := d.dir.find? fun e => e.line = n

/-! ### Filling the cache (R149) -/

/-- The lines of a line's set, but for those in ways that a conversion is taking out. -/
def State.setLines (s : State) (n : Nat) : List CLine :=
  let h := s.home n
  let d := s.tiles[h.tile].d
  d.cache.filter fun l => decide (cacheSet (s.home l.line) = cacheSet h) && !d.leaving.contains l.way

/-- The INVALID ways of a line's set that may be filled. -/
def State.freeWays (s : State) (n : Nat) : List Nat :=
  let used := (s.setLines n).map (·.way)
  let d := s.tiles[(s.home n).tile].d
  (cacheWays d).filter fun w => !used.contains w && !d.leaving.contains w

/-- The last use of a way of a line's set: that of the line it holds, or, while INVALID, its own last one (R156). -/
def State.wayUsed (s : State) (n w : Nat) : Nat :=
  match (s.setLines n).find? fun l => l.way = w with
  | some l => l.used
  | none => Sparse.get 0 s.tiles[(s.home n).tile].d.wayUse (16 * cacheSet (s.home n) + w)

/-- A use of a cached line and of its way, for replacement. -/
def State.useLine (s : State) (n : Nat) : State :=
  let h := s.home n
  s.modD h.tile fun d =>
    let now := d.clock + 1
    let d := { modLine d n (fun l => { l with used := now }) with clock := now }
    match cached d n with
    | some l => { d with wayUse := Sparse.set 0 d.wayUse (16 * cacheSet h + l.way) now }
    | none => d

/-- The pseudo-LRU choice among candidate ways: the spec gives no tree, so the choice is free (R149). -/
def State.pickWay (s : State) (ws : List Nat) : Option Nat × State := s.pick ws

/-- Place a line in a way of its set, replacing the CLEAN line that holds it. -/
def State.place (s : State) (l : CLine) : State :=
  let victims := (s.setLines l.line).filter fun x => x.way = l.way
  (s.modD (s.home l.line).tile fun d =>
    { d with cache := (d.cache.filter fun x => !victims.contains x) ++ [l] }).useLine l.line

/-- A load's line fills an INVALID or CLEAN way of its set as CLEAN, or is returned without a fill (R149). -/
def State.fill (s : State) (n : Nat) (data : Line) (poison : Bool) : State :=
  if (cached s.tiles[(s.home n).tile].d n).isSome then s
  else
    let clean := ((s.setLines n).filter fun l => l.st = .clean).map (·.way)
    match s.pickWay (s.freeWays n ++ clean) with
    | (none, s) => s
    | (some w, s) =>
      s.place { line := n, way := w, st := .clean, data := data, poison := poison, region := s.regionOf n }

/-! ### Stores at the owner tile -/

def State.modStore (s : State) (t : TileId) (id : Nat) (f : StoreReq → StoreReq) : State :=
  s.modD t fun d => { d with stores := lmod d.stores (fun r => r.id = id) f }

/-- A store has merged: a line of a mirrored primary region is sent to the peer (R513). -/
def State.mirrorStore (s : State) (t : TileId) (id : Nat) : State :=
  match s.tiles[t].d.stores.find? (·.id = id) with
  | none => s
  | some r =>
    match cached s.tiles[t].d r.line with
    | some l =>
      if s.mirroring ∧ s.mesh.regions.getLsbD r.region ∧ !r.noMirror then
        (s.modStore t id fun r => { r with mirrored := true, peerDone := false }).sendMwr t id r.line l.data l.poison
          (r.strict || r.byPolicy)
      else s
    | none => s

/-- A store that hits its line in any cached state merges into it and makes it DIRTY (R44, R151, R156, R256); a Posted
store may then be acknowledged, and the line of a Strict store is appended to staging. -/
def State.mergeStore (s : State) (t : TileId) (r : StoreReq) : State :=
  let full := decide (r.mask = BitVec.allOnes 64)
  let strict := r.strict || s.strictNow r.region
  let s := (s.useLine r.line).modD t fun d =>
    modLine d r.line fun l =>
      { l with
        data := mergeLine l.data r.data r.mask
        poison := r.poison || (!full && l.poison)
        st := .dirty
        posted := l.postedDirty || !strict
        region := r.region, wrote := d.clock }
  let s := if r.poison then
      { s with poison := { s.poison with madeThisBoot := (r.line, r.src) :: s.poison.madeThisBoot } }.listPoison r.line r.src
    else if full then { s with poison := s.poison.restored r.line }
    else s
  let s := s.modStore t r.id fun r => { r with byPolicy := s.strictNow r.region, phase := if strict then 2 else 4 }
  let s := s.mirrorStore t r.id
  if strict then s.stageLine t r.line else s.cleaner t

/-- The effective policy of regions has changed (R181): a store that waits as Strict by a policy that is Posted now has
reached its acknowledgement point, and one that was ready and is Strict now waits until its line has verified. -/
def State.policyChanged (s : State) (t : TileId) : State :=
  let eased (r : StoreReq) : Bool := r.phase = 2 && r.byPolicy && !r.strict && !s.strictNow r.region
  let tightened (r : StoreReq) : Bool :=
    r.phase = 4 && !r.discarded && !r.strict && !r.byPolicy && s.strictNow r.region
      && (cached s.tiles[t].d r.line).any (·.st ≠ .clean)
  let lines := (s.tiles[t].d.stores.filter tightened).map (·.line)
  let posted := (s.tiles[t].d.stores.filter eased).map (·.line)
  (s.modD t fun d =>
    { d with
      stores := d.stores.map fun r =>
        if eased r then { r with byPolicy := false, phase := 4 }
        else if tightened r then
          { r with byPolicy := true, phase := 2, appended := (cached d r.line).any (·.st ≠ .dirty) }
        else r
      cache := d.cache.map fun l => if posted.contains l.line then { l with posted := true } else l }).stageAll t lines

/-- Whether a store is held at the cache: the area is at or above its hold threshold (R183), or a new Posted-dirty line
would exceed the budget (R152). A Posted store to a line already Posted-dirty is not held for the budget, and no new
Posted-dirty line arises from it. -/
def State.storeHeld (s : State) (t : TileId) (r : StoreReq) : Bool :=
  let d := s.tiles[t].d
  let already := (cached d r.line).any CLine.postedDirty
  let hold := d.hold[s.areaOf r.region]
  if r.strict || s.strictNow r.region then hold
  else !already && (hold || decide (postedCount d ≥ d.budget))

/-- Try to serve a store that has reached its owner's cache controller. It waits behind an earlier store of its line
that still waits (R39), is held (R152, R183), reads the old line first (a partial store that misses, R149), waits for a
way (R149, R156), or merges. -/
def State.tryStore (s : State) (t : TileId) (id : Nat) : State :=
  let d := s.tiles[t].d
  match d.stores.find? (·.id = id) with
  | none => s
  | some r =>
    let waits (p : Nat) : Bool := p = 0 || p = 1 || p = 5
    let blocked := ((d.stores.takeWhile (·.id ≠ id)).any fun x => x.line = r.line && waits x.phase)
      || s.loads.any fun x => x.owner = t && x.line = r.line && x.forStore.isNone && x.unstarted && decide (x.id < id)
    if blocked || (r.phase ≠ 0 && r.phase ≠ 1) then s
    else if s.storeHeld t r then
      let a := s.areaOf r.region
      -- a hold that begins starts the 1 ms of R184
      let s := if d.stores.any fun x => x.phase = 1 && s.areaOf x.region = a then s
        else s.modD t fun d => { d with lastFold := d.lastFold.set a false }
      let s := s.modStore t id fun r => { r with phase := 1 }
      if r.phase = 0 ∧ !r.strict ∧ !s.strictNow r.region ∧ postedCount d ≥ d.budget then s.count t 2 6 else s
    else
      match cached d r.line with
      | some _ => (if r.missed then s else s.count t 2 2).mergeStore t r
      | none =>
        let s := if r.missed then s else (s.count t 2 3).modStore t id fun r => { r with missed := true }
        if r.mask ≠ BitVec.allOnes 64 then
          -- the old line is read first; the store merges when the read has filled it
          let s := s.modStore t id fun r => { r with phase := 5 }
          { s with
            loads := s.loads ++ [{ id := s.nextReq, head := r.head, owner := t, line := r.line, src := .none,
                                   forStore := some id }]
            nextReq := s.nextReq + 1 }
        else
          let ls := s.setLines r.line
          let lru (ws : List Nat) : List Nat :=
            (sortBy (fun a b => decide (s.wayUsed r.line a ≤ s.wayUsed r.line b)) ws).take 1
          let open_ := s.freeWays r.line ++ (ls.filter fun l => l.st = .clean).map (·.way)
          -- the way of a DIRTY victim that is being staged is waited for
          let waitsOn := ls.any fun (x : CLine) => some x.way = r.waitWay && x.st = .staging
          let cand :=
            match r.waitWay with
            | some w => if open_.contains w then [w] else if waitsOn then [] else if r.stream then lru open_ else open_
            | none => if r.stream then lru open_ else open_
          match s.pickWay cand with
          | (some w, s) =>
            let s := s.place { line := r.line, way := w, st := if r.stream then .stream else .dirty, data := r.data,
                               region := r.region }
            let s := if r.stream then s.count t 2 4 else s
            let strict := r.strict || s.strictNow r.region
            let s := s.modD t fun d =>
              modLine d r.line fun l => { l with poison := r.poison, posted := !strict, wrote := d.clock }
            let s := if r.poison then
                { s with poison := { s.poison with
                    madeThisBoot := (r.line, r.src) :: s.poison.madeThisBoot } }.listPoison r.line r.src
              else { s with poison := s.poison.restored r.line }
            let s := s.modStore t id fun r => { r with byPolicy := s.strictNow r.region, phase := if strict then 2 else 4 }
            let s := s.mirrorStore t id
            if strict || r.stream then s.stageLine t r.line else s.cleaner t
          | (none, s) =>
            let dirty := ls.filter fun l => l.st = .dirty && !l.inFlight
            let s := s.modStore t id fun r => { r with phase := 0 }
            if waitsOn then s
            else
              let (w, s) := match (if r.stream then (lru (dirty.map CLine.way)).head? else none) with
                | some w => (some w, s)
                | none => s.pickWay (dirty.map CLine.way)
              match dirty.find? (fun (x : CLine) => some x.way = w) with
              | some v =>
                let s := s.modStore t id fun r => { r with waitWay := w }
                (s.stageLine t v.line).count t 2 7
              | none => s

/-! ### Loads at the owner tile (R200, R201) -/

/-- A fold that serves loads of its page from its buffer: from the start of F6 to F9 (R174). -/
def foldServes (d : TileData) (unit pidx : Nat) : Option Fold :=
  d.folds.find? fun f => f.unit = unit ∧ f.pidx = pidx ∧ f.step ≥ 6

/-- The place that serves a line (R200), as one step of the owner's cache controller (R201). -/
def State.lookup (s : State) (n : Nat) : LoadSrc :=
  let h := s.home n
  let d := s.tiles[h.tile].d
  if (cached d n).isSome then .cache
  else match dirEntry d n with
    | some e => .staged e.unit e.ring e.sslot e.spos e.sidx
    | none =>
      if (foldServes d h.unit h.pidx).isSome then .foldBuffer
      else if !ringWritten s.tiles[h.tile].pl h.unit h.ring || d.zeroing.any (·.1 = 64 * (n / 64)) then .unwritten
      else .home h.unit (s.slotOf h)

def State.modLoad (s : State) (id : Nat) (f : LoadReq → LoadReq) : State :=
  { s with loads := lmod s.loads (fun r => r.id = id) f }

/-- The newest stored copy of a line that the cache does not hold; none where the medium does not define it. -/
def State.newestStored (s : State) (n : Nat) : Option StoredLine :=
  let h := s.home n
  let d := s.tiles[h.tile].d
  match s.lookup n with
  | .staged _ _ _ _ _ => (dirEntry d n).bind (s.stagedLine h.tile)
  | .foldBuffer => (foldServes d h.unit h.pidx).map fun f => (tabGet f.buf h.line).getD { keys := s.sec.engine }
  | .unwritten => some { keys := s.sec.engine }
  | .home u slot => (tabGet s.media[h.tile].pages (pageKey u slot)).bind fun p =>
      if p.defined && !p.lost.contains (h.line / 8) then some ((tabGet p.lines h.line).getD { keys := p.keys }) else none
  | _ => none

/-- What a load returns may fill the cache: no newer copy of its line has come about while it was served (R145, R202). -/
def State.mayFill (s : State) (r : LoadReq) (data : Line) (poison : Bool) : Bool :=
  match s.newestStored r.line with
  | none => true
  | some l =>
    if poison then l.poison || s.lookup r.line = r.src
    else !l.poison && (l.data = data || l.keys ≠ s.sec.engine)

/-- A load has its line: the result is decided, the line fills the cache (R149), and a partial store that waited for it
goes on. -/
def State.loadDone (s : State) (id : Nat) (data : Line) (poison : Bool) (fillIt : Bool := true) : State :=
  match s.loads.find? (·.id = id) with
  | none => s
  | some r =>
    if r.internal then { s with loads := s.loads.filter (·.id ≠ id) }
    else
    let s := if fillIt && s.mayFill r data poison then s.fill r.line data poison else s
    if r.hint then { s with loads := s.loads.filter (·.id ≠ id) }
    else
    match r.forStore with
    | none =>
      match r.peer with
      | some (tag, src) =>
        -- a repair read of the mirror peer is answered (R516)
        let s := { s with loads := s.loads.filter (·.id ≠ id) }
        let m : MMsg := { opcode := 0x31, dst := src, tag := tag, addr := BitVec.ofNat 44 (64 * r.line) }
        (s.meshSend (if poison then { m with status := 1 } else { m with dslots := 4, data := lineBytes data })).2
      | none =>
        match r.wid with
        | some m =>
          -- a Widar RD of the DPA window is answered (R470, R476)
          let s := { s with loads := s.loads.filter (·.id ≠ id) }
          let n := m.len.toNat
          let bs := if poison then List.replicate n 0 else bytesAt (lineBytes data) (m.addr.toNat % 64) n
          (s.wReply r.owner m (b2n poison) bs).answerWidarBars
        | none => s.modLoad id fun r => { r with result := some (data, poison) }
    | some sid =>
      let s := { s with loads := s.loads.filter (·.id ≠ id) }
      let t := (s.home r.line).tile
      match cached s.tiles[t].d r.line with
      | some _ => (s.modStore t sid fun x => { x with phase := 0 }).tryStore t sid
      | none =>
        -- every way of the set is in use: the merged line is kept with the request, which waits for a way as a full store
        (s.modStore t sid fun x =>
          { x with phase := 0, data := mergeLine data x.data x.mask, mask := BitVec.allOnes 64,
                   poison := x.poison || poison }).tryStore t sid

/-- The line on logical die `ld` of a unit's ring can be read: its serving die has not failed, or the spare holds the
ring already (R238, R245). -/
def State.dieReads (s : State) (t : TileId) (unit ring ld : Nat) : Bool :=
  let c := toChan (unit / 16)
  let ch := s.tiles[t].ch[c]
  let rb := s.tiles[t].it.rebuild[c]
  !ch.failed.getLsbD (ch.dieMap.toNat / 16 ^ ld % 16)
    || (rb.active && rb.ldie.toNat = ld && rb.valid.contains (unit % 16, ring))

/-- The read item of a load: one line of a die (role 0), or one share (role 1), of a page slot or staging slot. -/
def State.readItem (s : State) (t : TileId) (id unit slot line bucket : Nat) (slc : Bool) (role ld : Nat) : State :=
  (s.enqueue t
    { id := 0, role := role, cls := .fgRead, herd := unit / 16, chan := unit / 16, unit := unit, part := unit % 16,
      slot := slot, line := line, slc := slc, bucket := bucket, targets := [ld], use := .load id }).count t 7 role

/-- The logical dies of a page or stripe whose lines can be read, but for those taken as erased. -/
def State.readDies (s : State) (t : TileId) (unit ring : Nat) (dead : List Nat) : List Nat :=
  (List.range 8).filter fun ld => s.dieReads t unit ring ld && !dead.contains ld

/-- Rungs 3 and 4 of R237: the shares of dies are read with bucket `b`. -/
def State.readShares (s : State) (t : TileId) (id unit slot b : Nat) (dies : List Nat) : State :=
  forAll dies (fun ld s => s.readItem t id unit slot 0 b false 1 ld) s

/-- A home read reaches page-code decode (R223, R237): the shares of every die in service are read, but for dies that R79
takes as erased. -/
def State.pageRung (s : State) (t : TileId) (id unit slot b : Nat) (dead : List Nat := []) : State :=
  let s := s.modLoad id fun r => { r with rung := 3, dead := dead }
  let s := (s.modD t fun d => { d with pageCode := satAdd d.pageCode 1 }).count t 7 7
  s.readShares t id unit slot b (s.readDies t unit (slot / 256) dead)

/-- Rung 3 of R239: the other lines of a staged line's stripe are read. -/
def State.stripeRung (s : State) (t : TileId) (id unit slot pos own b : Nat) (dead : List Nat := []) : State :=
  let s := s.modLoad id fun r => { r with rung := 2, dead := dead }
  forAll ((s.readDies t unit (slot / 256) dead).filter (· ≠ own))
    (fun ld s => s.readItem t id unit slot pos b true 0 ld) s

/-- The line on logical die `ld` lies on the channel's spare (R212). -/
def State.onSpare (s : State) (t : TileId) (unit ld : Nat) : Bool :=
  let ch := s.tiles[t].ch[toChan (unit / 16)]
  ch.spareInUse && decide (ch.dieMap.toNat / 16 ^ ld % 16 = 8)

/-- A load is served from the buffer of an open fold (R174). -/
def State.serveFold (s : State) (id line : Nat) (f : Fold) : State :=
  let (v, s) := s.decrypt ((tabGet f.buf line).getD { keys := s.sec.engine })
  s.loadDone id v ((tabGet f.buf line).any (·.poison))

/-- Start serving load `id`: lookup, and what needs no media is served at once; else a read item joins the FG_READ
queue of the channel's herd (R276). A line on a failed die starts at the page code or at its stripe (R238, R239). A load
waits behind the earlier stores of its line that still wait (R39). What it returns follows R217. -/
def State.startLoad (s : State) (id : Nat) : State :=
  match s.loads.find? (·.id = id) with
  | none => s
  | some r =>
    let h := s.home r.line
    let t := h.tile
    let d := s.tiles[t].d
    let waits (p : Nat) : Bool := p = 0 || p = 1 || p = 5
    if s.tiles[t].it.rebuildDirs.contains (dirBucket h) || s.tiles[t].pl.unloaded.contains h.unit then s  -- R228
    else if r.forStore = none ∧ d.stores.any fun x => x.line = r.line && waits x.phase && decide (x.id < id) then s
    else if s.tiles[t].ch[toChan (h.unit / 16)].outOfService then s.loadDone id 0 true false   -- R248
    else
      let src := s.lookup r.line
      let s := s.modLoad id fun r => { r with src := src }
      let s := if r.forStore.isSome then s else s.count t 2 (if src = .cache then 0 else 1)
      let s := match src with
        | .staged _ _ _ _ _ => if r.forStore.isSome then s else s.count t 3 4
        | _ => s
      match src with
      | .cache =>
        match cached d r.line with
        | some l => (s.useLine r.line).loadDone id l.data l.poison false
        | none => s
      | .unwritten => s.loadDone id 0 false
      | .foldBuffer =>
        match foldServes d h.unit h.pidx with
        | some f => s.serveFold id h.line f
        | none => s
      | .staged u ring ss sp si =>
        let slot := 256 * ring + ss
        let ld := (slot + sp + si) % 8
        let b := s.bucketFor t u slot (s.onSpare t u ld)
        let s := s.modLoad id fun r => { r with bucket := b }
        if s.railOut t u then s.loadDone id 0 true false   -- R548
        else if s.dieReads t u ring ld then s.readItem t id u slot sp b true 0 ld else s.stripeRung t id u slot sp ld b
      | .home u slot =>
        let ld := lineDie slot h.line
        let b := s.bucketFor t u slot (s.onSpare t u ld)
        let s := s.modLoad id fun r => { r with bucket := b }
        if s.railOut t u then s.loadDone id 0 true false   -- R548
        else if s.dieReads t u (slot / 256) ld then s.readItem t id u slot (h.line / 8) b false 0 ld
        else s.pageRung t id u slot b
      | .none => s

/-- A load that still waits to be looked up starts. -/
def State.startUnstarted (s : State) (id : Nat) : State :=
  if s.loads.any fun r => r.id = id && r.unstarted then s.startLoad id else s

/-- Serve every store of a tile that waits for a way or is held, and every load that waits to be looked up, in the order of
arrival (R39, R149, R152, R183). -/
def State.retryStores (s : State) (t : TileId) : State :=
  let stores := (s.tiles[t].d.stores.filter fun r => r.phase = 0 || r.phase = 1).map (·.id)
  let loads := (s.loads.filter fun r => r.owner = t && r.unstarted).map (·.id)
  forAll (sortBy (fun (a b : Nat) => decide (a ≤ b)) (stores ++ loads)) (fun i s => (s.tryStore t i).startUnstarted i) s

/-- Loads that waited to be looked up start. -/
def State.wakeLoads (s : State) (t : TileId) : State :=
  forAll ((s.loads.filter fun r => r.owner = t && r.unstarted).map (·.id)) (fun i s => s.startLoad i) s

/-- MBARs of the mirror peer are answered once every earlier RWR of that source is performed (R519). -/
def State.answerBars (s : State) : State :=
  let ready (x : BitVec 6 × BitVec 12) : Bool := !(s.mesh.performed.any fun y => y.1 = x.1)
  let s' := forAll (s.mesh.barsIn.filter ready) (fun x s => s.meshReply x.1 x.2 0) s
  { s' with mesh := { s'.mesh with barsIn := s'.mesh.barsIn.filter fun x => !ready x } }

/-- A store is acknowledged: a full-line store without poison ends the poison of its line, and its entry goes (R256). -/
def State.storeAcked (s : State) (t : TileId) (r : StoreReq) : State :=
  let s := s.modD t fun d => { d with stores := d.stores.filter (·.id ≠ r.id) }
  if r.full && !r.poison && !r.discarded && !(cached s.tiles[t].d r.line).any (·.poison)
      && !(s.newestStored r.line).any (·.poison) then s.unlistPoison r.line
  else s

/-- Stores that serve the mirror peer, a Widar WR, or the part itself, and have reached their point are answered (R476,
R513, R519). -/
def State.answerPeers (s : State) (t : TileId) : State :=
  let due (r : StoreReq) : Bool := (r.peer.isSome || r.internal || r.wid.isSome) && (r.phase = 4 && r.peerDone || r.discarded)
  let done := s.tiles[t].d.stores.filter due
  let s := forAll done (fun r s =>
    let s := s.storeAcked t r
    match r.peer, r.wid with
    | some (tag, src), _ =>
      if r.early then
        { s with mesh := { s.mesh with performed := s.mesh.performed.erase (src, BitVec.ofNat 44 (64 * r.line)) } }
      else s.meshReply src tag 0
    | none, some (src, tag) =>
      (s.wsend t { opcode := 8, tag := tag, src := BitVec.ofNat 3 t.val, dst := src,
                   status := if r.discarded then 7 else 0 }).2
    | none, none =>
      -- a command that waits for its store completes (R256, R257)
      match s.svc.waiting with
      | some (m, .store t' id) =>
        if t' = t ∧ id = r.id then (if r.discarded then s.mbFinish m .internalError else s.mbFinish m .success) else s
      | _ => s) s
  let s := if done.any (·.wid.isSome) then s.answerWidarBars else s
  if done.any (·.early) then s.answerBars else s

/-- A new store enters its owner tile; its number. -/
def State.newStore (s : State) (t : TileId) (r : StoreReq) : State :=
  let id := s.nextReq
  let s := { s with nextReq := id + 1 }.ungate t dataDomains
  let r := { r with id := id, full := decide (r.mask = BitVec.allOnes 64) }
  (((s.modD t fun d => { d with stores := d.stores ++ [r] }).tryStore t id).answerPeers t).wakeLoads t

/-- A new load enters its owner tile. -/
def State.newLoad (s : State) (r : LoadReq) : State :=
  let id := s.nextReq
  let s := s.ungate r.owner dataDomains
  ({ s with nextReq := id + 1, loads := s.loads ++ [{ r with id := id }] }).startLoad id

/-- Stores and loads of a tile that waited go on after space, a way or a verify has come. -/
def State.wake (s : State) (t : TileId) : State := (((s.thresholds t).retryStores t).answerPeers t).wakeLoads t

end Sys2Proof.Machine
end

