-- ==== Sys2Proof/Machine/BlackBox.lean ====
section
/-! DEFINITION. Writing black box records (R640 to R645). -/

namespace Sys2Proof.Machine

/-- Send a record to the media copies: every tile in service, or the rescue lead alone, appends it as a record line of
its main staging area while the media rails are on (R37, R645). -/
def State.bbMedia (s : State) (r : BBRec) : State :=
  if s.mediaOn then
    forAll (if s.bbx.buffer.isSome then [s.lead] else s.svcTiles)
      (fun t s => s.append t 0 { kind := .blackBox r, line := 0, val := {} }) s
  else s

/-- Write a black box record (R640): dropped beyond 100 in the running second unless it is a power-fail record, or
when every slot holds a FATAL record; else stored in the flash copy and in the media copies, or under a rescue lead in
its buffer and its own media copy (R37). Not `media`: a flush that writes the flash copy alone (R561). -/
def State.bbWrite (s : State) (kind : BitVec 8) (body : Nat) (exempt : Bool := false) (media : Bool := true) :
    State :=
  let dropped (s : State) : State :=
    { s with bbx := { s.bbx with dropped := satAdd s.bbx.dropped 1, roundDropped := true } }
  if s.bbx.second ≥ 100 ∧ exempt = false then dropped s
  else
    match s.bbNext with
    | none => dropped s
    | some k =>
      let r : BBRec :=
        { kind := kind, slot := k, seq := BitVec.ofNat 32 (s.bbMaxSeq + 1), boots := BitVec.ofNat 32 s.boots,
          body := BitVec.ofNat 384 body }
      let s := { s with bbx := { s.bbx with second := s.bbx.second + b2n (!exempt) } }
      let s := match s.bbx.buffer with
        | some b => { s with bbx := { s.bbx with buffer := some (tabPut b k r), pos := (k + 1) % 1024 } }
        | none =>
          let half := if s.nv[s.lead].bbFill.getLsbD (k / 64) then 1 else 0
          let s := s.modNv s.lead fun v => { v with bb := tabPut v.bb (1024 * half + k) r }
          let s := { s with bbx := { s.bbx with pos := (k + 1) % 1024 } }
          if (s.bbNext.getD 0) / 64 ≠ k / 64 then s.bbRotate (k / 64) else s
      if media then s.bbMedia r else s


/-- A record line of a verified stripe enters the tile's media copy, unless it holds a newer record of the slot. -/
def State.bbStored (s : State) (t : TileId) (r : BBRec) : State :=
  let f (m : List (Nat × BBRec)) : List (Nat × BBRec) :=
    match tabGet m r.slot with
    | some o => if o.seq.toNat > r.seq.toNat then m else tabPut m r.slot r
    | none => tabPut m r.slot r
  { s with bbx := { s.bbx with media := vmod s.bbx.media t f } }

end Sys2Proof.Machine
end

