-- ==== Sys2Proof/Machine/MediaOps.lean ====
section
/-! DEFINITION. Shared operations on channels, dies and segments: die failure (R242 to R248), remapping (R125, R126),
counted programs and placement records (R116, R119, R127, R163), freeing of segments (R162). -/

namespace Sys2Proof.Machine

/-- Bit 4t + c of a package-wide channel mask. -/
def chanBit (t : TileId) (c : ChanId) : Nat := 4 * t.val + c.val

/-- The channel serves no lines of its units: two lost dies, or a rail (R248, R548). -/
def State.chanOut (s : State) (t : TileId) (c : ChanId) : Bool :=
  s.tiles[t].ch[c].outOfService || s.seq.chOff.getLsbD (chanBit t c)

/-- Every layout channel of the tiles in service is out of service: FAIL_CAUSE all media unreachable (R49, R53). -/
def State.mediaGone (s : State) : State :=
  let r := s.cfg.record
  let live := s.svcTiles.any fun t => (recTiles r).contains t.val && (List.range (recC r)).any fun c => !s.chanOut t (toChan c)
  if r = [] || live then s else s.fail .mediaUnreachable

/-- Lines and records of a stripe that still wait to verify are appended again elsewhere (R161, R548). -/
def State.appendAgain (s : State) (t : TileId) (x : Stripe) : State :=
  let a : Fin 5 := if h : x.area < 5 then ⟨x.area, h⟩ else 0
  forAll (x.entries.filter (!·.dead)) (fun e s => s.append t a e) s

/-- A channel with two logical dies that lack a serving die goes out of service (R248). -/
def State.channelOff (s : State) (t : TileId) (c : ChanId) : State :=
  if s.tiles[t].ch[c].outOfService then s
  else
    let s := s.modCh t c fun x => { x with outOfService := true }
    let s := s.addCause .channelOff
    let s := s.raise (mkEv 0x1070 .error t (c.val + 1))
    -- staged lines in other channels whose home units lie in this channel become dead
    let s := s.modD t fun d => { d with
      dir := d.dir.filter fun e => toChan ((s.home e.line).unit / 16) ≠ c
      folds := d.folds.filter fun f => toChan (f.unit / 16) ≠ c }
    -- stripes on the channel are appended again from their STAGING lines
    let lost := s.tiles[t].d.closed.filter fun x => x.placed && toChan (x.unit / 16) = c
    let s := s.modD t fun d => { d with closed := d.closed.filter fun x => !lost.contains x }
    let s := forAll lost (fun x s => s.appendAgain t x) s
    (({ s with poison := { s.poison with overflow := true } }).raise (mkEv 0x1060 .warn 15 0)).mediaGone

/-- The rebuild of a failed logical die into the armed spare starts (R245). -/
def State.startRebuild (s : State) (t : TileId) (c : ChanId) (ldie : Nat) : State :=
  let s := s.modIt t fun i => { i with rebuild := vmod i.rebuild c fun _ =>
    { active := true, ldie := BitVec.ofNat 3 ldie, start := s.aon.seconds } }
  let s := s.modD t fun d => { d with rebuildAt := d.rebuildAt.set c (some s.aon.seconds) }
  s.raise (mkEv 0x1021 .warn t (c.val + 1) [(1, ldie)])

/-- The logical die that a physical position serves. -/
def ldieOf (c : Chan) (pos : Nat) : Option Nat := (List.range 8).find? fun d => c.dieMap.toNat / 16 ^ d % 16 = pos

/-- A die is declared failed by criterion `crit` of R242: the flags of R243, DIE_REBUILD, event 0x1020, and the
rebuild when a spare is armed. A failing spare is disarmed and ends its rebuild (R247). -/
def State.failDie (s : State) (t : TileId) (c : ChanId) (pos : Fin 9) (crit : Nat) : State :=
  let ch := s.tiles[t].ch[c]
  if ch.failed.getLsbD pos then s
  else
    let s := s.modCh t c fun x => { x with failed := bitOn x.failed pos }
    match ldieOf ch pos with
    | none =>
      let s := s.modCh t c fun x => { x with spareArmed := false }
      let s := s.modIt t fun i => { i with rebuild := vmod i.rebuild c fun r => { r with active := false } }
      s.raise (mkEv 0x1023 .warn t (c.val + 1))
    | some ld =>
      let s := s.modCh t c fun x => { x with failedDie := BitVec.ofNat 3 ld, failedValid := true }
      let s := s.addCause .dieRebuild
      let s := s.raise (mkEv 0x1020 .error t (c.val + 1) [(1, ld), (1, crit)])
      let s := if (List.range 8).length - (servedDies s.tiles[t].ch[c]).length ≥ 2 then s.channelOff t c else s
      if ch.spareArmed && !ch.spareInUse && !s.tiles[t].ch[c].outOfService && !s.tiles[t].it.rebuild[c].active
      then s.startRebuild t c ld else s

/-- The entries of a list, oldest first, that lie within the last second (R79, R242, R463): those that the seconds clock stamps with
this second, and the newest of those of the second before. How many of these is free, for the clock shows no part of a second
(log 107). -/
def State.lately {α : Type} (s : State) (stamp : α → Nat) (l : List α) : List α × State :=
  let new := l.filter fun e => decide (stamp e = s.clock)
  match l.filter fun e => decide (stamp e + 1 = s.clock) with
  | [] => (new, s)
  | e :: old =>
    let (v, s) := s.draw
    ((e :: old).drop (v % (old.length + 2)) ++ new, s)

/-- One more occurrence of a criterion that R242 counts within one second, keyed by channel, position and item: the entries of that
second, and the number of distinct items of that die among them. -/
def State.noteIn (s : State) (l : List (Nat × Nat)) (key item : Nat) : List (Nat × Nat) × Nat × State :=
  let k := key * 2 ^ 40 + item
  let (l, s) := s.lately Prod.snd l
  let l := (l.filter fun e => decide (e.1 ≠ k)) ++ [(k, s.clock)]
  (l, (l.filter fun e => e.1 / 2 ^ 40 = key).length, s)

/-- The key of a die position for R242. -/
def dieKey (c : ChanId) (pos : Nat) : Nat := 16 * c.val + pos

/-- The physical position that serves a logical die. -/
def servingPos (c : Chan) (ld : Nat) : Fin 9 := toDie (c.dieMap.toNat / 16 ^ ld % 16)

/-- Programs fail their final VERIFY on one die alone: the fourth share slot within a second fails the die (R242). -/
def State.noteSlot (s : State) (t : TileId) (c : ChanId) (pos : Fin 9) (slot : Nat) : State :=
  let (l, n, s) := s.noteIn s.tiles[t].it.failedSlots (dieKey c pos) slot
  let s := s.modIt t fun i => { i with failedSlots := l }
  if n ≥ 4 then s.failDie t c pos 3 else s

/-- The final VERIFY of a program failed on the logical dies `failed` (R242). -/
def State.noteProgram (s : State) (t : TileId) (unit slot : Nat) (failed : BitVec 8) : State :=
  let c := toChan (unit / 16)
  match bitsOf failed with
  | [ld] => s.noteSlot t c (servingPos s.tiles[t].ch[c] ld) (pageKey unit slot)
  | _ => s

/-- Lines FAILED on one die alone: the sixteenth page within a second fails the die (R242). -/
def State.notePage (s : State) (t : TileId) (c : ChanId) (pos : Fin 9) (page : Nat) : State :=
  let (l, n, s) := s.noteIn s.tiles[t].it.failedPages (dieKey c pos) page
  let s := s.modIt t fun i => { i with failedPages := l }
  if n ≥ 16 then s.failDie t c pos 2 else s

/-- A command ends in a second burst CRC mismatch: the sixteenth within a second fails the die (R242). -/
def State.noteCrc (s : State) (t : TileId) (c : ChanId) (pos : Fin 9) (item : Nat) : State :=
  let (l, n, s) := s.noteIn s.tiles[t].it.crcFails (dieKey c pos) item
  let s := s.modIt t fun i => { i with crcFails := l }
  if n ≥ 16 then s.failDie t c pos 4 else s

/-! ### Targets and partitions -/

/-- The physical positions that a work item's commands go to (R286): of its logical dies those with a serving die; the
spare for a program into a die under rebuild, and for a read that the spare holds already (R245). -/
def itemPos (x : Tile) (w : WorkItem) : List (Fin 9) :=
  if w.role ≥ 4 then w.targets.map toDie
  else
    let ch := x.ch[toChan w.chan]
    let rb := x.it.rebuild[toChan w.chan]
    (if w.targets = [] then List.range 8 else w.targets).flatMap fun ld =>
      let pos := servingPos ch ld
      if !ch.failed.getLsbD pos then [pos]
      else if rb.active && rb.ldie.toNat = ld && !ch.failed.getLsbD 8
          && (decide (2 ≤ w.role) || rb.valid.contains (w.part, w.slot / 256)) then [8]
      else []

def State.modPart (s : State) (t : TileId) (c : ChanId) (pos : Fin 9) (p : Fin 16) (f : Part → Part) : State :=
  s.modDie t c pos fun d => { d with parts := vmod d.parts p f }

/-- A context's program ends: the context is free, and the partitions of a program are idle. -/
def State.endCtx (s : State) (t : TileId) (x : Context) : State :=
  let pos := itemPos s.tiles[t] x.item
  let s := s.modEng t fun e => { e with ctxs := e.ctxs.filter (· ≠ x) }
  if x.item.role = 2 ∨ x.item.role = 3 then
    forAll pos (fun p s => s.modPart t (toChan x.item.chan) p (toPart x.item.part) fun q => { q with st := .idle }) s
  else s

/-- An item of a work use waits, or its program runs. -/
def workLeft (e : Engine) (u : WorkUse) : Bool :=
  let is (w : WorkItem) : Bool := decide (w.use = u)
  e.queues.toList.any (·.any is) || e.full.any is || e.ctxs.any fun x => is x.item

/-! ### Placement records, remapping, counted programs -/

/-- Append a placement record to the staging log (R119, R123, R163). -/
def State.placementRec (s : State) (t : TileId) (unit : Nat) (r : PlacementRec) : State :=
  let s := s.modPl t fun p => { p with recCount := Sparse.set 0 p.recCount unit (Sparse.get 0 p.recCount unit + 1) }
  s.append t 0 { kind := .placement r, line := 0, val := {} }

/-- A remap entry with VALID set (R125). -/
def remapWord (slot pool : Nat) : Nat := slot + pool * 2 ^ 23 + 2 ^ 31

/-- Offsets 0 to 8,187 of a unit record (R127). -/
def UnitRec.body (r : UnitRec) : List Byte :=
  leBytes 4 r.signature.toNat ++ leBytes 4 r.gen.toNat ++ leBytes 8 r.logSeq.toNat ++ leBytes 8 (r.moves % 2 ^ 48)
    ++ leBytes 4 r.epoch.toNat ++ [BitVec.ofNat 8 r.tile, BitVec.ofNat 8 r.unit] ++ leBytes 2 r.remap.length
    ++ ((List.range 2560).map fun k => BitVec.ofNat 8 ((List.range 8).foldl (fun v i =>
        if r.written.contains (8 * k + i) then v + 2 ^ i else v) 0))
    ++ ((List.range 240).flatMap fun k => leBytes 8 (match r.remap[k]? with
        | some e => remapWord e.1 e.2
        | none => match r.spent[k - r.remap.length]? with
          | some p => p * 2 ^ 23
          | none => 0))
    ++ List.replicate 3676 0

/-- The 8,192 bytes of a unit record. -/
def UnitRec.bytes (r : UnitRec) : List Byte := r.body ++ leBytes 4 (crc32c r.body ^^^ r.crcDelta).toNat

/-- A unit record of unit `unit` of tile `t` is valid (R127). -/
def UnitRec.valid (r : UnitRec) (t unit : Nat) : Bool :=
  r.signature = 0x594C5552 && r.crcDelta = 0 && r.tile = t && r.unit = unit

/-- The valid records of a unit, of the eight that rotate (R127). -/
def State.unitRecsOf (s : State) (t : TileId) (unit : Nat) : List UnitRec :=
  ((List.range 8).filterMap fun i => tabGet s.media[t].unitRecs (8 * unit + i)).filter (·.valid t.val unit)

/-- The valid record of a unit with the highest GENERATION (R127). -/
def State.unitRec (s : State) (t : TileId) (unit : Nat) : Option UnitRec :=
  (s.unitRecsOf t unit).foldl (fun b r => match b with
    | some x => if r.gen.toNat > x.gen.toNat then some r else b
    | none => some r) none

/-- Two valid records with equal GENERATION and different contents: the media are found inconsistent (R127). -/
def State.unitConflict (s : State) (t : TileId) (unit : Nat) : Bool :=
  let rs := s.unitRecsOf t unit
  rs.any fun a => rs.any fun b => a.gen = b.gen && a ≠ b

/-- The lowest free pool slot of a unit (R126). -/
def freePool (p : Placement) (unit : Nat) : Option Nat :=
  ((List.range 240).map (· + 16)).find? fun k =>
    !(p.remap.any fun e => e.unit = unit && e.pool = k) && !p.spent.contains (unit, k)

/-- A home page slot is declared bad (R126, R241): it takes the lowest free pool slot; a bad pool slot is spent and its
entry moves on; an exhausted pool is recorded and the slot stays in service. `slot` is the slot before step 5. -/
def State.remapSlot (s : State) (t : TileId) (unit slot : Nat) : State :=
  let p := s.tiles[t].pl
  let cur := p.remap.find? fun e => e.unit = unit ∧ e.slot = slot
  let p := match cur with
    | some e => { p with spent := (unit, e.pool) :: p.spent }
    | none => p
  match freePool p unit with
  | some k =>
    let s := s.modPl t fun _ =>
      { p with remap := (p.remap.filter fun e => !(e.unit = unit && e.slot = slot)) ++ [{ unit, slot, pool := k }] }
    let s := s.raise (mkEv 0x1030 .info t (unit / 16 + 1) [(1, unit), (3, slot)])
    s.placementRec t unit (.remap unit slot k)
  | none =>
    let s := s.modPl t fun q =>
      { q with exhausted := if q.exhausted.contains unit then q.exhausted else q.exhausted ++ [unit] }
    s.raise (mkEv 0x1031 .error t (unit / 16 + 1) [(1, unit), (3, slot)])

/-- The pool of a unit has no free slot. -/
def poolEmpty (p : Placement) (unit : Nat) : Bool := (freePool p unit).isNone

/-- `n` counted programs of a unit; each 64th makes one move due (R116). -/
def State.counted (s : State) (t : TileId) (unit n : Nat) : State :=
  let s := s.modPl t fun p =>
    let c := Sparse.get 0 p.counted unit + n
    { p with counted := Sparse.set 0 p.counted unit (c % 64)
             due := Sparse.set 0 p.due unit (Sparse.get 0 p.due unit + c / 64) }
  s.count t 4 3 n

/-- A fold's program of the unit is on its way and will count (R116). -/
def Fold.programs (f : Fold) (unit : Nat) : Bool := f.unit = unit && ((f.step = 6 && !f.parked) || (f.step = 7 && !f.opens))

/-- One more counted program, beside those of the unit that are on their way, would leave a fourth move undone (R119). -/
def movesBlock (x : Tile) (unit : Nat) : Bool :=
  decide (Sparse.get 0 x.pl.due unit + (Sparse.get 0 x.pl.counted unit + x.d.folds.countP (·.programs unit) + 1) / 64 > 3)

/-! ### Uncorrectable and decoded lines (R238, R254, R261 to R263) -/

/-- A channel counts a decode with a corrected count of at least 1 (R261). -/
def State.noteCorrected (s : State) (t : TileId) (c : ChanId) (n : Nat) : State :=
  if n = 0 then s
  else (s.modIt t fun i => { i with corr := vmod i.corr c (wrapAdd · 1) }).count t 7 6

/-- The reads of a replay: how many commands they take, and how many of their lines decode with a corrected count, no event says, so
those counts rise by free amounts (R261, R646). -/
def State.replayReads (s : State) (t : TileId) : State :=
  let s := forAll ([0, 1] : List Nat) (fun k s => let (v, s) := s.draw; s.count t 7 k (v % 2 ^ 32)) s
  forAll allChans (fun c s =>
    let (v, s) := s.draw
    (s.modIt t fun i => { i with corr := vmod i.corr c (· + BitVec.ofNat 32 (v % 2 ^ 32)) }).count t 7 6 (v % 2 ^ 32)) s

/-- A decode is counted: a corrected count of at least 1 (R261), or MISDIRECTED (R263). -/
def State.noteRead (s : State) (t : TileId) (c : ChanId) (x : LineRead) : State :=
  match x with
  | .good n _ _ => s.noteCorrected t c n
  | .misdirected => s.modIt t fun i => { i with misdirect := vmod i.misdirect c (satAdd · 1) }
  | .failed => s

/-- Reads that the part makes for itself (fold, gap move, patrol, recovery, rebuild, scan) are counted: `lines` and
`shares` commands, and what decoding gave (R232, R261, R263, R646). -/
def State.noteReads (s : State) (t : TileId) (c : ChanId) (lines shares : Nat) (rs : List LineRead) : State :=
  forAll rs (fun x s => s.noteRead t c x) ((s.count t 7 0 lines).count t 7 1 shares)

/-- The page lines of a page slot that no die gives: those of logical dies without a serving die, or without the spare's
copy of the ring yet (R237, R245). -/
def State.deadLines (s : State) (t : TileId) (unit slot : Nat) (dead : List Nat := []) : List Nat :=
  (List.range 80).filter fun l => !(s.readDies t unit (slot / 256) dead).contains (lineDie slot l)

/-- Lines FAILED on one logical die alone are held against that die (R242). -/
def State.noteFailedPage (s : State) (t : TileId) (unit slot : Nat) (dead : List Nat) (rs : List (Nat × LineRead)) : State :=
  let c := toChan (unit / 16)
  match (((erased rs).filter fun l => !dead.contains l).map (lineDie slot ·)).eraseDups with
  | [ld] => s.notePage t c (servingPos s.tiles[t].ch[c] ld) (pageKey unit slot)
  | _ => s

/-- A stored line as a read gives it: one that the code left wrong, or with CHECK reading as the complement, gives a free
value (R232). -/
def State.asRead (s : State) (l : StoredLine) (r : LineRead) : StoredLine × State :=
  match r with
  | .good _ (_ :: _) inv =>
    let (v, s) := s.draw
    if l.poison != inv then ({ data := 0, poison := true, keys := s.sec.engine }, s)
    else ({ data := BitVec.ofNat 512 v, keys := s.sec.engine }, s)
  | _ => (l, s)

/-- A line has been found poisoned: it is listed when no entry holds it (R255). -/
def State.foundPoisoned (s : State) (n : Nat) : State := s.listPoison n (s.poisonSource n)

/-- The part reads a whole page for itself: rung 3, rung 4 where rung 3 does not give the page, and rung 5 (R237). What the
line code gave of each line in the end. A page that the page code had to give is counted as a read that reached it, and
as an escalated one where it succeeded (R223, R262). -/
def State.pageRead (s : State) (t : TileId) (unit slot : Nat) (noise : PageNoise) : List (Nat × LineRead) × State :=
  let c := toChan (unit / 16)
  let dead := s.deadLines t unit slot
  let live (rs : List (Nat × LineRead)) : List LineRead := (rs.filter fun r => !dead.contains r.1).map (·.2)
  let rs := readPage dead noise.1
  let s := s.noteReads t c 0 (s.readDies t unit (slot / 256) []).length (live rs)
  let s := s.noteFailedPage t unit slot dead rs
  if pageChecks rs then (rs, s)
  else
    let s := (s.modD t fun d => { d with pageCode := satAdd d.pageCode 1 }).count t 7 7
    let again := (((erased rs).filter fun l => !dead.contains l).map (lineDie slot ·)).eraseDups
    let (rs, s) : List (Nat × LineRead) × State :=
      if withinCode rs 0 || again = [] then (rs, s)
      else
        let rs' := rereadPage dead rs noise.2
        (rs', s.noteReads t c 0 again.length (live rs'))
    (rs, if pageGives rs then s.modIt t fun i => { i with escPage := vmod i.escPage c (satAdd · 1) } else s)

/-- The data lines of a page that no rung gives (R237). -/
def pageLost (rs : List (Nat × LineRead)) : List Nat := if pageGives rs then [] else (erased rs).filter (· < 64)

/-- The indexes of a stripe's eight lines that no die gives (R239, R244). -/
def State.deadIndexes (s : State) (t : TileId) (unit slot pos : Nat) (dead : List Nat := []) : List Nat :=
  (List.range 8).filter fun i => !(s.readDies t unit (slot / 256) dead).contains ((slot + pos + i) % 8)

/-- The part reads one staged line of a stripe for itself (R239); whether a rung gives it. -/
def State.stagedRead (s : State) (t : TileId) (unit slot pos i : Nat) (noise : Noise) : Bool × State :=
  let c := toChan (unit / 16)
  let dead := s.deadIndexes t unit slot pos
  let own := readLine false (noiseOf noise i)
  let first := !dead.contains i && own.ok && !metaWrong own
  let rest := ((List.range 8).filter fun k => k ≠ i && !dead.contains k).map fun k => readLine (decide (k = 7)) (noiseOf noise k)
  let s := if dead.contains i then s else s.noteReads t c 1 0 [own]
  if first then (true, s)
  else
    let s := s.noteReads t c rest.length 0 rest
    let ok := stripeGives dead noise i
    (ok, if ok then s.modIt t fun n => { n with escStripe := vmod n.escStripe c (satAdd · 1) } else s)

/-! ### Programs of share slots (R58, R59, R65) -/

/-- An MLC program of a page slot writes all ten positions of its share slots: what was there in either mode is gone. -/
def State.putPage (s : State) (t : TileId) (unit slot : Nat) (p : Page) : State :=
  let s := s.modMedia t fun m => { m with pages := tabPut m.pages (pageKey unit slot) p }
  s.modStaged t fun m => { m with stripes := m.stripes.filter fun x => !(x.unit = unit && 256 * x.ring + x.t / 5 = slot) }

/-- An SLC program of line position k uses the cells of MLC positions 2k and 2k + 1 (R58). -/
def State.useCells (s : State) (t : TileId) (unit slot k : Nat) : State :=
  s.modMedia t fun m => { m with pages := match tabGet m.pages (pageKey unit slot) with
    | some p => tabPut m.pages (pageKey unit slot) { p with lost := (p.lost ++ [2 * k, 2 * k + 1]).eraseDups }
    | none => m.pages }

/-- A page slot whose program was cut short: undefined (R65). -/
def State.cutPage (s : State) (t : TileId) (unit slot : Nat) : State := s.putPage t unit slot { defined := false }

/-- A line is uncorrectable at rung `rung`: it is counted, recorded with its DPA (event 0x1010), poisoned with source
Internal and entered in the poison list (R238, R254, R255, R263). -/
def State.uncorrectable (s : State) (t : TileId) (n unit ldie rung : Nat) : State :=
  let s := s.modIt t fun i => { i with uncorr := vmod i.uncorr (toChan (unit / 16)) (satAdd · 1) }
  let s := s.raise (mkEv 0x1010 .error t (unit / 16 + 1) [(1, ldie), (1, rung)] (64 * n))
  -- a line that the cache holds by now has a known value
  if (cached s.tiles[t].d n).isSome then s else s.poisonCached n .internal

/-- Queue the page of a home for refresh (R238). -/
def State.queueRefresh (s : State) (t : TileId) (unit pidx : Nat) : State :=
  s.modD t fun d =>
    { d with refresh := if d.refresh.contains (unit, pidx) then d.refresh else d.refresh ++ [(unit, pidx)] }

/-- How the program of a work use ended (R287): the logical dies whose final VERIFY failed; none while it has not ended. -/
def progResult (e : Engine) (u : WorkUse) : Option (BitVec 8) := (e.results.find? (·.1 = u)).map (·.2)

/-- The items of a work use leave the queues, the contexts that run its program end, and its result is taken. -/
def State.endContexts (s : State) (t : TileId) (u : WorkUse) : State :=
  let s := s.modEng t fun e =>
    { e with queues := vmap e.queues fun _ q => q.filter (·.use ≠ u), full := e.full.filter (·.use ≠ u)
             results := e.results.filter (·.1 ≠ u) }
  forAll (s.tiles[t].eng.ctxs.filter fun x => x.item.use = u) (fun x s => s.endCtx t x) s

/-- The work of a use is given up: an MLC program of it that has applied a step leaves its page slot undefined (R65). -/
def State.cutContexts (s : State) (t : TileId) (u : WorkUse) : State :=
  let cut := s.tiles[t].eng.ctxs.filter fun x => x.item.use = u && x.item.role = 3 && x.progStarted
  (forAll cut (fun x s => s.cutPage t x.item.unit x.item.slot) s).endContexts t u

/-! ### Segments (R162) -/

/-- The verified horizon (R160). -/
def horizon (d : TileData) : BitVec 64 :=
  match d.closed with
  | [] => d.logSeq
  | x :: _ => x.seq - 1

/-- Records of the staged stripes of a segment that must be kept (R127, R162, R645); one that a younger stripe of another
segment holds again is kept there. -/
def State.keptRecords (s : State) (t : TileId) (unit ring : Nat) : List StripeEntry :=
  (s.staged[t].stripes.filter fun x => x.unit = unit ∧ x.ring = ring).flatMap fun x =>
    x.entries.filter fun e => !(s.staged[t].stripes.any fun y =>
        decide (y.seq > x.seq) && !(y.unit = unit && y.ring = ring) && y.entries.any fun z => z.kind = e.kind && z.line = 0)
      && match e.kind with
      | .placement r =>
        let u := match r with | .move u _ => u | .written u _ _ => u | .remap u _ _ => u
        match s.unitRec t u with
        | some ur => decide (x.seq > ur.logSeq)
        | none => true
      | .blackBox r => decide (tabGet s.bbx.media[t] r.slot = some r)
      | .discard _ _ => s.staged[t].stripes.any fun y => decide (y.seq < x.seq)
                          && s.tiles[t].d.segs.any fun g => g.unit = y.unit && g.ring = y.ring
      | _ => false

/-- A segment holds a live line, a line that waits for its bucket, a carry line of an open fold (R146, R173), or has a read
in flight (R202). -/
def State.segLive (s : State) (t : TileId) (g : Segment) : Bool :=
  let d := s.tiles[t].d
  let carried (x : Stripe) : Bool := x.unit = g.unit && x.ring = g.ring && x.entries.any fun e =>
    e.kind = .carry && d.folds.any fun f =>
      decide (x.seq > f.foldSeq) && f.unit = (s.home e.line).unit && f.pidx = (s.home e.line).pidx
  s.staged[t].stripes.any carried ||
  (d.dir.any fun e => e.unit = g.unit && e.ring = g.ring)
    || (d.waiting.any fun e => e.2.unit = g.unit && e.2.ring = g.ring)
    || (d.closed.any fun x => x.placed && x.unit = g.unit && x.ring = g.ring)
    || s.loads.any fun r => r.owner = t && r.result.isNone &&
        (match r.src with | .staged u k _ _ _ => u = g.unit && k = g.ring | _ => false)

/-- A record waits to verify in an assembly stripe or a closed one. -/
def recordPending (d : TileData) (k : EntryKind) : Bool :=
  (d.asm.toList.flatten ++ d.closed.flatMap (·.entries)).any fun e => e.kind = k && e.line = 0

/-- Free a segment: its stripes are dead from now on. -/
def State.freeSeg (s : State) (t : TileId) (g : Segment) : State :=
  let s := s.modD t fun d => { d with segs := d.segs.filter (· ≠ g), freed := d.freed ++ [(g.unit, g.ring)] }
  s.modStaged t fun m => { m with stripes := m.stripes.filter fun x => !(x.unit = g.unit && x.ring = g.ring) }

/-- A segment of the main area lies in a ring that the area no longer has: it is handed back (R135). -/
def State.handedBack (s : State) (t : TileId) (g : Segment) : Bool := g.area = 0 && !(s.areaRings t 0).contains g.ring

/-- In-use segments with no live line and no kept record become free; when the oldest in-use segment, or one that is handed
back, holds only kept records, they are appended again, and it becomes free once they have verified elsewhere (R136, R146,
R162). -/
def State.freeSegments (s : State) (t : TileId) : State :=
  let inUse := sortBy (fun (a b : Segment) => decide (a.order ≤ b.order)) (s.tiles[t].d.segs.filter fun g => !g.isOpen)
  let s := forAll (inUse.take 1 ++ (inUse.drop 1).filter (s.handedBack t ·)) (fun g s =>
    let k := s.keptRecords t g.unit g.ring
    if !s.segLive t g then
      forAll (k.filter fun e => !recordPending s.tiles[t].d e.kind) (fun e s => s.append t 0 e) s
    else s) s
  forAll inUse (fun g s =>
    if !s.segLive t g && s.keptRecords t g.unit g.ring = [] && s.tiles[t].d.segs.contains g then s.freeSeg t g
    else s) s

/-- Free segments of an area in tile `t`: those never freed this boot in ring order, then those freed longest ago first
(R162); never one whose ring-slots 0 and 1 are both excluded (R391). -/
def State.freeSegList (s : State) (t : TileId) (a : Fin 5) (units : List Nat) : List (Nat × Nat) :=
  let d := s.tiles[t].d
  let rings := s.areaRings t a
  let all := units.flatMap fun u => rings.map fun r => (u, r)
  let ok (x : Nat × Nat) : Bool :=
    !(d.segs.any fun g => g.unit = x.1 && g.ring = x.2)
      && !(d.exclSlots.contains (x.1, 256 * x.2) && d.exclSlots.contains (x.1, 256 * x.2 + 1))
  (all.filter fun x => ok x && !d.freed.contains x) ++ d.freed.filter fun x => ok x && all.contains x

end Sys2Proof.Machine
end

