-- ==== Sys2Proof/Machine/Staging.lean ====
section
/-! DEFINITION. The staging log, fold, gap moves and unit records (03, 04): what their events do. -/

namespace Sys2Proof.Machine

/-! ### Verified and abandoned stripes (R160, R161, R168) -/

/-- A fold's page. -/
def Fold.isPage (f : Fold) (unit pidx : Nat) : Bool := f.unit = unit && f.pidx = pidx

/-- Change the fold of a page. -/
def State.modFold (s : State) (t : TileId) (unit pidx : Nat) (f : Fold → Fold) : State :=
  s.modD t fun d => { d with folds := lmod d.folds (·.isPage unit pidx) f }

/-- A fold whose page lies in a channel that a rail has taken out, or whose claimed lines are staged there, is held (R548). -/
def State.foldHeld (s : State) (t : TileId) (f : Fold) : Bool :=
  s.railOut t f.unit || f.claimed.any fun e => s.railOut t e.unit

/-- The fold of a page, where nothing holds it. -/
def State.foldOf (s : State) (t : TileId) (unit pidx : Nat) : Option Fold :=
  s.tiles[t].d.folds.find? fun f => f.isPage unit pidx && !s.foldHeld t f

/-- An entry finds room: its line has an entry already, or its bucket has a free one; and its area is below its entry
allowance (R164, R168). -/
def State.dirRoom (s : State) (t : TileId) (e : DirEntry) : Bool :=
  let d := s.tiles[t].d
  let h := s.home e.line
  let area : Bool := decide ((d.dir.filter fun x => x.area = e.area).length < s.allowance (if h : e.area < 5 then ⟨e.area, h⟩ else 0))
  match dirEntry d e.line with
  | some o => o.area = e.area || area
  | none => area && decide ((d.dir.filter fun x => dirBucket (s.home x.line) = dirBucket h).length < 8)

/-- The directory entry that a verified line takes: the new location, as the youngest entry, with FOLD clear; or, without
room, the line waits and the page of the oldest entry in its way becomes urgent (R168). -/
def State.dirInsert (s : State) (t : TileId) (e : DirEntry) : State :=
  let d := s.tiles[t].d
  let b := dirBucket (s.home e.line)
  if s.dirRoom t e then
    s.modD t fun d => { d with dir := (d.dir.filter fun x => x.line ≠ e.line) ++ [e] }
  else
    let same := d.dir.filter fun x => dirBucket (s.home x.line) = b
    let ahead := if same.length < 8 then d.dir.filter fun x => x.area = e.area else same
    let urgent := match ahead.head? with
      | some o => [((s.home o.line).unit, (s.home o.line).pidx)]
      | none => []
    let s := s.modD t fun d =>
      { d with waiting := (d.waiting.filter fun x => x.2.line ≠ e.line) ++ [(b, e)]
               bucketWaits := satAdd d.bucketWaits 1
               urgent := d.urgent ++ urgent.filter fun x => !d.urgent.contains x }
    s.count t 3 5

/-- The cached copy of a line whose newest staging program has verified: STAGING becomes CLEAN, STREAM becomes INVALID, and a
line that a store made DIRTY meanwhile stays DIRTY (R150, R151). -/
def State.lineVerified (s : State) (t : TileId) (n : Nat) : State :=
  s.modD t fun d =>
    { d with
      cache := d.cache.filterMap fun l =>
        if l.line = n then
          (match l.st with
           | .stream => none
           | .staging => some { l with st := .clean, posted := false, inFlight := false }
           | _ => some { l with inFlight := false })
        else some l }

/-- One of the verifies that a running Global Persistent Flush waits for (R182). -/
def State.gpfVerified (s : State) (t : TileId) (n : Nat) : State :=
  s.modD t fun d => { d with
    gpf := d.gpf.map fun g => (lmod g (fun x => x.1 = n) fun x => (x.1, x.2 - 1)).filter fun x => x.2 ≠ 0 }

/-- Lines that are owed to staging are appended, once the folds that were open have ended where staging of a full area
waits for them (R150, R151, R185). -/
def State.stageOwed (s : State) (t : TileId) : State :=
  if s.tiles[t].d.afterFolds ≠ [] then s
  else s.stageAll t (((dirtyLines s.tiles[t].d).filter (·.owed)).map (·.line))

/-- A fold releases (F9): claimed entries whose FOLD is still set and whose location is unchanged are invalidated, the
buffer is freed, and the fold is counted (R171). -/
def State.foldRelease (s : State) (t : TileId) (f : Fold) : State :=
  let areas := f.claimed.map (·.area)
  let page := (f.unit, f.pidx)
  let s := s.modD t fun d =>
    { d with dir := d.dir.filter fun e => !f.claimed.contains e
             folds := d.folds.filter fun x => !x.isPage f.unit f.pidx
             urgent := d.urgent.filter (· ≠ page)
             refresh := d.refresh.filter (· ≠ page)
             refreshLow := d.refreshLow.filter (· ≠ page)
             afterFolds := d.afterFolds.filter (· ≠ page)
             foldCount := wrapAdd d.foldCount 1
             lastFold := Vector.ofFn fun a => d.lastFold[a] || areas.contains a.val }
  (((s.count t 4 0).freeSegments t).stageOwed t).wake t

/-- Folds of excluded pages end once every copy of their lines has verified and has its entry (R171). -/
def State.endExcluded (s : State) (t : TileId) : State :=
  let d := s.tiles[t].d
  let pending := (d.asm.toList.flatten ++ d.closed.flatMap (·.entries)).filter fun e => e.kind = .data
  let lines := pending.map (·.line) ++ d.waiting.map (·.2.line)
  let busy (f : Fold) : Bool := lines.any fun n => (s.home n).unit = f.unit && (s.home n).pidx = f.pidx
  let ended := d.folds.filter fun f => f.step = 10 && !busy f
  s.modD t fun d =>
    { d with folds := d.folds.filter fun f => !ended.contains f
             afterFolds := d.afterFolds.filter fun p => !ended.any fun f => p = (f.unit, f.pidx)
             dir := d.dir.filter fun e => !ended.any fun f => f.claimed.contains e }

/-- The placement records that a fold's release needs have all verified: WRITTEN of a ring that it opened, and the remap
entries of its ring (R119, R123, R171). -/
def State.foldDurable (s : State) (t : TileId) (f : Fold) : Bool :=
  let d := s.tiles[t].d
  let ring := (s.pageHome t f.unit f.pidx).ring
  !(d.asm.toList.flatten ++ d.closed.flatMap (·.entries)).any fun e => match e.kind with
    | .placement (.written u r true) => u = f.unit && r = ring
    | .placement (.remap u slot _) => u = f.unit && slot / 256 = ring
    | _ => false

/-- What verifying one entry of a stripe does (R150, R160, R168, R173, R178). -/
def State.entryVerified (s : State) (t : TileId) (x : Stripe) (i : Nat) (e : StripeEntry) : State :=
  if e.dead then s
  else match e.kind with
  | .data =>
    let s := (s.modD t fun d =>
      { d with stores := lmod d.stores (fun r => r.line = e.line && r.phase = 2 && r.appended) fun r =>
          { r with phase := 4 } }).gpfVerified t e.line
    if s.sys.state = .flushing then s.lineVerified t e.line
    else
      let ent : DirEntry := { line := e.line, area := x.area, unit := x.unit, ring := x.ring, sslot := x.t / 5,
                              spos := x.t % 5, sidx := i }
      let s := s.dirInsert t ent
      if s.tiles[t].d.waiting.any fun w => w.2.line = e.line then
        -- the line stays in STAGING until its entry is inserted
        s.modD t fun d => modLine d e.line fun l => { l with inFlight := false }
      else s.lineVerified t e.line
  | .carry =>
    s.modD t fun d =>
      { d with folds := d.folds.map fun f => { f with carries := f.carries.filter (· ≠ e.line) } }
  | .placement r =>
    let s := s.modMedia t fun m => { m with placementLog := m.placementLog ++ [(x.seq.toNat, r)] }
    let s := match r with
      | .written u ring true => s.modPl t fun p => { p with written := Sparse.set false p.written (20480 * u + ring) true }
      | _ => s
    forAll (s.tiles[t].d.folds.filter fun f => f.step = 8 && s.foldDurable t f) (fun f s => s.foldRelease t f) s
  | .blackBox r => s.bbStored t r
  | .discard _ _ => s

/-- After a verify (R150, R151, R182): a Strict line, a line of a running Global Persistent Flush, and a line that is owed,
which a store made DIRTY while an earlier copy was being appended, is appended again; and the cleaner goes on. -/
def State.afterVerify (s : State) (t : TileId) : State :=
  let again := (s.tiles[t].d.stores.filter fun r => r.phase = 2 && !r.appended).map (·.line)
  ((s.stageAll t (again ++ (s.tiles[t].d.gpf.getD []).map (·.1))).stageOwed t).cleaner t

/-- A stripe has verified (R160 step 5). -/
def State.stripeVerified (s : State) (t : TileId) (x : Stripe) : State :=
  let s := s.modD t fun d => { d with closed := d.closed.filter fun y => y.seq ≠ x.seq }
  let s := s.modStaged t fun m => { m with stripes := m.stripes ++ [x], top := max m.top x.seq.toNat }
  let s := s.stampNow t x.unit (256 * x.ring + x.t / 5)
  let n (k : EntryKind) := (x.entries.filter fun e => e.kind = k).length
  let s := ((s.count t 3 0).count t 3 2 (n .data)).count t 3 3 (n .carry)
  let s := s.count t 7 2
  let s := forAll (x.entries.zipIdx) (fun e s => s.entryVerified t x e.2 e.1) s
  (((s.endExcluded t).afterVerify t).freeSegments t).wake t

/-- A stripe is abandoned (R161): its lines are appended again, the share slot is excluded, event 0x2001 is raised; a
die that alone failed has the share slot noted against it (R242). -/
def State.stripeAbandoned (s : State) (t : TileId) (x : Stripe) (failed : BitVec 8) : State :=
  let slot := 256 * x.ring + x.t / 5
  let s := s.modD t fun d =>
    { d with closed := d.closed.filter fun y => y.seq ≠ x.seq
             exclSlots := if d.exclSlots.contains (x.unit, slot) then d.exclSlots
                          else d.exclSlots ++ [(x.unit, slot)] }
  let s := (s.raise (mkEv 0x2001 .warn t (x.unit / 16 + 1) [(1, x.unit), (3, slot)])).count t 3 1
  let s := s.appendAgain t x
  s.noteProgram t x.unit slot failed

/-- STRIPE_PROGRAM_END (R160, R161), once the program of the stripe has ended: the stripe verifies when no die failed its
final VERIFY. -/
def execStripeProgramEnd (t : TileId) (seq : BitVec 64) (_ : Unit) (s : State) : Host.Outcome State Fault Refusal :=
  match s.tiles[t].d.closed.find? (fun x => x.seq = seq && x.program), progResult s.tiles[t].eng (.stripe seq) with
  | none, _ => .next s
  | some _, none => .next s
  | some x, some failed =>
    let s := s.endContexts t (.stripe seq)
    .next (if failed = 0 then s.stripeVerified t x else s.stripeAbandoned t x failed)

/-- STRIPE_CLOSE_TIMER (R160): 100 ns after its first line, the assembly stripe of an area is closed. -/
def execStripeCloseTimer (t : TileId) (area : Fin 5) (s : State) : Host.Outcome State Fault Refusal :=
  .next (s.closeStripe t area)

/-- BUCKET_SLOT_FREED (R168): lines that wait take entries as soon as there is room, oldest first. A line with a newer copy
on its way keeps its state until that copy verifies (R150). -/
def execBucketSlotFreed (t : TileId) (s : State) : Host.Outcome State Fault Refusal :=
  .next (((forAll s.tiles[t].d.waiting (fun w s =>
    if s.dirRoom t w.2 then
      let s := (s.modD t fun d => { d with waiting := d.waiting.filter (· ≠ w) }).dirInsert t w.2
      if copyPending s.tiles[t].d w.2.line then s else s.lineVerified t w.2.line
    else s) s).endExcluded t).wake t)

/-- POSTED_HOLD_RELEASE (R152): held Posted stores go on while the Posted-dirty count is below the budget. -/
def execPostedHoldRelease (t : TileId) (s : State) : Host.Outcome State Fault Refusal :=
  .next (forAll ((s.tiles[t].d.stores.filter fun r => r.phase = 1).map (·.id)) (fun i s => s.tryStore t i) s)

/-- WAY_WAIT_RELEASE (R149): stores that wait for a way take one that has become free. -/
def execWayWaitRelease (t : TileId) (s : State) : Host.Outcome State Fault Refusal :=
  .next (forAll ((s.tiles[t].d.stores.filter fun r => r.phase = 0).map (·.id)) (fun i s => s.tryStore t i) s)

/-- A store of an area is held at the cache (R183). -/
def State.areaHolds (s : State) (t : TileId) (a : Fin 5) : Bool :=
  s.tiles[t].d.hold[a] && s.tiles[t].d.stores.any fun r => (r.phase = 1) && s.areaOf r.region = a

/-- STAGING_STALL_TIMEOUT (R184): with a store of the area held and no fold of it completed since the 1 ms began, the
part enters FAILED with FAIL_CAUSE 0x6. A fold that has completed restarts the 1 ms. -/
def execStagingStallTimeout (t : TileId) (area : Fin 5) (s : State) : Host.Outcome State Fault Refusal :=
  let restart := s.modD t fun d => { d with lastFold := d.lastFold.set area false }
  if s.areaHolds t area ∧ s.inSvc t then
    .next (if s.tiles[t].d.lastFold[area] then restart else s.fail .stagingStalled)
  else .next restart

/-! ### Fold (R169 to R175) -/

/-- The directory entries of a page. -/
def State.pageEntries (s : State) (t : TileId) (unit pidx : Nat) : List DirEntry :=
  s.tiles[t].d.dir.filter fun e => (s.home e.line).unit = unit && (s.home e.line).pidx = pidx

/-- Source and destination ring-slots of the next move of a ring (R117). -/
def moveSlots (m ring : Nat) : Nat × Nat :=
  let x := ringMoves m ring % 65280 % 256
  if x < 255 then (254 - x, 255 - x) else (255, 0)

/-- The oldest due move of the unit runs and copies the page in this slot (R117, R279). -/
def State.moveOn (s : State) (t : TileId) (unit slot : Nat) : Bool :=
  let p := s.tiles[t].pl
  let m := Sparse.get 0 p.moves unit
  p.moving.contains unit && decide (remapped p.remap unit (256 * (m % 20376) + (moveSlots m (m % 20376)).1) = slot)

/-- A page cannot fold now (R169, R171, R279, R548): a fold of it is open, it is excluded, its channel or that of a staged
copy is out of service, another fold opens its ring, a gap move copies it, or a release has still to zero it. -/
def State.foldBlocked (s : State) (t : TileId) (unit pidx : Nat) : Bool :=
  let d := s.tiles[t].d
  let h := s.pageHome t unit pidx
  s.chanOut t (toChan (unit / 16)) || (s.pageEntries t unit pidx).any (fun e => s.railOut t e.unit)
    || d.folds.any (·.isPage unit pidx) || d.exclPages.contains (unit, pidx)
    || (!ringWritten s.tiles[t].pl unit h.ring
        && d.folds.any fun f => f.unit = unit && f.opens && (s.pageHome t unit f.pidx).ring = h.ring)
    || s.moveOn t unit (s.slotOf h) || d.zeroing.any (·.1 = pageLine s.cfg.record t unit pidx)

/-- A page may be chosen for a fold (R169): it can fold, and it is the page of the oldest live staged line that can, or has
all 64 lines staged, or is urgent under R168, or is due for refresh (one that is not urgent only below 75 %, R253). -/
def State.mayFold (s : State) (t : TileId) (unit pidx : Nat) : Bool :=
  let d := s.tiles[t].d
  let free (e : DirEntry) : Bool := !e.fold && !s.foldBlocked t (s.home e.line).unit (s.home e.line).pidx
  let oldest := match d.dir.find? free with
    | some e => (s.home e.line).unit = unit && (s.home e.line).pidx = pidx
    | none => false
  let a := s.areaOf (s.regionOf (pageLine s.cfg.record t unit pidx))
  s.background && d.folds.length < 32 && !s.foldBlocked t unit pidx
    && (oldest || (s.pageEntries t unit pidx).length = 64 || d.urgent.contains (unit, pidx)
        || d.refresh.contains (unit, pidx) || (d.refreshLow.contains (unit, pidx) && !d.pressure[a]))

/-- The area that governs the class of a fold's items (R278). -/
def State.foldArea (s : State) (t : TileId) (unit pidx : Nat) : Fin 5 :=
  s.areaOf (s.regionOf (pageLine s.cfg.record t unit pidx))

/-- A read that a fold makes for itself joins its herd's FOLD queue: one staged line (role 0) or one share (role 1). -/
def State.foldRead (s : State) (t : TileId) (f : Fold) (unit slot line : Nat) (slc : Bool) (ld : Nat) : State :=
  s.enqueue t
    { id := 0, role := if slc then 0 else 1, cls := .fold, herd := unit / 16, chan := unit / 16, unit := unit,
      part := unit % 16, slot := slot, line := line, slc := slc, bucket := s.bucketFor t unit slot (s.onSpare t unit ld),
      targets := [ld], area := (s.foldArea t f.unit f.pidx).val, use := .fold f.unit f.pidx }

/-- The shares of a page slot are read for a fold (F3, F7). -/
def State.foldShares (s : State) (t : TileId) (f : Fold) (slot : Nat) : State :=
  forAll (s.readDies t f.unit (slot / 256) []) (fun ld s => s.foldRead t f f.unit slot 0 false ld) s

/-- The reads of F2 and F3: each claimed line, or where its die gives nothing the other lines of its stripe; and the home
page, if its ring is written and fewer than 64 lines were claimed. -/
def State.foldGather (s : State) (t : TileId) (f : Fold) : State :=
  let s := forAll f.claimed (fun e s =>
    let slot := 256 * e.ring + e.sslot
    let live := (List.range 8).filter fun i => !(s.deadIndexes t e.unit slot e.spos).contains i
    let idx := if live.contains e.sidx then [e.sidx] else live
    forAll idx (fun i s => s.foldRead t f e.unit slot e.spos true ((slot + e.spos + i) % 8)) s) s
  if f.opens || f.claimed.length ≥ 64 then s else s.foldShares t f (s.slotOf (s.pageHome t f.unit f.pidx))

/-- F1 (R171): FOLD is set in the page's entries, their locations are recorded, and FOLD_SEQ is the verified horizon; the
reads of F2 and F3 start. -/
def State.foldClaim (s : State) (t : TileId) (unit pidx : Nat) (refresh : Bool) : State :=
  let es := (s.pageEntries t unit pidx).map fun e => { e with fold := true }
  let h := s.pageHome t unit pidx
  let f : Fold := { unit := unit, pidx := pidx, step := 1, foldSeq := horizon s.tiles[t].d, claimed := es, refresh := refresh
                    opens := !ringWritten s.tiles[t].pl unit h.ring }
  (s.modD t fun d =>
    { d with
      dir := d.dir.map fun e => if (es.any fun x => x.line = e.line) then { e with fold := true } else e
      folds := (d.folds.filter fun x => !x.isPage unit pidx) ++ [f] }).foldGather t f

/-- FOLD_CLAIM (R169, R171 F1): a page that may be chosen is claimed. -/
def execFoldClaim (t : TileId) (unit : Nat) (pidx : Nat) (s : State) : Host.Outcome State Fault Refusal :=
  let d := s.tiles[t].d
  if s.mayFold t unit pidx then
    .next (s.foldClaim t unit pidx (d.refresh.contains (unit, pidx) || d.refreshLow.contains (unit, pidx)))
  else .next s

/-- A fold starts again at F1, its work given up (R228): nothing has been released. -/
def State.foldRestart (s : State) (t : TileId) (f : Fold) : State :=
  (s.cutContexts t (.fold f.unit f.pidx)).foldClaim t f.unit f.pidx f.refresh

/-- A staged or staging copy of a line exists or is on its way (R173). -/
def State.stagedSomewhere (s : State) (t : TileId) (n : Nat) : Bool :=
  let d := s.tiles[t].d
  (dirEntry d n).isSome || (d.waiting.any fun w => w.2.line = n)
    || copyPending d n
    || (cached d n).any fun l => l.st = .staging || l.st = .stream

/-- One line of a fold's page as F2 to F4 give it: a claimed line over the old line; the old line of a written ring; zeros
of an unwritten one. `gather` is what the reads of the claimed lines' stripes got wrong, by page line, and `old` what
decoding gave of the home page. A line that no rung gives is poisoned. -/
def State.foldLine (s : State) (t : TileId) (f : Fold) (slot first : Nat) (gather : List (Nat × Noise))
    (old : List (Nat × LineRead)) (l : Nat) : StoredLine × State :=
  let n := first + l
  let lost : StoredLine := { data := 0, poison := true, keys := s.sec.engine }
  let (v, bad, s) : StoredLine × Bool × State :=
    match f.claimed.find? fun e => e.line = n with
    | some e =>
      let noise := (tabGet gather l).getD []
      let (ok, s) := s.stagedRead t e.unit (256 * e.ring + e.sslot) e.spos e.sidx noise
      let (v, s) := s.asRead ((s.stagedLine t e).getD lost) (readLine false (noiseOf noise e.sidx))
      (v, !ok, s)
    | none =>
      if f.opens then ({ keys := s.sec.engine }, false, s)
      else
        let (v, s) := s.homeLine t f.unit slot l
        let (v, s) := s.asRead v ((tabGet old l).getD .failed)
        (v, (pageLost old).contains l, s)
  if v.poison && !bad then (v, s)
  else if bad then (lost, s.uncorrectable t n f.unit (lineDie slot l) 5)
  else if s.poison.lost n then (lost, s)
  else (v, s)

/-- FOLD_READ_DONE (R171 F2 to F5), once no read of the fold is left: the page is merged; if its ring is written, every line
with no claimed entry and no other staged copy is appended as a carry line. -/
def execFoldReadDone (t : TileId) (unit : Nat) (pidx : Nat) (noise : FoldNoise) (s : State) :
    Host.Outcome State Fault Refusal :=
  match s.foldOf t unit pidx with
  | none => .next s
  | some f =>
    if f.step ≠ 1 || workLeft s.tiles[t].eng (.fold unit pidx) then .next s
    else
      let slot := s.slotOf (s.pageHome t unit pidx)
      let first := pageLine s.cfg.record t unit pidx
      let (rs, s) := if f.opens || f.claimed.length ≥ 64 then ([], s) else s.pageRead t unit slot noise.2
      let (buf, s) := (List.range 64).foldl (fun (b, s) l =>
        let (v, s) := s.foldLine t f slot first noise.1 rs l
        (b ++ [(l, v)], s)) (([] : List (Nat × StoredLine)), s)
      let carry := if f.opens then [] else (List.range 64).filter fun l => !s.stagedSomewhere t (first + l)
      let s := s.modFold t unit pidx fun f => { f with step := 5, buf := buf, carries := carry.map (first + ·) }
      let a := s.foldArea t unit pidx
      .next (forAll carry (fun l s =>
        s.append t a { kind := .carry, line := first + l, val := (tabGet buf l).getD {} }) s)

/-- The page of a ring that a fold programs next, by its number in the ring: while it opens the ring each page in turn
(R123; the order is a DESIGN CHOICE, log 81), its own otherwise. -/
def State.foldTarget (s : State) (t : TileId) (f : Fold) : Nat :=
  if f.opens && f.opened < 255 then f.opened else (s.pageHome t f.unit f.pidx).jj

/-- The slot of that page, before step 5 of R112. -/
def State.foldSlotRaw (s : State) (t : TileId) (f : Fold) : Nat :=
  homeSlotRaw s.tiles[t].pl { s.pageHome t f.unit f.pidx with jj := s.foldTarget t f }

/-- The slot of that page. -/
def State.foldSlot (s : State) (t : TileId) (f : Fold) : Nat := remapped s.tiles[t].pl.remap f.unit (s.foldSlotRaw t f)

/-- The next MLC program of a fold joins its herd's FOLD queue; one that would leave a fourth due move undone waits for the
oldest (R119). -/
def State.foldProgram (s : State) (t : TileId) (unit pidx : Nat) : State :=
  match s.tiles[t].d.folds.find? (·.isPage unit pidx) with
  | none => s
  | some f =>
    let park := (s.modFold t unit pidx fun f => { f with step := 6, parked := true, started := false })
    if movesBlock park.tiles[t] unit then park
    else
      (s.modFold t unit pidx fun f => { f with step := 6, parked := false, started := false }).enqueue t
        { id := 0, role := 3, cls := .fold, herd := unit / 16, chan := unit / 16, unit := unit, part := unit % 16,
          slot := s.foldSlot t f, targets := List.range 8, area := (s.foldArea t unit pidx).val, use := .fold unit pidx }

/-- FOLD_CARRY_VERIFIED (R171, R173): every carry line has verified, so F6 starts, unless the counted program that it
brings would leave a fourth gap move undone (R119). -/
def execFoldCarryVerified (t : TileId) (unit : Nat) (pidx : Nat) (s : State) : Host.Outcome State Fault Refusal :=
  match s.foldOf t unit pidx with
  | none => .next s
  | some f =>
    if f.step = 5 ∧ f.carries = [] then
      -- a slot declared bad at this refresh: it programs the pool slot (R241)
      let bad := s.tiles[t].d.remapNext.contains (unit, pidx)
      let s := if bad then
          (s.remapSlot t unit (homeSlotRaw s.tiles[t].pl (s.pageHome t unit pidx))).modD t fun d =>
            { d with remapNext := d.remapNext.filter (· ≠ (unit, pidx)) }
        else s
      .next (s.foldProgram t unit pidx)
    else .next s

/-- An excluded page (R171): its lines are appended again as data lines, but for one that has a newer copy in staging or on its way
there, which an older value may not follow (R146, R151); event 0x2002 is raised, and the page folds no more until the next package
reset. -/
def State.foldExclude (s : State) (t : TileId) (f : Fold) : State :=
  let first := pageLine s.cfg.record t f.unit f.pidx
  let a := s.foldArea t f.unit f.pidx
  let slot := s.foldSlot t f
  let s := s.modFold t f.unit f.pidx fun f => { f with step := 10 }
  let s := s.modD t fun d => { d with exclPages := d.exclPages ++ [(f.unit, f.pidx)] }
  let s := s.raise (mkEv 0x2002 .error t (f.unit / 16 + 1) [(1, f.unit), (3, slot)])
  let s := s.cutPage t f.unit slot
  let newer (n : Nat) : Bool :=
    let d := s.tiles[t].d
    (dirEntry d n).any (!f.claimed.contains ·) || (d.waiting.any fun w => w.2.line = n) || copyPending d n
  (forAll f.buf (fun e s =>
    if newer (first + e.1) then s else s.append t a { kind := .data, line := first + e.1, val := e.2 }) s).endExcluded t

/-- F6 or F7 of a fold has failed (R171, R241): the slot is remapped and F6 repeats, or with an exhausted pool the same
slot is programmed up to two more times before the page is excluded. -/
def State.foldRepeat (s : State) (t : TileId) (f : Fold) : State :=
  let raw := s.foldSlotRaw t f
  if poolEmpty s.tiles[t].pl f.unit then
    let s := if f.tries = 0 then s.remapSlot t f.unit raw else s
    if f.tries < 2 then
      ((s.modFold t f.unit f.pidx fun f => { f with tries := f.tries + 1 }).count t 4 1).foldProgram t f.unit f.pidx
    else s.foldExclude t f
  else ((s.remapSlot t f.unit raw).count t 4 1).foldProgram t f.unit f.pidx

/-- F6 has ended: the page is read back (F7). -/
def State.foldProgrammed (s : State) (t : TileId) (f : Fold) : State :=
  (s.modFold t f.unit f.pidx fun f => { f with step := 7 }).foldShares t f (s.slotOf (s.pageHome t f.unit f.pidx))

/-- FOLD_PROGRAM_END (R123, R171 F6): the program of a page has ended. A
pass writes the fold's buffer to its page; a fold that opens its ring programs each of the ring's 255 pages so, the others
with zeros, all counted (R116). A failure is handled by remapping. -/
def execFoldProgramEnd (t : TileId) (unit : Nat) (pidx : Nat) (_ : Unit) (s : State) : Host.Outcome State Fault Refusal :=
  match s.foldOf t unit pidx, progResult s.tiles[t].eng (.fold unit pidx) with
  | none, _ => .next s
  | some _, none => .next s
  | some f, some failed =>
    if f.step ≠ 6 || f.parked || !f.started then .next s
    else
      let s := (s.endContexts t (.fold unit pidx)).count t 7 3
      let slot := s.foldSlot t f
      if failed ≠ 0 then .next (((s.cutPage t unit slot).noteProgram t unit slot failed).foldRepeat t f)
      else
        let own := decide (s.foldTarget t f = (s.pageHome t unit pidx).jj)
        let s := s.putPage t unit slot
          (if own then { defined := true, keys := s.sec.engine, foldSeq := f.foldSeq, lines := f.buf }
           else { defined := true, keys := s.sec.engine })
        if f.opens then
          let s := (s.counted t unit 1).stampNow t unit slot
          let s := s.modFold t unit pidx fun f => { f with opened := f.opened + 1, tries := 0 }
          if f.opened + 1 < 255 then .next (s.foldProgram t unit pidx) else .next (s.foldProgrammed t f)
        else .next (s.foldProgrammed t f)

/-- F7 passes: every line that a die gives decodes with at most 4 corrected bits, and the page code gives the rest. -/
def readbackOk (dead : List Nat) (rs : List (Nat × LineRead)) : Bool :=
  (rs.all fun r => dead.contains r.1 || r.2.count.any (· ≤ 4)) && pageGives rs

/-- FOLD_READBACK_DONE (R171 F7 to F9, R116, R123), once no read of the fold is left: the program is counted and the page's
stamp set; a fold that opened its ring makes WRITTEN durable before it releases, and any fold the remap entries that it
took. -/
def execFoldReadbackDone (t : TileId) (unit : Nat) (pidx : Nat) (noise : Noise) (s : State) :
    Host.Outcome State Fault Refusal :=
  match s.foldOf t unit pidx with
  | none => .next s
  | some f =>
    if f.step ≠ 7 || workLeft s.tiles[t].eng (.fold unit pidx) then .next s
    else
    let h := s.pageHome t unit pidx
    let slot := s.slotOf h
    let dead := s.deadLines t unit slot
    let rs := readPage dead noise
    let s := s.noteReads t (toChan (unit / 16)) 0 (s.readDies t unit (slot / 256) []).length
      ((rs.filter fun r => !dead.contains r.1).map (·.2))
    if readbackOk dead rs then
      let s := if f.opens then s else s.counted t unit 1
      let s := (s.stampNow t unit slot).modFold t unit pidx fun f => { f with step := 8 }
      let s := if f.opens then s.placementRec t unit (.written unit h.ring true) else s
      .next (if s.foldDurable t f then s.foldRelease t f else s)
    else .next (s.foldRepeat t f)

/-! ### Gap moves and unit records (R116 to R119, R127) -/

/-- A fold's program that waited for a due move goes on (R119). -/
def State.unpark (s : State) (t : TileId) (unit : Nat) : State :=
  forAll (s.tiles[t].d.folds.filter fun f => f.unit = unit && f.step = 6 && f.parked)
    (fun f s => s.foldProgram t f.unit f.pidx) s

/-- The pages that releases have still to zero are programmed with zeros, each a counted program, as far as no fourth due
move is left undone (R116, R119, R132, R172). -/
def State.zeroSome (s : State) (t : TileId) : State :=
  forAll s.tiles[t].d.zeroing (fun z s =>
    let h := s.home z.1
    let done (s : State) : State := s.modD t fun d => { d with zeroing := d.zeroing.filter (· ≠ z) }
    if !ringWritten s.tiles[t].pl h.unit h.ring then done s
    else if movesBlock s.tiles[t] h.unit then s
    else
      let slot := s.slotOf h
      let s := (done s).putPage t h.unit slot { defined := true, keys := s.sec.engine, foldSeq := z.2 }
      ((s.counted t h.unit 1).stampNow t h.unit slot).count t 7 3) s

/-- A move completes: M increases, the move is no longer due, and a placement record makes M durable (R117, R119). A fold
that opens the ring starts its programs again, since they were laid out for the old M (log 81). -/
def State.moveDone (s : State) (t : TileId) (unit : Nat) : State :=
  let old := Sparse.get 0 s.tiles[t].pl.moves unit
  let s := s.modPl t fun p =>
    { p with moves := Sparse.set 0 p.moves unit (old + 1)
             due := Sparse.set 0 p.due unit (Sparse.get 0 p.due unit - 1)
             moving := p.moving.filter (· ≠ unit)
             copying := p.copying.filter (· ≠ unit) }
  let again (f : Fold) : Bool := f.unit = unit && f.opens && f.step = 6 && (s.pageHome t unit f.pidx).ring = old % 20376
  let s := s.modD t fun d => { d with folds := lmod d.folds again fun f => { f with opened := 0 } }
  (((s.count t 4 2).placementRec t unit (.move unit (old + 1))).unpark t unit).zeroSome t

/-- A placement record of a move of the unit is not yet durable. -/
def movePending (d : TileData) (unit : Nat) : Bool :=
  (d.asm.toList.flatten ++ d.closed.flatMap (·.entries)).any fun e => match e.kind with
    | .placement (.move u _) => u = unit
    | _ => false

/-- The copy of a gap move joins the FOLD queue: the shares of the source, and the program of the destination (R117). -/
def State.moveCopy (s : State) (t : TileId) (unit src dst : Nat) : State :=
  let item : WorkItem :=
    { id := 0, role := 1, cls := .fold, herd := unit / 16, chan := unit / 16, unit := unit, part := unit % 16, slot := src,
      use := .gapMove unit }
  let s := forAll (s.readDies t unit (src / 256) []) (fun ld s =>
    s.enqueue t { item with targets := [ld], bucket := s.bucketFor t unit src (s.onSpare t unit ld) }) s
  s.enqueue t { item with role := 3, slot := dst, targets := List.range 8 }

/-- GAP_MOVE_START (R117 to R119): the oldest due move of the unit starts; a move of a ring that is not written, or is
lent, completes at once. It waits for an open fold of its page, for one that programs the ring it opens, and for the record
of the previous move. -/
def execGapMoveStart (t : TileId) (unit : Nat) (s : State) : Host.Outcome State Fault Refusal :=
  let x := s.tiles[t]
  let m := Sparse.get 0 x.pl.moves unit
  let ring := m % 20376
  let (src, dst) := moveSlots m ring
  let slot := remapped x.pl.remap unit (256 * ring + src)
  let meets (f : Fold) : Bool := f.unit = unit &&
    (s.slotOf (s.pageHome t unit f.pidx) = slot && !(f.opens && f.parked)
      || f.opens && decide (f.step ≥ 6) && !f.parked && (s.pageHome t unit f.pidx).ring = ring)
  if !s.background ∨ Sparse.get 0 x.pl.due unit = 0 ∨ x.pl.moving.contains unit ∨ movePending x.d unit
      ∨ s.chanOut t (toChan (unit / 16)) ∨ x.d.folds.any meets then .next s
  else if ringWritten x.pl unit ring = false ∨ (x.d.lent.any fun k => ringOfRow s.scatterKey k = ring) then
    .next (s.moveDone t unit)
  else
    let s := s.modPl t fun p => { p with moving := p.moving ++ [unit] }
    .next (s.moveCopy t unit slot (remapped x.pl.remap unit (256 * ring + dst)))

/-- The page that a gap move programs: the source's, with the lines that no rung gives poisoned (R117, R254). -/
def State.movePage (s : State) (t : TileId) (unit src ring : Nat) (raw : Nat) (noise : PageNoise) : Page × State :=
  let page := (tabGet s.media[t].pages (pageKey unit src)).getD {}
  let first := s.slotFirst t unit (256 * ring + raw)
  let (rs, s) := s.pageRead t unit src noise
  (pageLost rs).foldl (fun (p, s) l =>
    ({ p with lines := tabPut p.lines l { poison := true, keys := s.sec.engine } },
     s.uncorrectable t (first + l) unit (lineDie src l) 5)) ({ page with lost := [] }, s)

/-- GAP_MOVE_VERIFY (R117): the destination holds the page's content and M increases; a destination that fails its
VERIFY is remapped and the copy is repeated. `noise` is what the reads of the source got wrong. -/
def execGapMoveVerify (t : TileId) (unit : Nat) (noise : PageNoise) (s : State) : Host.Outcome State Fault Refusal :=
  let x := s.tiles[t]
  match progResult x.eng (.gapMove unit) with
  | none => .next s
  | some failed =>
    if x.pl.copying.contains unit = false then .next s
    else
      let m := Sparse.get 0 x.pl.moves unit
      let ring := m % 20376
      let (src, dst) := moveSlots m ring
      let srcSlot := remapped x.pl.remap unit (256 * ring + src)
      let dstSlot := remapped x.pl.remap unit (256 * ring + dst)
      let s := (s.endContexts t (.gapMove unit)).count t 7 3
      if failed = 0 then
        let (page, s) := s.movePage t unit srcSlot ring src noise
        let s := s.putPage t unit dstSlot page
        -- the copy counts as the patrol's visit of a page that the cursor has not reached (R249)
        let s := s.modIt t fun i =>
          if (Sparse.get 0 i.cursors unit).toNat ≤ 256 * ring + src then { i with skip := i.skip ++ [(unit, 256 * ring + dst)] }
          else i
        .next ((s.stampNow t unit dstSlot).moveDone t unit)
      else
        let s := ((s.cutPage t unit dstSlot).noteProgram t unit dstSlot failed).remapSlot t unit (256 * ring + dst)
        let s := s.modPl t fun p => { p with copying := p.copying.filter (· ≠ unit) }
        .next (s.moveCopy t unit srcSlot (remapped s.tiles[t].pl.remap unit (256 * ring + dst)))

/-- A unit record of the unit's placement state is written, in the next of the eight places (R127). -/
def State.writeUnitRec (s : State) (t : TileId) (unit : Nat) : State :=
  let p := s.tiles[t].pl
  let gen := ((s.unitRec t unit).map (·.gen)).getD 0 + 1
  let r : UnitRec :=
    { gen := gen, tile := t.val, unit := unit, logSeq := horizon s.tiles[t].d, moves := Sparse.get 0 p.moves unit
      epoch := BitVec.ofNat 32 (s.ladder 12).1, layout := recLayout s.cfg.record
      remap := (p.remap.filter fun e => e.unit = unit).map fun e => (e.slot, e.pool)
      spent := (p.spent.filter fun e => e.1 = unit).map (·.2)
      written := (p.written.filter fun e => e.2 && e.1 / 20480 = unit).map (·.1 % 20480) }
  let s := s.modMedia t fun m => { m with unitRecs := tabPut m.unitRecs (8 * unit + gen.toNat % 8) r }
  let s := s.modPl t fun p => { p with recCount := Sparse.set 0 p.recCount unit 0 }
  s.stampNow t unit (256 * 20479 + 2 * (gen.toNat % 8))

/-- UNIT_RECORD_WRITE (R127): due after 1,024 placement records of the unit. -/
def execUnitRecordWrite (t : TileId) (unit : Nat) (s : State) : Host.Outcome State Fault Refusal :=
  if Sparse.get 0 s.tiles[t].pl.recCount unit ≥ 1024 then .next ((s.writeUnitRec t unit).freeSegments t)
  else .next s

end Sys2Proof.Machine
end

