-- ==== Sys2Proof/Machine/ExtentOps.lean ====
section
/-! DEFINITION. Extent entries: adding, splitting, releasing (R129 to R136), and discarding a range. -/

namespace Sys2Proof.Machine

/-- Bytes of DPA that the part offers (R138). -/
def State.capacity (s : State) : Nat := if s.cfg.record = [] then 0 else capacityOf s.cfg.record

/-- A line lies in a range given in units of 2 MiB. -/
def inRange (n base blocks : Nat) : Bool := decide (base * 32768 ≤ n ∧ n < (base + blocks) * 32768)

/-- Two ranges in units of 2 MiB overlap. -/
def overlaps (b1 n1 b2 n2 : Nat) : Bool := decide (b1 < b2 + n2 ∧ b2 < b1 + n1)

/-- Places of the extent table that entries and offered extents hold (R129, R321). -/
def State.entryPlaces (s : State) : Nat :=
  let offers := (s.svc.offers.flatMap (·.exts)).eraseDups
  s.svc.extents.length + (offers.filter fun o => !s.svc.extents.any fun e => e.base = o.1 && e.blocks = o.2).length

/-- Ranges in a head's table (R129): granted entries and offered extents. -/
def State.headRanges (s : State) (h : TileId) : Nat :=
  (s.svc.extents.filter fun e => e.heads.getLsbD h).length
    + ((s.svc.offers.filter fun o => o.head = h).map fun o => o.exts.length).sum

/-- The checks of R131 for one extent offered to a head; the first that fails gives the extended status. -/
def State.checkAdd (s : State) (h : TileId) (base blocks : Nat) : Option Nat :=
  let r := s.cfg.record
  let same (e : Extent) : Bool := e.base = base && e.blocks = blocks && !e.isStatic && !e.releasing
  let hit (b n : Nat) : Bool := overlaps base blocks b n
  let offers := s.svc.offers.flatMap (·.exts)
  let reg := recRegionOf r (base * 2 ^ 21)
  let inReg := match reg with
    | some k => k < 8 && decide ((base + blocks) * 2 ^ 21 ≤ recRegBase r k + recRegLen r k)
    | none => false
  let k := reg.getD 0
  let blk := recRegBlock r k / 2 ^ 21
  let granted := s.svc.extents.find? same
  let others := (granted.map (·.heads)).getD 0 &&& ~~~(BitVec.ofNat 8 (2 ^ h.val))
  let offered := s.svc.offers.any fun o => o.head ≠ h && o.exts.contains (base, blocks)
  let new := granted.isNone && !offers.contains (base, blocks)
  if (s.svc.extents.any fun e => hit e.base e.blocks && !same e)
      || (offers.any fun e => hit e.1 e.2 && e ≠ (base, blocks)) then some 0x0180
  else if !inReg || blocks = 0 then some 0x0184
  else if base % blk ≠ 0 ∨ blocks % blk ≠ 0 then some 0x0183
  else if (base + blocks) * 2 ^ 21 > s.capacity then some 0x0182
  else if (others ≠ 0 ∨ offered) ∧ recRegFlags r k / 2 % 2 = 0 then some 0x0185
  else if (new ∧ s.entryPlaces ≥ 32768) ∨ s.headRanges h ≥ 16384 then some 0x0181
  else none

/-- A new entry, or another grant of an existing one; its rows become taken (R131, R134). -/
def State.addEntry (s : State) (base blocks region : Nat) (heads : BitVec 8) (isStatic : Bool := false) : State :=
  let s := if s.svc.extents.any (fun e => e.base = base && e.blocks = blocks) then
      { s with svc := { s.svc with
        extents := lmod s.svc.extents (fun e => e.base = base && e.blocks = blocks)
          fun e => { e with heads := e.heads ||| heads }
        dcGen := s.svc.dcGen + 1 } }
    else
      { s with svc := { s.svc with
        extents := s.svc.extents ++ [{ base := base, blocks := blocks, heads := heads, region := region, isStatic := isStatic }], dcGen := s.svc.dcGen + 1 } }
  s.resizeArea

/-- No staged line lies in the rings of a row of the range any more (R132, R136). -/
def State.rowsReady (s : State) (base blocks : Nat) : Bool :=
  s.svcTiles.all fun t => s.tiles[t].d.segs.all fun g =>
    !(g.area = 0 && g.ring < 20376
      && extentOnRow s.cfg.record { base := base, blocks := blocks, heads := 0 } (rowOfRing s.scatterKey g.ring))

/-- Split the entry that holds a range so that the range is an entry of its own (R132). -/
def splitEntry (es : List Extent) (base blocks : Nat) : List Extent :=
  es.flatMap fun e =>
    if e.base ≤ base ∧ base + blocks ≤ e.base + e.blocks ∧ blocks ≠ 0 then
      (if e.base < base then [{ e with blocks := base - e.base }] else [])
        ++ [{ e with base := base, blocks := blocks }]
        ++ (if base + blocks < e.base + e.blocks
            then [{ e with base := base + blocks, blocks := e.base + e.blocks - base - blocks }] else [])
    else [e]

/-- The checks of a release of a head's grant (R132): none, or the extended status. -/
def State.checkRelease (s : State) (h : Nat) (base blocks : Nat) : Option Nat :=
  match s.svc.extents.find? fun e =>
      e.base ≤ base && base + blocks ≤ e.base + e.blocks && e.heads.getLsbD h && !e.isStatic && blocks ≠ 0 with
  | none => some 0x0180
  | some e =>
    let blk := recRegBlock s.cfg.record e.region / 2 ^ 21
    let more := (splitEntry [e] base blocks).length - 1
    if base % blk ≠ 0 ∨ blocks % blk ≠ 0 then some 0x0183
    else if s.entryPlaces + more > 32768
      ∨ (allTiles.any fun t => e.heads.getLsbD t && s.headRanges t + more > 16384) then some 0x0181
    else none

/-- The grant of a head ends at one instant; an entry with no grant left is being released (R132). -/
def State.dropGrant (s : State) (h : Nat) (base blocks : Nat) : State :=
  let es := (splitEntry s.svc.extents base blocks).map fun e =>
    if e.base = base ∧ e.blocks = blocks then
      let hs := bitOff e.heads h
      { e with heads := hs, releasing := e.releasing || decide (hs = 0) }
    else e
  { s with svc := { s.svc with extents := es, dcGen := s.svc.dcGen + 1 } }

/-- Cached and staged lines of a range die, with a discard record where staged lines are discarded, and its poison
entries are removed (R132, R163, R256). -/
def State.discardRange (s : State) (base blocks : Nat) : State :=
  let first := base * 32768
  let hit (n : Nat) : Bool := inRange n base blocks
  let mine (e : StripeEntry) : Bool := (e.kind = .data || e.kind = .carry) && hit e.line
  let staged := s.svcTiles.filter fun t => (s.staged[t].stripes ++ s.tiles[t].d.closed).any (·.entries.any mine)
  let s := { s with
    tiles := vmap s.tiles fun _ x => { x with d := { x.d with
      cache := x.d.cache.filter fun l => !hit l.line
      dir := x.d.dir.filter fun e => !hit e.line
      waiting := x.d.waiting.filter fun w => !hit w.2.line
      asm := x.d.asm.map (·.filter (!mine ·))
      closed := x.d.closed.map fun c => { c with
        entries := c.entries.map fun e => if mine e then { e with dead := true } else e } } }
    poison := { s.poison with
      list := s.poison.list.flatMap fun e =>
        if overlaps e.line e.len first (blocks * 32768) then
          (if e.line < first then [{ e with len := first - e.line }] else [])
            ++ (if first + blocks * 32768 < e.line + e.len
                then [{ e with line := first + blocks * 32768, len := e.line + e.len - first - blocks * 32768 }]
                else [])
        else [e]
      madeThisBoot := s.poison.madeThisBoot.filter fun m => !hit m.1 } }
  forAll staged (fun t s => s.append t 0 { kind := .discard first (blocks * 32768), line := 0, val := {} }) s

/-- Pages of a range by their first line numbers. -/
def rangePages (base blocks : Nat) : List Nat := (List.range (512 * blocks)).map fun i => base * 32768 + 64 * i

/-- Rows of a range on which no other entry lies; their rings are unwritten in every unit, with placement records
(R124, R132). -/
def State.clearRings (s : State) (base blocks : Nat) : State :=
  let e0 : Extent := { base := base, blocks := blocks, heads := 0 }
  let r := s.cfg.record
  let lone := (List.range s.availRows).filter fun k => extentOnRow r e0 k &&
    !(s.svc.extents.any fun e => !(e.base = base && e.blocks = blocks) && extentOnRow r e k)
  let rings := lone.map (ringOfRow s.scatterKey)
  forAll s.svcTiles (fun t s =>
    forAll ((s.tiles[t].pl.written.filter fun w => w.2 && rings.contains (w.1 % 20480)).map (·.1)) (fun k s =>
      let s := s.modPl t fun p => { p with written := Sparse.set false p.written k false }
      s.placementRec t (k / 20480) (.written (k / 20480) (k % 20480) false)) s) s

/-- The released pages of rings that stay written are to be programmed with zeros, with the verified horizon as FOLD_SEQ
(R132, R172). -/
def State.zeroPages (s : State) (base blocks : Nat) : State :=
  let s := forAll (rangePages base blocks) (fun n s =>
    let h := s.home n
    if ringWritten s.tiles[h.tile].pl h.unit h.ring then
      s.modD h.tile fun d => { d with zeroing := (d.zeroing.filter (·.1 ≠ n)) ++ [(n, horizon d)] }
    else s) s
  forAll s.svcTiles (fun t s => s.zeroSome t) s

/-- A page of the range has still to be zeroed. -/
def State.zeroPending (s : State) (base blocks : Nat) : Bool :=
  s.svcTiles.any fun t => s.tiles[t].d.zeroing.any fun z => inRange z.1 base blocks

/-- A placement record that clears a WRITTEN bit, or a discard record, is not yet durable somewhere. -/
def State.clearPending (s : State) : Bool :=
  s.tiles.toList.any fun x => (x.d.asm.toList.flatten ++ x.d.closed.flatMap (·.entries)).any fun e =>
    match e.kind with
    | .placement (.written _ _ false) => true
    | .discard _ _ => true
    | _ => false

/-- A request to the range, or a fold of one of its pages, is still in progress (R132). -/
def State.rangeBusy (s : State) (base blocks : Nat) : Bool :=
  (s.loads.any fun r => r.result.isNone && inRange r.line base blocks)
    || s.tiles.toList.any fun x =>
        (x.d.stores.any fun r => (r.phase ≠ 4 || !r.peerDone) && !r.discarded && inRange r.line base blocks)
    || s.svcTiles.any fun t => s.tiles[t].d.folds.any fun f =>
        inRange (pageLine s.cfg.record t f.unit f.pidx) base blocks

/-- EXTENT_RELEASE_COMPLETE (R132): once its requests and folds have finished, the range's lines are discarded, rings
without taken pages are unwritten and other pages zeroed; when all are and the cleared WRITTEN bits are durable the entry is
removed. In an active pair the peer discards its replica (R512). -/
def execExtentReleaseComplete (base : Nat) (s : State) : Host.Outcome State Fault Refusal :=
  match s.svc.extents.find? fun e => e.base = base && e.releasing with
  | none => .next s
  | some e =>
    if s.rangeBusy e.base e.blocks then .next s
    else
      let gone (x : Extent) : Bool := x.base = base && x.releasing
      let s := if e.cleared then s
        else
          let s := ((s.discardRange e.base e.blocks).clearRings e.base e.blocks).zeroPages e.base e.blocks
          { s with svc := { s.svc with extents := lmod s.svc.extents gone fun x => { x with cleared := true } } }
      if s.clearPending || s.zeroPending e.base e.blocks then .next s
      else
        let s := { s with svc := { s.svc with extents := s.svc.extents.filter fun x => !gone x } }
        let s := s.resizeArea
        let s := if s.mirroring ∧ s.mesh.regions.getLsbD e.region then
            let (tag, s) := s.meshTag
            (s.meshSend { opcode := 0x26, dslots := 1, tag := tag, dst := s.mesh.peer, aux := 2,
                          data := leBytes 4 e.base ++ leBytes 4 e.blocks ++ [0, BitVec.ofNat 8 e.region]
                            ++ List.replicate 6 0 }).2
          else s
        let s := forAll (s.mesh.relIn.filter fun x => x.2.2 = base) (fun x s => s.meshReply x.1 x.2.1 0) s
        .next { s with mesh := { s.mesh with relIn := s.mesh.relIn.filter fun x => x.2.2 ≠ base } }

/-- The extents that an accepted add waits for are admitted once their rows are ready, and the response completes
(R132, R136). In an active pair the peer must have created the replicas first (R512). -/
def State.addProceed (s : State) : State :=
  match s.svc.waiting with
  | some (m, .add h exts) =>
    if (exts.all fun e => s.rowsReady e.1 e.2) ∧ s.mesh.extWaits = [] then
      let s := forAll exts (fun e s =>
        s.addEntry e.1 e.2 ((recRegionOf s.cfg.record (e.1 * 2 ^ 21)).getD 0) (BitVec.ofNat 8 (2 ^ h.val))) s
      s.mbFinish m .success
    else s
  | _ => s

/-- Replica adds of the mirror peer that wait for rows are answered once the rows are ready (R512). -/
def State.replicaProceed (s : State) : State :=
  let ready (x : BitVec 6 × BitVec 12 × Nat × Nat) : Bool := s.rowsReady x.2.2.1 x.2.2.2
  let s' := forAll (s.mesh.extIn.filter ready) (fun x s => s.meshReply x.1 x.2.1 0) s
  { s' with mesh := { s'.mesh with extIn := s'.mesh.extIn.filter fun x => !ready x } }

/-- ROW_RECLAIM_DONE (R136): the staged lines of a row that staging hands back have folded in every unit, so adds that
waited for the row proceed. -/
def execRowReclaimDone (row : Nat) (s : State) : Host.Outcome State Fault Refusal :=
  let ring := ringOfRow s.scatterKey row
  if s.svcTiles.any fun t => s.tiles[t].d.segs.any fun g => g.area = 0 && g.ring = ring then .next s
  else .next s.addProceed.replicaProceed

end Sys2Proof.Machine
end

