-- ==== Sys2Proof/Machine/Mesh.lean ====
section
/-! DEFINITION. Widar Mesh (13): discovery, mesh messages, the mirror pair, resync and takeover. -/

namespace Sys2Proof.Machine

/-! ### Receiving -/

/-- A message leaves its class queue: it is removed and its slots are credited (R467). -/
def State.meshTake (s : State) (p : Fin 4) (m : MMsg) : State :=
  if s.mesh.rxq.contains (p.val, m) then
    let s := { s with mesh := { s.mesh with rxq := s.mesh.rxq.erase (p.val, m) } }
    s.modLink (.peer p) fun k =>
      if mmsgRsp m then { k with rspDue := k.rspDue + mmsgSlots m } else { k with reqDue := k.reqDue + mmsgSlots m }
  else s

/-- The peer has been heard (R520). -/
def State.heard (s : State) (m : MMsg) : State :=
  if s.mesh.paired ∧ m.src = s.mesh.peer then { s with mesh := { s.mesh with silentUs := 0, missed := 0 } } else s

/-- Forward a message for another package: HOPS decreases and the port is chosen from the destination's primary mask;
one that cannot be routed or whose HOPS are used up is discarded, and a request gets DEAD (R509). -/
def State.meshForward (s : State) (m : MMsg) : State :=
  let dead (s : State) : State :=
    if mmsgRsp m || m.opcode = 0x28 || m.opcode = 0x29 || m.opcode = 0x21 then s
    else
      let r : MMsg := { opcode := if m.opcode = 0x24 then 0x31 else 0x30, dst := m.src, src := m.dst, tag := m.tag,
                        status := 5, hops := 63 }
      match maskPort s.mesh.prim[r.dst.toFin] r with
      | some p => s.peerPut p r
      | none => s
  if !s.meshTalks then s
  else if m.hops.toNat ≤ 1 then dead { s with mesh := { s.mesh with expired := satAdd s.mesh.expired 1 } }
  else if s.mesh.dropTable then { s with mesh := { s.mesh with heldMsgs := s.mesh.heldMsgs ++ [m] } }
  else match s.meshPort m with
    | none => dead { s with mesh := { s.mesh with noRoute := satAdd s.mesh.noRoute 1 } }
    | some p =>
      let s := { s with mesh := { s.mesh with forwarded := wrapAdd s.mesh.forwarded 1 } }
      (s.peerPut p { m with hops := m.hops - 1 }).count 15 10 3

/-- What every mesh message meets first: its queue slot is freed, a message for another package is forwarded (none is left
to serve), a state that takes no mesh traffic drops it (R502). -/
def State.meshArrive (s : State) (p : Fin 4) (m : MMsg) : Bool × State :=
  let s := s.meshTake p m
  if m.dst.toNat ≠ s.pkgId then (false, s.meshForward m)
  else if !s.meshTalks then (false, s)
  else (true, s.heard m)

/-- A malformed message is noted at its port and answered (R508, R540). -/
def State.meshReject (s : State) (p : Fin 4) (m : MMsg) (status : Nat) : State :=
  let s := s.modLink (.peer p) fun k => { k with flags := bitOn k.flags 1 }
  if m.opcode = 0x24 then
    (s.meshSend { opcode := 0x31, dst := m.src, tag := m.tag, status := BitVec.ofNat 8 status }).2
  else s.meshReply m.src m.tag status

/-- A message carries the data slots that R507 fixes and an address that is a multiple of 64 (R508). -/
def mmsgShapeOk (m : MMsg) (ds : Nat) : Bool := m.dslots.toNat = ds && m.addr.toNat % 64 = 0

/-- A line lies in a replica entry (R508, R512). -/
def State.inReplica (s : State) (n : Nat) : Bool :=
  s.svc.extents.any fun e => s.mesh.replica.getLsbD e.region && inRange n e.base e.blocks

/-- The owner tile of a line serves it: in service, and not switched off with its rails (R36, R546). -/
def State.ownerUp (s : State) (t : TileId) : Bool := s.inSvc t && !s.seq.tileOff.getLsbD t

/-- The checks of a mirror access; none, or the status of its completion (R508). -/
def State.mirrorCheck (s : State) (m : MMsg) (ds : Nat) : Option Nat :=
  if !mmsgShapeOk m ds then some 4
  else if !s.inReplica (m.addr.toNat / 64) then some 2
  else if !s.sys.state.isServing then some 7
  else if !s.ownerUp (s.home (m.addr.toNat / 64)).tile then some 5
  else none

/-- A whole line from the peer is stored at its owner tile (R513, R519). -/
def State.mirrorWrite (s : State) (m : MMsg) (strict early : Bool) : State :=
  let n := m.addr.toNat / 64
  let t := (s.home n).tile
  let r : StoreReq :=
    { id := 0, head := t, line := n, data := bytesLine m.data, mask := BitVec.allOnes 64, region := s.regionOf n,
      strict := strict, noMirror := true, poison := m.poison, peer := some (m.tag, m.src), early := early }
  s.newStore t r

/-- MWR (R513): the line is stored at the peer owner tile, Strict when STRICT is 1 or this part's policy is, and MCMP
returns once it reaches that point. -/
def execMwr (p : Fin 4) (msg : MMsg) (s : State) : Host.Outcome State Fault Refusal :=
  let (mine, s) := s.meshArrive p msg
  if !mine then .next s
  else match s.mirrorCheck msg 4 with
    | some st => .next (s.meshReject p msg st)
    | none => .next ((s.count 15 10 1).mirrorWrite msg (msg.strict || !s.sys.postedCert) false)

/-- RWR (R519): accepted early, then stored as a Strict store. -/
def execRwr (p : Fin 4) (msg : MMsg) (s : State) : Host.Outcome State Fault Refusal :=
  let (mine, s) := s.meshArrive p msg
  if !mine then .next s
  else match s.mirrorCheck msg 4 with
    | some st => .next (s.meshReject p msg st)
    | none =>
      let s := { s with mesh := { s.mesh with performed := s.mesh.performed ++ [(msg.src, msg.addr)] } }
      .next ((s.meshReply msg.src msg.tag 0 true).mirrorWrite msg true true)

/-- MRD (R516): the peer's copy of the line is read and returned in MDATA. -/
def execMrd (p : Fin 4) (msg : MMsg) (s : State) : Host.Outcome State Fault Refusal :=
  let (mine, s) := s.meshArrive p msg
  if !mine then .next s
  else match s.mirrorCheck msg 0 with
    | some st => .next (s.meshReject p msg st)
    | none =>
      let n := msg.addr.toNat / 64
      let t := (s.home n).tile
      .next (s.newLoad { id := 0, head := t, owner := t, line := n, src := .none, peer := some (msg.tag, msg.src) })

/-- MBAR (R519): answered once every earlier RWR from its source is performed. -/
def execMbar (p : Fin 4) (msg : MMsg) (s : State) : Host.Outcome State Fault Refusal :=
  let (mine, s) := s.meshArrive p msg
  if !mine then .next s
  else if !mmsgShapeOk msg 0 then .next (s.meshReject p msg 4)
  else
    let s := { s with mesh := { s.mesh with barsIn := s.mesh.barsIn ++ [(msg.src, msg.tag)] } }
    .next s.answerBars

/-! ### Replica extents (R512) -/

/-- A replica entry is discarded under steps 1 to 4 of R132; a static one stays (R518). -/
def State.dropReplica (s : State) (e : Extent) : State :=
  let s := ((s.discardRange e.base e.blocks).clearRings e.base e.blocks).zeroPages e.base e.blocks
  if e.isStatic then s
  else { s with svc := { s.svc with extents := s.svc.extents.filter (· ≠ e) } }.resizeArea

/-- MEXT (R512): an extent entry is created or released in a replica region, or every replica is discarded. The release
is answered when it completes, an add once its rows are ready. -/
def execMext (p : Fin 4) (msg : MMsg) (s : State) : Host.Outcome State Fault Refusal :=
  let (mine, s) := s.meshArrive p msg
  let base := fieldAt msg.data 0 4
  let blocks := fieldAt msg.data 4 4
  let region := fieldAt msg.data 9 1 % 8
  let region := if fieldAt msg.data 9 1 / 8 % 2 = 1 then 8 else region
  let known := s.svc.extents.any fun e => e.base = base && e.blocks = blocks
  if !mine then .next s
  else if !mmsgShapeOk msg (if msg.aux = 3 then 0 else 1) then .next (s.meshReject p msg 4)
  else match msg.aux.toNat with
    | 1 =>
      if !s.mesh.replica.getLsbD region || blocks = 0 || (!known && decide (s.entryPlaces ≥ 32768))
        || (s.svc.extents.any fun e => overlaps base blocks e.base e.blocks && !(e.base = base && e.blocks = blocks))
        || (base + blocks) * 2 ^ 21 > s.capacity then .next (s.meshReject p msg 2)
      else
        let s := if known then s else s.addEntry base blocks region 0 (region = 8)
        let s := { s with mesh := { s.mesh with extIn := s.mesh.extIn ++ [(msg.src, msg.tag, base, blocks)] } }
        .next s.replicaProceed
    | 2 =>
      if !known || !s.mesh.replica.getLsbD region then .next (s.meshReject p msg 2)
      else
        let es := lmod s.svc.extents (fun e => e.base = base && e.blocks = blocks) fun e => { e with releasing := true }
        .next { s with
          svc := { s.svc with extents := es }
          mesh := { s.mesh with relIn := s.mesh.relIn ++ [(msg.src, msg.tag, base)] } }
    | 3 =>
      let es := s.svc.extents.filter fun e => s.mesh.replica.getLsbD e.region && e.heads = 0
      .next ((forAll es (fun e s => s.dropReplica e) s).meshReply msg.src msg.tag 0)
    | _ => .next (s.meshReject p msg 3)

/-! ### Losing the peer (R520 to R523) -/

/-- Barriers that wait for the peer are broken: counted, with event 0x4040 for each lost address and one black box record
per barrier (R523). -/
def State.breakMesh (s : State) : State :=
  if s.mesh.bars = [] then s
  else
    let lost := s.mesh.resyncEarly
    let n := s.mesh.bars.length
    let body := leNat (([1, s.mesh.peer.zeroExtend 8, 2, 0] : List Byte) ++ leBytes 4 lost.length
      ++ (lost.take 5).flatMap fun a => leBytes 8 a.toNat)
    let s := forAll lost (fun a s => s.raise (mkEv 0x4040 .error 15 0 [] a.toNat)) s
    let s := forAll (List.range n) (fun _ s => s.bbWrite 6 body) s
    { s with mesh := { s.mesh with bars := [], broken := satAdd s.mesh.broken n, resyncEarly := [] } }

/-- A head has room for another range (R129). -/
def State.headRoom (s : State) (h : TileId) : Bool := s.headRanges h < 16384

/-- Takeover (R521 step 4, R522): replica entries are granted to TAKEOVER_HEADS, those heads' Dynamic Capacity logs take
Add Capacity records, event 0x4032 and a black box record follow. -/
def State.takeover (s : State) : State :=
  let es := s.svc.extents.filter fun e => s.mesh.replica.getLsbD e.region && e.heads = 0
  let s := forAll es (fun e s =>
    let hs := allTiles.filter fun (h : TileId) => s.mesh.takeoverHeads.getLsbD h && s.inSvc h && s.headRoom h
    let mask := hs.foldl (fun m (h : TileId) => bitOn m h.val) (0 : BitVec 8)
    let s := { s with svc := { s.svc with
      extents := s.svc.extents.map fun x => if x = e then { x with heads := mask } else x } }
    forAll hs (fun h s =>
      s.logPush h 4 { kind := 2, dcType := 0, addr := BitVec.ofNat 64 (e.base * 2 ^ 21), len := e.blocks * 2 ^ 21 }) s) s
  let s := { s with mesh := { s.mesh with takenOver := true } }
  let s := s.raise (mkEv 0x4032 .warn 15 0)
  s.bbWrite 7 (leNat (([s.mesh.peer.zeroExtend 8, s.mesh.takeoverHeads] : List Byte) ++ leBytes 2 s.mesh.replica.toNat
    ++ leBytes 4 s.mesh.pairGen.toNat))

/-- A repair read that brings no data leaves the line uncorrectable (R238, R516): it is poisoned and its page is queued for
refresh. -/
def State.repairFailed (s : State) (r : LoadReq) : State :=
  let h := s.home r.line
  ((s.uncorrectable h.tile r.line h.unit (lineDie (s.slotOf h) h.line) 5).queueRefresh h.tile h.unit h.pidx).loadDone r.id 0 true

/-- The peer is declared dead or absent (R520, R521, R523): `reason` 0 silence, 1 its departure, 2 absence. -/
def State.peerDead (s : State) (reason : Nat) (mayTake : Bool := true) : State :=
  if !s.mesh.paired || (s.mesh.peerDead && reason ≠ 2) then s
  else
    let wasSync := decide (s.mesh.state = 2)
    let s := { s with mesh := { s.mesh with
      peerDead := true, contact := false, declared := satAdd s.mesh.declared 1, walks := [], resyncStep := 0,
      extWaits := [], rwrs := [] } }
    let s := (s.releaseMirrored.setPair 3).addCause .mirror
    let s := s.raise (mkEv 0x4031 .error 15 0 [(1, s.mesh.peer.toNat), (1, reason)])
    let s := s.breakMesh
    let s := if wasSync && mayTake && s.mesh.takeoverHeads != 0#8 then s.takeover else s
    let s := (forAll allTiles (fun t s => s.answerPeers t) s).addProceed
    -- repair reads that wait for the peer end without data (R516)
    let waiting := s.mesh.repairs
    let s := { s with mesh := { s.mesh with repairs := [] } }
    forAll waiting (fun w s =>
      match s.loads.find? (·.id = w.2) with
      | some r =>
        (s.modLoad r.id fun r => { r with mirrorWait := false }).repairFailed r
      | none => s) s

/-- PEER_SILENCE_CHECK (R520): 10 µs more of silence; at 250 µs the peer of a serving part is declared dead. -/
def execPeerSilenceCheck (s : State) : Host.Outcome State Fault Refusal :=
  if !s.mesh.paired || !s.mesh.contact then .next s
  else
    let s := { s with mesh := { s.mesh with silentUs := s.mesh.silentUs + 10 } }
    if s.mesh.silentUs ≥ 250 ∧ s.sys.state.isServing then .next (s.peerDead 0) else .next s

/-- MESH_HEARTBEAT_TIMER (R520): an MHB to the peer on the first port of each route mask; a period without a message from
the peer is counted. -/
def execMeshHeartbeatTimer (s : State) : Host.Outcome State Fault Refusal :=
  if !s.mesh.paired || !s.meshTalks || s.mesh.conflict || s.mesh.dropTable then .next s
  else
    let m : MMsg := { opcode := 0x28, dst := s.mesh.peer, src := BitVec.ofNat 6 s.pkgId, hops := 63 }
    let first (mask : BitVec 4) : List (Fin 4) :=
      (([0, 1, 2, 3] : List (Fin 4)).filter fun p => mask.getLsbD p.val).take 1
    let s := forAll (first s.mesh.prim[s.mesh.peer.toFin] ++ first s.mesh.altm[s.mesh.peer.toFin])
      (fun p s => s.peerPut p m) s
    .next (if s.mesh.silentUs ≥ 50 then { s with mesh := { s.mesh with missed := satAdd s.mesh.missed 1 } } else s)

/-- MHB (R520): a heartbeat is answered at once; a reply is recorded by having been heard. -/
def execMhb (p : Fin 4) (msg : MMsg) (s : State) : Host.Outcome State Fault Refusal :=
  let (mine, s) := s.meshArrive p msg
  if mine ∧ msg.aux = 0 then .next (s.meshSend { opcode := 0x28, dst := msg.src, aux := 1 }).2 else .next s

/-- MBYE (R520): power fail, FAILED and reset declare the peer dead in a serving part; sleep degrades the pair; dissolve
moves it to none. -/
def execMbye (p : Fin 4) (msg : MMsg) (s : State) : Host.Outcome State Fault Refusal :=
  let (mine, s) := s.meshArrive p msg
  if !mine || !s.mesh.paired || msg.src ≠ s.mesh.peer then .next s
  else match msg.aux.toNat with
    | 2 =>
      let s := s.degradePair
      .next { s with mesh := { s.mesh with contact := false, extWaits := [] } }.addProceed
    | 5 =>
      let s := s.releaseMirrored.setPair 0
      .next { s with mesh := { s.mesh with paired := false, walks := [], resyncStep := 0, extWaits := [] } }.addProceed
    | 1 | 3 | 4 => .next (if s.sys.state.isServing then s.peerDead 1 else s)
    | _ => .next s

/-- PAIR_CONTACT_TIMEOUT (R524): without contact in 2 s the peer is declared absent, and the primaries are served. -/
def execPairContactTimeout (s : State) : Host.Outcome State Fault Refusal :=
  if s.mesh.paired ∧ !s.mesh.contact ∧ s.sys.state.isServing then
    let s := s.peerDead 2 false
    .next { s with mesh := { s.mesh with heldRegions := 0 } }
  else .next s

/-! ### Resync (R518) -/

/-- Extent entries of this package's primary regions. -/
def State.primaryExtents (s : State) : List Extent :=
  s.svc.extents.filter fun e => s.mesh.regions.getLsbD e.region && !e.releasing

/-- Forming or re-admission starts: the target discards its replicas and takes the source's entries (R518 steps 1, 2). -/
def State.startResync (s : State) : State :=
  let es := s.primaryExtents
  let s := { s with mesh := { s.mesh with
    resyncActive := true, resyncSource := true, resyncPercent := 0, resyncStep := 1, walks := [], resyncEarly := [],
    bars := [], readmit := false } }
  let (tag, s) := s.meshTag
  let s := { s with mesh := { s.mesh with extWaits := [(tag, 0)] } }
  let s := (s.meshSend { opcode := 0x26, tag := tag, dst := s.mesh.peer, aux := 3 }).2
  forAll es (fun e s =>
    let (tag, s) := s.meshTag
    let s := { s with mesh := { s.mesh with extWaits := s.mesh.extWaits ++ [(tag, e.base)] } }
    (s.meshSend { opcode := 0x26, dslots := 1, tag := tag, dst := s.mesh.peer, aux := 1,
                  data := leBytes 4 e.base ++ leBytes 4 e.blocks
                    ++ [0, BitVec.ofNat 8 (if e.isStatic then 8 else e.region)] ++ List.replicate 6 0 }).2) s

/-- Every MEXT of the resync has completed: stores are mirrored from now on, and every owner tile walks (R518). -/
def State.startWalk (s : State) : State :=
  { s with mesh := { s.mesh with resyncStep := 3, walks := s.svcTiles.map fun t => { tile := t } } }

/-- A line that the walk of tile t sends: in a mirrored extent, owned by t, in a written ring. -/
def State.walks (s : State) (t : TileId) (n : Nat) : Bool :=
  let h := s.home n
  (s.primaryExtents.any fun e => inRange n e.base e.blocks) && h.tile = t
    && (ringWritten s.tiles[t].pl h.unit h.ring)

/-- The newest value of a line at its point of serialisation, read in one step (R39, R518). -/
def State.newest (s : State) (n : Nat) : Line × Bool × State :=
  let h := s.home n
  let d := s.tiles[h.tile].d
  let media (l : StoredLine) (s : State) : Line × Bool × State :=
    let (v, s) := s.decrypt l
    (v, l.poison, s)
  match s.lookup n with
  | .cache => ((cached d n).map fun l => (l.data, l.poison, s)).getD (0, false, s)
  | .staged _ _ _ _ _ => media (((dirEntry d n).bind (s.stagedLine h.tile)).getD { poison := true }) s
  | .foldBuffer => media (((foldServes d h.unit h.pidx).bind fun f => tabGet f.buf h.line).getD {}) s
  | .home u slot =>
    let (l, s) := s.homeLine h.tile u slot h.line
    media l s
  | _ => (0, false, s)

def State.modWalk (s : State) (t : TileId) (f : Walk → Walk) : State :=
  { s with mesh := { s.mesh with walks := lmod s.mesh.walks (fun w => w.tile = t) f } }

/-- A system-scope barrier of a walk: an MBAR to the peer (R480, R518, R519). -/
def State.walkBarrier (s : State) (t : TileId) (last : Bool) : State :=
  let (tag, s) := s.meshTag
  let s := s.modWalk t fun w => { w with since := 0, phase := if last then 2 else 1 }
  let s := { s with mesh := { s.mesh with bars := s.mesh.bars ++ [(tag, t)] } }
  (s.meshSend { opcode := 0x25, tag := tag, dst := s.mesh.peer }).2

/-- RESYNC_WALK_STEP (R518): the tile's next mirrored line is read and sent as an RWR; a barrier follows every 256, and the
last one. -/
def execResyncWalkStep (t : TileId) (s : State) : Host.Outcome State Fault Refusal :=
  match s.mesh.walks.find? fun w => w.tile = t && w.phase = 0 with
  | none => .next s
  | some w =>
    let es := sortBy (fun (a b : Extent) => decide (a.base ≤ b.base)) s.primaryExtents
    let cand := es.findSome? fun e =>
      ((List.range (32768 * e.blocks)).map (· + 32768 * e.base)).find? fun n => decide (n ≥ w.next) && s.walks t n
    match cand with
    | none => .next (s.walkBarrier t true)
    | some n =>
      let (v, poison, s) := s.newest n
      let (tag, s) := s.meshTag
      let s := { s with mesh := { s.mesh with rwrs := s.mesh.rwrs ++ [(tag, t, n)] } }
      let s := ((s.meshSend { opcode := 0x23, dslots := 4, poison := poison, tag := tag, dst := s.mesh.peer,
                              addr := BitVec.ofNat 44 (64 * n), data := lineBytes v }).2).count 15 10 2
      let s := s.modWalk t fun w => { w with next := n + 1, since := w.since + 1 }
      let total := max 1 (s.mesh.walks.length * (s.capacity / 64))
      let done := (s.mesh.walks.map fun w => if w.phase ≥ 2 then s.capacity / 64 else w.next).sum
      let s := { s with mesh := { s.mesh with resyncPercent := BitVec.ofNat 7 (min 100 (100 * done / total)) } }
      .next (if w.since + 1 ≥ 256 then s.walkBarrier t false else s)

/-- Every tile's last barrier has completed: the resync of this part's primaries is done, and MPAIR with STATE 2 tells the
peer; the pair is in sync once the peer has said so too, or at once when this part holds no replicas (R518). -/
def State.walkDone (s : State) : State :=
  if s.mesh.resyncStep = 3 ∧ (s.mesh.walks.all fun w => w.phase = 3) then
    let s := { s with mesh := { s.mesh with resyncStep := 9, resyncPercent := 100, resyncActive := false } }
    if s.mesh.replica = 0 ∨ s.mesh.peerState = 2 then s.setPair 2
    else
      let d := s.pairData
      let (tag, s) := s.meshTag
      (s.meshSend { opcode := 0x27, dslots := 1, tag := tag, dst := s.mesh.peer, data := d.set 8 2 }).2
  else s

/-! ### The pair exchange (R511, R524, R525) -/

/-- The exchange with a peer's MPAIR passes (R511). -/
def State.pairPasses (s : State) (src : BitVec 6) (d : List Byte) : Bool :=
  let own := s.pairData
  let ownGen := fieldAt own 0 4
  let gen := fieldAt d 0 4
  let swap := decide (gen > ownGen)
  let regions := if swap then fieldAt d 6 2 else fieldAt own 4 2
  let replica := if swap then fieldAt d 4 2 else fieldAt own 6 2
  let granted := s.svc.extents.any fun e =>
    (replica / 2 ^ e.region % 2 = 1) && e.heads ≠ 0 && !s.mesh.takenOver
  s.mesh.paired && fieldAt d 9 1 / 128 = 1 && src = s.mesh.peer && decide (fieldAt d 10 1 % 64 = s.pkgId)
    && (decide (gen ≠ ownGen) || (decide (fieldAt d 4 2 = fieldAt own 6 2) && decide (fieldAt d 6 2 = fieldAt own 4 2)))
    && decide (regions &&& replica = 0) && decide (fieldAt d 12 4 = fieldAt own 12 4) && !granted

/-- The roles after an exchange: the record with the higher PAIR_GEN governs, the other package acts as its swap. -/
def State.pairRoles (s : State) (d : List Byte) : State :=
  let swap := decide (fieldAt d 0 4 > s.mesh.pairGen.toNat)
  { s with mesh := { s.mesh with
    regions := if swap then BitVec.ofNat 9 (fieldAt d 6 2) else s.mesh.regions
    replica := if swap then BitVec.ofNat 9 (fieldAt d 4 2) else s.mesh.replica
    peerGen := BitVec.ofNat 32 (fieldAt d 0 4), peerState := BitVec.ofNat 3 (fieldAt d 8 1)
    contact := true, peerDead := false, silentUs := 0 } }

/-- Contact after a declaration, an absence or a package reset (R525). -/
def State.contactMade (s : State) (d : List Byte) : State :=
  let theyTook := decide (fieldAt d 9 1 % 2 = 1)
  let theyAlone := decide (fieldAt d 9 1 / 2 % 2 = 1)
  let conflict (s : State) : State :=
    ({ s with mesh := { s.mesh with pairConflict := true, heldRegions := 0 } }.setPair 3).raise
      (mkEv 0x4033 .error 15 0)
  match s.mesh.takenOver, theyTook with
  | false, false => ({ s with mesh := { s.mesh with heldRegions := 0 } }.setPair 4).startResync
  | true, true => conflict s
  | true, false => if theyAlone then conflict s else { s with mesh := { s.mesh with heldRegions := 0 } }.setPair 3
  | false, true =>
    if s.mesh.alone then conflict s
    else { s with mesh := { s.mesh with heldRegions := s.mesh.regions } }.setPair 3

/-- MPAIR (R511): the exchange is judged, the roles and the pair state follow. -/
def execMpair (p : Fin 4) (msg : MMsg) (s : State) : Host.Outcome State Fault Refusal :=
  let (mine, s) := s.meshArrive p msg
  if !mine then .next s
  else if !mmsgShapeOk msg 1 then .next (s.meshReject p msg 4)
  else
    let s := s.meshReply msg.src msg.tag 0
    let s := { s with mesh := { s.mesh with peerPair := some (msg.src, msg.data) } }
    if !s.mesh.paired || msg.src ≠ s.mesh.peer || s.mesh.conflict then .next s
    else if !s.pairPasses msg.src msg.data then
      let s := s.raise (mkEv 0x4034 .warn 15 0)
      .next (if s.mesh.state = 1 then s.releaseMirrored.setPair 0
             else if s.mesh.state = 0 then s.setPair 3 else s.degradePair)
    else
      let first := !s.mesh.contact
      let s := s.pairRoles msg.data
      let s := if first then s.sendPair else s
      match s.mesh.state.toNat with
      | 1 => .next (if s.mesh.resyncStep = 0 then s.startResync
                    else if s.mesh.peerState = 2 ∧ s.mesh.resyncStep = 9 then s.setPair 2 else s)
      | 4 => .next (if s.mesh.peerState = 2 ∧ s.mesh.resyncStep = 9 then s.setPair 2 else s)
      | 2 => .next s
      | _ => .next (if first || s.mesh.readmit then s.contactMade msg.data else s)

/-! ### Completions -/

/-- The peer has refused an add: the entries that were made for it are removed and the response is refused with the peer's
status (R512). -/
def State.addRefused (s : State) (status : Nat) : State :=
  match s.svc.waiting with
  | some (m, .add _ exts) =>
    let s := { s with
      mesh := { s.mesh with extWaits := [] }
      svc := { s.svc with extents := s.svc.extents.filter fun e => !(e.heads = 0 && exts.contains (e.base, e.blocks)) } }
    s.resizeArea.mbFinish m .invalidInput status
  | _ => s.degradePair

/-- MCMP (R513, R518, R519): an MWR, MEXT, MBAR or RWR completes; an unknown tag is discarded. -/
def execMcmp (p : Fin 4) (msg : MMsg) (ns : Nat) (s : State) : Host.Outcome State Fault Refusal :=
  let (mine, s) := s.meshArrive p msg
  if !mine then .next s
  else
    match s.mesh.waits.find? (·.tag = msg.tag) with
    | some w =>
      let s := { s with mesh := { s.mesh with
        waits := s.mesh.waits.filter (· ≠ w), ackMax := BitVec.ofNat 14 (max s.mesh.ackMax.toNat (min ns 16383)) } }
      let s := if ns > 710 then s.count 15 10 5 else s
      if msg.status = 0 then .next ((s.modStore w.owner w.storeId fun r => { r with peerDone := true }).answerPeers w.owner)
      else .next s.degradePair
    | none =>
      match s.mesh.extWaits.find? (·.1 = msg.tag) with
      | some w =>
        let s := { s with mesh := { s.mesh with extWaits := s.mesh.extWaits.filter (· ≠ w) } }
        if msg.status ≠ 0 then .next (s.addRefused msg.status.toNat)
        else if s.mesh.extWaits = [] ∧ s.mesh.resyncStep = 1 then .next s.startWalk.addProceed
        else .next s.addProceed
      | none =>
        match s.mesh.bars.find? (·.1 = msg.tag), s.mesh.rwrs.find? (·.1 = msg.tag) with
        | some b, _ =>
          let s := { s with mesh := { s.mesh with bars := s.mesh.bars.filter (· ≠ b), resyncEarly := [] } }
          if msg.status = 0 then
            .next (s.modWalk b.2 fun w => { w with phase := if w.phase = 2 then 3 else 0 }).walkDone
          else .next ({ s with mesh := { s.mesh with bars := [b] } }.breakMesh).degradePair
        | none, some r =>
          let s := { s with mesh := { s.mesh with rwrs := s.mesh.rwrs.filter (· ≠ r) } }
          if msg.status ≠ 0 then .next s.degradePair
          else .next { s with mesh := { s.mesh with
            resyncEarly := if msg.early then s.mesh.resyncEarly ++ [BitVec.ofNat 44 (64 * r.2.2)]
                           else s.mesh.resyncEarly } }
        | none, none => .next s

/-- MDATA (R516): a repaired line goes to its load and is written locally as a Strict store that is not mirrored, with
event 0x4050; any other outcome poisons the line. -/
def execMdata (p : Fin 4) (msg : MMsg) (s : State) : Host.Outcome State Fault Refusal :=
  let (mine, s) := s.meshArrive p msg
  if !mine then .next s
  else match s.mesh.repairs.find? (·.1 = msg.tag) with
    | none => .next (s.modLink (.peer p) fun k => { k with flags := bitOn k.flags 1 })
    | some w =>
      let s := { s with mesh := { s.mesh with repairs := s.mesh.repairs.filter (· ≠ w) } }
      match s.loads.find? (·.id = w.2) with
      | none => .next s
      | some r =>
        let s := s.modLoad r.id fun r => { r with mirrorWait := false }
        if msg.status = 0 then
          let h := s.home r.line
          let v := bytesLine msg.data
          let s := s.loadDone r.id v false
          let s := s.newStore h.tile
            { id := 0, head := h.tile, line := r.line, data := v, mask := BitVec.allOnes 64,
              region := s.regionOf r.line, strict := true, noMirror := true, internal := true }
          .next (s.raise (mkEv 0x4050 .info h.tile 0 [] (64 * r.line)))
        else .next (s.repairFailed r)

/-! ### Forwarding and routes -/

/-- MESH_FORWARD_EXPIRY (R509): a message held 2 µs while being forwarded is discarded, and a request gets DEAD. -/
def execMeshForwardExpiry (p : Fin 4) (msg : MMsg) (s : State) : Host.Outcome State Fault Refusal :=
  if s.mesh.ports[p].mwaiting.contains msg ∧ msg.src.toNat ≠ s.pkgId then
    let s := s.modLink (.peer p) fun k => { k with mwaiting := k.mwaiting.erase msg }
    .next (s.meshForward { msg with hops := 0 })
  else if s.mesh.heldMsgs.contains msg ∧ msg.src.toNat ≠ s.pkgId then
    .next ({ s with mesh := { s.mesh with heldMsgs := s.mesh.heldMsgs.erase msg } }.meshForward { msg with hops := 0 })
  else .next s

/-- Lines whose MWRs change port with new routes are held, and their outstanding MWRs wait to be resent (R517). -/
def State.holdMwrs (s : State) : State :=
  let moved := s.mesh.waits.filter fun w =>
    match maskPort s.mesh.prim[s.mesh.peer.toFin]
        { opcode := 0x22, addr := BitVec.ofNat 44 (64 * w.line), tag := w.tag, dst := s.mesh.peer } with
    | some p => decide (p.val ≠ w.port)
    | none => true
  { s with mesh := { s.mesh with holdLines := (s.mesh.holdLines ++ moved.map (·.line)).eraseDups } }

/-- MWR_ROUTE_HOLD_END (R517): the line's hold ends, and every MWR of it without completion is sent again, in order, with
a new tag on the new port. -/
def execMwrRouteHoldEnd (line : Nat) (s : State) : Host.Outcome State Fault Refusal :=
  if s.mesh.holdLines.contains line then
    let ws := s.mesh.waits.filter (·.line = line)
    let s := { s with mesh := { s.mesh with
      holdLines := s.mesh.holdLines.filter (· ≠ line), waits := s.mesh.waits.filter (·.line ≠ line) } }
    .next (forAll ws (fun w s => s.sendMwr w.owner w.storeId w.line w.data w.poison w.strict) s)
  else .next s

/-! ### Discovery (R503 to R505) -/

/-- This package starts a discovery: its HELLO epoch advances and HELLO goes out on every port in service. -/
def State.startDiscovery (s : State) : State :=
  if !s.meshTalks then s
  else
    let e := s.mesh.epoch + 1
    let s := { s with mesh := { s.mesh with
      epoch := e, dist := [], discovering := true, startedAt := some s.clk.round } }
    let serial := crc32c (leBytes 8 (s.fuses.serials[s.lead]).toNat)
    let m : MMsg := { opcode := 0x21, src := BitVec.ofNat 6 s.pkgId, hops := 0, aux := e,
                      addr := BitVec.ofNat 44 serial.toNat }
    forAll (([0, 1, 2, 3] : List (Fin 4)).filter s.peerUp) (fun p s => s.peerPut p m) s

/-- This package has started a discovery in the previous 5 ms (R504), counted in housekeeping rounds (log 38). -/
def State.startedLately (s : State) : Bool :=
  match s.mesh.startedAt with
  | some r => decide ((s.clk.round - r).toNat < 5)
  | none => false

/-- Two packages have sent HELLO with the package ID `o` since the last route table (R503). -/
def Mesh.clash (m : Mesh) (o : Nat) : Bool := decide (2 ≤ (m.serials.filter fun x => x.1 = o).length)

/-- HELLO (R503, R504): the distance of the port to the origin is recorded; an improvement is flooded on; a new epoch of
an origin starts a discovery of this package's own; this part's own ID from another package is a conflict. -/
def execHello (p : Fin 4) (msg : MMsg) (s : State) : Host.Outcome State Fault Refusal :=
  let s := s.meshTake p msg
  if !s.meshTalks then .next s
  else if msg.src.toNat = s.pkgId then
    let own := crc32c (leBytes 8 (s.fuses.serials[s.lead]).toNat)
    if msg.addr.toNat % 2 ^ 32 = own.toNat ∨ s.mesh.conflict then .next s
    else .next ({ s with mesh := { s.mesh with conflict := true } }.raise (mkEv 0x4021 .error 15 (p.val + 1)))
  else
    let o := msg.src.toNat
    let who := (o, msg.addr.toNat % 2 ^ 32)
    let s := { s with mesh := { s.mesh with
      serials := if s.mesh.serials.contains who then s.mesh.serials else s.mesh.serials ++ [who] } }
    let d := msg.hops.toNat + 1
    let old := (s.mesh.epochs.find? (·.1 = o)).map (·.2)
    let stale := match old with
      | some e => decide (e ≠ msg.aux ∧ (e - msg.aux).toNat < 2 ^ 15)
      | none => false
    if stale then .next s
    else
      let isNew := decide (old ≠ some msg.aux)
      let dist := if isNew then s.mesh.dist.filter fun x => x.1.1 ≠ o else s.mesh.dist
      let best := (dist.filter fun x => x.1.1 = o).foldl (fun b x => min b x.2) 64
      let s := { s with mesh := { s.mesh with
        epochs := (s.mesh.epochs.filter (·.1 ≠ o)) ++ [(o, msg.aux)]
        dist := (dist.filter fun x => x.1 ≠ (o, p.val)) ++ [((o, p.val), d)]
        discovering := true } }
      let s := if d < best ∧ d < 63 then
          forAll (([0, 1, 2, 3] : List (Fin 4)).filter fun q => q ≠ p && s.peerUp q)
            (fun q s => s.peerPut q { msg with hops := BitVec.ofNat 8 d }) s
        else s
      .next (if isNew && !s.startedLately then
          let kept := s.mesh.dist
          let s := s.startDiscovery
          { s with mesh := { s.mesh with dist := kept } }
        else s)

/-- Messages that waited for the new route table leave on it (R504). -/
def State.sendHeld (s : State) : State :=
  let held := s.mesh.heldMsgs
  forAll held (fun m s =>
    if m.src.toNat ≠ s.pkgId then s.meshForward m
    else match s.meshPort m with
      | some p => s.peerPut p m
      | none => { s with mesh := { s.mesh with noRoute := satAdd s.mesh.noRoute 1 } })
    { s with mesh := { s.mesh with heldMsgs := [], dropTable := false } }

/-- DISCOVERY_END (R503 to R505): the new route table, without routes to a conflicted ID, replaces the old in one step, event 0x4020 is
raised, a Mesh Discover operation ends, and MWRs whose port changes are held. -/
def execDiscoveryEnd (s : State) : Host.Outcome State Fault Refusal :=
  if !s.mesh.discovering then .next s
  else
    let ds (o : Nat) : List ((Nat × Nat) × Nat) := if o = s.pkgId || s.mesh.clash o then [] else s.mesh.dist.filter fun x => x.1.1 = o
    let at_ (o d : Nat) : BitVec 4 := ((ds o).filter fun x => x.2 = d).foldl (fun m x => bitOn m x.1.2) 0
    let best (o : Nat) : Nat := (ds o).foldl (fun b x => min b x.2) 64
    let next_ (o : Nat) : Nat := ((ds o).filter fun x => x.2 > best o).foldl (fun b x => min b x.2) 64
    let present := (List.range 64).foldl (fun (m : BitVec 64) o => bitSet m o ((ds o) ≠ [])) 0
    let s := { s with mesh := { s.mesh with
      prim := Vector.ofFn fun (o : Fin 64) => at_ o.val (best o.val)
      altm := Vector.ofFn fun (o : Fin 64) => at_ o.val (next_ o.val)
      present := present, packages := BitVec.ofNat 7 (bitsOf present).length
      discovering := false, serials := [] } }
    let s := s.raise (mkEv 0x4020 .info 15 0 [(1, s.mesh.packages.toNat)])
    .next s.sendHeld.holdMwrs

end Sys2Proof.Machine
end

