-- ==== Sys2Proof/Machine/Read.lean ====
section
/-! DEFINITION. The decode ladder (R237 to R239), age stamps (R207 to R209) and the rebuild into a spare (R245). -/

namespace Sys2Proof.Machine

/-- The bucket of the k-th repeat of a read that started with bucket b (R211): b + 1 to 15, then b - 1 to 0. -/
def repeatBucket (b k : Nat) : Nat :=
  let up := (List.range 16).filter (· > b)
  let down := ((List.range 16).filter (· < b)).reverse
  if k = 0 then b else (up ++ down).getD (k - 1) b

/-- An UNKNOWN stamp is set from the bucket x that decoded, and the unit's hint follows (R209). -/
def State.learnStamp (s : State) (t : TileId) (unit slot x : Nat) : State :=
  let idx := stampIdx unit slot
  if stampAt s.tiles[t].d idx ≠ 0xFF then s
  else
    let lo := if x = 0 then 0 else 2 ^ (11 + x)
    s.modD t fun d =>
      { setStamp d idx (stampFor s.clock (sub32 s.clock lo)) with
        hints := Sparse.set 8 d.hints unit (BitVec.ofNat 4 x) }

/-- A read that no rung could serve: a line of a region whose pair is in sync is asked of the peer (R516); else it is
uncorrectable, is filled poisoned, and its page is queued for refresh (R238). -/
def State.ladderFailed (s : State) (t : TileId) (r : LoadReq) (unit pidx ldie rung : Nat) : State :=
  let region := s.regionOf r.line
  let inSync := s.mesh.paired && s.mesh.state = 2 && (s.mesh.regions ||| s.mesh.replica).getLsbD region
  let (sent, tag, s) :=
    if inSync then
      let (tag, s) := s.meshTag
      let (ok, s) := s.meshSend
        { opcode := 0x24, tag := tag, dst := s.mesh.peer, addr := BitVec.ofNat 44 (64 * r.line) }
      (ok, tag, s)
    else (false, 0, s)
  if sent then
    let s := { s with mesh := { s.mesh with repairs := s.mesh.repairs ++ [(tag, r.id)] } }
    (s.modLoad r.id fun r => { r with mirrorWait := true }).count 15 10 4
  else ((s.uncorrectable t r.line unit ldie rung).queueRefresh t unit pidx).loadDone r.id 0 true

/-- A read has decoded: a line that is stored poisoned, or that this boot has poisoned, is listed when no entry holds it (R254, R255),
and the line is returned. -/
def State.ladderGave (s : State) (r : LoadReq) (l : StoredLine) : State :=
  let poison := l.poison || s.poison.lost r.line
  let s := if poison then s.foundPoisoned r.line else s
  let (v, s) := s.decrypt l
  s.loadDone r.id (if poison then 0 else v) poison

/-- A home line of a load as it is given: by its own read, or, where that failed, by the page code (R232, R237). -/
def State.homeGave (s : State) (t : TileId) (r : LoadReq) (unit slot : Nat) (x : LineRead) : State :=
  let (l, s) := s.homeLine t unit slot (s.home r.line).line
  let (l, s) := s.asRead l x
  s.ladderGave r l

/-- A repeat has given the line at another bucket than the first read's (R211, R223). -/
def State.otherBucket (s : State) (t : TileId) (rung : Nat) : State :=
  if rung = 0 then s else s.modD t fun d => { d with otherBucket := satAdd d.otherBucket 1 }

/-- Rungs 1 and 2 have failed, or do not apply any more: the page code is next, unless the page's own fold has reached F6 by
now, which then serves the load (R174). -/
def State.homeRead (s : State) (t : TileId) (r : LoadReq) (unit slot : Nat) (next : State → State) : State :=
  let h := s.home r.line
  match foldServes s.tiles[t].d unit h.pidx with
  | some f => if (s.slotOf h) = slot then s.serveFold r.id h.line f else next s
  | none => next s

/-- The MISDIRECTED lines of rung 3 are reported, each with its expected media address (event 0x1011). -/
def State.noteMisdirected (s : State) (t : TileId) (unit slot first : Nat) (rs : List (Nat × LineRead)) : State :=
  forAll ((rs.filter fun x => x.2 = .misdirected).map (·.1)) (fun l s =>
    let ld := lineDie slot l
    s.raise (mkEv 0x1011 .error t (unit / 16 + 1) [(1, ld), (5, mediaAddress 0 t (unit / 16) ld (unit % 16) slot (l / 8))]
      (if l < 64 then 64 * (first + l) else 0))) s

/-- The page of a load has been decoded with this outcome at a rung from 3 on (R237, R238, R223): unless every erased line lies on a die
that is known to be unreadable, the page is queued for refresh. -/
def State.pageGave (s : State) (t : TileId) (r : LoadReq) (unit slot : Nat) (rs : List (Nat × LineRead)) : State :=
  let h := s.home r.line
  let s := s.modIt t fun i => { i with escPage := vmod i.escPage (toChan (unit / 16)) (satAdd · 1) }
  let failed := s.deadLines t unit slot
  let known := erased rs ≠ [] && (erased rs).all (failed.contains ·)
  let s := if known then s else s.queueRefresh t unit h.pidx
  s.homeGave t r unit slot ((tabGet rs h.line).getD .failed)

/-- LADDER_RUNG_DONE (R237, R238), once no read of the load is left. Rungs 0 to 2 of `LoadReq.rung` are the first read and its
two repeats, 3 to 5 are rungs 3 to 5. `noise` is what the rung's reads got wrong, by page line. -/
def execLadderRungDone (t : TileId) (id : Nat) (noise : Noise) (s : State) : Host.Outcome State Fault Refusal :=
  match s.loads.find? fun r => r.id = id && r.owner = t && r.result.isNone && !r.mirrorWait with
  | none => .next s
  | some r =>
    match r.src with
    | .home unit slot =>
      if workLeft s.tiles[t].eng (.load id) then .next s
      else
        let h := s.home r.line
        let c := toChan (unit / 16)
        let ld := lineDie slot h.line
        let dead := s.deadLines t unit slot r.dead
        let live (rs : List (Nat × LineRead)) : List LineRead := (rs.filter fun x => !dead.contains x.1).map (·.2)
        let mine (rs : List (Nat × LineRead)) : Bool := ((tabGet rs h.line).map (·.ok)).getD false
        .next (
          if r.rung < 3 then
            let x := readLine false (noiseOf noise h.line)
            let s := s.noteRead t c x
            if x.ok then
              ((s.otherBucket t r.rung).learnStamp t unit slot (repeatBucket r.bucket r.rung)).homeGave t r unit slot x
            else
              s.homeRead t r unit slot fun s =>
                if r.rung < 2 then
                  (s.modLoad id fun r => { r with rung := r.rung + 1 }).readItem t id unit slot (h.line / 8)
                    (repeatBucket r.bucket (r.rung + 1)) false 0 ld
                else s.pageRung t id unit slot r.bucket r.dead
          else if r.rung = 3 then
            let rs := readPage dead noise
            let s := forAll (live rs) (fun x s => s.noteRead t c x) s
            let s := (s.noteFailedPage t unit slot dead rs).noteMisdirected t unit slot (s.slotFirst t unit slot) rs
            if mine rs || withinCode rs 0 then s.pageGave t r unit slot rs
            else
              let again := (((erased rs).filter fun l => !dead.contains l).map (lineDie slot ·)).eraseDups
              let s := s.modLoad id fun r => { r with rung := if again = [] then 5 else 4, reads := rs }
              if again = [] then s
              else s.homeRead t r unit slot fun s => s.readShares t id unit slot (repeatBucket r.bucket 1) again
          else if r.rung = 4 then
            let rs := rereadPage dead r.reads noise
            let again := (((erased r.reads).filter fun l => !dead.contains l).map (lineDie slot ·)).eraseDups
            let s := forAll ((List.range 80).filter fun l => again.contains (lineDie slot l)) (fun l s =>
              s.noteRead t c (readLine (decide (64 ≤ l)) (noiseOf noise l))) s
            if mine rs || withinCode rs 0 then s.pageGave t r unit slot rs
            else s.modLoad id fun r => { r with rung := 5, reads := rs }
          else if withinCode r.reads 8 then s.pageGave t r unit slot r.reads
          else s.ladderFailed t r unit h.pidx ld 5)
    | _ => .next s

/-- STAGED_LADDER_RUNG_DONE (R159, R239), once no read of the load is left: a read, one repeat, and the rebuild from the
stripe. `noise` is what the rung's reads got wrong, by stripe index. -/
def execStagedLadderRungDone (t : TileId) (id : Nat) (noise : Noise) (s : State) :
    Host.Outcome State Fault Refusal :=
  match s.loads.find? fun r => r.id = id && r.owner = t && r.result.isNone && !r.mirrorWait with
  | none => .next s
  | some r =>
    match r.src with
    | .staged unit ring ss sp si =>
      if workLeft s.tiles[t].eng (.load id) then .next s
      else
        let h := s.home r.line
        let c := toChan (unit / 16)
        let slot := 256 * ring + ss
        let ld := (slot + sp + si) % 8
        let dead := s.deadIndexes t unit slot sp r.dead
        let own := readLine false (noiseOf noise si)
        let l := (((s.staged[t].stripes.reverse.find? fun x => x.unit = unit ∧ x.ring = ring ∧ x.t = 5 * ss + sp).bind
          fun x => x.entries[si]?).map (·.val)).getD { keys := s.sec.engine }
        .next (
          if r.rung < 2 then
            let s := s.noteRead t c own
            if own.ok && !metaWrong own then
              let s := (s.otherBucket t r.rung).learnStamp t unit slot (repeatBucket r.bucket r.rung)
              let (l, s) := s.asRead l own
              s.ladderGave r l
            else if r.rung = 0 then
              (s.modLoad id fun r => { r with rung := 1 }).readItem t id unit slot sp (repeatBucket r.bucket 1) true 0 ld
            else s.stripeRung t id unit slot sp ld r.bucket r.dead
          else
            let s := forAll ((List.range 8).filter fun k => k ≠ si && !dead.contains k) (fun k s =>
              s.noteRead t c (readLine (decide (k = 7)) (noiseOf noise k))) s
            if stripeGives dead noise si then
              (s.modIt t fun i => { i with escStripe := vmod i.escStripe c (satAdd · 1) }).ladderGave r l
            else s.ladderFailed t r h.unit h.pidx ld 3)
    | _ => .next s

/-! ### Age stamps -/

/-- AGE_SWEEP_STEP (R207): the sweep replaces a stamp with step of it; it stops in SLEEP_S1 and SLEEP_S2 (R208). -/
def execAgeSweepStep (t : TileId) (idx : Nat) (s : State) : Host.Outcome State Fault Refusal :=
  if s.sys.state = .sleepS1 ∨ s.sys.state = .sleepS2 ∨ idx ≥ 5242880 then .next s
  else
    .next (s.modD t fun d =>
      { setStamp d idx (stampStep s.clock (stampRef d s.clock idx) (stampAt d idx)) with
        sweepAt := (idx + 1) % 5242880 })

/-- AGE_CATCHUP_STEP (R208): step is applied to the stamp at P with ref = E, and P advances; at its end P rests at
5,242,880. -/
def execAgeCatchupStep (t : TileId) (s : State) : Host.Outcome State Fault Refusal :=
  let d := s.tiles[t].d
  if d.catchP ≥ 5242880 ∨ s.sys.state = .sleepS1 ∨ s.sys.state = .sleepS2 then .next s
  else
    .next (s.modD t fun d =>
      { setStamp d d.catchP (stampStep s.clock d.eClk.toNat (stampAt d d.catchP)) with catchP := d.catchP + 1 }).sleepDrain

/-- A page group of a written ring has an UNKNOWN stamp and has not been swept in vain. -/
def unknownLeft (pl : Placement) (d : TileData) : Bool :=
  pl.written.any fun e => e.2 && (List.range 4).any fun g =>
    let i := 4 * e.1 + g
    stampAt d i = 0xFF && !d.swept.contains i

/-- A foreground read waits for a partition of a channel (R214). -/
def fgReadWaits (e : Engine) (chan part : Nat) : Bool :=
  let is (w : WorkItem) : Bool := w.cls = .fgRead && w.chan = chan && w.part = part
  e.queues.toList.any (·.any is) || e.full.any is || e.ctxs.any fun x => is x.item && x.st ≠ .fetch

/-- RECOVERY_SWEEP_VISIT (R209): one line of the page group is read with each bucket, from the unit's hint on in the order of
R211, until one decodes; its bucket sets the stamp and the unit's hint. `tries` is what each read in turn got wrong. The
spec gives the sweep no order of groups and none is taken here. It yields to foreground reads of the partition, and ends
when no group of a written ring is left. -/
def execRecoverySweepVisit (t : TileId) (idx : Nat) (tries : List (List Nat)) (s : State) :
    Host.Outcome State Fault Refusal :=
  let unit := idx / 4 / 20480
  let d := s.tiles[t].d
  let c := toChan (unit / 16)
  if !d.recovery || !ringWritten s.tiles[t].pl unit (idx / 4 % 20480) || stampAt d idx ≠ 0xFF || d.swept.contains idx
    || s.chanOut t c || fgReadWaits s.tiles[t].eng c unit then .next s
  else
    let hint := (Sparse.get (8 : BitVec 4) d.hints unit).toNat
    let rs := (List.range 16).map fun k => readLine false (tries.getD k [])
    let used := match rs.findIdx? (·.ok) with
      | some k => k + 1
      | none => 16
    let s := s.noteReads t c used 0 (rs.take used)
    let s := match rs.findIdx? (·.ok) with
      | some k => s.learnStamp t unit (64 * (idx % 327680) % 5242880) (repeatBucket hint k)
      | none => s.modD t fun d => { d with swept := d.swept ++ [idx] }
    .next (s.modD t fun d => { d with recovery := unknownLeft s.tiles[t].pl d })

/-! ### Rebuild into the spare (R245 to R247) -/

/-- The work of one stage of a rebuild, as (unit, ring): the staging segments, the unit records, the valid remap-pool
slots, the written home rings in ascending order. -/
def rebuildWork (x : Tile) (c : ChanId) (stage : Nat) : List (Nat × Nat) :=
  let units := (List.range 16).map (· + 16 * c.val)
  match stage with
  | 0 => (x.d.segs.filter fun g => g.unit / 16 = c.val).map fun g => (g.unit, g.ring)
  | 1 => units.map (·, 20479)
  | 2 => (units.filter fun u => x.pl.remap.any fun e => e.unit = u).map (·, 20479)
  | _ => (x.pl.written.filter fun e => e.2 && e.1 / 20480 / 16 = c.val).map fun e => (e.1 / 20480, e.1 % 20480)

/-- The ring of a stage that is still to be done. -/
def rebuildNext (x : Tile) (c : ChanId) : Option (Nat × Nat) :=
  let rb := x.it.rebuild[c]
  let w := rebuildWork x c rb.stage
  if rb.stage = 1 ∨ rb.stage = 2 then w[rb.rings]? else w.find? fun p => !rb.valid.contains (p.1 % 16, p.2)

/-- What is to be rebuilt in a ring: the stripes of a segment by number, or page slots by ring-slot (R245): two for each unit
record, the pool slots with valid entries, every slot of a home ring but the gap. -/
def State.rebuildPieces (s : State) (t : TileId) (stage u ring : Nat) : List Nat :=
  let p := s.tiles[t].pl
  match stage with
  | 0 => sortBy (fun a b => decide (a ≤ b)) ((s.staged[t].stripes.filter fun x => x.unit = u && x.ring = ring).map (·.t))
  | 1 => ((List.range 8).filter fun i => (tabGet s.media[t].unitRecs (8 * u + i)).isSome).flatMap fun i => [2 * i, 2 * i + 1]
  | 2 => sortBy (fun a b => decide (a ≤ b)) ((p.remap.filter (·.unit = u)).map (·.pool))
  | _ => (List.range 256).filter fun k =>
      k ≠ gapSlot (Sparse.get 0 p.moves u) ring && !p.remap.any fun e => e.unit = u && e.slot = 256 * ring + k

/-- The next piece of the running ring. -/
def State.rebuildPiece (s : State) (t : TileId) (c : ChanId) (u ring : Nat) : Option Nat :=
  let rb := s.tiles[t].it.rebuild[c]
  (s.rebuildPieces t rb.stage u ring).find? (rb.piece ≤ ·)

/-- A rebuild has done every stage: the die map names position 8, the spare is in use, event 0x1022, and DIE_REBUILD
clears when no other logical die lacks a serving die (R245 step 4). The new DIE_MAP is to be committed (R95, R422). -/
def State.rebuildDone (s : State) (t : TileId) (c : ChanId) : State :=
  let ld := s.tiles[t].it.rebuild[c].ldie.toNat
  let s := s.modIt t fun i => { i with rebuild := vmod i.rebuild c fun r => { r with active := false, percent := 100 } }
  let s := s.modCh t c fun x =>
    { x with spareInUse := true
             dieMap := BitVec.ofNat 32 (x.dieMap.toNat - x.dieMap.toNat / 16 ^ ld % 16 * 16 ^ ld + 8 * 16 ^ ld) }
  let s := s.raise (mkEv 0x1022 .info t (c.val + 1) [(1, ld)])
  let s := { s with cfg := { s.cfg with deferred := if s.cfg.deferred.contains 4 then s.cfg.deferred else s.cfg.deferred ++ [4] } }
  let lacks := s.tiles.toList.any fun x => x.ch.toList.any fun k => (servedDies k).length < 8
  if lacks then s else s.clearCause .dieRebuild

def State.modRebuild (s : State) (t : TileId) (c : ChanId) (f : Rebuild → Rebuild) : State :=
  s.modIt t fun i => { i with rebuild := vmod i.rebuild c f }

/-- A piece of a rebuild begins (R245, R246): PATROL items read the other dies' lines and program the die's share on the
spare, one program at a time. -/
def State.rebuildBegin (s : State) (t : TileId) (c : ChanId) (u ring k : Nat) : State :=
  let rb := s.tiles[t].it.rebuild[c]
  let slc := decide (rb.stage = 0)
  let slot := if slc then 256 * ring + k / 5 else 256 * ring + k
  let item : WorkItem :=
    { id := 0, role := if slc then 0 else 1, cls := .patrol, herd := c.val, chan := c.val, unit := u, part := u % 16
      slot := slot, line := if slc then k % 5 else 0, slc := slc, use := .rebuild c.val }
  let s := s.modRebuild t c fun r => { r with busy := true, started := false }
  let s := forAll ((s.readDies t u ring []).filter (· ≠ rb.ldie.toNat)) (fun ld s =>
    s.enqueue t { item with targets := [ld], bucket := s.bucketFor t u slot }) s
  s.enqueue t { item with role := if slc then 2 else 3, targets := [rb.ldie.toNat] }

/-- The stripe line of the die under rebuild: one that the other seven do not give is poisoned (R239, R245). -/
def State.rebuildStripe (s : State) (t : TileId) (u ring k ld : Nat) (noise : Noise) : State :=
  match s.staged[t].stripes.reverse.find? fun x => x.unit = u ∧ x.ring = ring ∧ x.t = k with
  | none => s
  | some x =>
    let slot := 256 * ring + k / 5
    let i := (8 + ld - (slot + k % 5) % 8) % 8
    let (ok, s) := s.stagedRead t u slot (k % 5) i noise
    match x.entries[i]? with
    | some e =>
      if ok || !(e.kind = .data || e.kind = .carry) then s
      else
        let s := s.modStaged t fun m => { m with stripes := lmod m.stripes (· = x) fun x =>
          { x with entries := x.entries.set i { e with val := { e.val with data := 0, poison := true } } } }
        s.uncorrectable t e.line u ld 3
    | none => s

/-- A page whose share is rebuilt: its lines that no rung gives are poisoned (R245, R254). -/
def State.rebuildPage (s : State) (t : TileId) (u slot : Nat) (noise : PageNoise) : State :=
  let (rs, s) := s.pageRead t u slot noise
  let first := s.slotFirst t u slot
  forAll (if slot / 256 = 20479 && slot % 256 < 16 then [] else pageLost rs) (fun l s =>
    (s.modMedia t fun m =>
      { m with pages := match tabGet m.pages (pageKey u slot) with
          | some p => tabPut m.pages (pageKey u slot) { p with lines := tabPut p.lines l { poison := true, keys := s.sec.engine } }
          | none => m.pages }).uncorrectable t (first + l) u (lineDie slot l) 5) s

/-- A ring of the running stage is done: its spare-valid bit is set (R245), and PERCENT is the part of all (unit, ring) pieces
of the four stages that is done (DESIGN CHOICE, log 83: R264 names no unit of progress). -/
def State.rebuildRing (s : State) (t : TileId) (c : ChanId) (u ring : Nat) : State :=
  let s := s.modRebuild t c fun r =>
    { r with rings := r.rings + 1, piece := 0
             valid := if r.stage = 1 ∨ r.valid.contains (u % 16, ring) then r.valid else r.valid ++ [(u % 16, ring)] }
  let x := s.tiles[t]
  let total := ([0, 1, 2, 3].map fun k => (rebuildWork x c k).length).foldl (· + ·) 0
  let before := ((List.range x.it.rebuild[c].stage).map fun k => (rebuildWork x c k).length).foldl (· + ·) 0
  let done := min total (before + x.it.rebuild[c].rings)
  s.modRebuild t c fun r => { r with percent := BitVec.ofNat 7 (100 * done / max 1 total) }

/-- SPARE_REBUILD_STEP (R245, R246): a piece whose reads are in and whose program has run is done, and the next one begins: a
stripe line or a page of the running ring. It waits for an open fold of the page (R247). With nothing left in a ring its
spare-valid bit is set; with nothing left in a stage the next stage starts, and after the last the rebuild ends. `noise` is
what the reads of the piece got wrong, by stripe index or page line. -/
def execSpareRebuildStep (t : TileId) (c : ChanId) (noise : PageNoise) (s : State) : Host.Outcome State Fault Refusal :=
  let rb := s.tiles[t].it.rebuild[c]
  if !rb.active || s.chanOut t c then .next s
  else
    match rebuildNext s.tiles[t] c with
    | none =>
      if rb.stage < 3 then .next (s.modRebuild t c fun r => { r with stage := r.stage + 1, rings := 0, piece := 0 })
      else .next (s.rebuildDone t c)
    | some (u, ring) =>
      match s.rebuildPiece t c u ring with
      | none => .next (s.rebuildRing t c u ring)
      | some k =>
        let slot := 256 * ring + k
        let folds := rb.stage ≠ 0 && s.tiles[t].d.folds.any fun f => f.unit = u && f.step ≠ 10 &&
          (s.slotOf (s.pageHome t u f.pidx) = slot || f.opens && (s.pageHome t u f.pidx).ring = ring)
        if !rb.busy then .next (if folds then s else s.rebuildBegin t c u ring k)
        else match progResult s.tiles[t].eng (.rebuild c.val) with
        | none => .next s
        | some failed =>
          if folds || workLeft s.tiles[t].eng (.rebuild c.val) then .next s
          else
          let s := s.endContexts t (.rebuild c.val)
          -- a share slot of the spare that fails counts against it (R242, R247)
          let s := if failed = 0 then s else s.noteSlot t c 8 (pageKey u slot)
          let s := if rb.stage = 0 then s.rebuildStripe t u ring k rb.ldie.toNat noise.1 else s.rebuildPage t u slot noise
          .next ((s.count t 7 (if rb.stage = 0 then 2 else 3)).modRebuild t c fun r =>
            { r with busy := false, started := false, piece := k + 1 })

end Sys2Proof.Machine
end

