-- ==== Sys2Proof/Machine/Ymi.lean ====
section
/-! DEFINITION. The YMI channel (R66 to R75): command frames beat by beat with their parity, data bursts, the bytes that
a die stores and holds, and what a die does with each command (R58 to R60, R68, R69, R72, R73, R76, R78, R80, R82, R89). -/

namespace Sys2Proof.Machine

/-! ### Commands and frames (R67 to R69) -/

/-- The 40-bit operand of a 6-beat frame (R69). -/
structure YOperand where
  part : Nat
  slot : Nat := 0
  line : Nat := 0
  slc : Bool := false
  tslot : Nat := 0
  cont : Bool := false
deriving DecidableEq, Repr

/-- The commands of R68. -/
inductive YCmd where
  | nop
  | suspend (p : Fin 16) | resume (p : Fin 16) | fetch (p : Fin 16)
  | readLine (o : YOperand) | readShare (o : YOperand) | verify (o : YOperand)
  | loadBuf (o : YOperand) | progStep (o : YOperand)
  | setRef (k : Nat) | setWave (k : Nat) | setScramble
  | status | readTemp | readParam (u : Nat) | resetDie
deriving DecidableEq, Repr

/-- The operand as bits 39 to 0 (R69). -/
def YOperand.bits (o : YOperand) : Nat :=
  o.part + o.slot * 2 ^ 4 + o.line * 2 ^ 27 + b2n o.slc * 2 ^ 31 + o.tslot * 2 ^ 32 + b2n o.cont * 2 ^ 37

/-- The operand that five beats carry. -/
def YOperand.ofBits (v : Nat) : YOperand :=
  { part := v % 2 ^ 4, slot := v / 2 ^ 4 % 2 ^ 23, line := v / 2 ^ 27 % 2 ^ 4, slc := v.testBit 31
    tslot := v / 2 ^ 32 % 2 ^ 5, cont := v.testBit 37 }

/-- The beats of a frame on YCA[7:0], the opcode first (R67, R68). -/
def YCmd.beats : YCmd → List Byte
  | .nop => [0x00]
  | .suspend p => [0x10 + BitVec.ofNat 8 p.val]
  | .resume p => [0x20 + BitVec.ofNat 8 p.val]
  | .fetch p => [0x30 + BitVec.ofNat 8 p.val]
  | .readLine o => 0x40 :: leBytes 5 o.bits
  | .readShare o => 0x41 :: leBytes 5 o.bits
  | .verify o => 0x42 :: leBytes 5 o.bits
  | .loadBuf o => 0x50 :: leBytes 5 o.bits
  | .progStep o => 0x51 :: leBytes 5 o.bits
  | .setRef k => [0x60, BitVec.ofNat 8 k]
  | .setWave k => [0x61, BitVec.ofNat 8 k]
  | .setScramble => [0x62]
  | .status => [0x70]
  | .readTemp => [0x71]
  | .readParam u => [0x72, BitVec.ofNat 8 u]
  | .resetDie => [0x7F]

/-- The command that a die reads from the beats of a frame; none for an opcode that R68 does not list. -/
def YCmd.ofBeats (bs : List Byte) : Option YCmd :=
  let op := (bs.headD 0).toNat
  let o := YOperand.ofBits (leNat (bytesAt bs 1 5))
  let k := (bs.getD 1 0).toNat
  if op = 0 then some .nop
  else if op / 16 = 1 then some (.suspend (toPart op))
  else if op / 16 = 2 then some (.resume (toPart op))
  else if op / 16 = 3 then some (.fetch (toPart op))
  else match op with
    | 0x40 => some (.readLine o)
    | 0x41 => some (.readShare o)
    | 0x42 => some (.verify o)
    | 0x50 => some (.loadBuf o)
    | 0x51 => some (.progStep o)
    | 0x60 => some (.setRef k)
    | 0x61 => some (.setWave k)
    | 0x62 => some .setScramble
    | 0x70 => some .status
    | 0x71 => some .readTemp
    | 0x72 => some (.readParam k)
    | 0x7F => some .resetDie
    | _ => none

/-- LINE within the mode's positions, where the command uses it (R69). -/
def YOperand.lineOk (o : YOperand) : Bool := decide (o.line < if o.slc then 5 else 10)
/-- SLOT within the share slots of a partition (R56, R69). -/
def YOperand.slotOk (o : YOperand) : Bool := decide (o.slot < 5242880)

/-- Every operand field that the command uses lies within its range; one that does not sets ILLEGAL (R69). -/
def YCmd.legal : YCmd → Bool
  | .readLine o => o.slotOk && o.lineOk
  | .readShare o => o.slotOk
  | .verify o => o.slotOk && (!o.slc || o.lineOk) && decide (o.tslot < 8)
  | .loadBuf o => !o.slc || o.lineOk
  | .progStep o => o.slotOk && (!o.slc || o.lineOk) && decide (o.tslot < 8)
  | .setRef k => decide (k < 32)
  | .setWave k => decide (k < 8)
  | .readParam u => decide (u < 128)
  | _ => true

/-- YCAP of a beat: even parity over YCA[7:0] (R66). -/
def parityOf (b : Byte) : Bool := decide ((List.range 8).countP (b.getLsbD ·) % 2 = 1)

/-- The beats and parity bits that a die samples: bit 9i + j of the frame is YCA[j] of beat i, or YCAP for j = 8. -/
def sampled (beats : List Byte) (flips : List Nat) : List (Byte × Bool) :=
  let f := oddOnes flips
  beats.zipIdx.map fun x =>
    ((List.range 8).foldl (fun b j => if f.contains (9 * x.2 + j) then b ^^^ BitVec.ofNat 8 (2 ^ j) else b) x.1,
     parityOf x.1 != f.contains (9 * x.2 + 8))

/-- Every beat has good parity (R73). -/
def parityGood (bs : List (Byte × Bool)) : Bool := bs.all fun b => parityOf b.1 = b.2

/-! ### What the dies store (R57, R58, R157, R229 to R235) -/

/-- DATA of a line as written: ciphertext under the key of its home unit with its line number as tweak (R672, R673). -/
def cipherBytes (l : StoredLine) (unit n : Nat) : List Byte := cipherLine l.keys (unit % 16) n l.data

/-- META of page line L (R172, R233). -/
def pageMeta (foldSeq : BitVec 64) (line : Nat) : Nat := if line < 4 then foldSeq.toNat / 2 ^ (16 * line) % 2 ^ 16 else 0

/-- The 80 stored lines of a page slot (R229 to R235) from DATA, META and poison of its 64 data lines: each line encoded with
its media address, and the sixteen parity lines of the page code. -/
def pageLines (t : TileId) (unit slot : Nat) (data : List (List Byte × Nat × Bool)) : List (List Byte) :=
  let ma (l : Nat) : Nat := mediaAddress 0 t.val (unit / 16 % 4) (lineDie slot l) (unit % 16) slot (l / 8)
  let lines := data.zipIdx.map fun x => encodeLine (ma x.2) x.1.1 x.1.2.1 x.1.2.2
  let par := (pageParity (lines.map (·.take 70))).zipIdx.map fun h => h.1 ++ bchField (ma (64 + h.2)) h.1
  lines ++ par

/-- The lines of a programmed page whose first line is `first`. -/
def pageBytes (t : TileId) (unit slot first : Nat) (p : Page) : List (List Byte) :=
  pageLines t unit slot ((List.range 64).map fun l =>
    let v := (tabGet p.lines l).getD { keys := p.keys }
    (cipherBytes v unit (first + l), pageMeta p.foldSeq l, v.poison))

/-- The lines of one of the two pages of a unit record, which is not encrypted (R127, R672). -/
def recordPage (t : TileId) (unit slot : Nat) (r : UnitRec) : List (List Byte) :=
  let b := bytesAt r.bytes (4096 * (slot % 2)) 4096
  pageLines t unit slot ((List.range 64).map fun l => (bytesAt b (64 * l) 64, 0, false))

/-- The 800 bytes of a share: the ten page lines on logical die `ld`, by line position (R57, R114). -/
def shareBytes (lines : List (List Byte)) (slot ld : Nat) : List Byte :=
  (List.range 10).flatMap fun pos => lines.getD (8 * pos + (8 + ld - slot % 8) % 8) []

/-- The placement change that a record line holds: UNIT, CHANGE, RING and VALUE (R125, R163). -/
def placementFields : PlacementRec → Nat × Nat × Nat × Nat
  | .move u m => (u, 1, 0, m)
  | .written u ring true => (u, 2, ring, 0)
  | .written u ring false => (u, 3, ring, 0)
  | .remap u slot pool => (u, 4, 0, remapWord slot pool)

/-- The 64 data bytes of a stripe entry: ciphertext, or a record line (R163, R645). -/
def State.entryBytes (s : State) (e : StripeEntry) : List Byte :=
  match e.kind with
  | .data | .carry => cipherBytes e.val (s.home e.line).unit e.line
  | .placement r => let (u, ch, ring, v) := placementFields r; recordLine 1 u ch ring v 0
  | .discard first len => recordLine 2 0 0 0 (64 * first) (64 * len)
  | .blackBox r => bbBytes r

/-- The word of a tag line for an entry (R158). -/
def State.entryWord (s : State) (e : StripeEntry) : Nat :=
  let h := s.home e.line
  match e.kind with
  | .data => tagEntry 1 h.unit h.pidx h.line
  | .carry => tagEntry 3 h.unit h.pidx h.line
  | _ => tagEntry 2 0 0 0

/-- The logical die of line `i` of a stripe: its six data indexes, the tag line and the parity line (R157). -/
def stripeDie (x : Stripe) (i : Nat) : Nat := (256 * x.ring + x.t / 5 + x.t % 5 + i) % 8

/-- The 80 bytes of each of a stripe's eight lines (R157 to R159, R229, R234). -/
def State.stripeBytes (s : State) (t : TileId) (x : Stripe) : List (List Byte) :=
  let ma (i : Nat) : Nat :=
    mediaAddress 1 t.val (x.unit / 16 % 4) (stripeDie x i) (x.unit % 16) (256 * x.ring + x.t / 5) (x.t % 5)
  let seq := x.seq.toNat % 2 ^ 16
  let lines := (List.range 6).map fun i => match x.entries[i]? with
    | some e => encodeLine (ma i) (s.entryBytes e) seq e.val.poison
    | none => encodeLine (ma i) (List.replicate 64 0) seq false
  let tag := encodeLine (ma 6) (tagBytes x.seq.toNat x.epoch.toNat x.area (x.entries.map s.entryWord)) 0 false
  let head := stripeParity ((lines ++ [tag]).map (·.take 70))
  lines ++ [tag, head ++ bchField (ma 7) head]

/-- The stripe of a staging share slot and line position. -/
def stripeAt (m : StagedMedia) (unit slot pos : Nat) : Option Stripe :=
  m.stripes.reverse.find? fun x => x.unit = unit ∧ 256 * x.ring + x.t / 5 = slot ∧ x.t % 5 = pos

/-- `n` bytes that nothing defines (R58, R65). -/
def State.freeBytes (s : State) (n : Nat) : List Byte × State :=
  let (v, s) := s.draw
  (leBytes n v, s)

/-- The logical die whose content a position holds: the one it serves, or for the spare the one under rebuild (R245). -/
def heldDie (x : Tile) (c : ChanId) (p : Fin 9) : Nat := (ldieOf x.ch[c] p.val).getD x.it.rebuild[c].ldie.toNat

/-- The 80 lines that MLC programs left in a page slot, and the line positions that read as undefined: all of them where no
program has run, or one was cut short; those that SLC programs have used (R58, R65). -/
def State.slotLines (s : State) (t : TileId) (unit slot : Nat) : List (List Byte) × List Nat :=
  if slot / 256 = 20479 && slot % 256 < 16 then
    match tabGet s.media[t].unitRecs (8 * unit + slot % 256 / 2) with
    | some r => (recordPage t unit slot r, [])
    | none => ([], List.range 10)
  else
    match tabGet s.media[t].pages (pageKey unit slot) with
    | some pg => if pg.defined then (pageBytes t unit slot (s.slotFirst t unit slot) pg, pg.lost) else ([], List.range 10)
    | none => ([], List.range 10)

/-- What a die reads from a share slot: 80 bytes of one line, or 800 of the share. A slot that was programmed in the
other mode, never, or only in part gives undefined bytes (R58, R65); an undefined line may read differently each time. -/
def State.dieBytes (s : State) (t : TileId) (c : ChanId) (p : Fin 9) (o : YOperand) (share : Bool) : List Byte × State :=
  let unit := 16 * c.val + o.part
  let ld := heldDie s.tiles[t] c p
  if o.slc then
    match stripeAt s.staged[t] unit o.slot o.line with
    | some x => (((s.stripeBytes t x).getD ((8 + ld - (o.slot + o.line) % 8) % 8) []), s)
    | none => s.freeBytes 80
  else
    let (lines, lost) := s.slotLines t unit o.slot
    let at' (pos : Nat) (s : State) : List Byte × State :=
      if lost.contains pos then s.freeBytes 80 else (lines.getD (8 * pos + (8 + ld - o.slot % 8) % 8) [], s)
    if share then (List.range 10).foldl (fun (b, s) pos => let (x, s) := at' pos s; (b ++ x, s)) (([] : List Byte), s)
    else at' o.line s

/-! ### Dies (R58 to R60, R68 to R82, R89, R93) -/

/-- Programs, running or suspended, that a die holds (R60). -/
def progsOn (d : Die) : Nat := (d.parts.toList.filter fun p => p.st ≠ .idle).length

/-- Programs that a die may hold: MAX_PROGS, at most 4 (R60, R85). -/
def State.maxProgs (s : State) (t : TileId) (c : ChanId) (p : Fin 9) : Nat := min 4 s.media[t].dies[c][p].page.maxProgs.toNat

/-- A PROG_STEP pulse is being applied in some partition (R93): a program step runs until its WAIT ends, and a suspended
partition applies none. -/
def Die.pulsing (d : Die) : Bool := d.parts.toList.any fun q => q.st = .programming && q.pulse ≠ []

/-- YALERT_N of a channel is low: some die holds a flag (R74). -/
def Chan.alert (k : Chan) : Bool := k.dies.toList.any (·.flags ≠ 0)

/-- A flag of STATUS is set. -/
def Die.flag (d : Die) (n : Nat) : Die := { d with flags := bitOn d.flags n }

/-- Change one partition. -/
def Die.modPart (d : Die) (p : Nat) (f : Part → Part) : Die := { d with parts := vmod d.parts (toPart p) f }

/-- A PROG_STEP that the die accepts (R58 to R60, R69, R89): CONT = 0 clears all inhibits; each level entry applies its
pulse while it has applications left. -/
def Die.step (d : Die) (o : YOperand) : Die :=
  let w := (tabGet d.waves o.tslot).getD (.replicate 4 {})
  d.modPart o.part fun q =>
    let counts := if o.cont then q.applied else []
    let n := Sparse.get 0 counts o.tslot + 1
    { q with
      st := .programming, slc := o.slc, slot := o.slot, line := o.line, waveSlot := o.tslot
      inhibit := o.cont && q.inhibit, applied := Sparse.set 0 counts o.tslot n
      pulse := (levelsOf o.slc).filterMap fun l =>
        match applied (w.toList.getD l {}) n with
        | [] => none
        | segs => some (l, segs) }

/-- PROG_STEP at a die (R60, R73, R80): refused with DQ_CRC while the program buffer is invalid, and with ILLEGAL while a
step runs or when it would make a fifth program. One to a suspended partition is taken as one whose program runs
(log 77). -/
def Die.progStep (d : Die) (o : YOperand) (max : Nat) : Die :=
  let q := d.parts[toPart o.part]
  if q.st = .suspended ∨ (q.st = .programming ∧ q.pulse ≠ []) then d.flag 0
  else if q.buf = [] then d.flag 2
  else if q.st = .idle ∧ progsOn d ≥ max then d.flag 0
  else d.step o

/-- SUSPEND (R76 to R78): a program is suspended, its pulse to be repeated in full after RESUME, and a VERIFY that runs is
abandoned with its result. -/
def Die.suspend (d : Die) (p : Nat) : Die :=
  d.modPart p fun q =>
    if q.st = .programming then
      { q with st := .suspended, result := if q.result = some .verify && !q.ready then none else q.result }
    else q

/-- RESUME (R80). -/
def Die.resume (d : Die) (p : Nat) : Die :=
  d.modPart p fun q => if q.st = .suspended then { q with st := .programming } else q

/-- A read-type command's result enters the result register; its array access begins (R72). -/
def Die.hold (d : Die) (o : YOperand) (r : Held) : Die :=
  d.modPart o.part fun q => { q with result := some r, ready := false, refSlot := o.tslot }

/-- FETCH (R72): before the result is ready it sends nothing and sets ILLEGAL. -/
def Die.fetch (d : Die) (p : Nat) : Die :=
  let q := d.parts[toPart p]
  if q.result.isSome && q.ready then d.modPart p fun q => { q with result := none, ready := false } else d.flag 0

/-- LOAD_BUF: a bad CRC leaves the program buffer invalid (R73). -/
def Die.loadBuf (d : Die) (o : YOperand) (payload : List Byte) (bad : Bool) : Die :=
  d.modPart o.part fun q => { q with buf := if bad then [] else payload }

/-- SET_REF, SET_WAVE and SET_SCRAMBLE: a bad CRC changes nothing and sets DQ_CRC (R73). -/
def Die.load (d : Die) (cmd : YCmd) (payload : List Byte) (bad : Bool) : Die :=
  if bad then d.flag 2
  else match cmd with
    | .setRef k => { d with refs := tabPut d.refs k (curveOf payload) }
    | .setWave k => { d with waves := tabPut d.waves k (waveOf payload) }
    | .setScramble => { d with key := some (BitVec.ofNat 64 (leNat payload)), frame := 0 }
    | _ => d

/-- What a die's volatile state becomes with a command that reads nothing from the medium. -/
def Die.take (d : Die) (cmd : YCmd) (max : Nat) (payload : List Byte) (bad : Bool) : Die :=
  match cmd with
  | .suspend p => d.suspend p
  | .resume p => d.resume p
  | .fetch p => d.fetch p
  | .loadBuf o => d.loadBuf o payload bad
  | .progStep o => d.progStep o max
  | .verify o => (d.hold o .verify).modPart o.part fun q => { q with inhibit := true }
  | .setRef _ | .setWave _ | .setScramble => d.load cmd payload bad
  | .status => { d with flags := 0 }
  | .readTemp => if d.pulsing then d.flag 4 else d
  | .resetDie => d.afterReset
  | .nop | .readLine _ | .readShare _ | .readParam _ => d

/-- One frame as one die samples it (R68, R69, R73, R80, R82). `flips` are the beat bits and `dq` the bits of the burst
`payload` that reach it wrong. In reset it samples nothing; in tINIT it accepts NOP alone and sets NOT_READY. -/
def State.dieSample (s : State) (t : TileId) (c : ChanId) (p : Fin 9) (cmd : YCmd) (payload : List Byte)
    (flips dq : List Nat) : State :=
  let k := s.tiles[t].ch[c]
  let bs := sampled cmd.beats flips
  let flag (n : Nat) : State := s.modDie t c p (·.flag n)
  if k.inReset then s
  else if !parityGood bs then flag 1
  else match YCmd.ofBeats (bs.map (·.1)) with
    | none => if k.tinit then flag 5 else flag 0
    | some cmd =>
      let part (o : YOperand) : Part := k.dies[p].parts[toPart o.part]
      let read (o : YOperand) (share : Bool) : State :=
        if (part o).st = .programming then flag 0
        else
          let (bs, s) := s.dieBytes t c p o share
          s.modDie t c p (·.hold o (.data bs))
      if cmd = .nop then s
      else if k.tinit then flag 5
      else if !cmd.legal then flag 0
      else match cmd with
        | .readLine o => read o false
        | .readShare o => read o true
        | cmd => s.modDie t c p (·.take cmd (s.maxProgs t c p) payload (burstBad payload.length dq))

/-- The command's burst is scrambled (R96): bursts of READ_PARAM and SET_SCRAMBLE are not. -/
def YCmd.scrambled : YCmd → Bool
  | .loadBuf _ | .setRef _ | .setWave _ | .fetch _ | .status | .readTemp => true
  | _ => false

/-- A scrambled burst passes between the part and a die (R96). The key is the channel's. The frame counter is kept at both
ends: the channel's counts every burst, a die's those it takes part in (DESIGN CHOICE, log 78). -/
def State.burst (s : State) (t : TileId) (c : ChanId) (p : Fin 9) : State :=
  (s.modCh t c fun x => { x with frame := x.frame + 1 }).modDie t c p fun d => { d with frame := d.frame + 1 }

/-- A die samples the frame as it was sent, out of reset and tINIT. -/
def Chan.hears (k : Chan) (cmd : YCmd) (flips : List Nat) : Bool :=
  let bs := sampled cmd.beats flips
  !k.inReset && !k.tinit && parityGood bs && YCmd.ofBeats (bs.map (·.1)) = some cmd

/-- A frame of the part, with the burst that it writes, to one die. -/
def State.send (s : State) (t : TileId) (c : ChanId) (p : Fin 9) (cmd : YCmd) (payload : List Byte := [])
    (flips : List Nat := []) (dq : List Nat := []) : State :=
  let s := s.dieSample t c p cmd payload flips dq
  if payload ≠ [] && cmd.scrambled then s.burst t c p else s

/-- The 8-byte STATUS payload (R75): PART_STATE, FLAGS, ABANDONED_PART. A partition that programs and also holds a
result reports 0b01. -/
def statusPayload (d : Die) : List Byte :=
  let code (q : Part) : Nat := match q.st with
    | .programming => 1
    | .suspended => 2
    | .idle => if q.result.isSome then 3 else 0
  leBytes 4 (d.parts.toList.zipIdx.foldl (fun v q => v + code q.1 * 4 ^ q.2) 0)
    ++ [d.flags.zeroExtend 8, d.abandonedPart.zeroExtend 8, 0, 0]

/-- The 16-byte payload of a VERIFY result (R70): one count per line, byte 0 alone in SLC. -/
def verifyPayload (counts : List (BitVec 8)) : List Byte :=
  (List.range 16).map fun i => if i < 10 then counts.getD i 0 else 0

/-- The 2-byte payload of READ_TEMP (R93): 0x8000 while a pulse is applied. -/
def tempValue (d : Die) (v : BitVec 16) : BitVec 16 := if d.pulsing then 0x8000 else v

end Sys2Proof.Machine
end

