-- ==== Sys2Proof/Machine/Engine.lean ====
section
/-! DEFINITION. The Duiker engines: queues and dispatch (R276 to R281), the Gait steps (R283 to R291), foreground reads
at the channel scheduler (R213 to R215, R79), STATUS polls and abandoned programs (R73 to R75, R295), channel resets. -/

namespace Sys2Proof.Machine

/-! ### Programs -/

/-- The default programs of slots 0 to 6 (R290, R291). -/
def defaultProg : Nat → List (BitVec 32)
  | 0 => [0x10000000, 0x30000000, 0x00000000]
  | 1 => [0x10010000, 0x30000000, 0x00000000]
  | 2 => [0x10030010, 0x10040010, 0x20020A00, 0x10020010, 0x30000010, 0x43800000, 0x50000002, 0x10040018, 0x20020A00,
          0x10020010, 0x30000010, 0x43800000, 0x61C00000, 0x00000001, 0x00000000]
  | 3 => [0x10030010, 0x10040011, 0x20021401, 0x10020012, 0x30000010, 0x44C00001, 0x50000004, 0x1004001A, 0x20021402,
          0x10020012, 0x30000010, 0x44C00001, 0x61C00000, 0x1004001B, 0x20021403, 0x10020012, 0x30000010, 0x44C00001,
          0x00000001, 0x00000000]
  | 4 => [0x10050000, 0x00000000]
  | 5 => [0x10060000, 0x00000000]
  | 6 => [0x10070000, 0x00000000]
  | _ => []

/-- The program of a slot: slots 8 to 31 hold overrides (R283). -/
def progOf (e : Engine) (slot : Nat) : List (BitVec 32) :=
  if slot < 8 then defaultProg slot else (tabGet e.programs slot).getD []

/-- OP, TARGET, ARG_A and ARG_B of a step word (R285). -/
def stepOp (w : BitVec 32) : Nat := w.toNat / 2 ^ 28
def stepTarget (w : BitVec 32) : Nat := w.toNat / 2 ^ 22 % 64
def stepA (w : BitVec 32) : Nat := w.toNat / 2 ^ 16 % 64
def stepB (w : BitVec 32) : Nat := w.toNat % 2 ^ 16

/-- The program slot of a role in a band (R283). -/
def slotOfRole (e : Engine) (role band : Nat) : Nat :=
  match role with
  | 2 => (e.mapSlc.toList.getD band 2).toNat
  | 3 => (e.mapMlc.toList.getD band 3).toNat
  | r => r

/-- The context of a Duiker that holds a program. -/
def ctxOf (e : Engine) (d c : Nat) : Option Context :=
  e.ctxs.find? fun x => x.duiker = d && x.ctx = c && !x.released

/-- The step that a context is to execute, when it is ready and the step's operation is `op`. -/
def ctxStep (e : Engine) (d c op : Nat) : Option (Context × BitVec 32) :=
  (ctxOf e d c).bind fun x =>
    if x.st = .ready then ((progOf e x.pslot)[x.pc]?).bind fun w => if stepOp w = op then some (x, w) else none
    else none

/-- Replace a context's record; one Gait step is counted when `n` is 1 (R646). -/
def State.putCtx (s : State) (t : TileId) (x : Context) (f : Context → Context) (n : Nat := 1) : State :=
  (s.modEng t fun e => { e with ctxs := lmod e.ctxs (· = x) f }).count t 5 6 n

/-! ### Queues and dispatch -/

/-- The item waits in a queue or for room. -/
def waits (e : Engine) (p : WorkItem → Bool) : Bool := e.queues.toList.any (·.any p) || e.full.any p

/-- Two items run in the same partition of some die. -/
def sameDie (x : Tile) (w v : WorkItem) : Bool :=
  decide (v.chan = w.chan) && decide (v.part = w.part) && (itemPos x v).any ((itemPos x w).contains ·)

/-- Programs that a die holds, or is to hold for the contexts that run (R60). -/
def progsHeld (x : Tile) (c : ChanId) (p : Fin 9) : Nat :=
  max (progsOn x.ch[c].dies[p])
    (x.eng.ctxs.countP fun y => y.item.isProgram && y.item.chan = c.val && (itemPos x y.item).contains p)

/-- New PROG_STEP starts of the item are held: those of FOLD and PATROL items in a channel at its temperature limit, or on a
die that owes its reading (R294, R609). -/
def progHeld (x : Tile) (w : WorkItem) : Bool :=
  (w.cls = .fold || w.cls = .patrol) && w.isProgram
    && (x.thm.hold.getLsbD w.chan || (itemPos x w).any fun p => x.eng.tempHold.contains (w.chan, p.val))

/-- A home read of a load to a page slot is queued, or has not fetched its result (R202). -/
def homeReadWaits (e : Engine) (w : WorkItem) : Bool :=
  let is (v : WorkItem) : Bool := v.cls = .fgRead && v.isRead && v.unit = w.unit && v.slot = w.slot && v.slc = w.slc
  waits e is || e.ctxs.any fun y => is y.item && y.st ≠ .fetch

/-- An item other than a stripe is eligible (R279): no other item holds its partitions in a way that excludes it, no die
would hold a fifth program, no foreground read is waiting that R202 or R214 puts first, the reads of its own work are done,
no hold of R294 or R609 applies, and its channel serves commands. -/
def State.eligible (s : State) (t : TileId) (w : WorkItem) : Bool :=
  let x := s.tiles[t]
  let c := toChan w.chan
  let excluded :=
    if w.isRead then x.eng.ctxs.any fun y => y.item.isRead && sameDie x w y.item
    else if w.isProgram then x.eng.ctxs.any fun y => (y.item.isRead || y.item.isProgram) && sameDie x w y.item
    else false
  let fifth := w.isProgram && (itemPos x w).any fun p => decide (progsHeld x c p ≥ s.maxProgs t c p)
  let first :=
    if w.isRead then w.cls ≠ .fgRead && fgReadWaits x.eng w.chan w.part
    else w.isProgram && (homeReadWaits x.eng w || waits x.eng (fun v => v.isRead && v.use = w.use))
  x.ch[c].up && !s.chanOut t c && !excluded && !fifth && !first && !progHeld x w

/-- The first stripe position at or above `n` of a segment whose share slot is not excluded (R161). -/
def nextT (d : TileData) (unit ring n : Nat) : Option Nat :=
  ((List.range 1280).drop n).find? fun k => !d.exclSlots.contains (unit, 256 * ring + k / 5)

/-- The partition of a unit is idle on every die, no context works in it, and every die holds fewer than four programs (R160
step 3). -/
def State.unitIdle (s : State) (t : TileId) (u : Nat) : Bool :=
  let x := s.tiles[t]
  let c := toChan (u / 16)
  let w : WorkItem :=
    { id := 0, role := 2, cls := .fgWrite, herd := 0, chan := u / 16, unit := u, part := u % 16, use := .statusPoll }
  x.ch[c].up && !s.chanOut t c && !(x.eng.ctxs.any fun y => !y.released && y.item.role < 4 && sameDie x w y.item)
    && (itemPos x w).all fun p =>
      x.ch[c].dies[p].parts[toPart u].st = .idle && decide (progsHeld x c p < s.maxProgs t c p)

/-- Where a stripe of an area can go in channel `c`: open segments of idle units, else the free segment that has been
free longest in a unit without an open segment (R160, R162). -/
def State.stripePlaces (s : State) (t : TileId) (a : Fin 5) (c : Nat) : List (Nat × Nat × Nat) :=
  let d := s.tiles[t].d
  let units := ((List.range 16).map (· + 16 * c)).filter fun u => s.unitIdle t u
  let opens := d.segs.filterMap fun g =>
    if g.isOpen && g.area = a.val && units.contains g.unit then
      (nextT d g.unit g.ring g.nextT).map fun k => (g.unit, g.ring, k)
    else none
  if opens ≠ [] then opens
  else
    let fresh := units.filter fun u => !(d.segs.any fun g => g.unit = u && g.isOpen)
    ((s.freeSegList t a fresh).filterMap fun p => (nextT d p.1 p.2 0).map fun k => (p.1, p.2, k)).take 1

/-- Where the stripe of a work item goes: the Duiker's own channel first (R277), then the others, in the order h + 1, h + 2,
h + 3 (DESIGN CHOICE, log 84: R277 gives them no order). -/
def State.stripePlace (s : State) (t : TileId) (a : Fin 5) (herd : Nat) : List (Nat × Nat × Nat) :=
  (([0, 1, 2, 3].map fun i => s.stripePlaces t a ((herd + i) % 4)).find? (· ≠ [])).getD []

def areaFin (n : Nat) : Fin 5 := ⟨n % 5, Nat.mod_lt _ (by decide)⟩

/-- An area has an open segment with room, or a free one, in a channel in service. -/
def State.areaRoom (s : State) (t : TileId) (a : Fin 5) : Bool :=
  let d := s.tiles[t].d
  let units := (List.range s.unitsPerTile).filter fun u => !s.chanOut t (toChan (u / 16))
  (d.segs.any fun g => g.isOpen && g.area = a.val && units.contains g.unit && (nextT d g.unit g.ring g.nextT).isSome)
    || s.freeSegList t a units ≠ []

/-- The area that a stripe is placed in: in FLUSHING a slice without a free segment stages into the main area (R559). -/
def State.stripeArea (s : State) (t : TileId) (w : WorkItem) : Fin 5 :=
  let a := areaFin w.area
  if s.sys.state = .flushing && !s.areaRoom t a then 0 else a

/-- An item can be taken by a Duiker of herd `h`. -/
def State.canTake (s : State) (t : TileId) (h : Nat) (w : WorkItem) : Bool :=
  match w.use with
  | .stripe _ => s.stripePlace t (s.stripeArea t w) h ≠ []
  | _ => s.eligible t w

/-- A FOLD item counts as FG_WRITE: its area is under pressure (R278), or it is a fold that R168 has raised to foreground
priority. -/
def raised (d : TileData) (w : WorkItem) : Bool :=
  d.pressure[areaFin w.area] || match w.use with
    | .fold u p => d.urgent.contains (u, p)
    | _ => false

/-- A stripe goes before the host's while its area is full: it carries lines of a fold (R185). -/
def carriesFirst (d : TileData) (w : WorkItem) : Bool :=
  match w.use with
  | .stripe q => d.hold[areaFin w.area] && d.closed.any fun x => x.seq = q && x.carries
  | _ => false

/-- The item that the dispatcher gives to context `ctx` of a Duiker in herd `h` (R278, R280), with the herd it is
queued in. -/
def State.dispatchItem (s : State) (t : TileId) (h ctx : Nat) : Option (WorkItem × Nat) :=
  let e := s.tiles[t].eng
  let d := s.tiles[t].d
  let q (k : Nat) (c : WorkClass) : List WorkItem := e.queues[queueIdx k c]
  let source (c : WorkClass) (k : Nat) : List WorkItem :=
    match c with
    | .fgWrite =>
      let l := sortBy (fun a b => decide (a.id ≤ b.id)) (q k .fgWrite ++ (q k .fold).filter (raised d))
      l.filter (carriesFirst d) ++ l.filter (!carriesFirst d ·)
    | .fold => (q k .fold).filter (!raised d ·)
    | c => q k c
  let classes : List WorkClass := if ctx = 3 then [.fgRead, .fgWrite, .telemetry, .fold, .patrol] else [.fgRead, .fgWrite]
  (classes.flatMap fun c => [0, 1, 2, 3].map fun i => (c, (h + i) % 4)).findSome? fun p =>
    ((source p.1 p.2).find? fun w => s.canTake t h w).map fun w => (w, p.2)

/-- A stripe takes its place in a segment of area `a`, whose cells it uses; its programs start (R58, R157, R160). -/
def State.placeStripe (s : State) (t : TileId) (seq : BitVec 64) (a : Fin 5) (p : Nat × Nat × Nat) : State :=
  let (u, ring, k) := p
  let s := s.modD t fun d =>
    let isSeg (g : Segment) : Bool := g.unit = u && g.ring = ring
    let known := d.segs.any isSeg
    let more := (nextT d u ring (k + 1)).isSome
    { d with
      segs :=
        if known then lmod d.segs isSeg fun g => { g with nextT := k + 1, isOpen := more }
        else d.segs ++ [{ unit := u, ring := ring, area := a.val, isOpen := more, nextT := k + 1, order := d.segOrder }]
      segOrder := if known then d.segOrder else d.segOrder + 1
      freed := d.freed.filter (· ≠ (u, ring))
      closed := lmod d.closed (fun x => x.seq = seq) fun x =>
        { x with unit := u, ring := ring, t := k, area := a.val, placed := true, program := true } }
  (s.useCells t u (256 * ring + k / 5) (k % 5)).thresholds t

/-- WORK_DISPATCH (R280): a free context takes the oldest item of the first source that has one it can run; an item of
another herd's queue is counted as stolen. The program of roles 2 and 3 is the one that the map names for the channel's
band, the highest among its dies (R106, R283; DESIGN CHOICE, log 85: R283 does not say which die's band it is). -/
def execWorkDispatch (t : TileId) (duiker : Fin 64) (ctx : Fin 4) (s : State) : Host.Outcome State Fault Refusal :=
  let e := s.tiles[t].eng
  let h := duiker.val / 16
  -- while a warm reset has stopped dispatch, only the stripes of its own staging start (R399)
  let sel := if e.stopDispatch then
      s.modEng t fun e => { e with queues := e.queues.map (·.filter fun w => w.cls = .fgWrite) }
    else s
  if (ctxOf e duiker ctx).isSome || !s.inSvc t then .next s
  else
    match sel.dispatchItem t h ctx with
    | none => .next s
    | some (w, k) =>
      let (w', s) := match w.use with
        | .stripe seq =>
          let a := s.stripeArea t w
          match s.pick (s.stripePlace t a h) with
          | (some p, s) =>
            ({ w with chan := p.1 / 16, unit := p.1, part := p.1 % 16, slot := 256 * p.2.1 + p.2.2 / 5,
                      line := p.2.2 % 5, area := a.val }, s.placeStripe t seq a p)
          | (none, s) => (w, s)
        | _ => (w, s)
      let x : Context :=
        { duiker := duiker, ctx := ctx, item := w', pslot := slotOfRole e w'.role s.tiles[t].ch[toChan w'.chan].band.toNat }
      let s := s.modEng t fun e =>
        { e with queues := vmap e.queues fun _ q => q.filter (·.id ≠ w.id), ctxs := e.ctxs ++ [x] }
      let s := s.count t 5 0
      if k = h then .next s
      else
        .next ((s.modEng t fun e =>
          { e with stolenFrom := vmod e.stolenFrom (toChan k) (satAdd · 1)
                   stolenBy := vmod e.stolenBy (toChan h) (satAdd · 1) }).count t 5 1)

/-- QUEUE_ROOM_FREED (R276): waiting producers enter their items, in order, where a queue has room. -/
def execQueueRoomFreed (t : TileId) (s : State) : Host.Outcome State Fault Refusal :=
  .next (s.modEng t fun e =>
    e.full.foldl (fun e w =>
      let q := queueIdx w.herd w.cls
      if e.queues[q].length < w.cls.depth then { e with queues := vmod e.queues q (· ++ [w]) }
      else { e with full := e.full ++ [w] }) { e with full := [] })

/-! ### Gait steps -/

/-- Command codes of ISSUE (R285) that leave a result to be fetched. -/
def fetches (cmd : Nat) : Bool := cmd = 0 || cmd = 1 || cmd = 2

/-- The source slot of the gap move that runs in a unit (R117). -/
def State.moveSource (s : State) (t : TileId) (unit : Nat) : Nat :=
  let p := s.tiles[t].pl
  let m := Sparse.get 0 p.moves unit
  remapped p.remap unit (256 * (m % 20376) + (moveSlots m (m % 20376)).1)

/-- The 80 lines of the page that an MLC program writes: a fold's buffer, or zeros for another page of a ring that it opens
(R123, R170); the source page of a gap move (R117); the page under rebuild (R245). -/
def State.programLines (s : State) (t : TileId) (w : WorkItem) : List (List Byte) :=
  match w.use with
  | .fold u pidx =>
    match s.tiles[t].d.folds.find? (·.isPage u pidx) with
    | some f =>
      let own := decide (s.foldTarget t f = (s.pageHome t u pidx).jj)
      pageBytes t u w.slot (s.slotFirst t u w.slot)
        (if own then { defined := true, keys := s.sec.engine, foldSeq := f.foldSeq, lines := f.buf } else { keys := s.sec.engine })
    | none => []
  | .gapMove u =>
    let src := s.moveSource t u
    pageBytes t u w.slot (s.slotFirst t u src) ((tabGet s.media[t].pages (pageKey u src)).getD {})
  | _ => (s.slotLines t w.unit w.slot).1

/-- What LOAD_BUF sends for logical die `ld`: its line of the stripe, or its share of the page (R70). -/
def State.loadPayload (s : State) (t : TileId) (w : WorkItem) (ld : Nat) : List Byte :=
  if w.slc then
    let x := match w.use with
      | .stripe seq => s.tiles[t].d.closed.find? fun x => x.seq = seq
      | _ => stripeAt s.staged[t] w.unit w.slot w.line
    match x with
    | some x => (s.stripeBytes t x).getD ((8 + ld - (w.slot + w.line) % 8) % 8) []
    | none => List.replicate 80 0
  else shareBytes (s.programLines t w) w.slot ld

/-- The frame that the last ISSUE of a context sends to a die (R286): a read's TSLOT is 16k + b, a program's 4k + W, with k
the die's bank (R92, R210). -/
def State.frameOf (s : State) (t : TileId) (x : Context) (p : Fin 9) : YCmd × List Byte :=
  let w := x.item
  let k := b2n s.tiles[t].ch[toChan w.chan].dies[p].bankB
  let o : YOperand := { part := w.part, slot := w.slot, line := w.line, slc := w.slc }
  match x.cmd with
  | 0 => (.readLine { o with tslot := 16 * k + w.bucket }, [])
  | 1 => (.readShare { o with tslot := 16 * k + w.bucket }, [])
  | 2 => (.verify { o with tslot := 4 * k + x.arg % 8 }, [])
  | 3 => (.loadBuf o, s.loadPayload t w (heldDie s.tiles[t] (toChan w.chan) p))
  | 4 => (.progStep { o with tslot := 4 * k + x.arg % 8, cont := x.arg.testBit 3 }, [])
  | 5 => (.status, [])
  | 6 => (.readTemp, [])
  | _ => (.readParam w.slot, [])

/-- The last ISSUE of a context reaches a die; `flips` are the wrong bits of its beats and `dq` those of its burst. -/
def State.issue (s : State) (t : TileId) (x : Context) (p : Fin 9) (flips dq : List Nat) : State :=
  let f := s.frameOf t x p
  s.send t (toChan x.item.chan) p f.1 f.2 flips dq

/-- Replace a context. -/
def State.setCtx (s : State) (t : TileId) (x y : Context) : State := s.putCtx t x (fun _ => y) 0

/-- FETCH to a die, no earlier than its stated read time, by which its result is ready (R72). A die that holds no result
sends nothing. What it sends is kept until its burst has been received. -/
def State.fetchFrom (s : State) (t : TileId) (x : Context) (p : Fin 9) : Context × State :=
  let c := toChan x.item.chan
  let part := toPart x.item.part
  let s := s.modPart t c p part fun q => { q with ready := q.result.isSome }
  let x' := { x with sent := match s.tiles[t].ch[c].dies[p].parts[part].result with
    | some (.data b) => tabPut x.sent p.val b
    | some .verify => tabPut x.sent p.val (verifyPayload [])
    | none => tabDel x.sent p.val }
  (x', (s.setCtx t x x').send t c p (.fetch part))

/-- FETCH to the dies at positions `ps`, in order. -/
def State.fetchEach (s : State) (t : TileId) (x : Context) (ps : List Nat) : State :=
  (ps.foldl (fun y p => y.2.fetchFrom t y.1 (toDie p)) (x, s)).2

/-- A burst that the part receives: missing, or with a bad CRC (R73). -/
def burstFails (sent : Option (List Byte)) (dq : List Nat) : Bool :=
  match sent with
  | some b => burstBad b.length dq
  | none => true

/-- A burst failed (R73, R105). -/
def State.noteBurst (s : State) (t : TileId) (c : ChanId) : State :=
  (s.modCh t c fun k => { k with errFlags := bitOn k.errFlags 1 }).count t 7 5

/-- A reading of a die's temperature (R93, R294): 0x8000 is deferred; any other is the last good one and ends the hold of
R294. -/
def State.dieReading (s : State) (t : TileId) (c : ChanId) (p : Fin 9) (v : BitVec 16) : State :=
  if v = 0x8000 then
    (s.modDie t c p fun d => { d with thisRound := some v }).modEng t fun e => { e with deferred := satAdd e.deferred 1 }
  else
    (s.modDie t c p fun d => { d with temp := v, thisRound := some v }).modEng t fun e =>
      { e with tempHold := e.tempHold.filter (· ≠ (c.val, p.val)) }

/-- A unit of the spare's parameter page has been read, or could not be (R94). After the last one a spare without a valid
copy is disarmed and no longer present: WARN event 0x1023. -/
def State.paramUnit (s : State) (t : TileId) (c : ChanId) (u : Nat) (ok : Bool) : State :=
  let s := s.modCh t c fun k =>
    { k with paramLeft := k.paramLeft.filter (· ≠ (u / 64, u % 64))
             paramBad := if ok || k.paramBad.contains (u / 64) then k.paramBad else k.paramBad ++ [u / 64] }
  let k := s.tiles[t].ch[c]
  let d := s.media[t].dies[c][(8 : Fin 9)]
  let valid (i : Nat) : Bool := d.fitted && (d.copy i).valid && !k.paramBad.contains i
  if k.paramLeft ≠ [] || valid 0 || valid 1 || !k.spareArmed then s
  else
    (s.modCh t c fun k => { k with spareArmed := false, present := bitOff k.present 8 }).raise (mkEv 0x1023 .warn t (c.val + 1))

/-- READ_TEMP or READ_PARAM of one die (R285, R286): the ISSUE ends with its data. A missing or bad burst has the command
issued once more; a second one ends the program with CHANNEL_ERROR (R73, R287). -/
def State.readOut (s : State) (t : TileId) (x : Context) (p : Fin 9) (reading : BitVec 16) (flips dq : List Nat) : State :=
  let c := toChan x.item.chan
  let cmd := (s.frameOf t x p).1
  let d := s.tiles[t].ch[c].dies[p]
  let sent := if !s.tiles[t].ch[c].hears cmd flips then none
    else if x.cmd = 6 then some (leBytes 2 (tempValue d reading).toNat)
    else some (s.media[t].dies[c][p].unit x.item.slot)
  let s := s.issue t x p flips []
  let s := if sent.isSome && cmd.scrambled then s.burst t c p else s
  if !burstFails sent dq then
    let s := s.putCtx t x fun _ => { x with pc := x.pc + 1, retried := [] }
    if x.cmd = 6 then s.dieReading t c p (tempValue d reading) else s.paramUnit t c x.item.slot true
  else
    let s := s.noteBurst t c
    if x.retried.contains p.val then
      let s := (s.endCtx t x).noteCrc t c p x.item.id
      if x.cmd = 7 then s.paramUnit t c x.item.slot false else s
    else s.putCtx t x fun x => { x with retried := x.retried ++ [p.val] }

/-- A foreground read is at a channel's scheduler (R213): it goes before every frame that has not started. -/
def atScheduler (x : Context) (c : Nat) : Bool :=
  x.item.cls = .fgRead && x.item.isRead && x.item.chan = c && x.pc = 1 && x.issued = [] && x.st = .ready

def fgAtScheduler (e : Engine) (c : Nat) : Bool := e.ctxs.any (atScheduler · c)

/-- The first PROG_STEP of a program marks the work that it belongs to (R65). -/
def State.programStarts (s : State) (t : TileId) (w : WorkItem) : State :=
  match w.use with
  | .fold u pidx => s.modFold t u pidx fun f => { f with started := true }
  | .gapMove u => s.modPl t fun p => { p with copying := if p.copying.contains u then p.copying else p.copying ++ [u] }
  | .rebuild c => s.modRebuild t (toChan c) fun r => { r with started := true }
  | _ => s

/-- An ISSUE cannot go out now: a foreground read is at the scheduler (R213); a background read meets a program, a suspended
one, or a waiting foreground read (R214, R295); a PROG_STEP meets a suspended target die (R288), or is a first one that R202,
R294 or R609 holds back. -/
def State.issueHeld (s : State) (t : TileId) (x : Context) (pos : List (Fin 9)) : Bool :=
  let y := s.tiles[t]
  let c := toChan x.item.chan
  let w := x.item
  let fg := decide (w.cls = .fgRead)
  (!fg && fgAtScheduler y.eng c)
    || ((x.cmd = 0 || x.cmd = 1) && !fg
        && ((pos.any fun p => y.ch[c].dies[p].parts[toPart w.part].st ≠ .idle) || fgReadWaits y.eng w.chan w.part))
    || (x.cmd = 4 && (x.suspended ≠ [] || (!x.arg.testBit 3 && (homeReadWaits y.eng w || progHeld y w))))

/-- GAIT_ISSUE (R286): the frames of the command go to the item's target dies, all of them or the first. A foreground read is
handed to its channel scheduler (FOREGROUND_READ_ARRIVAL). -/
def execGaitIssue (t : TileId) (duiker : Fin 64) (ctx : Fin 4) (line : IssueLine) (s : State) :
    Host.Outcome State Fault Refusal :=
  match ctxStep s.tiles[t].eng duiker ctx 1 with
  | none => .next s
  | some (x, w) =>
    let cmd := stepA w
    let pos := let l := itemPos s.tiles[t] x.item; if decide (stepB w / 16 % 2 = 1) then l else l.take 1
    let x0 := x
    let x := { x with cmd := cmd, arg := stepB w }
    let next : Context := { x with pc := x.pc + 1, issued := [], counts := [], sent := [] }
    if s.issueHeld t x pos then .next s
    else if (cmd = 0 ∨ cmd = 1) ∧ x.item.cls = .fgRead then .next (s.putCtx t x0 fun _ => next)
    else
      match cmd, pos with
      | 5, _ =>
        let c := toChan x.item.chan
        let heard := pos.filter fun (p : Fin 9) => s.tiles[t].ch[c].hears .status (noiseOf line.ca p.val)
        let y := { x with st := .fetch, issued := pos.map (·.val)
                          sent := heard.map fun (p : Fin 9) => (p.val, statusPayload s.tiles[t].ch[c].dies[p]) }
        .next (forAll pos (fun p s => s.issue t y p (noiseOf line.ca p) []) (s.putCtx t x0 fun _ => y))
      | 6, p :: _ | 7, p :: _ => .next ((s.setCtx t x0 x).readOut t x p line.reading (noiseOf line.ca p) (noiseOf line.dq p))
      | _, _ =>
        let y := { next with issued := if fetches cmd then pos.map (·.val) else []
                             progStarted := x.progStarted || decide (cmd = 4) }
        let s := s.putCtx t x0 fun _ => y
        let s := if cmd = 4 && !x.progStarted then s.programStarts t x.item else s
        .next (forAll pos (fun p s => s.issue t y p (noiseOf line.ca p) (noiseOf line.dq p)) s)

/-- GAIT_WAIT (R287): the wait begins. -/
def execGaitWait (t : TileId) (duiker : Fin 64) (ctx : Fin 4) (s : State) : Host.Outcome State Fault Refusal :=
  match ctxStep s.tiles[t].eng duiker ctx 2 with
  | none => .next s
  | some (x, _) => .next (s.putCtx t x fun x => { x with st := .wait })

/-- The pulses that an item's dies apply have ended. -/
def State.pulsesEnd (s : State) (t : TileId) (w : WorkItem) : State :=
  forAll (itemPos s.tiles[t] w) (fun p s => s.modPart t (toChan w.chan) p (toPart w.part) fun q => { q with pulse := [] }) s

/-- GAIT_WAIT_EXPIRY (R287, R288): the wait, and with it every pulse, ends for the latest die; not while a target die is
suspended. -/
def execGaitWaitExpiry (t : TileId) (duiker : Fin 64) (ctx : Fin 4) (s : State) : Host.Outcome State Fault Refusal :=
  match ctxOf s.tiles[t].eng duiker ctx with
  | none => .next s
  | some x =>
    if x.st = .wait ∧ x.suspended = [] then
      .next ((s.putCtx t x (fun x => { x with st := .ready, pc := x.pc + 1 }) 0).pulsesEnd t x.item)
    else .next s

/-- A VERIFY that a suspension cut off is repeated to that die alone after RESUME, and its result fetched where the program
has come to its FETCH (R288). -/
def State.verifyAgain (s : State) (t : TileId) (x : Context) (p : Fin 9) : State :=
  let y := { x with suspended := x.suspended.filter (· ≠ p.val), reverify := x.reverify.filter (· ≠ p.val) }
  let s := s.setCtx t x y
  if !x.reverify.contains p.val then s
  else
    let s := s.issue t y p [] []
    if y.st = .fetch then (s.fetchFrom t y p).2 else s

/-- RESUME is sent to a partition that foreground reads suspended, when none of them waits any more (R215). -/
def State.resume (s : State) (t : TileId) (c : ChanId) (p : Fin 9) (part : Nat) : State :=
  let x := s.tiles[t]
  let is (w : WorkItem) : Bool := w.cls = .fgRead && w.isRead && w.chan = c.val && w.part = part && (itemPos x w).contains p
  if waits x.eng is || x.eng.ctxs.any fun y => is y.item && y.st ≠ .fetch then s
  else
    let s := if x.ch[c].dies[p].parts[toPart part].st = .suspended then
        (s.send t c p (.resume (toPart part))).count t 5 4
      else s
    forAll (s.tiles[t].eng.ctxs.filter fun y => y.suspended.contains p.val && y.item.chan = c.val && y.item.part = part)
      (fun y s => s.verifyAgain t y p) s

/-- GAIT_FETCH (R287): the results of the last ISSUE are fetched from its dies; a read-type program's context is released
on its last FETCH (R274), and a partition that no further foreground read waits for is resumed (R215). -/
def execGaitFetch (t : TileId) (duiker : Fin 64) (ctx : Fin 4) (s : State) : Host.Outcome State Fault Refusal :=
  match ctxStep s.tiles[t].eng duiker ctx 3 with
  | none => .next s
  | some (x, _) =>
    if x.issued = [] ∨ x.suspended ≠ [] ∨ (x.item.cls ≠ .fgRead ∧ fgAtScheduler s.tiles[t].eng (toChan x.item.chan)) then .next s
    else
      let rd := x.item.isRead
      let y := { x with st := .fetch, released := rd, sent := [] }
      let s := ((s.putCtx t x fun _ => y).pulsesEnd t x.item).fetchEach t y x.issued
      .next (if rd then forAll x.issued (fun p s => s.resume t (toChan x.item.chan) (toDie p) x.item.part) s else s)

/-- The command of a burst that failed is issued to its die once more (R73): a foreground read by way of its scheduler, a
VERIFY to a suspended die after RESUME (R288), any other at once. -/
def State.commandAgain (s : State) (t : TileId) (x : Context) (p : Fin 9) : State :=
  let y := { x with retried := x.retried ++ [p.val], sent := tabDel x.sent p.val }
  if x.item.cls = .fgRead then s.setCtx t x { y with st := .ready, issued := [] }
  else if x.suspended.contains p.val then s.setCtx t x { y with reverify := y.reverify ++ [p.val] }
  else (((s.setCtx t x y).issue t y p [] []).fetchFrom t y p).2

/-- The share slot of a program that was cut short is undefined (R65, R81): all of an MLC page slot, unless the rebuild into
the spare was writing it, whose share no read uses yet. An SLC line that never verified is read by nothing. -/
def State.cutProgram (s : State) (t : TileId) (x : Context) : State :=
  if x.item.role = 3 && x.progStarted && !(x.item.use matches .rebuild _) then s.cutPage t x.item.unit x.item.slot else s

/-- A program ends (R287): for one that programs media the logical dies are kept whose final VERIFY failed. -/
def State.endProgram (s : State) (t : TileId) (x : Context) (failed : List Nat) : State :=
  let s := s.endCtx t x
  if !x.item.isProgram then s
  else
    let m := failed.foldl (fun (m : BitVec 8) p => bitOn m (heldDie s.tiles[t] (toChan x.item.chan) (toDie p))) 0
    s.modEng t fun e => { e with results := e.results.filter (·.1 ≠ x.item.use) ++ [(x.item.use, m)] }

/-- FETCH_BURST_RECEIVED (R73, R287): a good burst is taken; after a missing or bad one the command is issued once more, and a
second one ends the program with CHANNEL_ERROR and counts against the die (R242). A program that so ends has failed on that
die (DESIGN CHOICE, log 98: the spec names no handling of its own). A background read is not issued again
while a foreground read waits (R214). The bursts of several dies arrive in no modelled order, which is timing. -/
def execFetchBurstReceived (t : TileId) (duiker : Fin 64) (ctx : Fin 4) (die : Fin 9) (dq : List Nat)
    (counts : List (BitVec 8)) (s : State) : Host.Outcome State Fault Refusal :=
  match s.tiles[t].eng.ctxs.find? fun x =>
      x.duiker = duiker.val && x.ctx = ctx.val && x.st = .fetch && fetches x.cmd && x.issued.contains die.val
        && !x.reverify.contains die.val with
  | none => .next s
  | some x =>
    let c := toChan x.item.chan
    let sent := tabGet x.sent die.val
    let wait := x.item.isRead && x.item.cls ≠ .fgRead && !x.retried.contains die.val
      && fgReadWaits s.tiles[t].eng x.item.chan x.item.part
    if burstFails sent dq && wait then .next s
    else
      let s := if sent.isSome then s.burst t c die else s
      if !burstFails sent dq then
        let left := x.issued.filter (· ≠ die.val)
        let vals := if x.cmd = 2 then (verifyPayload (if x.item.slc then counts.take 1 else counts)).map fun b => (die.val, b.toNat)
          else []
        let y := { x with issued := left, sent := tabDel x.sent die.val, counts := x.counts ++ vals }
        if left ≠ [] then .next (s.setCtx t x y)
        else if x.item.isRead then .next (s.endCtx t x)
        else .next (s.setCtx t x { y with retried := [], st := .ready, pc := x.pc + 1 })
      else
        let s := s.noteBurst t c
        if x.retried.contains die.val then .next (((s.cutProgram t x).endProgram t x [die.val]).noteCrc t c die x.item.id)
        else .next (s.commandAgain t x die)

/-- GAIT_VCHK (R285): a jump when every failing-cell count is within the limit; the dies with one above it are noted. -/
def execGaitVchk (t : TileId) (duiker : Fin 64) (ctx : Fin 4) (s : State) : Host.Outcome State Fault Refusal :=
  match ctxStep s.tiles[t].eng duiker ctx 4 with
  | none => .next s
  | some (x, w) =>
    let exceeding := ((x.counts.filter fun n => n.2 > stepB w % 256).map (·.1)).eraseDups
    .next (s.putCtx t x fun x => { x with pc := if exceeding = [] then stepTarget w else x.pc + 1, exceeding := exceeding })

/-- GAIT_SETC (R285): counter K0 or K1 is loaded. -/
def execGaitSetc (t : TileId) (duiker : Fin 64) (ctx : Fin 4) (s : State) : Host.Outcome State Fault Refusal :=
  match ctxStep s.tiles[t].eng duiker ctx 5 with
  | none => .next s
  | some (x, w) =>
    .next (s.putCtx t x fun x =>
      if stepA w = 0 then { x with pc := x.pc + 1, k0 := stepB w % 16 } else { x with pc := x.pc + 1, k1 := stepB w % 16 })

/-- GAIT_DECJ (R285): the counter falls by one; a jump back while it is not zero. -/
def execGaitDecj (t : TileId) (duiker : Fin 64) (ctx : Fin 4) (s : State) : Host.Outcome State Fault Refusal :=
  match ctxStep s.tiles[t].eng duiker ctx 6 with
  | none => .next s
  | some (x, w) =>
    .next (s.putCtx t x fun x =>
      let k := (if stepA w = 0 then x.k0 else x.k1) - 1
      let pc := if k ≠ 0 then stepTarget w else x.pc + 1
      if stepA w = 0 then { x with pc := pc, k0 := k } else { x with pc := pc, k1 := k })

/-- GAIT_JUMP (R285). -/
def execGaitJump (t : TileId) (duiker : Fin 64) (ctx : Fin 4) (s : State) : Host.Outcome State Fault Refusal :=
  match ctxStep s.tiles[t].eng duiker ctx 7 with
  | none => .next s
  | some (x, w) => .next (s.putCtx t x fun x => { x with pc := stepTarget w })

/-- GAIT_END (R285): the program ends with its result, its partitions are idle, and the context frees (R274). The dies that
failed VERIFY_FAIL are those that the last VCHK found over its limit, or all where there was none. What the result means for
the work is the event that ends that work (R161, R171). -/
def execGaitEnd (t : TileId) (duiker : Fin 64) (ctx : Fin 4) (s : State) : Host.Outcome State Fault Refusal :=
  match ctxStep s.tiles[t].eng duiker ctx 0 with
  | none => .next s
  | some (x, w) =>
    let failed := if stepB w % 256 = 0 then [] else if x.exceeding = [] then (itemPos s.tiles[t] x.item).map (·.val) else x.exceeding
    .next ((s.endProgram t x failed).count t 5 6)

/-! ### Foreground reads at the channel scheduler (R213 to R215) -/

/-- The read of a load cannot be made on logical die `ld`: its home line is served by the page code, or a staged line by its
stripe, with that die's lines erased (R79). -/
def State.deadRead (s : State) (t : TileId) (x : Context) (ld : Nat) : State :=
  let w := x.item
  let s := s.endCtx t x
  match w.use with
  | .load id =>
    match s.loads.find? (·.id = id) with
    | none => s
    | some r =>
      let dead := r.dead ++ [ld]
      if w.slc then
        if r.rung < 2 then s.stripeRung t id w.unit w.slot w.line ld r.bucket dead else s.modLoad id fun r => { r with dead := dead }
      else if r.rung < 3 then s.homeRead t r w.unit w.slot fun s => s.pageRung t id w.unit w.slot r.bucket dead
      else s.modLoad id fun r => { r with dead := dead }
  | _ => s

/-- A suspend was missed twice (R79): no read is issued; event 0x1050; the waiting read goes to the page code or its
stripe; the third such miss of the die within one second fails it. -/
def State.suspendMissed (s : State) (t : TileId) (c : ChanId) (p : Fin 9) (x : Context) (ld : Nat) : State :=
  let s := s.modCh t c fun k => { k with sackDouble := satAdd k.sackDouble 1 }
  let s := s.raise (mkEv 0x1050 .warn t (c.val + 1) [(1, ld)])
  let (l, s) := s.lately BitVec.toNat s.tiles[t].ch[c].dies[p].doubleMiss
  let s := s.modDie t c p fun d => { d with doubleMiss := l ++ [s.aon.seconds] }
  let s := s.deadRead t x ld
  if s.tiles[t].ch[c].dies[p].doubleMiss.length ≥ 3 then s.failDie t c p 1 else s

/-- The read frame of a foreground read goes out (R213), with its FETCH where its context was released before the command had
to be issued again (R73, R274). -/
def State.issueRead (s : State) (t : TileId) (x : Context) (p : Fin 9) (ca : List Nat) : State :=
  let y := { x with issued := [p.val] }
  let s := (s.setCtx t x y).issue t y p ca []
  if !x.released then s
  else
    let z := { y with st := .fetch }
    (((s.setCtx t y z).fetchFrom t z p).2).resume t (toChan x.item.chan) p x.item.part

/-- SUSPEND reaches a die: what the part sees of its acknowledgement, which the die gives for a frame with good parity alone
(R76). -/
def State.suspendSent (s : State) (t : TileId) (c : ChanId) (p : Fin 9) (part : Fin 16) (flips : List Nat) (seen : Bool) :
    Bool × State :=
  (seen && parityGood (sampled (YCmd.suspend part).beats flips), s.send t c p (.suspend part) [] flips)

/-- FOREGROUND_READ_ARRIVAL (R213): with the partition idle, suspended or holding a result the read frame is issued; with
it programming, SUSPEND goes first, and again when its first acknowledgement is missed (R79). `sus` are the two SUSPENDs, `ca`
the wrong beat bits of the read frame. -/
def execForegroundReadArrival (t : TileId) (c : ChanId) (die : Fin 8) (part : Fin 16) (sus : SuspendTry × SuspendTry)
    (ca : List Nat) (s : State) : Host.Outcome State Fault Refusal :=
  match s.tiles[t].eng.ctxs.find? fun x =>
      atScheduler x c.val && x.item.part = part.val && x.item.targets.contains die.val with
  | none => .next s
  | some x =>
    match itemPos s.tiles[t] x.item with
    | [] => .next (s.deadRead t x die)
    | p :: _ =>
      if s.tiles[t].ch[c].dies[p].parts[part].st ≠ .programming then .next (s.issueRead t x p ca)
      else
        let (ack1, s) := s.suspendSent t c p part sus.1.flips sus.1.seen
        let (ack2, s) := if ack1 then (true, s) else s.suspendSent t c p part sus.2.flips sus.2.seen
        let s := (s.modCh t c fun k =>
          { k with suspendCount := k.suspendCount + (if ack1 then 1 else 2)
                   sackSingle := if ack1 then k.sackSingle else satAdd k.sackSingle 1
                   errFlags := if ack1 then k.errFlags else bitOn k.errFlags 4 }).count t 5 3 (if ack1 then 1 else 2)
        if !ack2 then .next (s.suspendMissed t c p x die)
        else
          let s := if s.tiles[t].ch[c].dies[p].parts[part].st ≠ .suspended then s
            else s.modEng t fun e =>
              { e with
                ctxs := lmod e.ctxs (fun y => y.item.isProgram && y.item.chan = c.val && y.item.part = part.val
                    && (itemPos s.tiles[t] y.item).contains p) fun y =>
                  { y with suspended := y.suspended ++ [p.val]
                           reverify := if y.cmd = 2 && y.st ≠ .fetch && y.issued.contains p.val then y.reverify ++ [p.val]
                                       else y.reverify } }
          .next (s.issueRead t x p ca)

/-! ### STATUS, abandoned programs, channel resets -/

/-- A stripe whose program was cut off is appended again; its share slot is not excluded (R295). -/
def State.stripeAgain (s : State) (t : TileId) (seq : BitVec 64) : State :=
  match s.tiles[t].d.closed.find? fun x => x.seq = seq with
  | some x => (s.modD t fun d => { d with closed := d.closed.filter fun y => y.seq ≠ seq }).appendAgain t x
  | none => s

/-- The program of a context was abandoned or cut off (R295): a stripe is appended again; a fold's or gap move's program is
queued again and repeats into the same slot; a rebuild begins its page again; a read is queued again, a STATUS poll not. -/
def State.programAgain (s : State) (t : TileId) (x : Context) : State :=
  let s := (s.cutProgram t x).endCtx t x
  match x.item.use with
  | .stripe seq => s.stripeAgain t seq
  | .statusPoll => s
  | .fold u pidx => (s.modFold t u pidx fun f => { f with started := false }).enqueue t x.item
  | .gapMove u => (s.modPl t fun p => { p with copying := p.copying.filter (· ≠ u) }).enqueue t x.item
  | .rebuild c => (s.endContexts t (.rebuild c)).modRebuild t (toChan c) fun r => { r with busy := false, started := false }
  | _ => s.enqueue t x.item

/-- A die abandons the program of a suspended partition (R81): the partition is idle, ABANDONED is set, and the slot is
undefined. -/
def State.abandon (s : State) (t : TileId) (c : ChanId) (p : Fin 9) (part : Fin 16) : State :=
  if s.tiles[t].ch[c].dies[p].parts[part].st ≠ .suspended then s
  else
    let s := s.modDie t c p fun d =>
      { (d.modPart part fun q => { q with st := .idle, pulse := [], inhibit := false, applied := [] }).flag 3 with
        abandonedPart := BitVec.ofNat 4 part }
    match s.tiles[t].eng.ctxs.find? fun y => y.item.isProgram && y.item.chan = c.val && y.item.part = part.val
        && (itemPos s.tiles[t] y.item).contains p with
    | some y => s.cutProgram t y
    | none => s

/-- YALERT_ASSERT (R74, R81): a die may have abandoned the program of a partition that it was suspended in for too long; and
while some die holds a flag, a STATUS poll of each present die of the channel is queued. -/
def execYalertAssert (t : TileId) (alert : YAlert) (s : State) : Host.Outcome State Fault Refusal :=
  let c := alert.chan
  let s := match alert.abandoned with
    | some (p, part) => s.abandon t c p part
    | none => s
  if !s.tiles[t].ch[c].alert then .next s
  else
    .next (forAll (bitsOf s.tiles[t].ch[c].present) (fun p s =>
      s.enqueue t { id := 0, role := 4, cls := .fgWrite, herd := c.val, chan := c.val, targets := [p],
                    use := .statusPoll }) s)

/-- The flags of a STATUS block set MCH_ERR_FLAGS (R75, R105). -/
def State.noteFlags (s : State) (t : TileId) (c : ChanId) (f : BitVec 8) : State :=
  s.modCh t c fun k =>
    { k with
      errFlags := k.errFlags ||| BitVec.ofNat 6 (b2n (f.getLsbD 1) + 2 * b2n (f.getLsbD 2) + 4 * b2n (f.getLsbD 0)
        + 8 * b2n (f.getLsbD 3)) }

/-- STATUS_POLL_RESULT (R75): the flags that the die's STATUS block reports set MCH_ERR_FLAGS; ABANDONED ends the program of
its partition (R295), whose suspension lasted `us`. A missing or bad burst has the poll issued once more (R73), with the beat
bits `ca` wrong. -/
def execStatusPollResult (t : TileId) (c : ChanId) (pos : Fin 9) (dq : List Nat) (us : Nat) (ca : List Nat) (_ : Unit)
    (s : State) : Host.Outcome State Fault Refusal :=
  match s.tiles[t].eng.ctxs.find? fun x =>
      x.cmd = 5 && x.st = .fetch && x.item.chan = c.val && x.issued.contains pos.val with
  | none => .next s
  | some x =>
    let sent := tabGet x.sent pos.val
    let s := if sent.isSome then s.burst t c pos else s
    let done (s : State) : State := s.setCtx t x { x with st := .ready, pc := x.pc + 1, issued := [], sent := [] }
    if burstFails sent dq then
      let s := s.noteBurst t c
      if x.retried.contains pos.val then .next ((done s).noteCrc t c pos x.item.id)
      else
        let heard := s.tiles[t].ch[c].hears .status ca
        let y := { x with
          retried := x.retried ++ [pos.val]
          sent := if heard then [(pos.val, statusPayload s.tiles[t].ch[c].dies[pos])] else [] }
        .next ((s.setCtx t x y).issue t y pos ca [])
    else
      let b := sent.getD []
      let f : BitVec 8 := b.getD 4 0
      let part := toPart (b.getD 5 0).toNat
      let s := (done s).noteFlags t c f
      if !f.getLsbD 3 then .next s
      else
        let s := (s.modEng t fun e =>
          { e with abandonCount := satAdd e.abandonCount 1
                   longestUs := if us > e.longestUs.toNat then satAdd 0 us else e.longestUs }).count t 5 5
        let s := s.raise (mkEv 0x1051 .warn t (c.val + 1) [(1, pos.val), (1, part.val)])
        match s.tiles[t].eng.ctxs.find? fun y => y.item.isProgram && y.item.chan = c.val && y.item.part = part.val
            && (itemPos s.tiles[t] y.item).contains pos with
        | some y => .next (s.programAgain t y)
        | none => .next s

/-- MEDRST_N of a channel is asserted: every die stops and clears (R82); reads are queued again, and the programs in
flight, whose slots are undefined (R65), repeat. No die has passed R83 any more (R102). -/
def State.resetChannel (s : State) (t : TileId) (c : ChanId) : State :=
  let mine := s.tiles[t].eng.ctxs.filter fun x => x.item.chan = c.val
  let s := forAll mine (fun x s => s.programAgain t x) s
  let s := s.modCh t c fun k =>
    { k with up := false, inReset := true, tinit := false, key := 0, frame := 0, paramLeft := [], paramBad := []
             expected := k.expected ||| k.present, present := 0
             dies := vmap k.dies fun _ d => d.afterReset }
  { s with seq := { s.seq with medrst := bitOn s.seq.medrst (chanBit t c) } }

/-- SCRAMBLE_COUNTER_EXHAUSTED (R97): the channel is reset with MEDRST_N as a fatal channel fault. -/
def execScrambleCounterExhausted (t : TileId) (c : ChanId) (s : State) : Host.Outcome State Fault Refusal :=
  .next ((s.resetChannel t c).modCh t c fun k => { k with errFlags := bitOn k.errFlags 5 })

/-- READ_TEMP_HOLD_EXPIRY (R294): the hold on a die's new PROG_STEP starts ends. -/
def execReadTempHoldExpiry (t : TileId) (c : ChanId) (pos : Fin 9) (s : State) : Host.Outcome State Fault Refusal :=
  .next (s.modEng t fun e => { e with tempHold := e.tempHold.filter (· ≠ (c.val, pos.val)) })

/-- DIE_NOT_READY_TIMEOUT (R242): a present die of a channel that has been initialised is declared failed. -/
def execDieNotReadyTimeout (t : TileId) (c : ChanId) (pos : Fin 9) (s : State) : Host.Outcome State Fault Refusal :=
  if s.tiles[t].ch[c].present.getLsbD pos then .next (s.failDie t c pos 5) else .next s

end Sys2Proof.Machine
end

