-- ==== Sys2Proof/Machine/Storage.lean ====
section
/-! DEFINITION. Hold-up energy and the dirty budget (R180, R553), the supply check (R440, R441), parameter-store writes
in the background (R436), config flash operations (R410 to R417), and the event recorder (R631 to R637). -/

namespace Sys2Proof.Machine

/-! ### Energy and budget -/

/-- usable of R553, in µJ. -/
def usableUj (cap mv : Nat) : Nat := if mv ≤ 7000 then 0 else cap * (mv * mv - 49000000) / 2000000

/-- measured_budget of R553, in lines, for `n` tiles. -/
def measuredBudget (u n : Nat) : Nat :=
  if u ≤ 36000 * n then 0
  else
    let per := (u - 36000 * n) * 4 / (5 * n)
    if per ≤ 20000 then 0
    else
      let b := min 130816 ((per - 20000) * 10 / 16)
      b - b % 256

/-- The energy of the flush of every current budget, in µJ with the margin of 1.25 (R553). -/
def State.flushUj (s : State) : Nat :=
  (s.svcTiles.foldl (fun e t => e + 20000 + s.tiles[t].d.budget * 16 / 10) 0) * 5 / 4

/-- required of R553, in mJ. -/
def State.requiredMj (s : State) : Nat :=
  ((s.svcTiles.foldl (fun e t => e + 20000 + s.tiles[t].d.budget * 16 / 10) 0) * 5 / 4 + 999) / 1000

/-- The supply check (R440) of an operation that lasts `us` with `tiles` tiles taking part, at 1.5 W each; before the
first measurement after reset, the three conditions of R441. Nothing but the flush's own writes starts in FLUSHING. -/
def State.supplyOk (s : State) (us tiles : Nat) : Bool :=
  if s.flush.isSome then false
  else if s.hld.firstDone then s.hld.usable ≥ s.flushUj + us * 3 / 2 * tiles
  else !s.aon.vinLow && s.aon.pwrfailN && s.aon.vholdMv.toNat ≥ 11000

/-- A supply check has refused an operation: CFL_STATUS.SUPPLY, and event 0x7022 in the round (R440). -/
def State.supplyRefused (s : State) : State :=
  let s := s.modCfl s.lead fun c => { c with supply := true }
  { s with sys := { s.sys with roundSupply := s.sys.roundSupply + 1 } }

/-- CCH_BUDGET of a tile (R180): the least of the measured budget, the record's target and one quarter of the tile's
cacheable powered lines, in whole 256 lines. -/
def State.budgetOf (s : State) (t : TileId) : Nat :=
  let target := if s.cfg.record = [] then 65536 else recBudget s.cfg.record
  let b := min s.hld.measured (min target ((cacheWays s.tiles[t].d).length * 16384 / 4))
  b - b % 256

/-- Stage every Posted-dirty line of a tile; those of an area at 100 % occupancy come after the folds already open (R180,
R185). -/
def State.stagePosted (s : State) (t : TileId) : State :=
  let ls := (dirtyLines s.tiles[t].d).filter (·.posted)
  let full (l : CLine) : Bool := decide (s.occupancy t (s.areaOf l.region) ≥ 100)
  let open_ := (s.tiles[t].d.folds.filter fun f => f.step ≠ 10).map fun f => (f.unit, f.pidx)
  let later := if open_ = [] then [] else (ls.filter full).map (·.line)
  let s := s.modD t fun d =>
    { d with
      cache := d.cache.map fun l => if later.contains l.line then { l with owed := true } else l
      afterFolds := if later = [] then d.afterFolds else d.afterFolds ++ open_.filter fun p => !d.afterFolds.contains p }
  s.stageAll t ((ls.map (·.line)).filter fun n => !later.contains n)

/-- Every tile takes its budget; POSTED_CERTIFIED follows, and with it the effective policy of every region (R177, R181); its
fall stages every Posted-dirty line (R180). -/
def State.applyBudgets (s : State) : State :=
  let s := forAll s.svcTiles (fun t s => s.modD t fun d => { d with budget := s.budgetOf t }) s
  let low := s.svcTiles.filter fun t => s.tiles[t].d.budget < 4096
  let cert := s.hld.firstDone && low = [] && s.svcTiles ≠ []
  if cert = s.sys.postedCert then forAll s.svcTiles (fun t s => s.cleaner t) s
  else
    let s := { s with sys := { s.sys with postedCert := cert } }
    let s := if cert then s.raise (mkEv 0x5033 .info ((s.svcTiles.map (·.val)).headD 15) 0)
      else s.raise (mkEv 0x5032 .warn ((low.map (·.val)).headD 15) 0)
    forAll s.svcTiles (fun t s =>
      let s := s.policyChanged t
      let s := if cert then s else s.stagePosted t
      ((s.cleaner t).retryStores t).answerPeers t) s

/-! ### The parameter store in the background (R430, R436) -/

/-- A write is split at page boundaries into page writes. -/
def pageWrites (tag : Nat) : Nat → Nat → List Byte → List PageWrite
  | 0, _, _ => []
  | n + 1, a, bs =>
    if bs = [] then []
    else
      let k := 64 - a % 64
      { addr := a, bytes := bs.take k, tag := tag } :: pageWrites tag n (a + k) (bs.drop k)

/-- Page writes join the queue of the store (R436). -/
def State.prmEnqueue (s : State) (tag a : Nat) (bs : List Byte) : State :=
  { s with prm := { s.prm with queue := s.prm.queue ++ pageWrites tag (bs.length / 64 + 2) a bs } }

/-- The image and address of a twin write (R432). -/
def State.twinEnqueue (s : State) (tag page : Nat) (content : List Byte) : State :=
  let p := s.prmPage page
  s.prmEnqueue tag (64 * page + 32 * twinTarget p) (twinImage p content)

/-- An internal page write: refused by the supply check it is retried each round (R440); `code` names it. -/
def State.prmInternal (s : State) (code a : Nat) (bs : List Byte) : State :=
  if s.supplyOk (50 * (bs.length / 64 + 1)) 1 then
    { s.prmEnqueue 0 a bs with cfg := { s.cfg with deferred := s.cfg.deferred.filter (· ≠ code) } }
  else
    { s.supplyRefused with cfg := { s.cfg with
        deferred := if s.cfg.deferred.contains code then s.cfg.deferred else s.cfg.deferred ++ [code] } }

/-! ### Config flash (R410 to R417) -/

/-- What a command waits for has happened: it completes with Success. -/
def State.waitDone (s : State) (w : MbWait) : State :=
  match s.svc.waiting with
  | some (m, x) => if x = w then s.mbFinish m .success 0 s.svc.waitOut else s
  | none => s

/-- Some flash operation of a kind runs or waits in some tile. -/
def State.flashBusy (s : State) (p : FlashUse → Bool) : Bool :=
  s.tiles.toList.any fun x =>
    x.cfl.ops.toList.any (fun o => o.any fun o => p o.use) || x.cfl.spare.toList.any (·.any fun o => p o.use)

/-- A command that waits for its flash operations completes when none is left. -/
def State.flashCommand (s : State) : State :=
  let mine (u : FlashUse) : Bool := match u with
    | .lsa _ => true | .firmware _ _ => true | .fwPart _ => true | .option _ => true | _ => false
  if s.flashBusy mine then s else s.waitDone .flash

/-- The erase of an operation has ended: what the sector held is gone. -/
def eraseContent (bank : Fin 2) (op : FlashOp) (v : TileNv) : TileNv :=
  match op.use with
  | .record _ => { v with copies := v.copies.set bank [] }
  | .lsa _ => { v with lsa := Sparse.keep (fun a => !(decide (4096 * (op.sector - 516) ≤ a ∧ a < 4096 * (op.sector - 515)))) v.lsa }
  | .blackBox g =>
    let half := (op.sector - 516) / 16
    { v with
      bb := Sparse.keep (fun k => !(decide (1024 * half + 64 * g ≤ k ∧ k < 1024 * half + 64 * g + 64))) v.bb
      bbFill := bitSet v.bbFill g (half = 1) }
  | .firmware slot _ => { v with fw := vmod v.fw (if slot = 2 then 1 else 0) fun _ => none }
  | .fwPart slot => { v with fw := vmod v.fw (if slot = 2 then 1 else 0) fun _ => none }
  | .option _ => { v with opt := [] }
  | .journal half => { v with journals := vmod v.journals (1 - bank) (·.filter fun e => e.place / 256 ≠ half) }
  | _ => v

/-- The last page of an operation has been programmed. -/
def opContent (bank : Fin 2) (op : FlashOp) (v : TileNv) : TileNv :=
  match op.use with
  | .record image => { v with copies := v.copies.set bank image }
  | .lsa bytes => { v with lsa := Memory.writeBytes (fun _ => 0xFF) v.lsa (4096 * (op.sector - 516)) bytes }
  | .firmware slot img => { v with fw := vmod v.fw (if slot = 2 then 1 else 0) fun _ => some img }
  | .option words => { v with opt := words }
  | _ => v

/-- FLASH_ERASE_DONE (R414, R416): the tag is programmed with ERASES one higher and the journal entry is closed; the
sector is programmed next, or the operation has ended. -/
def execFlashEraseDone (t : TileId) (bankB : Bool) (s : State) : Host.Outcome State Fault Refusal :=
  let bank : Fin 2 := if bankB then 1 else 0
  match s.tiles[t].cfl.ops[bank] with
  | none => .next s
  | some op =>
    if !op.erasing then .next s
    else
      let s := (s.modNv t fun v => eraseContent bank op (jClose v bank op.sector)).journalReuse t bank
      if op.pages = 0 then .next ((s.flashNext t bank).flashCommand)
      else .next (s.modCfl t fun c =>
        { c with ops := c.ops.set bank (some { op with erasing := false, suspended := false }) })

/-- Eight records of a running event flush reach flash (R635). -/
def State.flushPage (s : State) : State :=
  let e := s.evr
  let now := e.batch.take 8
  let s := s.modNv s.lead fun v =>
    { v with
      evFlash := now.zipIdx.foldl (fun f r => tabPut f ((v.evPos + r.2) % 32768) r.1) v.evFlash
      evPos := (v.evPos + now.length) % 32768 }
  { s with evr := { s.evr with batch := e.batch.drop 8, written := e.written + now.length } }

/-- FLASH_PAGE_PROGRAM_DONE (R410): one page less to program; after the last the sector holds its new content. -/
def execFlashPageProgramDone (t : TileId) (bankB : Bool) (s : State) : Host.Outcome State Fault Refusal :=
  let bank : Fin 2 := if bankB then 1 else 0
  match s.tiles[t].cfl.ops[bank] with
  | none => .next s
  | some op =>
    if op.erasing then .next s
    else
      let s := if op.use = .eventFlush then s.flushPage else s
      if op.pages > 1 then
        .next (s.modCfl t fun c => { c with ops := c.ops.set bank (some { op with pages := op.pages - 1 }) })
      else .next (((s.modNv t (opContent bank op)).flashNext t bank).flashCommand)

/-! ### The event recorder (R631 to R637) -/

/-- Enter a record with its SEQ given (R632): an overwritten record leaves; none when no held record qualifies. -/
def Evr.enter (e : Evr) (r : EventRec) : Option Evr :=
  if e.held.length < 16384 then some { e with held := e.held ++ [{ r := r }] }
  else
    match e.held.find? fun h => h.r.sev ≠ .fatal && h.r.sev.code ≤ r.sev.code with
    | some h => some { e with held := (e.held.erase h) ++ [{ r := r }] }
    | none => none

/-- A flush falls due (R636). -/
def Evr.due (e : Evr) (r : EventRec) : Bool :=
  r.sev = .error || r.sev = .fatal || (e.held.filter fun h => !h.flushed).length ≥ 128 || e.nextSeq + 8192 ≥ e.limit

/-- Give a record the next SEQ and enter it, or drop and count it (R631, R632, R637). -/
def Evr.assign (e : Evr) (r : EventRec) : Evr :=
  if e.nextSeq > e.limit ∨ e.nextSeq ≥ 2 ^ 48 - 1 then e.drop r.sev
  else
    let r := { r with seq := e.nextSeq }
    match e.enter r with
    | some e => { e with nextSeq := e.nextSeq + 1, flushDue := e.flushDue || e.due r }
    | none => e.drop r.sev

/-- EVENT_ENTRY (R631, R632, R639): once the recorder has been rebuilt, it enters the oldest record that a tile has queued; a
FATAL record is copied to the black box (R640). -/
def execEventEntry (t : TileId) (s : State) : Host.Outcome State Fault Refusal :=
  if !s.sys.mbReady then .next s
  else match s.evr.queues[t] with
  | [] => .next s
  | r :: rest =>
    let s := { s with evr := { s.evr with queues := s.evr.queues.set t rest } }
    let s := if r.sev = .fatal then s.bbWrite 1 (leNat (evBytes { r with seq := s.evr.nextSeq })) else s
    .next { s with evr := s.evr.assign r }

/-- The records that a flush in FLUSHING takes, by severity and then by SEQ (R638): at least 64 of them, and what beyond that can
still be written in time is free. -/
def State.flushBatch (s : State) : List EventRec × State :=
  let un := (s.evr.held.filter fun h => !h.flushed).map (·.r)
  let of (v : Severity) : List EventRec := sortBy (fun (a b : EventRec) => decide (a.seq ≤ b.seq)) (un.filter (·.sev = v))
  let all := of .fatal ++ of .error ++ of .warn ++ of .info
  let (v, s) := s.draw
  (all.take (64 + v % (all.length + 1)), s)

/-- EVENT_FLUSH_START (R635, R636, R638): a flush that is due starts when none runs, after a supply check (R440); in FLUSHING it
takes the records by severity, within the flush's energy. -/
def execEventFlushStart (s : State) : Host.Outcome State Fault Refusal :=
  if !s.evr.flushDue ∨ s.evr.flushRunning then .next s
  else
    let (b, s) := if s.flush.isSome then s.flushBatch else ((s.evr.held.filter fun h => !h.flushed).map (·.r), s)
    let pages := (b.length + 7) / 8
    if s.flush.isNone ∧ !s.supplyOk (100 * (pages + 1)) 1 then .next s.supplyRefused
    else
      let s := { s with evr := { s.evr with
        flushRunning := true, flushDue := false, batch := b, batchTop := s.evr.nextSeq - 1, written := 0 } }
      if pages = 0 then .next s
      else
        .next (s.flashStart s.lead 1
          { sector := 768 + s.nv[s.lead].evPos / 128, erasing := false, pages := pages, use := .eventFlush })

/-- The flush marker (R637). -/
def Evr.marker (e : Evr) (boot unwritten : Nat) : EventRec :=
  { mkEv 0x7073 .info 15 0 [(4, unwritten)] (e.drops.toList.zipIdx.foldl (fun a d => a + d.1.toNat * 65536 ^ d.2) 0)
      e.written with
    boot := BitVec.ofNat 16 boot, seq := e.nextSeq }

/-- The marker is written and entered, the flushed records are marked, and the two sectors ahead of the write position are
erased; held records whose only flash copy lay there are to be appended again (R635, R637). -/
def State.flushMarker (s : State) (unwritten : Nat) : State :=
  let m := s.evr.marker s.boots unwritten
  let pos := s.nv[s.lead].evPos
  let next := (pos + 1) % 32768
  let ahead (k : Nat) : Bool :=
    let sec := next / 128
    let x := k / 128
    decide (x = (sec + 1) % 256 ∨ x = (sec + 2) % 256)
  let old := (s.nv[s.lead].evFlash.filter fun e => ahead e.1).map (·.2.seq)
  let used (v : TileNv) (x : Nat) : Bool := (v.evFlash.any fun e => e.1 / 128 = x) || !sectorDefined v (sectorKey 1 (768 + x))
  let sectors := ((List.range 256).filter fun x => ahead (128 * x)).filter (used s.nv[s.lead])
  let s := s.modNv s.lead fun v =>
    { sectors.foldl (fun v x => jErase v 1 (768 + x)) v with
        evFlash := Sparse.keep (fun k => !ahead k) (tabPut v.evFlash pos m), evPos := next }
  let s := s.journalReuse s.lead 1
  let kept := s.nv[s.lead].evFlash.map (·.2.seq)
  let again (h : HeldRec) : Bool := old.contains h.r.seq && !kept.contains h.r.seq
  let e := s.evr
  let mark (h : HeldRec) : HeldRec :=
    if again h then { h with flushed := false } else if h.r.seq ≤ e.batchTop then { h with flushed := true } else h
  let e := { e with held := e.held.map mark }
  let e := (e.enter m).getD e
  { s with evr := { e with
      held := lmod e.held (fun h => h.r.seq = m.seq) fun h => { h with flushed := true }
      nextSeq := e.nextSeq + 1, limit := m.seq + 65536, flushes := wrapAdd e.flushes 1, flushRunning := false,
      batch := [] } }

/-- The running flush ends with its marker; one that a power fail cut short also counts, by severity, the records that it could
not write (R637, R638), and WARN event 0x7070 carries the counts. -/
def State.closeEventFlush (s : State) : State :=
  let done := (s.nv[s.lead].evFlash.map (·.2.seq))
  let left := (s.evr.held.filter fun h => !h.flushed && !done.contains h.r.seq && decide (h.r.seq ≤ s.evr.batchTop)).map (·.r.sev)
  let n (v : Severity) : Nat := min 255 (left.filter (· = v)).length
  let counts := n .info + 256 * n .warn + 65536 * n .error + 16777216 * n .fatal
  if s.flush.isNone ∨ counts = 0 then s.flushMarker 0
  else (s.flushMarker counts).raise (mkEv 0x7070 .warn 15 0 [(4, counts)])

/-- EVENT_FLUSH_DONE (R637): every page of the running flush has been programmed; the flush ends with its marker. -/
def execEventFlushDone (s : State) : Host.Outcome State Fault Refusal :=
  if !s.evr.flushRunning ∨ s.evr.batch ≠ [] then .next s else .next s.closeEventFlush

/-! ### Key-set copies (R674, R675, R680) and the RDP_ERASE mark (R373) -/

/-- The write of a key-set copy starts in every tile in service: the copy is not valid until its 32 pages are written. -/
def State.keyStart (s : State) (i : Fin 2) (k : KeySet) : State :=
  let s := forAll s.svcTiles (fun t s => s.modNv t fun v => { v with keys := v.keys.set i none }) s
  { s with
    sec := { s.sec with keyWrite := some (i, k) }
    prm := { s.prm with queue := s.prm.queue ++ (List.range 32).map fun n => PageWrite.mk (64 * (64 + 32 * i.val + n)) [] 5 } }

/-- The key-set copy that was being written holds its contents. -/
def State.keyStored (s : State) : State :=
  match s.sec.keyWrite with
  | none => s
  | some (i, k) =>
    forAll s.svcTiles (fun t s => s.modNv t fun v => { v with keys := v.keys.set i (some k) }) { s with sec := { s.sec with keyWrite := none } }

/-- A key-set copy has been written: the command that waits completes, or the erase goes on (R680): after the first copy the other is
written; after both the key engine drops the old keys, with INFO event 0x8020. -/
def State.keyWritten (s : State) : State :=
  match s.sec.keyWrite with
  | none => s
  | some (i, k) =>
    let s := s.keyStored
    match s.sec.eraseStep with
    | 0 => s.waitDone .keys
    | 2 => { s with sec := { s.sec with eraseStep := 3 } }.keyStart (1 - i) k
    | _ => { s with sec := { s.sec with eraseStep := 4, engine := k.keys } }.raise (mkEv 0x8020 .info s.lead 0 [(1, k.kind.toNat)])

/-- The RDP_ERASE mark is in the store: every tile's Stag restarts in ROM (R373 step 2). -/
def State.rdpMarked (s : State) : State :=
  { s with
    svc := { s.svc with rdpPending := true }
    sys := { s.sys with fwRunning := 0 }
    tiles := vmap s.tiles fun _ x => { x with cfl := { x.cfl with fetchEn := 0 } } }

/-- PRM_PAGE_WRITE_DONE (R430, R436): the oldest page write ends, and the next starts; a command whose writes have all
ended completes. -/
def execPrmPageWriteDone (s : State) : Host.Outcome State Fault Refusal :=
  match s.prm.queue with
  | [] => .next s
  | w :: rest =>
    let s := { s.prmWrite w.addr w.bytes with prm := { s.prm with queue := rest } }
    if rest.any fun x => x.tag = w.tag then .next s
    else match w.tag with
      | 1 => .next (s.waitDone .prm)
      | 3 => .next s.rdpMarked
      | 5 => .next s.keyWritten
      | _ => .next s

end Sys2Proof.Machine
end

