-- ==== Sys2Proof/Machine/Patrol.lean ====
section
/-! DEFINITION. The Chamois patrol (R249 to R253), and the return of rebuilt SRAM words (R228). -/

namespace Sys2Proof.Machine

/-- Written home rings of a unit, ascending. -/
def writtenRings (pl : Placement) (unit : Nat) : List Nat :=
  (pl.written.filter fun e => e.2 && e.1 / 20480 = unit).map (·.1 % 20480)

/-- The cursor of a place in a unit's pass: a page slot, or 2^23 plus the ring of a staging segment. -/
def segPlace (ring : Nat) : Nat := 2 ^ 23 + ring

/-- The next place at or above `cur` (R249): written home rings with their gap skipped, the unit-record slots, the in-use
staging segments. A slot that a gap-move copy has visited in this pass is skipped. -/
def nextVisit (x : Tile) (unit cur : Nat) : Option Nat :=
  let m := Sparse.get 0 x.pl.moves unit
  let inRing (p : Nat) : Option Nat :=
    ((List.range 256).find? fun i =>
      decide (256 * p + i ≥ cur) && i ≠ gapSlot m p && !x.it.skip.contains (unit, 256 * p + i)).map (256 * p + ·)
  let recs := ((List.range 16).map (256 * 20479 + ·)).find? (decide <| · ≥ cur)
  let segs := sortBy (fun a b => decide (a ≤ b)) ((x.d.segs.filter fun g => g.unit = unit && !g.isOpen).map fun g => segPlace g.ring)
  match (writtenRings x.pl unit).findSome? inRing with
  | some k => some k
  | none => match recs with
    | some k => some k
    | none => segs.find? (decide <| · ≥ cur)

/-- A pass of a unit is late: more than a quarter over its period (R253). -/
def State.checkLate (s : State) (t : TileId) (unit : Nat) : State :=
  let i := s.tiles[t].it
  let hot := decide (s.tiles[t].ch[toChan (unit / 16)].band.toNat ≥ 4)
  let period := 3600 * (if hot then i.hotH else i.coolH).toNat
  let start := Sparse.get i.passBase i.passStart unit
  if !i.lateUnits.contains unit && decide (4 * (s.clock - start) > 5 * period) then
    let s := s.modIt t fun i => { i with lateUnits := i.lateUnits ++ [unit], late := satAdd i.late 1 }
    s.raise (mkEv 0x1041 .warn t (unit / 16 + 1) [(1, unit)])
  else s

/-- Both copies of an armed spare's parameter page are read again, unit by unit (R94, R276). -/
def State.spareReads (s : State) (t : TileId) (c : ChanId) : State :=
  let k := s.tiles[t].ch[c]
  if !k.spareArmed || !k.up || k.paramLeft ≠ [] then s
  else
    let s := s.modCh t c fun k =>
      { k with paramLeft := (List.range 128).map fun u => (u / 64, u % 64), paramBad := [] }
    forAll (List.range 128) (fun u s =>
      s.enqueue t { id := 0, role := 6, cls := .telemetry, herd := c.val, chan := c.val, slot := u, targets := [8],
                    use := .readParam }) s

/-- A unit has finished a pass; when every unit of the tile has finished one more, event 0x1040, and each armed spare's
parameter page is read again (R94, R250, R253). -/
def State.passDone (s : State) (t : TileId) (unit : Nat) : State :=
  let least (i : Integrity) : Nat :=
    (List.range s.unitsPerTile).foldl (fun m u => min m (Sparse.get 0 i.unitPass u)) (Sparse.get 0 i.unitPass 0)
  let before := least s.tiles[t].it
  let s := s.modIt t fun i =>
    { i with
      unitPass := Sparse.set 0 i.unitPass unit (Sparse.get 0 i.unitPass unit + 1)
      passStart := tabPut i.passStart unit s.clock
      lateUnits := i.lateUnits.filter (· ≠ unit)
      skip := i.skip.filter (·.1 ≠ unit) }
  if least s.tiles[t].it > before then
    let s := s.modIt t fun i => { i with passes := wrapAdd i.passes 1 }
    let s := s.raise (mkEv 0x1040 .info t 0)
    forAll allChans (fun c s => s.spareReads t c) s
  else s

/-- The stripes of a staging segment that hold a live line (R252). -/
def State.liveStripes (s : State) (t : TileId) (unit ring : Nat) : List Stripe :=
  s.staged[t].stripes.filter fun x => x.unit = unit && x.ring = ring
    && s.tiles[t].d.dir.any fun e => e.unit = unit && e.ring = ring && 5 * e.sslot + e.spos = x.t

/-- PATROL_VISIT_START (R249, R252, R253): a visit to the next place of the unit starts, and its reads are queued: the eight
shares of a page, or the tag line of each stripe with a live line. The patrol holds back where fold work is queued for the
partition whose area is at 75 % or above. -/
def execPatrolVisitStart (t : TileId) (unit : Nat) (s : State) : Host.Outcome State Fault Refusal :=
  let x := s.tiles[t]
  let c := toChan (unit / 16)
  if !x.it.enable || !s.background || unit ≥ s.unitsPerTile || s.chanOut t c
      || x.it.visits.any (fun v => v.unit = unit) then .next s
  else
    let s := s.checkLate t unit
    if waits x.eng fun w => w.cls = .fold && w.unit = unit && x.d.pressure[areaFin w.area] then
      .next ((s.modIt t fun i => { i with yielding := true }).count t 8 3)
    else
      match nextVisit x unit (Sparse.get 0 x.it.cursors unit).toNat with
      | none => .next ((s.modIt t fun i => { i with cursors := Sparse.set 0 i.cursors unit 0, yielding := false }).passDone t unit)
      | some k =>
        let s := s.modIt t fun i =>
          { i with visits := i.visits ++ [{ unit := unit, slot := k }], active := true, yielding := false }
        let item : WorkItem :=
          { id := 0, role := 1, cls := .patrol, herd := unit / 16, chan := unit / 16, unit := unit, part := unit % 16,
            use := .patrolVisit unit }
        if k < 2 ^ 23 then
          let slot := remapped x.pl.remap unit k
          .next (forAll (s.readDies t unit (slot / 256) []) (fun ld s => s.enqueue t
            { item with slot := slot, targets := [ld], bucket := s.bucketFor t unit slot (s.onSpare t unit ld) }) s)
        else
          let ring := k - 2 ^ 23
          .next (forAll (s.liveStripes t unit ring) (fun x s =>
            let slot := 256 * ring + x.t / 5
            let ld := stripeDie x 6
            if s.dieReads t unit ring ld then s.enqueue t
              { item with role := 0, slot := slot, line := x.t % 5, slc := true, targets := [ld],
                          bucket := s.bucketFor t unit slot (s.onSpare t unit ld) }
            else s) s)

/-- An uncorrectable line that the patrol or a scan found is asked of the mirror peer or poisoned (R238, R250, R516). -/
def State.visitBad (s : State) (t : TileId) (unit slot n : Nat) : State :=
  let h := s.home n
  let id := s.nextReq
  let r : LoadReq := { id := id, head := t, owner := t, line := n, src := .home unit slot, rung := 5, internal := true }
  ({ s with nextReq := id + 1, loads := s.loads ++ [r] }).ladderFailed t r unit h.pidx (lineDie slot h.line) 5

/-- The patrol's refresh of a page: at once, or below 75 % where it is not urgent (R250, R253). -/
def State.patrolRefresh (s : State) (t : TileId) (unit pidx : Nat) (urgent : Bool) : State :=
  let s := (s.modIt t fun i => { i with refreshes := i.refreshes + 1 }).count t 8 1
  if urgent then s.queueRefresh t unit pidx
  else s.modD t fun d =>
    { d with refreshLow := if d.refreshLow.contains (unit, pidx) then d.refreshLow else d.refreshLow ++ [(unit, pidx)] }

/-- The line's newest copy is the one in its home page. -/
def State.homeNewest (s : State) (t : TileId) (n : Nat) : Bool := (cached s.tiles[t].d n).isNone && !s.stagedSomewhere t n

/-- Data lines of a page that have been read: one found poisoned, with no newer copy, is listed when no entry holds it (R255). -/
def State.listPage (s : State) (t : TileId) (unit slot first : Nat) (rs : List (Nat × LineRead)) : State :=
  let page := (tabGet s.media[t].pages (pageKey unit slot)).getD {}
  forAll (rs.filter (·.1 < 64)) (fun r s =>
    let inv := match r.2 with
      | .good _ _ inv => inv
      | _ => false
    if ((tabGet page.lines r.1).any (·.poison) != inv) && s.homeNewest t (first + r.1) then s.foundPoisoned (first + r.1)
    else s) s

/-- What follows from a visit to a home page whose lines decoded as `rs` (R250, R241): `direct` where every line did and the
page checked. -/
def State.pageVisited (s : State) (t : TileId) (unit raw : Nat) (direct : Bool) (rs : List (Nat × LineRead)) : State :=
  let pidx := s.slotPidx t unit raw
  let slot := remapped s.tiles[t].pl.remap unit raw
  let first := pageLine s.cfg.record t unit pidx
  let bad := pageLost rs
  let s := s.listPage t unit slot first rs
  let i := s.tiles[t].it
  let hot := decide (s.tiles[t].ch[toChan (unit / 16)].band.toNat ≥ 4)
  let ageLimit := (if hot then i.ageHot else i.ageCool).toNat
  let pass := Sparse.get 0 i.unitPass unit
  let key := pageKey unit raw
  if s.tiles[t].d.folds.any (·.isPage unit pidx) then s
  else if bad ≠ [] then
    let lost := bad.filter fun l => s.homeNewest t (first + l)
    (forAll lost (fun l s => (s.visitBad t unit slot (first + l)).count t 8 2) s).patrolRefresh t unit pidx true
  else if !direct then s.patrolRefresh t unit pidx true
  else if worstCount rs > i.thCorr.toNat then
    let twice := tabGet i.lastRefresh key = some (pass - 1) && pass ≠ 0
    let s := s.modIt t fun i => { i with lastRefresh := tabPut i.lastRefresh key pass }
    let s := if twice then s.modD t fun d => { d with remapNext := d.remapNext ++ [(unit, pidx)] } else s
    s.patrolRefresh t unit pidx false
  else if s.bucketFor t unit slot ≥ ageLimit then s.patrolRefresh t unit pidx false
  else s

/-- The folds of pages with live lines in a segment are raised to the area's fold priority (R252). -/
def State.raisePages (s : State) (t : TileId) (lines : List Nat) : State :=
  let ps := (lines.map fun n => ((s.home n).unit, (s.home n).pidx)).eraseDups
  s.modD t fun d => { d with urgent := d.urgent ++ ps.filter fun p => !d.urgent.contains p }

/-- What follows from a visit to a staging segment (R252): a tag line that is FAILED is rebuilt from its stripe, and the folds
of its stripe's live lines are raised; at the age limit every page with a live line in the segment is raised. The spec keeps
a stamp for each page group (R203) and names none as the segment's: here the oldest of the ring's four counts (DESIGN
CHOICE, log 86). -/
def State.segmentVisited (s : State) (t : TileId) (unit ring : Nat) (stripes : List (Nat × Noise)) : State :=
  let live (p : DirEntry → Bool) : List Nat :=
    (s.tiles[t].d.dir.filter fun e => e.unit = unit && e.ring = ring && p e).map (·.line)
  let s := forAll (s.liveStripes t unit ring) (fun x s =>
    let noise := (tabGet stripes x.t).getD []
    let slot := 256 * ring + x.t / 5
    let dead := (s.deadIndexes t unit slot (x.t % 5)).contains 6
    if dead then s
    else
      let (_, s) := s.stagedRead t unit slot (x.t % 5) 6 noise
      if (readLine false (noiseOf noise 6)).ok then s else s.raisePages t (live fun e => 5 * e.sslot + e.spos = x.t)) s
  let old := (List.range 4).any fun g => s.bucketFor t unit (256 * ring + 64 * g) ≥ s.tiles[t].it.stageAge.toNat
  if old then s.raisePages t (live fun _ => true) else s

/-- PATROL_VISIT_DONE (R250, R252), once no read of the visit is left: what it found decides, and the cursor moves on. -/
def execPatrolVisitDone (t : TileId) (unit : Nat) (noise : VisitNoise) (s : State) :
    Host.Outcome State Fault Refusal :=
  match s.tiles[t].it.visits.find? fun v => v.unit = unit with
  | none => .next s
  | some v =>
    if workLeft s.tiles[t].eng (.patrolVisit unit) then .next s
    else
    let s := (s.modIt t fun i =>
      let vs := i.visits.filter fun x => x.unit ≠ unit
      { i with visits := vs, active := vs ≠ [], cursors := Sparse.set 0 i.cursors unit (BitVec.ofNat 32 (v.slot + 1)) }).count t 8 0
    let s :=
      if v.slot ≥ 2 ^ 23 then s.segmentVisited t unit (v.slot - 2 ^ 23) noise.2
      else
        let slot := remapped s.tiles[t].pl.remap unit v.slot
        let dead := s.deadLines t unit slot
        let first := readPage dead noise.1.1
        -- lines of a failed die call for no refresh (R238; DEDUCED for the patrol, log 87)
        let direct := pageChecks first || (dead ≠ [] && (erased first).all (dead.contains ·) && withinCode first 0)
        let (rs, s) := s.pageRead t unit slot noise.1
        if v.slot < 256 * 20479 then s.pageVisited t unit v.slot direct rs else s
    let s := s.checkLate t unit
    match nextVisit s.tiles[t] unit (v.slot + 1) with
    | some _ => .next s
    | none => .next ((s.modIt t fun i => { i with cursors := Sparse.set 0 i.cursors unit 0 }).passDone t unit)

/-- The cursors of a tile's units as bytes (R431). -/
def cursorBytes (i : Integrity) : List Byte := (List.range 64).flatMap fun u => leBytes 4 (Sparse.get 0 i.cursors u).toNat

/-- Write every unit's cursor to pages 32 to 63. -/
def State.saveCursors (s : State) : State :=
  s.prmInternal 1 2048 (allTiles.flatMap fun t => cursorBytes s.tiles[t].it)

/-- PATROL_CURSOR_SAVE (R249): every unit's cursor is written to the parameter store, after a supply check (R440). -/
def execPatrolCursorSave (s : State) : Host.Outcome State Fault Refusal := .next s.saveCursors

/-- DIRECTORY_BUCKET_REBUILT (R228): the bucket is restored, and the loads that waited proceed. -/
def execDirectoryBucketRebuilt (t : TileId) (bucket : Nat) (s : State) : Host.Outcome State Fault Refusal :=
  .next ((s.modIt t fun i => { i with rebuildDirs := i.rebuildDirs.filter (· ≠ bucket) }).wakeLoads t)

/-- PLACEMENT_WORD_RELOADED (R228): the word is restored, and the loads that waited proceed. -/
def execPlacementWordReloaded (t : TileId) (unit : Nat) (s : State) : Host.Outcome State Fault Refusal :=
  .next ((s.modPl t fun p => { p with unloaded := p.unloaded.filter (· ≠ unit) }).wakeLoads t)

end Sys2Proof.Machine
end

