-- ==== Sys2Proof/Machine/CxlMem.lean ====
section
/-! DEFINITION. CXL.mem at a head (R38 to R42, R155, R313 to R316, R323): admission, loads, stores, completions, deadline,
Global Persistent Flush, and request tagging (R649 to R652). -/

namespace Sys2Proof.Machine

/-! ### Request tagging -/

/-- Edge counts of the stages that a request used are free values; a stage not used reads all ones (R650, R651). -/
def State.drawStages (s : State) : List Bool → List (BitVec 32) × State
  | [] => ([], s)
  | true :: r =>
    let (v, s) := s.draw
    let (l, s) := s.drawStages r
    (BitVec.ofNat 32 v :: l, s)
  | false :: r =>
    let (l, s) := s.drawStages r
    (0xFFFFFFFF :: l, s)

/-- A head's LFSR takes one step for a request that it admits; whether the request is tagged, and PMC_EDGE at its ingress,
which no operand gives and is free (R649, R650). -/
def State.tagStep (s : State) (h : TileId) : Bool × BitVec 64 × State :=
  if s.pmc.tagging && s.pmc.heads.getLsbD h then
    let x := s.pmc.lfsr[h]
    let s := { s with pmc := { s.pmc with lfsr := s.pmc.lfsr.set h (lfsrStep x) } }
    if lfsrTags x s.pmc.log2n.toNat then
      let (v, s) := s.draw
      (true, BitVec.ofNat 64 v, s)
    else (false, 0, s)
  else (false, 0, s)

/-- A tagged request ends: its sample enters the buffer (R651, R652). -/
def State.sample (s : State) (h owner op path n : Nat) (t0 : BitVec 64) (used : List Bool) : State :=
  if !s.pmc.tagging ∨ (s.pmc.samples.length ≥ 4096 ∧ !s.pmc.wrapMode) then s
  else
    let (d, s) := s.drawStages used
    let x : Sample :=
      { seq := s.pmc.sampleSeq, head := h, owner := owner, op := op, path := path, addr := BitVec.ofNat 64 (64 * n),
        t0 := t0, delta := d }
    let full := decide (s.pmc.samples.length ≥ 4096)
    { s with pmc := { s.pmc with
        samples := (if full then s.pmc.samples.drop 1 else s.pmc.samples) ++ [x]
        wrapped := s.pmc.wrapped || full, sampleSeq := s.pmc.sampleSeq + 1 } }

/-! ### Admission (R316, R317) -/

/-- The DPA of an HPA through a committed decoder of a head: the offset without its interleave bits, above the sizes and
skips of the decoders below. -/
def dpaOf (ds : List Decoder) (hpa : Nat) : Option Nat :=
  (ds.foldl (fun (acc : Nat × Option Nat) d =>
    if !d.committed then acc
    else
      let base := acc.1 + d.skip
      let off := hpa - d.base
      let hit := decide (d.base ≤ hpa ∧ hpa < d.base + d.size)
      let dpa := base + off / (d.gran * d.ways) * d.gran + off % d.gran
      (base + d.size / d.ways, if acc.2.isNone && hit then some dpa else acc.2)) (0, none)).2

/-- What a head makes of a CXL.mem request (R47, R316, R677): it is lost before ingress (link down, IDE containment, or a
head that has stopped admitting while the part serves), refused as not admitted, refused while locked, not served in this state, or passed. -/
inductive Judged where
  | lost | missed | locked (n : Nat) | notServed (n : Nat) | passed (n : Nat)
deriving DecidableEq, Repr

def State.judge (s : State) (h : TileId) (hpa : BitVec 64) : Judged :=
  let x := s.heads[h]
  if x.speed = 0 ∨ x.ideFailed ∨ (s.sys.admitStop && s.sys.state.isServing) ∨ !s.inSvc h then .lost
  else match dpaOf x.decoders.toList hpa.toNat with
    | none => .missed
    | some a =>
      if a ≥ s.capacity ∨ !s.admits h (a / 64) then .missed
      else if s.sec.locked then .locked (a / 64)
      else if s.sys.state.isServing then .passed (a / 64)
      else .notServed (a / 64)

/-- The owner tile serves a line's address: it is in service, its rails let it serve its share, and the channel of the line's
unit is in service (R36, R248, R546, R548). -/
def State.ownerStores (s : State) (n : Nat) : Bool :=
  let h := s.home n
  s.ownerUp h.tile && !s.chanOut h.tile h.chan

/-- A request that head h has received can go to tile t: its own, or one that its route leads to. The crossing of Widar is part
of the command, and puts no message of R468 on a link (DESIGN CHOICE, log 88). -/
def State.forwards (s : State) (h t : TileId) : Bool :=
  h = t || (hopPort s.fuses.variant s.fab[h].route[(toTile t.val)]).isSome

/-! ### Responses -/

/-- DevLoad of a response for a line: from the occupancy of its area in its owner tile as the response leaves (R315). -/
def State.devLoadOf (s : State) (n : Nat) : BitVec 2 := devLoad (s.occupancy (s.home n).tile (s.areaOf (s.regionOf n)))

/-- A head sends a response with a DevLoad; HDC_DEVLOAD keeps the highest of the round (R315, R338). -/
def State.respond (s : State) (h : TileId) (dl : BitVec 2) (f : Head → Head) : State :=
  s.modHead h fun x =>
    f { x with lastDevLoad := dl, devLoadRound := if dl.toNat > x.devLoadRound.toNat then dl else x.devLoadRound }

/-- MemData, poisoned or with the line. -/
def State.sendData (s : State) (h : TileId) (dl : BitVec 2) (d : Option Line) : State :=
  s.respond h dl fun x => { x with lastData := some d }

/-- Cmp. -/
def State.sendCmp (s : State) (h : TileId) (dl : BitVec 2) : State := s.respond h dl fun x => { x with cmps := x.cmps + 1 }

/-- A load that the head answers with poison itself, between `least` ns and the 8 µs of R218 after its ingress, which no
operand gives: HDC_RD_LAT_MAX takes that free time in (R221). -/
def State.sendPoison (s : State) (h : TileId) (dl : BitVec 2) (least : Nat := 0) : State :=
  let (v, s) := s.draw
  (s.sendData h dl none).modHead h fun x =>
    { x with latMax := BitVec.ofNat 14 (max x.latMax.toNat (least + v % (8001 - least))) }

/-- A request that is not admitted is counted (R316, R336, R646); `k`: 0 a load, 1 a store, 2 another request, which
HDC_ADMIT_MISS has no field for. -/
def State.admitMiss (s : State) (h : TileId) (hpa : BitVec 64) (k : Nat) : State :=
  let a := BitVec.ofNat 64 ((dpaOf s.heads[h].decoders.toList hpa.toNat).getD hpa.toNat)
  (s.modHead h fun x => { x with
    admitLoads := if k = 0 then satAdd x.admitLoads 1 else x.admitLoads
    admitStores := if k = 1 then satAdd x.admitStores 1 else x.admitStores
    missFirst := if x.roundMiss = 0 then a else x.missFirst
    roundMiss := x.roundMiss + 1 }).count h 1 4

def State.noteLocked (s : State) : State := { s with sys := { s.sys with roundLocked := s.sys.roundLocked + 1 } }
def State.noteDiscard (s : State) : State := { s with sys := { s.sys with roundDiscarded := s.sys.roundDiscarded + 1 } }

/-! ### Loads -/

/-- MEMRD (R314, R316): a load is refused, answered with poison by the head, or served by its owner tile. -/
def execMemrd (h : TileId) (hpa : BitVec 64) (s : State) : Host.Outcome State Fault Refusal :=
  let s := s.ungate h 7
  match s.judge h hpa with
  | .lost => .next s
  | .missed => .next ((s.admitMiss h hpa 0).sendPoison h 0)
  | .locked n => .next ((s.count h 1 1).noteLocked.sendPoison h (s.devLoadOf n))
  | .notServed n =>
    let (tg, t0, s) := (s.count h 1 1).tagStep h
    let s := { s with sys := { s.sys with roundPoisoned := s.sys.roundPoisoned + 1 } }
    let s := s.sendPoison h (s.devLoadOf n)
    .next (if tg then s.sample h (s.home n).tile 0 7 n t0 [true, false, false, false, false, false, true] else s)
  | .passed n =>
    let (tg, t0, s) := (s.count h 1 1).tagStep h
    let t := (s.home n).tile
    if s.ownerUp t && s.forwards h t then
      .next (s.newLoad { id := 0, head := h, owner := t, line := n, src := .none, tagged := tg, t0 := t0 })
    else
      let s := s.sendPoison h (s.devLoadOf n)
      .next (if tg then s.sample h t 0 7 n t0 [true, false, false, false, false, false, true] else s)

/-- MEMSPECRD (R314): a hint; the part may drop it at any time, so whether the owner tile starts the read is free. -/
def execMemspecrd (h : TileId) (hpa : BitVec 64) (s : State) : Host.Outcome State Fault Refusal :=
  let s := s.ungate h 7
  match s.judge h hpa with
  | .lost | .notServed _ => .next s
  | .missed => .next (s.admitMiss h hpa 2)
  | .locked _ => .next s.noteLocked
  | .passed n =>
    let (tg, t0, s) := s.tagStep h
    let t := (s.home n).tile
    let s := if tg then s.sample h t 3 7 n t0 [true, false, false, false, false, false, false] else s
    let (warm, s) := s.pick [false, true]
    if warm = some true ∧ s.ownerUp t ∧ s.forwards h t then
      .next (s.newLoad { id := 0, head := h, owner := t, line := n, src := .none, hint := true })
    else .next s

/-- A request that completes with Cmp and leaves its line unchanged (R314). -/
def State.cmpOnly (s : State) (h : TileId) (hpa : BitVec 64) : State :=
  let s := s.ungate h 7
  match s.judge h hpa with
  | .lost => s
  | .missed => (s.admitMiss h hpa 2).sendCmp h 0
  | .locked n => s.noteLocked.sendCmp h (s.devLoadOf n)
  | .notServed n | .passed n =>
    let (tg, t0, s) := s.tagStep h
    let s := s.sendCmp h (s.devLoadOf n)
    if tg then s.sample h (s.home n).tile 3 0 n t0 [true, false, false, false, false, false, true] else s

/-- MEMINV (R314): MemInv and MemInvNT complete with Cmp; the line is unchanged. -/
def execMeminv (h : TileId) (hpa : BitVec 64) (s : State) : Host.Outcome State Fault Refusal := .next (s.cmpOnly h hpa)

/-- MEMCLNEVCT (R314): completes with Cmp. -/
def execMemclnevct (h : TileId) (hpa : BitVec 64) (s : State) : Host.Outcome State Fault Refusal :=
  .next (s.cmpOnly h hpa)

/-! ### Stores -/

/-- The stream trackers of a head see a full-line store (R155); whether it is a stream store. -/
def trackStore (x : Head) (n : Nat) : Bool × Head :=
  let ts := x.trackers.toList.zipIdx
  let hits := ts.filter fun e => e.1.inUse && e.1.next = n
  let better (a b : Tracker × Nat) : Bool :=
    decide (a.1.count > b.1.count ∨ (a.1.count = b.1.count ∧ a.1.used ≥ b.1.used))
  let x := { x with trackClock := x.trackClock + 1 }
  match sortBy better hits with
  | b :: rest =>
    let c := b.1.count + 1
    let x := { x with trackers := vmap x.trackers fun i t =>
      if i.val = b.2 then { t with count := c, next := n + 1, used := x.trackClock }
      else if rest.any fun e => e.2 = i.val then {} else t }
    (decide (c > 4), x)
  | [] =>
    let older (a b : Tracker × Nat) : Bool := decide (a.1.used ≤ b.1.used)
    let slot := match ts.find? fun e => !e.1.inUse with
      | some e => e.2
      | none => ((sortBy older ts).head?.map (·.2)).getD 0
    let x := { x with trackers := vmap x.trackers fun i t =>
      if i.val = slot then { next := n + 1, count := 1, inUse := true, used := x.trackClock } else t }
    (false, x)

/-- A partial store resets every tracker whose NEXT it equals (R155). -/
def trackPartial (x : Head) (n : Nat) : Head :=
  { x with trackers := x.trackers.map fun t => if t.inUse && t.next = n then { t with count := 0 } else t }

/-- The trackers of a head see every store that it admits, before the lock and the device state are judged (R155, R316); the result
says whether the store belongs to a stream. -/
def State.tracked (s : State) (h : TileId) (n : Nat) (mask : BitVec 64) (ptl : Bool) : Bool × State :=
  if mask = 0 then (false, s)
  else if ptl then (false, s.modHead h fun x => trackPartial x n)
  else ((trackStore s.heads[h] n).1, s.modHead h fun x => (trackStore x n).2)

/-- A store at a head (R314, R316): refused, discarded, or passed to its owner tile. -/
def State.storeAt (s : State) (h : TileId) (hpa : BitVec 64) (data : Line) (mask : BitVec 64) (ptl poison : Bool) :
    State :=
  let s := s.ungate h 7
  let op := if ptl then 2 else 1
  match s.judge h hpa with
  | .lost => s
  | .missed => (s.admitMiss h hpa 1).sendCmp h 0
  | .locked n => ((s.tracked h n mask ptl).2.count h 1 2).noteLocked.sendCmp h (s.devLoadOf n)
  | .notServed n =>
    let (tg, t0, s) := ((s.tracked h n mask ptl).2.count h 1 2).tagStep h
    let s := s.noteDiscard.sendCmp h (s.devLoadOf n)
    if tg then s.sample h (s.home n).tile op 4 n t0 [true, false, false, false, false, false, true] else s
  | .passed n =>
    let (tg, t0, s) := (s.count h 1 2).tagStep h
    let (stream, s) := s.tracked h n mask ptl
    let t := (s.home n).tile
    if mask = 0 ∨ !s.ownerStores n ∨ !s.forwards h t then
      let s := if mask = 0 then s else s.noteDiscard
      let s := s.sendCmp h (s.devLoadOf n)
      if tg then s.sample h t op 4 n t0 [true, false, false, false, false, false, true] else s
    else
      s.newStore t { id := 0, head := h, line := n, data := data, mask := mask, stream := stream,
                     region := s.regionOf n, poison := poison, ptl := ptl, tagged := tg, t0 := t0 }

/-- MEMWR (R314): a full-line store; its poison bit is stored as poison (R254). -/
def execMemwr (h : TileId) (hpa : BitVec 64) (data : Line) (poison : Bool) (s : State) :
    Host.Outcome State Fault Refusal :=
  .next (s.storeAt h hpa data (BitVec.allOnes 64) false poison)

/-- MEMWRPTL (R44, R314): a store with byte enables; with none it completes with Cmp and changes nothing. -/
def execMemwrptl (h : TileId) (hpa : BitVec 64) (data : Line) (mask : BitVec 64) (poison : Bool) (s : State) :
    Host.Outcome State Fault Refusal :=
  .next (s.storeAt h hpa data mask true poison)

/-- FORBIDDEN_MEM_MESSAGE (R314): the message is discarded and counted as a link protocol error. -/
def execForbiddenMemMessage (h : TileId) (s : State) : Host.Outcome State Fault Refusal :=
  if s.heads[h].speed = 0 then .next s
  else .next (s.modHead h fun x => { x with aerErrors := satAdd x.aerErrors 1 })

/-! ### Completions -/

/-- A response can leave a head: its link is up and IDE containment does not drop it (R313, R329). -/
def Head.sends (x : Head) : Bool := x.speed ≠ 0 && !x.ideFailed

/-- STORE_ACKNOWLEDGE (R42): the store has reached the point that its policy requires, and in a mirror pair the peer holds
it too; the receiving head sends Cmp, or drops it with its link down (R313). -/
def execStoreAcknowledge (h : TileId) (id : Nat) (s : State) : Host.Outcome State Fault Refusal :=
  let at_ := allTiles.findSome? fun (t : TileId) =>
    (s.tiles[t].d.stores.find? fun r => r.id = id && r.head = h && r.wid.isNone && r.peer.isNone && !r.internal).map (t, ·)
  match at_ with
  | none => .next s
  | some (t, r) =>
    if !r.discarded ∧ (r.phase ≠ 4 ∨ !r.peerDone) then .next s
    else
      let dl := s.devLoadOf r.line
      let s := s.storeAcked t r
      let s := if s.heads[h].sends then s.sendCmp h dl else s.modHead h fun x => { x with dropped := x.dropped + 1 }
      let path := if r.discarded then 4 else b2n r.strict + 2 * b2n r.mirrored
      let staged := !r.discarded && (r.strict || r.stream)
      let s := if r.tagged then
          s.sample h t (if r.ptl then 2 else 1) path r.line r.t0
            [true, !r.discarded, staged, staged, staged, !r.discarded && r.mirrored, true]
        else s
      .next (s.wakeLoads t)

/-- PATH of a load's sample (R651). -/
def loadPath (r : LoadReq) (poison : Bool) : Nat :=
  if poison then 7
  else match r.src with
    | .cache => 0 | .foldBuffer => 1 | .unwritten => 2
    | .staged _ _ _ _ _ => if r.rung = 0 then 3 else 5
    | .home _ _ => if r.rung = 0 then 4 else 5
    | .none => 7

/-- LOAD_RESPONSE_EGRESS (R38, R218): a load whose line is decided is answered by the head that received it, `ns` after its
ingress; after a deadline, or with the link down, the response is discarded. -/
def execLoadResponseEgress (h : TileId) (id : Nat) (ns : Nat) (s : State) : Host.Outcome State Fault Refusal :=
  match s.loads.find? fun r => r.id = id && r.head = h && r.wid.isNone && r.peer.isNone && r.forStore.isNone with
  | none => .next s
  | some r =>
    match r.result with
    | none => .next s
    | some (v, p) =>
      let s := { s with loads := s.loads.filter (·.id ≠ id) }
      if r.expired then .next (s.modHead h fun x => { x with dropped := x.dropped + 1 })
      else
        let s := if s.heads[h].sends then
            (s.sendData h (s.devLoadOf r.line) (if p then none else some v)).modHead h fun x =>
              { x with latMax := BitVec.ofNat 14 (min 16383 (max x.latMax.toNat ns)) }
          else s.modHead h fun x => { x with dropped := x.dropped + 1 }
        let s := if ns > 900 then s.count h 1 7 else s
        let media := match r.src with
          | .staged _ _ _ _ _ => true | .home _ _ => true | _ => false
        .next (if r.tagged then
          s.sample h r.owner 0 (loadPath r p) r.line r.t0 [true, true, media, media, media, media, true] else s)

/-- LOAD_DEADLINE_EXPIRY (R218, R220): no response has reached the head by 7.9 µs; it sends a poisoned completion and counts
it, and a later response will be discarded. -/
def execLoadDeadlineExpiry (h : TileId) (id : Nat) (stage : Nat) (s : State) : Host.Outcome State Fault Refusal :=
  match s.loads.find? fun r => r.id = id && r.head = h && r.wid.isNone && r.peer.isNone && r.forStore.isNone
      && !r.internal && !r.hint && !r.expired with
  | none => .next s
  | some r =>
    let s := s.modLoad id fun r => { r with expired := true }
    let dl := s.devLoadOf r.line
    let s := if s.heads[h].sends then s.sendPoison h dl 7900 else s
    let s := (s.modHead h fun x => { x with
      rdDeadline := satAdd x.rdDeadline 1
      deadlineFirst := if x.roundDeadline = 0 then BitVec.ofNat 64 (64 * r.line) else x.deadlineFirst
      deadlineOwner := if x.roundDeadline = 0 then r.owner.val else x.deadlineOwner
      deadlineStage := if x.roundDeadline = 0 then stage else x.deadlineStage
      roundDeadline := x.roundDeadline + 1 }).count h 1 3
    .next (if r.tagged then
      s.sample h r.owner 0 6 r.line r.t0 ((List.range 6).map (fun i => decide (i + 1 ≤ stage)) ++ [true]) else s)

/-! ### Global Persistent Flush (R182, R323, R324) -/

/-- Data copies of a line that are on their way to a verify: in an assembly stripe, or in a closed one. -/
def pendingCopies (d : TileData) (n : Nat) : Nat :=
  (d.asm.toList.flatten ++ d.closed.flatMap (·.entries)).countP fun e => e.kind = .data && e.line = n && !e.dead

/-- A flush starts in every tile: every Posted-dirty line is staged. It awaits every copy on its way, and for a DIRTY line the one
that is still to be appended. -/
def State.gpfStart (s : State) : State :=
  forAll s.svcTiles (fun t s =>
    let ls := s.tiles[t].d.cache.filter CLine.postedDirty
    let s := s.modD t fun d =>
      { d with gpf := some ((ls.map fun l => (l.line, pendingCopies d l.line + b2n (l.st = .dirty))).filter (·.2 ≠ 0)) }
    s.stageAll t (ls.map (·.line))) s

/-- A flush runs. -/
def State.gpfRuns (s : State) : Bool := s.svcTiles.any fun t => s.tiles[t].d.gpf.isSome

/-- Every line of the running flush has verified; a line that a release has discarded is gone (R339). -/
def State.gpfDone (s : State) : Bool :=
  s.svcTiles.all fun t => (s.tiles[t].d.gpf.getD []).all fun x => (cached s.tiles[t].d x.1).isNone

/-- GPF_PHASE1 (R323): completes at once; the part holds no CXL.cache state. -/
def execGpfPhase1 (_h : TileId) (s : State) : Host.Outcome State Fault Refusal := .next s

/-- GPF_PHASE2 (R323, R324, R337): starts a flush, or waits for the next one; outside ACTIVE and DEGRADED it completes at
once. -/
def execGpfPhase2 (h : TileId) (s : State) : Host.Outcome State Fault Refusal :=
  if s.heads[h].speed = 0 then .next s
  else
    let s := s.modHead h fun x => { x with gpfCount := x.gpfCount + 1 }
    if !s.sys.state.isServing then .next (s.modHead h fun x => { x with gpfLast := 0 })
    else if s.gpfRuns then .next (s.modHead h fun x => { x with gpfNext := x.gpfNext + 1 })
    else .next (s.modHead h fun x => { x with gpfWait := x.gpfWait + 1 }).gpfStart

/-- GPF_FLUSH_DONE (R182, R323): every line of the flush has verified, so each head that waits reports completion, `us`
after its request; requests that arrived meanwhile share the next flush, which starts at once. -/
def execGpfFlushDone (us : Vector Nat 8) (s : State) : Host.Outcome State Fault Refusal :=
  if !s.gpfRuns || !s.gpfDone then .next s
  else
    let s := forAll allTiles (fun t s => s.modD t fun d => { d with gpf := none }) s
    let s := { s with heads := vmap s.heads fun h x =>
      { x with gpfLast := if x.gpfWait = 0 then x.gpfLast else satAdd (0 : BitVec 16) us[h]
               gpfWait := x.gpfNext, gpfNext := 0 } }
    .next (if s.heads.toList.any (fun x => x.gpfWait ≠ 0) then s.gpfStart else s.sleepDrain)

end Sys2Proof.Machine
end

