-- ==== Sys2Proof/Machine/Image.lean ====
section
/-! DEFINITION. The header of a firmware image (R681) and the checks of R682 that need only the image. -/

namespace Sys2Proof.Machine

/-- `n` bytes of an image from offset `o`; past its end the slot is erased. -/
def FwImage.bytes (i : FwImage) (o n : Nat) : List Byte :=
  let l := (i.drop o).take n
  l ++ List.replicate (n - l.length) 0xFF

/-- A field of the header: its bytes, least significant first (R13). -/
def FwImage.field (i : FwImage) (o n : Nat) : Nat := leNat (i.bytes o n)

def FwImage.keySlot (i : FwImage) : Nat := i.field 6 1
def FwImage.secVersion (i : FwImage) : Nat := i.field 8 4
def FwImage.bodyLen (i : FwImage) : Nat := i.field 12 4
def FwImage.revision (i : FwImage) : List Byte := i.bytes 16 16
def FwImage.bodyHash (i : FwImage) : List Byte := i.bytes 32 48
def FwImage.pubKey (i : FwImage) : List Byte := i.bytes 80 97

/-- Check 1 of R682: MAGIC, HDR_VERSION, RSV and BODY_LEN. -/
def FwImage.formOk (i : FwImage) : Bool :=
  decide (i.field 0 4 = 0x594B5259) && decide (i.field 4 2 = 1) && decide (i.field 7 1 = 0) && decide (i.field 177 239 = 0)
    && decide (1 ≤ i.bodyLen ∧ i.bodyLen ≤ 2096640)

/-- Check 3 of R682: the signature over bytes 0 to 415 verifies under PUBKEY. SIG_R and SIG_S are numbers under R13; the point is a
byte string of SEC 1 (DEDUCED, log 102). -/
def FwImage.sigOk (i : FwImage) : Bool :=
  decide (i.pubKey.take 1 = [4]) && ecdsaOk (beNat (i.bytes 81 48)) (beNat (i.bytes 129 48)) (sha384 (i.bytes 0 416))
    (i.field 416 48) (i.field 464 48)

/-- Check 4 of R682: BODY_HASH matches the body. -/
def FwImage.bodyOk (i : FwImage) : Bool := decide (i.bodyHash = beBytes 48 (sha384 (i.bytes 512 i.bodyLen)))

end Sys2Proof.Machine
end

