-- ==== Sys2Proof/Machine/Heads.lean ====
section
/-! DEFINITION. The CXL heads outside CXL.mem (R306 to R313, R317, R321, R328 to R331, R400, R401, R593, R684): link,
configuration space, HDM decoders, Dynamic Capacity timeouts, IDE, DOE and the head resets. -/

namespace Sys2Proof.Machine

/-! ### The link (R311, R313, R335) -/

/-- HEAD_DOWN follows the enabled heads of tiles in service that are down or run at x4 (R50, R311). -/
def State.headDown (s : State) : State :=
  let low (h : TileId) (x : Head) : Bool :=
    s.enabledHeads.getLsbD h && s.inSvc h && decide (x.speed = 0 ∨ x.width = 4)
  let s := { s with heads := vmap s.heads fun h x => { x with degraded := low h x } }
  if s.heads.toList.any (·.degraded) then s.addCause .headDown else s.clearCause .headDown

/-- What a conventional reset of a head clears (R400, R401). -/
def Head.conventional (x : Head) : Head :=
  { x with
    config := [], msix := 0, vectors := [], pba := 0, doe := [], d3hot := false, spdm := false, spdmKx := false
    decoders := .replicate 4 {}, ideIo := false, ideMem := false, ideFailed := false
    trackers := .replicate 16 {}, stamp := 0, gpfWait := 0, gpfNext := 0
    mb := x.mb.map fun b => { b with dropped := b.dropped || b.doorbell } }

/-- A head's link goes down: a conventional reset of the head (R400); requests past ingress go on, and their responses
are discarded (R313). -/
def State.linkDown (s : State) (h : TileId) : State :=
  (s.modHead h fun x =>
    { x.conventional with speed := 0, width := 0, flit256 := false, lopt := false }).headDown

/-- The link of a head can train: its tile is in service, the head is enabled, and nothing holds it in electrical idle. -/
def State.headTrains (s : State) (h : TileId) : Bool :=
  s.inSvc h && s.enabledHeads.getLsbD h && !s.heads[h].idle

/-- HEAD_LINK_UP (R310, R311): the link trains in CXL mode at 8 GT/s or more and at x8 or x4; any other result leaves it
down. 68-byte flits run at 32 GT/s and below only. -/
def execHeadLinkUp (h : TileId) (speed : BitVec 4) (width : BitVec 4) (flit256 : Bool) (lopt : Bool) (s : State) :
    Host.Outcome State Fault Refusal :=
  let ok := decide (3 ≤ speed.toNat ∧ speed.toNat ≤ 6) && (width = 4 || width = 8) && (flit256 || speed.toNat < 6)
    && (flit256 || !lopt)
  if !s.headTrains h || !ok then .next s
  else
    let s := { s with clk := { s.clk with refclk := bitOn s.clk.refclk h } }
    .next (s.modHead h fun x => { x with speed := speed, width := width, flit256 := flit256, lopt := lopt }).headDown

/-- HEAD_LINK_DOWN (R313). -/
def execHeadLinkDown (h : TileId) (s : State) : Host.Outcome State Fault Refusal :=
  if s.heads[h].speed = 0 then .next s else .next (s.linkDown h)

/-- HEAD_TRAIN_RETRY (R311): a head that is enabled and down trains again; its outcome is another event. -/
def execHeadTrainRetry (_h : TileId) (s : State) : Host.Outcome State Fault Refusal := .next s.headDown

/-- HEAD_REFCLK_LOSS (R593): the head's link goes down; no other clock depends on it. -/
def execHeadRefclkLoss (h : TileId) (s : State) : Host.Outcome State Fault Refusal :=
  let s := { s with clk := { s.clk with refclk := bitOff s.clk.refclk h } }
  if s.heads[h].speed = 0 then .next s else .next (s.linkDown h)

/-! ### Power management (R331) -/

/-- D3HOT_TRANSITION (R331): D3hot stops the head's CXL.io traffic only. -/
def execD3hotTransition (h : TileId) (enter : Bool) (s : State) : Host.Outcome State Fault Refusal :=
  if s.heads[h].speed = 0 ∨ !s.sys.mbReady then .next s else .next (s.modHead h fun x => { x with d3hot := enter })

/-! ### HDM decoders (R317, R318) -/

/-- A decoder's programming is within the capabilities of R317, given the decoders below it. -/
def decoderOk (below : List Decoder) (d : Decoder) (cap : Nat) : Bool :=
  let m := 2 ^ 28
  let dpa := below.foldl (fun a x => a + x.skip + x.size / x.ways) 0 + d.skip
  (d.ways = 1 || d.ways = 2 || d.ways = 4 || d.ways = 8)
    && (([256, 512, 1024, 2048, 4096, 8192, 16384] : List Nat).contains d.gran)
    && decide (d.base % m = 0 ∧ d.size % (m * d.ways) = 0 ∧ d.skip % m = 0)
    && decide (dpa + d.size / d.ways ≤ cap ∧ d.base + d.size ≤ 2 ^ 64)
    && below.all fun x => x.committed && decide (x.base + x.size ≤ d.base)

/-- HDM_DECODER_COMMIT (R317, R318): decoders commit in ascending order; a Commit outside the capabilities leaves the decoder
uncommitted with Error Not Committed. A committed and locked decoder is left as it is. -/
def execHdmDecoderCommit (h : TileId) (n : Fin 4) (base : BitVec 64) (size : BitVec 64) (skip : BitVec 64) (ways : Nat)
    (gran : Nat) (lock : Bool) (s : State) : Host.Outcome State Fault Refusal :=
  let x := s.heads[h]
  let old := x.decoders[n]
  if x.speed = 0 ∨ !s.sys.mbReady ∨ (old.committed ∧ old.lock) then .next s
  else
    let d : Decoder :=
      { base := base.toNat, size := size.toNat, skip := skip.toNat, ways := ways, gran := gran, lock := lock }
    let above := (x.decoders.toList.drop (n.val + 1)).any (·.committed)
    let ok := decoderOk (x.decoders.toList.take n.val) d s.capacity && !above
    .next (s.modHead h fun x =>
      { x with decoders := x.decoders.set n { d with committed := ok, err := !ok, lock := lock && ok } })

/-! ### Dynamic Capacity timeouts (R321) -/

/-- DC_OFFER_TIMEOUT (R321): the head's oldest unanswered offer is withdrawn after 10 s, and the timeout is reported. -/
def execDcOfferTimeout (h : TileId) (s : State) : Host.Outcome State Fault Refusal :=
  match s.svc.offers.find? fun o => o.head = h with
  | none => .next s
  | some o => .next { s with svc := { s.svc with
      offers := s.svc.offers.erase o, dcReports := s.svc.dcReports ++ [(h, true)] } }

/-- DC_RELEASE_HOST_TIMEOUT (R321): the host has not answered the oldest release in 10 s: the timeout is reported and the
extent stays granted. -/
def execDcReleaseHostTimeout (h : TileId) (s : State) : Host.Outcome State Fault Refusal :=
  match s.svc.releases.find? fun r => r.head = h && r.awaitHost with
  | none => .next s
  | some r => .next { s with svc := { s.svc with
      releases := s.svc.releases.erase r, dcReports := s.svc.dcReports ++ [(h, false)] } }

/-! ### IDE, SPDM and DOE (R328 to R330, R684) -/

/-- IDE_INTEGRITY_FAILURE (R329): containment drops the flits, the failure is reported under AER, and the head's streams go
to insecure; no CXL.mem request is admitted until keys are re-established. -/
def execIdeIntegrityFailure (h : TileId) (mem : Bool) (s : State) : Host.Outcome State Fault Refusal :=
  let x := s.heads[h]
  if !(if mem then x.ideMem else x.ideIo) then .next s
  else .next (s.modHead h fun x =>
    { x with ideIo := false, ideMem := false, ideFailed := true, aerErrors := satAdd x.aerErrors 1 })

/-- The head's DOE mailbox answers: its link is up and configuration requests are served. -/
def State.doeUp (s : State) (h : TileId) : Bool := s.heads[h].speed ≠ 0 && s.sys.mbReady

/-- CXL_IDE_KM (R329): over a secured SPDM session, keys of the named streams are programmed or refreshed, which makes them
secure; CXL.mem requests are admitted again once the CXL.cachemem stream has keys. -/
def execCxlIdeKm (h : TileId) (io : Bool) (mem : Bool) (s : State) : Host.Outcome State Fault Refusal :=
  if !s.doeUp h || !s.heads[h].spdm then .next s
  else .next (s.modHead h fun x =>
    { x with ideIo := x.ideIo || io, ideMem := x.ideMem || mem, ideFailed := x.ideFailed && !mem })

/-- DOE_DISCOVERY (R328): Vendor ID, protocol and next index of DOE Discovery, CMA/SPDM, Secured CMA/SPDM and CDAT Table
Access, in this order; an index beyond them names no protocol. -/
def execDoeDiscovery (h : TileId) (index : BitVec 8) (s : State) : Host.Outcome State Fault Refusal :=
  if !s.doeUp h then .next s
  else
    let (vid, proto, next) := match index.toNat with
      | 0 => (0x0001, 0, 1) | 1 => (0x0001, 1, 2) | 2 => (0x0001, 2, 3) | 3 => (0x1E98, 2, 0) | _ => (0xFFFF, 0, 0)
    .next (s.modHead h fun x => { x with doe := leBytes 2 vid ++ leBytes 1 proto ++ leBytes 1 next })

/-- The running firmware image of a tile, in its fetch bank. -/
def State.runningFw (s : State) (t : TileId) : Option FwImage :=
  match s.tiles[t].cfl.fetchEn.toNat with
  | 1 => s.nv[t].fw[(0 : Fin 2)]
  | 2 => s.nv[t].fw[(1 : Fin 2)]
  | _ => none

/-- The four measurements of R684. -/
def State.measurements (s : State) : List Byte :=
  let fw := (s.runningFw s.lead).getD []
  beBytes 48 Config.romHash.toNat ++ fw.bodyHash ++ (leBytes 4 fw.secVersion ++ leBytes 4 s.tiles[s.lead].cfl.rdp.toNat)
    ++ beBytes 48 (sha384 s.cfg.record)

/-- SPDM_REQUEST (R684): the responder serves SPDM 1.2; a request outside its capabilities returns ERROR. A completed key
exchange opens the secured session. Certificates, signatures and nonces are free values. -/
def execSpdmRequest (h : TileId) (code : BitVec 8) (s : State) : Host.Outcome State Fault Refusal :=
  if !s.doeUp h then .next s
  else
    let x := s.heads[h]
    let ok := (([0x81, 0x82, 0x83, 0x84, 0xE0, 0xE1, 0xE3, 0xE4] : List (BitVec 8)).contains code)
      || (code = 0xE5 && x.spdmKx) || ((code = 0xE8 || code = 0xE9 || code = 0xEC) && x.spdm)
    if !ok then .next (s.modHead h fun x => { x with doe := ([0x12, 0x7F] : List Byte) })
    else
      let (v, s) := s.draw
      let body := if code = 0xE0 then s.measurements ++ leBytes 96 v
        else if code = 0x81 ∨ code = 0x82 ∨ code = 0x83 ∨ code = 0xE4 then leBytes 96 v else []
      .next (s.modHead h fun x =>
        { x with
          doe := ([0x12, code - 0x80] : List Byte) ++ body
          spdmKx := if code = 0xE4 then true else if code = 0xE5 then false else x.spdmKx
          spdm := if code = 0xE5 then true else if code = 0xEC then false else x.spdm })

/-- The regions that a head reports: those defined, without the replica regions of a pair that is not taken over. -/
def State.reportedRegions (s : State) : List Nat :=
  ([8, 0, 1, 2, 3, 4, 5, 6, 7] : List Nat).filter fun k =>
    recRegLen s.cfg.record k ≠ 0 && !(s.mesh.paired && s.mesh.replica.getLsbD k && !s.mesh.takenOver)

/-- The CDAT entries of a region (R330): DSMAS, four DSLBIS and DSEMTS. -/
def State.cdatRegion (s : State) (k : Nat) : List (List Byte) :=
  let r := s.cfg.record
  let handle := if k = 8 then 0 else k + 1
  let lbis (kind unit v : Nat) : List Byte :=
    leBytes 1 1 ++ leBytes 1 0 ++ leBytes 2 24 ++ leBytes 1 handle ++ leBytes 1 0 ++ leBytes 1 kind ++ leBytes 1 0
      ++ leBytes 8 unit ++ leBytes 2 v ++ leBytes 6 0
  [ leBytes 1 0 ++ leBytes 1 0 ++ leBytes 2 24 ++ leBytes 1 handle ++ leBytes 1 4 ++ leBytes 2 0
      ++ leBytes 8 (recRegBase r k) ++ leBytes 8 (recRegLen r k),
    lbis 1 1000 520,
    lbis 2 1000 (if s.svc.policies.toList.getD k false then 700 else 180),
    lbis 4 1 28000,
    lbis 5 1 12000,
    leBytes 1 4 ++ leBytes 1 0 ++ leBytes 2 24 ++ leBytes 1 handle ++ leBytes 1 1 ++ leBytes 2 0
      ++ leBytes 8 0 ++ leBytes 8 (recRegLen r k) ]

/-- CDAT_TABLE_ACCESS (R330): entry 0 is the table's header, the others are the entries in order; the response names the
next entry. Reading clears the change indication. -/
def execCdatTableAccess (h : TileId) (entry : Nat) (s : State) : Host.Outcome State Fault Refusal :=
  if !s.doeUp h then .next s
  else
    let es := s.reportedRegions.flatMap s.cdatRegion
    let len := 16 + (es.map List.length).sum
    let (seqNo, s) := s.draw
    let hdr := leBytes 4 len ++ leBytes 1 1 ++ leBytes 7 0 ++ leBytes 4 seqNo
    let sum := ((hdr ++ es.flatten).map BitVec.toNat).sum
    let hdr := putBytes hdr 5 (leBytes 1 (256 - sum % 256))
    let next := if entry < es.length then entry + 1 else 0xFFFF
    let body := if entry = 0 then hdr else es.getD (entry - 1) []
    .next (s.modHead h fun x =>
      { x with doe := leBytes 2 0 ++ leBytes 2 next ++ body, cdatChanged := false })

/-! ### Head resets (R400, R401) -/

/-- CONVENTIONAL_RESET (R400): PERST_N, hot reset or link disable: the link goes down and the head's state is cleared, and nothing of the
rest (R332). -/
def execConventionalReset (h : TileId) (s : State) : Host.Outcome State Fault Refusal :=
  if !s.inSvc h then .next s else .next (s.linkDown h)

/-- The state that Function Level Reset and CXL Reset both clear: CXL.io function state (R401). -/
def Head.functionReset (x : Head) : Head :=
  { x with
    config := [], msix := 0, vectors := [], pba := 0, doe := [], d3hot := false, ideIo := false
    mb := x.mb.map fun b => { b with dropped := b.dropped || b.doorbell } }

/-- FUNCTION_LEVEL_RESET (R400, R401). -/
def execFunctionLevelReset (h : TileId) (s : State) : Host.Outcome State Fault Refusal :=
  if s.heads[h].speed = 0 ∨ !s.sys.mbReady then .next s else .next (s.modHead h Head.functionReset)

/-- CXL_RESET (R400, R401): also the head's CXL.mem state: the HDM decoders with their locks, both IDE streams and the
stream trackers. A Phase 2 that runs goes on, and its completion for the head is discarded (R402). -/
def execCxlReset (h : TileId) (s : State) : Host.Outcome State Fault Refusal :=
  if s.heads[h].speed = 0 ∨ !s.sys.mbReady then .next s
  else .next (s.modHead h fun x =>
    { x.functionReset with
      decoders := .replicate 4 {}, ideMem := false, ideFailed := false, trackers := .replicate 16 {}
      gpfWait := 0, gpfNext := 0 })

end Sys2Proof.Machine
end

