-- ==== Sys2Proof/Machine/PowerUp.lean ====
section
/-! DEFINITION. Power-up, the fixed rails, and what a package reset keeps and clears (R382 to R384, R401, R541 to R550, R590,
R703, R704). -/

namespace Sys2Proof.Machine

/-! ### The rail dependency table (R542, R543) -/

def recRailUsed (r : List Byte) (q : Nat) : Bool := decide (q < 4) || (fieldAt r (256 + 16 * q) 1 % 2 = 1 : Bool)
def recRailReact (r : List Byte) (q : Nat) : Nat := fieldAt r (257 + 16 * q) 1
def recRailAfter (r : List Byte) (q : Nat) : BitVec 16 := BitVec.ofNat 16 (fieldAt r (258 + 16 * q) 2)
def recRailChans (r : List Byte) (q : Nat) : BitVec 32 := BitVec.ofNat 32 (fieldAt r (260 + 16 * q) 4)

/-- The used media rails. -/
def mediaRails (r : List Byte) : List Nat := ((List.range 12).map (· + 4)).filter (recRailUsed r)

/-- Rails that a rail's AFTER chain leads to, itself included. -/
def railRoots (r : List Byte) (q : Nat) : List Nat :=
  (List.range 12).foldl (fun l _ =>
    ((l ++ l.flatMap fun x => bitsOf (recRailAfter r x))).eraseDups) [q]

/-- The rails of the group of a rail (R543). -/
def railGroup (r : List Byte) (q : Nat) : List Nat := (mediaRails r).filter fun x => (railRoots r x).contains q

/-- The channels that a rail's group names. -/
def groupChans (r : List Byte) (q : Nat) : BitVec 32 :=
  (railGroup r q).foldl (fun m x => m ||| recRailChans r x) 0

/-- The rails that must be good for a channel: those whose group names it. -/
def chanRails (r : List Byte) (t : TileId) (c : ChanId) : List Nat :=
  (mediaRails r).filter fun q => (groupChans r q).getLsbD (4 * t.val + c.val)

/-- The wanted media rails whose AFTER set is good are enabled (R544). -/
def State.enableRails (s : State) : State :=
  let ready (q : Nat) : Bool := s.seq.wanted.getLsbD q && !s.seq.off.getLsbD q
    && (bitsOf (recRailAfter s.cfg.record q)).all fun x => s.seq.pg.getLsbD x
  let en := ((mediaRails s.cfg.record).filter ready).foldl (fun m q => bitOn m q) s.seq.en
  { s with seq := { s.seq with en := en } }

/-- The media rails of tiles in service are raised (R31, R544). -/
def State.raiseMedia (s : State) : State :=
  let r := s.cfg.record
  let svc (q : Nat) : Bool :=
    allTiles.any fun (t : TileId) => s.inSvc t && allChans.any fun (c : ChanId) => (groupChans r q).getLsbD (4 * t.val + c.val)
  let w := ((mediaRails r).filter svc).foldl (fun m q => bitOn m q) (0 : BitVec 16)
  { s with seq := { s.seq with wanted := w, raising := decide (w ≠ 0), lowering := false } }.enableRails

/-! ### What an interrupted store keeps (R65, R417, R430, R440) -/

/-- An interrupted parameter-store write leaves each aligned word old or new (R430); which is free. -/
def State.tornWords (s : State) (a : Nat) : List Byte → State
  | x :: y :: r =>
    let (v, s) := s.draw
    ((if v % 2 = 0 then s else s.prmPut s.lead a [x, y])).tornWords (a + 2) r
  | [x] =>
    let (v, s) := s.draw
    if v % 2 = 0 then s else s.prmPut s.lead a [x]
  | [] => s

/-- A program of a label storage sector is cut short (R417): pages programmed before hold their data; in the page being
programmed each bit that was to be cleared reads 0 or 1. -/
def State.tornLsa (s : State) (t : TileId) (op : FlashOp) (bytes : List Byte) : State :=
  let base := 4096 * (op.sector - 516)
  let done := 256 * (16 - op.pages)
  let s := s.modNv t fun v => { v with lsa := Memory.writeBytes (fun _ => 0xFF) v.lsa base (bytes.take done) }
  let (v, s) := s.draw
  let torn := ((bytes.drop done).take 256).zipIdx.map fun b => b.1 ||| BitVec.ofNat 8 (v / 256 ^ b.2)
  s.modNv t fun x => { x with lsa := Memory.writeBytes (fun _ => 0xFF) x.lsa (base + done) torn }

/-- Storage operations are cut short by PKG_RST_N or the loss of VAON: the open journal entries stay open, and the writes
that waited are lost (R416, R430, R442). -/
def State.cutStores (s : State) : State :=
  let s := match s.prm.queue with
    | [] => s
    | w :: _ => s.tornWords w.addr w.bytes
  forAll allTiles (fun t s => forAll s.tiles[t].cfl.ops.toList (fun o s =>
    match o with
    | some op => (match op.use with
      | .lsa bytes => if op.erasing then s else s.tornLsa t op bytes
      | _ => s)
    | none => s) s) s

/-- A flash operation runs to its end (R440). -/
def State.finishOp (s : State) (t : TileId) (bank : Fin 2) (op : FlashOp) : State :=
  let s := if op.erasing then
      s.modNv t fun v => eraseContent bank op (jClose v bank op.sector)
    else s
  s.modNv t (opContent bank op)

/-- Certified storage operations run to their end although input fails (R440). -/
def State.finishStores (s : State) : State :=
  let s := (forAll s.prm.queue (fun w s => s.prmWrite w.addr w.bytes) s).keyStored
  forAll allTiles (fun t s => forAll ([0, 1] : List (Fin 2)) (fun b s =>
    forAll (s.tiles[t].cfl.ops[b].toList ++ s.tiles[t].cfl.spare[b]) (fun op s => s.finishOp t b op) s) s) s

/-- Programs cut short (R65): what they were writing is undefined; whether a stripe whose programs ran has become readable
is free. -/
def State.cutPrograms (s : State) : State :=
  forAll allTiles (fun t s =>
    let s := forAll s.tiles[t].eng.ctxs (fun x s => s.cutProgram t x) s
    forAll (s.tiles[t].d.closed.filter fun x => x.placed && x.program) (fun x s =>
      let (v, s) := s.draw
      if v % 2 = 0 then s else s.modStaged t fun m => { m with stripes := m.stripes ++ [x] }) s) s

/-! ### Package reset (R382, R401) -/

/-- A package reset with its cause: every tile and package-level block restarts. What stays: the stores, the media, the
always-on domain with the seconds clock and its latches, Velvet, the fixed rails and the crystal; the buffers
of R45 are lost. BOARD_RST_N is low from
the start of the resets that R550 names; in the others it keeps its level, although SEQ_STATE.BOARD_RST has Reset 1, which
R16 would give it at every package reset (R578; DESIGN CHOICE, log 89). -/
def State.packageReset (s : State) (cause : ResetCause) (afterRail : Bool := false) : State :=
  let s := s.cutPrograms
  let board := cause = .powerOn || cause = .brownoutReturn || cause = .railSystemReset || afterRail
    || s.aon.boardFlags.getLsbD 0
  { pending := s.pending, fv := s.fv, fuses := s.fuses, nv := s.nv, media := s.media, staged := s.staged
    aon := { s.aon with flushBefore := false }
    boot := { cause := cause, afterFlush := s.aon.flushBefore, flushDone := s.aon.flushBefore && s.aon.flushComplete }
    evr := { velvet := s.evr.velvet }
    bbx := { media := s.bbx.media }
    sec := { nextDraw := s.sec.nextDraw }
    seq := { en := s.seq.en &&& 0xF, pg := s.seq.pg &&& 0xF, boardRst := board || s.seq.boardRst,
             fixedWait := s.seq.fixedWait }
    clk := { xtal := s.clk.xtal, locked := s.clk.locked }
    fab := Vector.ofFn fun i => { velvet := s.fab[i].velvet } }

/-- Input is present: VIN at or above its limit and PWRFAIL_N high (R556, R703). -/
def State.inputPresent (s : State) : Bool := !s.aon.vinLow && s.aon.pwrfailN && s.aon.inputOk

/-- The supervisor starts the fixed rails (R541, R703, R704). -/
def State.startFixed (s : State) : State :=
  if s.aon.vaon && s.inputPresent && s.clk.xtal && s.aon.pkgRstN && !s.seq.fixedWait && s.seq.en &&& 0xF = 0 then
    { s with seq := { s.seq with en := bitOn s.seq.en 0 } }
  else s

/-- Every fixed rail is disabled; the root PLL loses its supply. -/
def State.fixedOff (s : State) : State :=
  { s with seq := { s.seq with en := s.seq.en &&& 0xFFF0, pg := s.seq.pg &&& 0xFFF0 }, clk := { s.clk with locked := false } }

/-- VAON_GOOD (R382, R703): the supervisor starts with the crystal, and a POWER_ON package reset begins. -/
def execVaonGood (s : State) : Host.Outcome State Fault Refusal :=
  if s.aon.vaon then .next s
  else
    let s := { s with aon := { s.aon with vaon := true }, clk := { s.clk with xtal := true } }
    .next (s.packageReset .powerOn).startFixed

/-- XTAL_START_TIMEOUT (R704): the crystal has not started: the fixed rails stay off, and the supervisor tries again after
100 ms. -/
def execXtalStartTimeout (s : State) : Host.Outcome State Fault Refusal :=
  if !s.aon.vaon ∨ s.boot.released then .next s
  else
    let s := s.fixedOff
    .next { s with clk := { s.clk with xtal := false }, seq := { s.seq with fixedWait := true } }

/-- FIXED_RAIL_PG_TIMEOUT (R541): a fixed rail that is enabled has not become good in 5 ms: all four are disabled, for
100 ms. -/
def execFixedRailPgTimeout (rail : Fin 4) (s : State) : Host.Outcome State Fault Refusal :=
  if !s.seq.en.getLsbD rail ∨ s.seq.pg.getLsbD rail ∨ s.boot.released then .next s
  else
    let s := s.fixedOff
    .next { s with seq := { s.seq with fixedWait := true } }

/-- FIXED_RAIL_RESTART_TIMER (R541, R704): the 100 ms have passed; the sequence starts again. -/
def execFixedRailRestartTimer (s : State) : Host.Outcome State Fault Refusal :=
  if !s.seq.fixedWait then .next s
  else
    .next ({ s with seq := { s.seq with fixedWait := false }, clk := { s.clk with xtal := true } }).startFixed

/-- RAIL_POWER_GOOD (R541, R544, R547): a rail that is enabled shows SEQ_PG, and the rails that this satisfies are enabled on
the same edge. A media rail that a RETRY re-enabled has succeeded when it shows SEQ_PG (INFO event 0x5012); its channels
are initialised again before they serve. -/
def execRailPowerGood (rail : Fin 16) (s : State) : Host.Outcome State Fault Refusal :=
  if !s.seq.en.getLsbD rail ∨ s.seq.pg.getLsbD rail then .next s
  else
    let s := { s with seq := { s.seq with pg := bitOn s.seq.pg rail, ignored := bitOff s.seq.ignored rail } }
    if rail.val < 3 then .next { s with seq := { s.seq with en := bitOn s.seq.en (rail.val + 1) } }
    else if rail.val = 3 then .next s
    else
      let s := s.enableRails
      let s := { s with seq := { s.seq with raising := s.seq.raising && decide (s.seq.wanted &&& ~~~s.seq.pg &&& ~~~s.seq.off ≠ 0) } }
      if s.seq.retryRail = some rail.val then
        .next ({ s with seq := { s.seq with retryRail := none } }.raise
          (mkEv 0x5012 .info 15 0 [(1, rail.val)]))
      else .next s

/-- ROOT_PLL_LOCK (R590): the root PLL locks with the fixed rails good. -/
def execRootPllLock (s : State) : Host.Outcome State Fault Refusal :=
  if s.clk.xtal && s.seq.pg &&& 0xF = 0xF && !s.clk.holdover then .next { s with clk := { s.clk with locked := true } }
  else .next s

/-- PACKAGE_RESET_RELEASE (R383): with the fixed rails good, PKG_RST_N high and the PLL locked, every tile starts its
self-test and the self-test window opens. -/
def execPackageResetRelease (s : State) : Host.Outcome State Fault Refusal :=
  if s.boot.released || !s.aon.vaon || s.seq.pg &&& 0xF ≠ 0xF || !s.aon.pkgRstN || !s.clk.locked then .next s
  else .next { s with
    boot := { s.boot with released := true, phase := 1 }, sys := { s.sys with windowOpen := true } }

/-- BOARD_RST_STRETCH_END (R550): BOARD_RST_N rises. -/
def execBoardRstStretchEnd (s : State) : Host.Outcome State Fault Refusal :=
  if s.boot.released then .next { s with seq := { s.seq with boardRst := false } } else .next s

/-- PKG_RST_N_FALL (R384, R704): during FLUSHING the reset is deferred; while the fixed rails are rising they are lowered and
the reset keeps its cause; else a package reset with cause PKG_RESET_PIN starts, MEDRST_N asserted on the same edge. -/
def execPkgRstNFall (s : State) : Host.Outcome State Fault Refusal :=
  let s := { s with aon := { s.aon with pkgRstN := false } }
  if !s.aon.vaon then .next s
  else match s.flush with
    | some f => .next { s with flush := some { f with pkgRst := true } }
    | none =>
      if !s.boot.released && s.seq.pg &&& 0xF ≠ 0xF then .next s.fixedOff
      else .next (s.cutStores.packageReset .pkgResetPin)

/-- PKG_RST_N_RISE (R384, R704): release may follow under R383; fixed rails that were lowered start again. -/
def execPkgRstNRise (s : State) : Host.Outcome State Fault Refusal :=
  .next ({ s with aon := { s.aon with pkgRstN := true } }).startFixed

end Sys2Proof.Machine
end

