-- ==== Sys2Proof/Machine/Boot.lean ====
section
/-! DEFINITION. Phases 1 to 3 of the bring-up (R26 to R33, R385 to R389, R407, R408, R433, R439, R597, R639). -/

namespace Sys2Proof.Machine

/-! ### Phase 1: self-test and lead election -/

/-- TILE_SELFTEST_DONE (R26, R28): a fitted tile reports its pass line and fused serial number while the window is open. -/
def execTileSelftestDone (t : TileId) (pass : Bool) (s : State) : Host.Outcome State Fault Refusal :=
  if !s.sys.windowOpen || !pass || !(fittedMask s.fuses.variant).getLsbD t then .next s
  else .next { s with sys := { s.sys with
    passLines := bitOn s.sys.passLines t, reported := s.sys.reported.set t s.fuses.serials[t] } }

/-- The reference serial number (R26): the one that most passing tiles report; among equal counts, that of the lowest tile. -/
def State.refSerial (s : State) : Option (BitVec 64) :=
  let l := (allTiles.filter fun (t : TileId) => s.sys.passLines.getLsbD t).map fun (t : TileId) => s.sys.reported[t]
  let n (x : BitVec 64) := (l.filter (· = x)).length
  l.foldl (fun b x => match b with
    | none => some x
    | some y => if n x > n y then some x else some y) none

/-- SELFTEST_WINDOW_CLOSE (R26, R29 to R33): SELFTEST_PASS and LEAD are latched; without a passing tile there is no lead, and
every head stays in electrical idle. The heads of the passing tiles may train; the ports of a tile that failed are disabled. -/
def execSelftestWindowClose (s : State) : Host.Outcome State Fault Refusal :=
  if !s.sys.windowOpen then .next s
  else
    let ref := s.refSerial
    let pass := (allTiles.filter fun (t : TileId) => s.sys.passLines.getLsbD t && some s.sys.reported[t] = ref).foldl
      (fun m t => bitOn m t.val) (0 : BitVec 8)
    let lead := (bitsOf pass).head?.map toTile
    let s := { s with
      sys := { s.sys with windowOpen := false, selftestPass := pass, inService := pass, lead := lead,
                          noLead := lead.isNone }
      heads := vmap s.heads fun h x => { x with idle := !pass.getLsbD h } }
    let s := s.portsOff
    if lead.isNone then .next s
    else
      let bp := ((twinRead (s.prmPage 2)).1.getD []).headD 0
      .next { s with boot := { s.boot with phase := 2 }, prm := { s.prm with bp := BitVec.ofNat 2 bp.toNat } }

/-! ### Phase 2: the option area -/

/-- Default words of the option area (R407); level 1 for entry 1. -/
def optDefault : List (BitVec 16) := [0x0001, 0x0000, 0x6250, 0x0000]

/-- Entry i of a tile's option area checks (R408): its inverse half complements its word, and FORMAT is 0x0001. -/
def optOk (words : List (BitVec 32)) (i : Nat) : Bool :=
  let w := words.getD i 0xFFFFFFFF
  decide (w.toNat / 65536 = 65535 - w.toNat % 65536) && (i ≠ 0 || decide (w.toNat % 65536 = 1))

/-- The level of readout protection of an option word; a fuse overrides it (R407, R408). -/
def rdpLevel (fuse : Bool) (w : BitVec 16) : BitVec 2 := if fuse ∨ w = 0x3CC3 then 2 else if w = 0x5AA5 then 0 else 1

/-- OPTION_AREA_READ (R407, R408): the lead's option area governs; a defined entry that fails takes its default, sets its
MISMATCH bit and raises ERROR event 0x7001. -/
def execOptionAreaRead (s : State) : Host.Outcome State Fault Refusal :=
  if s.sys.lead.isNone ∨ s.boot.optRead ∨ s.boot.phase ≠ 2 then .next s
  else
    let v := s.nv[s.lead]
    let words := if sectorDefined v (sectorKey 0 1024) then v.opt else []
    let bad := ([0, 1, 2, 3] : List Nat).filter fun i => !optOk words i
    let word (i : Nat) : BitVec 16 :=
      if bad.contains i then optDefault.getD i 0 else (words.getD i 0).truncate 16
    let s := forAll bad (fun i s => s.raise (mkEv 0x7001 .error s.lead 0 [(1, i)])) s
    let s := forAll allTiles (fun t s => s.modCfl t fun c =>
      { c with rdp := rdpLevel s.fuses.rdpFuse (word 1)
               mismatch := if t = s.lead then bad.foldl (fun m i => bitOn m i) 0 else c.mismatch }) s
    .next { s with
      cfg := { s.cfg with optWords := #v[word 0, word 1, word 2, word 3] }
      clk := { s.clk with compMode := (word 3).getLsbD 1 }
      boot := { s.boot with optRead := true, holdReason := if bad = [] then 0 else 1 } }

/-! ### Phase 3: firmware -/

/-- Check 2 of R682: PUBKEY is the key whose hash the fuses hold in KEY_SLOT, and the slot is not revoked. -/
def State.fwKeyOk (s : State) (i : FwImage) : Bool :=
  if h : i.keySlot < 4 then
    s.fuses.programmed.getLsbD i.keySlot && !s.fuses.revoked.getLsbD i.keySlot
      && decide (s.fuses.keyHash[i.keySlot].toNat = sha384 i.pubKey)
  else false

/-- The number of the first check of R682 that an image fails. -/
def State.fwFails (s : State) (i : FwImage) : Option Nat :=
  if !i.formOk then some 1
  else if !s.fwKeyOk i then some 2
  else if !i.sigOk then some 3
  else if !i.bodyOk then some 4
  else if i.secVersion < (s.ladder 10).1 then some 5
  else none

/-- The outcome of the checks of R682: none, FW_SIGNATURE (0x01A0) or FW_ROLLBACK (0x01A1). -/
def State.fwCheck (s : State) (i : FwImage) : Option Nat := (s.fwFails i).map fun n => if n = 5 then 0x01A1 else 0x01A0

/-- Every sector of a tile's firmware slot is defined (R417); slot 1 lies in bank A, slot 2 in bank B. -/
def slotDefined (v : TileNv) (slot : Nat) : Bool :=
  let b := slot - 1
  let inSlot (k : Nat) : Bool := decide (sectorKey b 0 ≤ k ∧ k < sectorKey b 512)
  !((openKeys v).any inSlot) && !(v.tags.any fun e => inSlot e.1 && erasesOf v e.1 = 0)

/-- The image of a tile's slot, where the slot is not empty. -/
def State.slotImage (s : State) (t : TileId) (slot : Nat) : Option FwImage :=
  if slotDefined s.nv[t] slot then s.nv[t].fw[(if slot = 2 then 1 else 0 : Fin 2)] else none

/-- A tile's copy of a slot verifies (R385, R682). -/
def State.slotOk (s : State) (t : TileId) (slot : Nat) : Bool :=
  match s.slotImage t slot with
  | some i => (s.fwCheck i).isNone
  | none => false

/-- Content of the boot-select twin: ACTIVE_SLOT, PENDING_SLOT, TRIAL and the RDP_ERASE mark; the defaults of R432 when
no copy is valid. -/
def State.bootSelect (s : State) : List Byte := (twinRead (s.prmPage 1)).1.getD ([1, 0, 0, 0] : List Byte)

/-- The firmware of a tile starts from a slot. -/
def State.startFw (s : State) (t : TileId) (slot : Nat) : State :=
  ({ s with sys := { s.sys with fwRunning := bitOn s.sys.fwRunning t } }).modCfl t fun c =>
    { c with fetchEn := BitVec.ofNat 2 slot }

/-- The trial confirms (R386, R683): on the first entry into ACTIVE, DEGRADED or CONFIG_HOLD under the new image; the
anti-rollback ladder advances. Refused by the supply check it is retried (R440). -/
def State.confirmTrial (s : State) : State :=
  if !s.boot.trial then s
  else if !s.supplyOk 100 1 then
    { s.supplyRefused with cfg := { s.cfg with
        deferred := if s.cfg.deferred.contains 3 then s.cfg.deferred else s.cfg.deferred ++ [3] } }
  else
    let c := s.bootSelect
    let s := s.twinWrite 1 (putBytes c 0 ([c.getD 1 0, 0, 0] : List Byte))
    let v := ((s.runningFw s.lead).map FwImage.secVersion).getD 0
    let s := if v > (s.ladder 10).1 then s.ladderAdvance 10 v else s
    { s with boot := { s.boot with trial := false }, cfg := { s.cfg with deferred := s.cfg.deferred.filter (· ≠ 3) } }

/-! #### What phase 3 reads from the stores -/

/-- The store of a tile whose ladder or twin is newest is copied to the other tiles in service (R433). -/
def State.syncPages (s : State) (val : State → TileId → Nat) (page n : Nat) : State :=
  let best := s.svcTiles.foldl (fun b t => if val s t > val s b then t else b) s.lead
  let bs := s.prmBytes best (64 * page) n
  forAll (s.svcTiles.filter fun t => s.prmBytes t (64 * page) n ≠ bs) (fun t s => s.prmPut t (64 * page) bs) s

/-- GEN of a tile's key set: the higher of its valid copies. -/
def keyGen (v : TileNv) : Nat :=
  max ((v.keys[0].map (·.gen.toNat)).getD 0) ((v.keys[1].map (·.gen.toNat)).getD 0)

/-- Every standby page is brought up to the newest copy among the tiles in service (R431, R433). -/
def State.syncStandby (s : State) : State :=
  let s := forAll ([4, 6, 8, 10, 12] : List Nat) (fun p s =>
    s.syncPages (fun s t => (ladderRead (s.prmBytes t (64 * p) 128)).1) p 128) s
  let s := forAll ([1, 3, 14] : List Nat) (fun p s =>
    s.syncPages (fun s t => twinGen (s.prmBytes t (64 * p) 64)) p 64) s
  let best := s.svcTiles.foldl (fun b t => if keyGen s.nv[t] > keyGen s.nv[b] then t else b) s.lead
  forAll (s.svcTiles.filter (· ≠ best)) (fun t s => s.modNv t fun v => { v with keys := s.nv[best].keys }) s

/-- A complete PF_END of the boot numbered `b` is held in the black box (R561). -/
def State.pfEndHeld (s : State) (b : Nat) : Bool :=
  s.bbHeld.any fun e => e.2.kind = 3 && e.2.body.toNat % 2 ^ 32 = b % 2 ^ 32 && e.2.body.getLsbD 32

/-- The ladders of phase 3 advance (R439, R561): Boots, Power cycles after POWER_ON, and Dirty shutdowns. -/
def State.advanceBoot (s : State) : State :=
  let b := s.boots
  let power := decide (s.boot.cause = .powerOn)
  let dirty := (s.boot.afterFlush && !s.boot.flushDone) || (power && decide (b ≠ 0) && !s.pfEndHeld b)
  let none_ := ([4, 6, 8, 10, 12] : List Nat).filter fun p => (s.ladder p).2.isNone
  let s := forAll none_ (fun p s => s.raise (mkEv 0x7032 .warn s.lead 0 [(1, p)])) s
  let s := s.ladderAdvance 6 (b + 1)
  let s := if power then s.ladderAdvance 4 ((s.ladder 4).1 + 1) else s
  if dirty then s.ladderAdvance 8 ((s.ladder 8).1 + 1) else s

/-- Twins that conflict or have no valid copy (R432): WARN, or ERROR for a password twin without a valid copy. -/
def State.judgeTwins (s : State) : State :=
  forAll ([1, 2, 3] : List Nat) (fun p s =>
    let (c, conflict) := twinRead (s.prmPage p)
    if conflict then s.raise (mkEv 0x7031 .warn s.lead 0 [(1, p)])
    else if c.isNone ∧ p = 3 then s.raise (mkEv 0x7031 .error s.lead 0 [(1, p)])
    else s) s

/-- The valid hold-up records (R555), with their pages. -/
def State.holdRecords (s : State) : List (List Byte) :=
  ((List.range 16).map fun k => s.prmPage (16 + k)).filter fun r =>
    fieldAt r 0 4 ≠ 0 && decide ((crc16 (r.take 62)).toNat = fieldAt r 62 2)

/-- The capacitance comes from the newest valid hold-up record (R555), and after a loss of VAON the seconds clock restarts
above the newest MEASURED_AT (R597). -/
def State.readHoldup (s : State) : State :=
  let rs := s.holdRecords
  let newest := rs.foldl (fun b r => if fieldAt r 0 4 ≥ fieldAt b 0 4 then r else b) []
  let s := { s with hld := { s.hld with cap := BitVec.ofNat 32 (fieldAt newest 8 4), lastAt := BitVec.ofNat 32 (fieldAt newest 4 4), report := newest } }
  if s.aon.vaonLost then
    let m := rs.foldl (fun m r => max m (fieldAt r 4 4 + 1)) 1
    { s with aon := { s.aon with seconds := BitVec.ofNat 32 m, vaonLost := false }, clk := { s.clk with seeded := true } }
  else s

/-- The recorder is rebuilt from the flush area, and the records held in Velvet are added (R639). -/
def State.rebuildRecorder (s : State) : State :=
  let v := s.nv[s.lead]
  let kept := v.evFlash.filter fun e => sectorDefined v (sectorKey 1 (768 + e.1 / 128))
  let dist (k : Nat) : Nat := (v.evPos + 32768 - 1 - k) % 32768
  let near := sortBy (fun (a b : Nat × EventRec) => decide (dist a.1 ≤ dist b.1)) kept
  -- of two slots with one SEQ the nearest before the write position stays
  let one := near.foldl (fun (l : List EventRec) e => if l.any fun r => r.seq = e.2.seq then l else l ++ [e.2]) []
  let clash := near.any fun e => one.any fun r => r.seq = e.2.seq && r ≠ e.2
  let recs := sortBy (fun (a b : EventRec) => decide (a.seq ≤ b.seq)) one
  let (e, lost) := recs.foldl (fun (acc : Evr × Vector (BitVec 16) 4) r =>
    match acc.1.enter { r with reloaded := true } with
    | some e => (e, acc.2)
    | none => (acc.1, vmod acc.2 r.sev.idx (satAdd · 1))) (s.evr, .replicate 4 0)
  let marker := (recs.filter fun r => r.code = 0x7073).getLast?
  let high := recs.foldl (fun m r => max m r.seq) 0
  let drops := Vector.ofFn fun (i : Fin 4) => match marker with
    | some m => satAdd lost[i] (m.addr.toNat / 65536 ^ i.val % 65536 + m.args.toNat / 256 ^ i.val % 256)
    | none => lost[i]
  let next := max (high + 1) (match marker with | some m => m.seq + 65536 + 1 | none => 1)
  let e := { e with
    held := e.held.map fun h => { h with flushed := true }
    drops := drops, nextSeq := next, limit := next + 65535, velvet := [] }
  let e := s.evr.velvet.foldl (fun e r => e.assign { r with held := true }) e
  let s := { s with evr := e }
  if clash then s.raise (mkEv 0x7072 .warn s.lead 0) else s

/-- The write position of the black box: the slot after that of the highest SEQ (R642, R644). -/
def State.bbStart (s : State) : State :=
  let best := s.bbHeld.foldl (fun (b : Option (Nat × BBRec)) e => match b with
    | none => some e
    | some x => if e.2.seq.toNat ≥ x.2.seq.toNat then some e else b) none
  { s with bbx := { s.bbx with pos := match best with | some e => (e.1 + 1) % 1024 | none => 0 } }

/-- The FATAL records that were held in Velvet reach the black box (R639, R640). -/
def State.bbHeldFatal (s : State) : State :=
  forAll (s.evr.held.filter fun h => h.r.held && !h.flushed && h.r.sev = .fatal)
    (fun (h : HeldRec) s => s.bbWrite 1 (leNat (evBytes h.r))) s

/-- The work of phase 3 on the stores (R433, R439, R555, R597, R639, R676). -/
def State.phase3 (s : State) : State :=
  let s := s.syncStandby.advanceBoot.judgeTwins.readHoldup.rebuildRecorder.bbStart.bbHeldFatal
  let bp := ((twinRead (s.prmPage 2)).1.getD []).headD 0
  let keys := s.nv[s.lead].keys
  let user := match keys[(0 : Fin 2)], keys[(1 : Fin 2)] with
    | some a, some b => if b.gen.toNat > a.gen.toNat then b.userPw else a.userPw
    | some a, none => a.userPw
    | none, some b => b.userPw
    | none, none => none
  { s with
    prm := { s.prm with bp := BitVec.ofNat 2 bp.toNat }
    sec := { s.sec with locked := user.isSome }
    sys := { s.sys with mbReady := true } }

/-- FIRMWARE_SLOT_CHOICE (R373, R385, R388): the ROM of the lead finds a set RDP_ERASE mark before anything else; else it
chooses a slot by the boot-select record and verifies it, tries the other slot, or runs the recovery loader. -/
def execFirmwareSlotChoice (s : State) : Host.Outcome State Fault Refusal :=
  if s.sys.lead.isNone ∨ !s.boot.optRead ∨ s.boot.slotChosen ∨ s.svc.rdpPending then .next s
  else
    let c := s.bootSelect
    let active := if (c.getD 0 1).toNat = 2 then 2 else 1
    let pending := (c.getD 1 0).toNat
    let trial := (c.getD 2 0).toNat
    if c.getD 3 0 = 0xA5 then .next { s with svc := { s.svc with rdpPending := true } }
    else
      let s := { s with boot := { s.boot with phase := 3, slotChosen := true } }
      -- the record update is durable before the image starts; dropped, the ACTIVE slot boots (R440)
      let ok := s.supplyOk 50 1
      let (slot, trialNow, s) :=
        if pending ≠ 0 ∧ trial = 0 then
          if ok then (pending, true, s.twinWrite 1 (putBytes c 2 ([1] : List Byte))) else (active, false, s.supplyRefused)
        else if pending ≠ 0 then
          let s := if ok then s.twinWrite 1 (putBytes c 1 ([0, 0] : List Byte)) else s.supplyRefused
          (active, false, s.raise (mkEv 0x7041 .warn s.lead 0 [(1, active)]))
        else (active, false, s)
      let other := 3 - slot
      if s.slotOk s.lead slot then
        .next ({ s with boot := { s.boot with slot := BitVec.ofNat 2 slot, trial := trialNow } }.startFw s.lead slot)
      else if s.slotOk s.lead other then
        let s := s.raise (mkEv 0x7040 .warn s.lead 0 [(1, slot)])
        .next ({ s with boot := { s.boot with slot := BitVec.ofNat 2 other, fallback := true } }.startFw s.lead other)
      else
        let s := { s with boot := { s.boot with recovery := true, slot := 0 } }
        .next (s.phase3.fail .firmwareFatal)

/-- The rewrite of a tile's firmware slot. -/
def isRewrite : FlashUse → Bool
  | .firmware _ _ => true
  | _ => false

/-- TILE_FIRMWARE_VERIFY (R387): a tile verifies its own copy of the lead's slot and starts; a copy that fails is rewritten
from the lead's, after a supply check, with WARN event 0x7042. -/
def execTileFirmwareVerify (t : TileId) (s : State) : Host.Outcome State Fault Refusal :=
  let slot := s.boot.slot.toNat
  if !s.boot.slotChosen || s.boot.recovery || !s.inSvc t || t = s.lead || s.sys.fwRunning.getLsbD t
    || s.flashBusy isRewrite then .next s
  else if s.slotOk t slot then .next (s.startFw t slot)
  else if !s.supplyOk 8000000 1 then .next s.supplyRefused
  else
    let bank : Fin 2 := if slot = 2 then 1 else 0
    let img := (s.slotImage s.lead slot).getD []
    let s := s.raise (mkEv 0x7042 .warn t 0 [(1, slot)])
    .next (s.flashStart t bank { sector := 0, erasing := true, pages := 8192, use := .firmware slot img })

/-- TILE_FIRMWARE_REWRITE_DONE (R387): the bank is rewritten and the tile starts. -/
def execTileFirmwareRewriteDone (t : TileId) (s : State) : Host.Outcome State Fault Refusal :=
  let slot := s.boot.slot.toNat
  let bank : Fin 2 := if slot = 2 then 1 else 0
  match s.tiles[t].cfl.ops[bank] with
  | some op =>
    if op.use = .firmware slot ((s.slotImage s.lead slot).getD []) ∧ !s.sys.fwRunning.getLsbD t ∧ !s.boot.recovery then
      .next (((s.finishOp t bank op).flashNext t bank).startFw t slot)
    else .next s
  | none => .next s

/-- RECOVERY_RESTART_TIMER (R388): within 100 ms of an Activate FW under the recovery loader the part resets. -/
def execRecoveryRestartTimer (s : State) : Host.Outcome State Fault Refusal :=
  if s.svc.recoveryRestart && s.svc.waiting.isNone then .next (s.finishStores.packageReset .recoveryRestart) else .next s

/-- MAILBOX_READY (R389, R408, R433): phase 3 ends with firmware running in every tile in service. The part enters MEDIA_INIT,
or CONFIG_HOLD with HOLD_REASON 0x1 after an option mismatch. -/
def execMailboxReady (s : State) : Host.Outcome State Fault Refusal :=
  if s.sys.state ≠ .boot ∨ s.sys.mbReady ∨ !s.boot.slotChosen ∨ s.boot.recovery
    ∨ (s.svcTiles.any fun t => !s.sys.fwRunning.getLsbD t) then .next s
  else
    let s := s.phase3
    if s.boot.holdReason = 1 then .next (s.configHold 1).confirmTrial
    else .next ({ s with boot := { s.boot with phase := 4 } }.setDev .mediaInit)

end Sys2Proof.Machine
end

