-- ==== Sys2Proof/Machine/Record.lean ====
section
/-! DEFINITION. The checks of a record image (R418 to R421, R542, R549) and of Gait override images (R284, R289), and what a
record's override containers give (R91, R419). -/

namespace Sys2Proof.Machine

/-! ### Format (DCR_FORMAT) -/

/-- Bytes of a range are all zero. -/
def zeroAt (r : List Byte) (o n : Nat) : Bool := (bytesAt r o n).all (· = 0)

/-- Entries of a list are distinct. -/
def distinct (l : List Nat) : Bool := l.eraseDups.length = l.length

/-- The fixed fields of R418 lie in their ranges and reserved bits are zero; MIRROR is not judged (R510). -/
def recFieldsOk (r : List Byte) : Bool :=
  let f (o n : Nat) : Nat := fieldAt r o n
  let inR (v a b : Nat) : Bool := decide (a ≤ v ∧ v ≤ b)
  zeroAt r 6 2 && zeroAt r 12 4 && inR (f 8 4) 1 0xFFFFFFFE && inR (f 16 1) 2 8 && (f 17 1 = 2 || f 17 1 = 4)
    && decide (f 18 3 / 8 ^ recT r = 0) && distinct (recTiles r) && inR (f 23 1) 0 63
    && inR (f 32 4) 4096 65536 && decide (f 32 4 % 256 = 0)
    && ((List.range 8).all fun t => inR (recScratch r t) 0 8 && inR (recOffPairs r t) 0 6
          && decide (f (36 + t) 1 < 128 ∧ 16 - recScratch r t - 2 * recOffPairs r t ≥ 4))
    && inR (f 44 1) 0 1 && inR (f 45 1) 1 8 && inR (f 46 1) 1 15 && inR (f 47 1) 1 15 && inR (f 48 1) 1 15
    && zeroAt r 49 1 && inR (f 50 2) 1 720 && inR (f 52 2) 1 720 && zeroAt r 54 2
    && decide (f 56 2 / 128 % 2 = 0 ∧ f 56 2 < 32768) && inR (f 58 2) 0 3 && zeroAt r 60 4
    && ((List.range 4).all fun k => inR (recSlice r k) 0 1024) && inR (sliceRows r) 0 2048 && zeroAt r 72 8
    && inR (f 244 1) 0 1 && zeroAt r 245 11

/-- The region entries of R418: ranges, reserved bits, and DC regions after region 8 in ascending order (R319, R420). -/
def recRegionsOk (r : List Byte) : Bool :=
  let e (k : Nat) : Nat := 80 + 16 * k
  let one (k : Nat) : Bool :=
    let dc := decide (k < 8)
    (if dc then decide (fieldAt r (e k + 8) 1 ≤ 3) else zeroAt r (e k + 8) 1 && zeroAt r (e k) 4)
      && decide (recRegFlags r k < (if dc then 4 else 2)) && decide (recRegSlice r k ≤ 4)
      && (!dc || zeroAt r (e k + 11) 1) && zeroAt r (e k + 12) 4
      && decide (recRegBase r k % (if dc then recRegBlock r k else 1) = 0
           ∧ recRegLen r k % (if dc then recRegBlock r k else 1) = 0)
  let order := (List.range 8).foldl (fun (a : Bool × Nat) k =>
    if recRegLen r k = 0 then a else (a.1 && decide (a.2 ≤ recRegBase r k), recRegBase r k + recRegLen r k))
    (true, recRegLen r 8)
  (List.range 9).all one && order.1

/-- The rail entries of R542. -/
def recRailsOk (r : List Byte) : Bool :=
  (List.range 16).all fun q =>
    let o := 256 + 16 * q
    let ramp := fieldAt r (o + 8) 2
    if q < 4 then zeroAt r (o + 2) 14 && (fieldAt r (o + 1) 1 = 3 || zeroAt r o 16)
    else if fieldAt r o 1 = 0 then zeroAt r o 16
    else fieldAt r o 1 = 1 && decide (recRailReact r q ≤ 3 ∧ 100 ≤ ramp ∧ ramp ≤ 20000) && recRailChans r q ≠ 0
      && zeroAt r (o + 10) 6 && (bitsOf (recRailAfter r q)).all (fun x => decide (4 ≤ x) && recRailUsed r x)
      && !((bitsOf (recRailAfter r q)).any fun x => (railRoots r x).contains q)

/-- The layout channels of a record: those of its tiles, all four or channels 0 and 1 (R420). -/
def recLayoutChans (r : List Byte) : List (TileId × ChanId) :=
  (recTiles r).flatMap fun t => (allChans.filter fun (c : ChanId) => decide (c.val < recC r)).map (toTile t, ·)

/-- A DIE_MAP value holds eight distinct positions from 0 to 8. -/
def dieMapOk (m : BitVec 32) : Bool :=
  let l := (List.range 8).map fun d => m.toNat / 16 ^ d % 16
  distinct l && l.all (· ≤ 8)

/-- The payload of a table override holds its fields in their ranges and its reserved bits are zero (R88, R89, R419). -/
def payloadOk (ty : Nat) (p : List Byte) : Bool :=
  let word (o : Nat) : Nat := fieldAt p o 4
  if ty = 1 then
    decide (fieldAt p 0 1 < 6 ∧ fieldAt p 1 1 < 16) && zeroAt p 2 2 && (List.range 4).all fun k => decide (fieldAt p (4 + 2 * k) 2 < 4096)
  else if ty = 2 then
    decide (fieldAt p 0 1 < 6 ∧ fieldAt p 1 1 < 4) && zeroAt p 2 2 && (List.range 4).all fun l =>
      let o := 4 + 16 * l
      ((List.range 3).all fun k => decide (word (o + 4 * k) < 2 ^ 26)) && decide (fieldAt p (o + 12) 2 < 2 ^ 13
        ∧ 1 ≤ fieldAt p (o + 14) 1 ∧ fieldAt p (o + 14) 1 ≤ 15 ∧ fieldAt p (o + 15) 1 ≤ 63)
  else true

/-- The containers of OVERRIDES (R419), in order, or none when one is malformed; `n` bounds their number. -/
def containersFrom (r : List Byte) : Nat → Nat → Option (List (List Byte))
  | 0, _ => some []
  | n + 1, o =>
    if o + 8 > 4092 ∨ fieldAt r o 1 = 0 then some []
    else
      let len := fieldAt r (o + 6) 2
      let ty := fieldAt r o 1
      let okLen := (ty = 1 && len = 12) || (ty = 2 && len = 68)
        || (ty = 3 && decide (8 ≤ len ∧ len = 4 + 4 * fieldAt r (o + 10) 1))
      let okHead := zeroAt r (o + 3) 1 && decide (fieldAt r (o + 2) 1 < 16 ∧ fieldAt r (o + 4) 2 < 512)
        && (ty ≠ 3 || (zeroAt r (o + 2) 1 && zeroAt r (o + 4) 2)) && payloadOk ty (bytesAt r (o + 8) len)
      if !okLen || !okHead || decide (o + 8 + len > 4092) then none
      else (containersFrom r n (o + 8 + len)).map ((bytesAt r o (8 + len)) :: ·)

def recContainers (r : List Byte) : Option (List (List Byte)) := containersFrom r 200 1792

/-- The format rules of R420, but for the sequence rule of R421. -/
def recFormatOk (r : List Byte) : Bool :=
  recIdOk r && recFieldsOk r && recRegionsOk r && recRailsOk r
    && ((recLayoutChans r).all fun x => dieMapOk (recDieMap r x.1 x.2)) && (recContainers r).isSome

/-! ### Consistency (DCR_INCONSISTENT) -/

/-- DIE_IDS are all zero. -/
def recNoMedia (r : List Byte) : Bool := zeroAt r 512 1152

/-- The record names tile `t` in TILE_LIST, CACHE, SPARE_ARM or DIE_IDS. -/
def recNames (r : List Byte) (t : TileId) : Bool :=
  (recTiles r).contains t.val || !zeroAt r (36 + t) 1 || decide ((recSpareArm r).toNat / 16 ^ t.val % 16 ≠ 0)
    || !zeroAt r (512 + 144 * t) 144

/-- The record contradicts the fitted tiles or itself (R308, R420, R542), whatever tiles are in service. A record that lists
no media and no rails is judged only by what it lists. -/
def recContradicts (v : Variant) (r : List Byte) : Bool :=
  let chans := recLayoutChans r
  let out (t : TileId) (c : ChanId) : Bool := !chans.contains (t, c)
  (allTiles.any fun (t : TileId) => recNames r t && !(fittedMask v).getLsbD t)
    || decide (recMgmt r &&& recHeads r = 0)
    || (!recNoMedia r && chans.any fun x => (List.range 8).any fun p => recDieId r x.1 x.2 p = 0)
    || (allTiles.any fun (t : TileId) => allChans.any fun (c : ChanId) => out t c &&
          (!zeroAt r (512 + 4 * (36 * t.val + 9 * c.val)) 36
            || decide (recDieMap r t c ≠ 0 ∧ recDieMap r t c ≠ 0x76543210)))
    || ((List.range 9).any fun k => recRegSlice r k ≠ 0 && recSlice r (recRegSlice r k - 1) = 0)
    || ((List.range 9).any fun k => recRegLen r k ≠ 0 && decide (recRegBase r k + recRegLen r k > capacityOf r))
    || ((mediaRails r).any fun q => (bitsOf (recRailChans r q)).any fun i => out (toTile (i / 4)) (toChan i))
    || (!(recNoMedia r && mediaRails r = []) && chans.any fun x =>
          !((mediaRails r).any fun q => (recRailChans r q).getLsbD (4 * x.1.val + x.2.val)))

/-- The record names a tile that is not in service. -/
def State.recAbsentTile (s : State) (r : List Byte) : Bool := allTiles.any fun (t : TileId) => recNames r t && !s.inSvc t

/-- DCR_INCONSISTENT of R420 for an image. -/
def State.recInconsistent (s : State) (r : List Byte) : Bool := recContradicts s.fuses.variant r || s.recAbsentTile r

/-! ### The record copies (R417, R421, R424) -/

/-- A copy of a tile is valid: its sector is defined, its CRC checks, and it names itself a record. -/
def copyValid (v : TileNv) (bank : Fin 2) : Bool :=
  sectorDefined v (sectorKey bank 512) && recCrcOk v.copies[bank] && recIdOk v.copies[bank]

/-- The highest SEQUENCE among the copies of the lead that lie in a defined sector and pass their CRC (R421). -/
def State.highSeq (s : State) : Nat :=
  let v := s.nv[s.lead]
  let q (b : Fin 2) : Nat :=
    if sectorDefined v (sectorKey b 512) && recCrcOk v.copies[b] then recSeq v.copies[b] else 0
  max (q 0) (q 1)

/-- The newest committed record: the valid copy of the lead with the highest SEQUENCE (R354). -/
def State.newestRecord (s : State) : List Byte :=
  let v := s.nv[s.lead]
  match copyValid v 0, copyValid v 1 with
  | true, true => if recSeq v.copies[1] > recSeq v.copies[0] then v.copies[1] else v.copies[0]
  | true, false => v.copies[0]
  | false, true => v.copies[1]
  | false, false => s.cfg.record

/-- An image with its SEQUENCE and CRC set. -/
def recSeal (r : List Byte) (seqNo : Nat) : List Byte :=
  let r := putBytes r 8 (leBytes 4 seqNo)
  putBytes r 4092 (leBytes 4 (crc32c (r.take 4092)).toNat)

/-! ### Die tables with overrides (R88 to R91, R419) -/

/-- A container applies to a die. -/
def contHits (k : List Byte) (ty : Nat) (t : TileId) (c : ChanId) (p : Fin 9) : Bool :=
  fieldAt k 0 1 = ty && (BitVec.ofNat 8 (fieldAt k 1 1)).getLsbD t && (BitVec.ofNat 8 (fieldAt k 2 1)).getLsbD c
    && (BitVec.ofNat 16 (fieldAt k 4 2)).getLsbD p

/-- The curve table of a die: its own, with the overrides of the record in every band where the result meets R88. -/
def State.dieCurves (s : State) (t : TileId) (c : ChanId) (p : Fin 9) : List (Nat × CurveEntry) :=
  let own := s.media[t].dies[c][p].page.curves
  let new := ((recContainers s.cfg.record).getD []).foldl (fun m k =>
    if contHits k 1 t c p then tabPut m (16 * fieldAt k 8 1 + fieldAt k 9 1) (curveOf (bytesAt k 12 8)) else m) own
  (List.range 6).foldl (fun m band =>
    if curveOk new band then
      (List.range 16).foldl (fun m b => match tabGet new (16 * band + b) with
        | some e => tabPut m (16 * band + b) e
        | none => m) m
    else m) own

/-- The waveform table of a die with the overrides of the record. -/
def State.dieWaves (s : State) (t : TileId) (c : ChanId) (p : Fin 9) : List (Nat × WaveRec) :=
  ((recContainers s.cfg.record).getD []).foldl (fun m k =>
    if contHits k 2 t c p then tabPut m (4 * fieldAt k 8 1 + fieldAt k 9 1) (waveOf (bytesAt k 12 64)) else m)
    s.media[t].dies[c][p].page.waves

/-! ### Gait override images (R284, R289) -/

/-- Check 1 of R289 on a step word: the bits that R285 gives no meaning are zero. -/
def stepReserved (w : BitVec 32) : Bool :=
  let a := stepA w
  let b := stepB w
  let tg := stepTarget w
  match stepOp w with
  | 0 => tg = 0 && a = 0 && decide (b < 256)
  | 1 => tg = 0 && decide (b < 32)
  | 2 => tg = 0 && (a = 0 || b / 8 % 32 = 0)
  | 3 => tg = 0 && a = 0 && (b = 0 || b = 16)
  | 4 => a = 0 && decide (b < 256)
  | 5 => tg = 0 && decide (b < 16)
  | 6 => b = 0
  | 7 => a = 0 && b = 0
  | _ => true

/-- Check 2 of R289 on a step word: its operation and command, and the waveforms of its role. -/
def stepAllowed (role : Nat) (w : BitVec 32) : Bool :=
  let a := stepA w
  let b := stepB w
  let wOk : Bool := if role = 2 then b % 8 = 0 else decide (1 ≤ b % 8 ∧ b % 8 ≤ 3)
  match stepOp w with
  | 0 => decide (b ≤ 1)
  | 1 => b.testBit 4 && (if a = 3 then b = 16 else (a = 2 || a = 4) && wOk)
  | 2 => a = 0 || (a = 2 && wOk)
  | 5 => decide (a ≤ 1 ∧ 1 ≤ b)
  | 6 => decide (a ≤ 1)
  | 3 | 4 | 7 => true
  | _ => false

/-- Check 4 of R289 on the targets: below LENGTH, forward for VCHK and JUMP, backward for DECJ. -/
def targetsOk (st : List (BitVec 32)) : Bool :=
  st.zipIdx.all fun (x : BitVec 32 × Nat) =>
    let tg := stepTarget x.1
    match stepOp x.1 with
    | 4 | 7 => decide (x.2 < tg ∧ tg < st.length)
    | 6 => decide (tg < x.2)
    | _ => true

/-- What a path through an image has done: LOAD_BUF, first PROG_STEP, the last VERIFY (1 issued, 2 fetched), the counters, the
time in ns from the first PROG_STEP, and that at which the last VERIFY was ready (R61). -/
structure GaitPath where
  loaded : Bool := false
  prog : Bool := false
  verify : Nat := 0
  k0 : Option Nat := none
  k1 : Option Nat := none
  ns : Nat := 0
  ready : Nat := 0
deriving DecidableEq, Repr

/-- Time passes on a path; it counts once the first PROG_STEP has gone out (R61). -/
def GaitPath.wait (p : GaitPath) (n : Nat) : GaitPath := if p.prog then { p with ns := p.ns + n } else p

/-- Follow every path from step `pc`: the check of R289 (3, 4 or 5) that one breaks, or the longest time as R61 measures it,
from the first PROG_STEP to the last VERIFY ready. A step that a DECJ jumps to is reached only with its counter set. `fuel`
bounds the steps of one path: 64 steps with two counters of 15 run at most 16 × 16 × 64. -/
def gaitWalk (st : List (BitVec 32)) (readNs : Nat) (wave : Nat → Nat) : Nat → Nat → GaitPath → Except Nat Nat
  | 0, _, _ => .error 4
  | fuel + 1, pc, p =>
    let jumpsHere (a : Nat) : Bool := st.any fun w => stepOp w = 6 && stepTarget w = pc && stepA w = a
    if (p.k0.isNone && jumpsHere 0) || (p.k1.isNone && jumpsHere 1) then .error 4
    else match st[pc]? with
    | none => .error 5
    | some w =>
      let a := stepA w
      let b := stepB w
      let tg := stepTarget w
      match stepOp w with
      | 0 => .ok p.ready
      | 1 =>
        if a = 4 then
          if !p.loaded || b.testBit 3 != p.prog then .error 3
          else gaitWalk st readNs wave fuel (pc + 1) { p with prog := true, verify := 0 }
        else if a = 3 then gaitWalk st readNs wave fuel (pc + 1) { p with loaded := true }
        else
          let q := p.wait readNs
          gaitWalk st readNs wave fuel (pc + 1) { q with verify := 1, ready := q.ns }
      | 2 => gaitWalk st readNs wave fuel (pc + 1) (p.wait (if a = 0 then b else wave (b % 8) + b / 256))
      | 3 => gaitWalk st readNs wave fuel (pc + 1) { p with verify := if p.verify = 1 then 2 else p.verify }
      | 4 =>
        if p.verify ≠ 2 then .error 3
        else match gaitWalk st readNs wave fuel tg p, gaitWalk st readNs wave fuel (pc + 1) p with
          | .ok x, .ok y => .ok (max x y)
          | .error e, _ => .error e
          | _, .error e => .error e
      | 5 => gaitWalk st readNs wave fuel (pc + 1) (if a = 0 then { p with k0 := some b } else { p with k1 := some b })
      | 6 =>
        match (if a = 0 then p.k0 else p.k1) with
        | none => .error 4
        | some k =>
          let p := if a = 0 then { p with k0 := some (k - 1) } else { p with k1 := some (k - 1) }
          gaitWalk st readNs wave fuel (if k - 1 = 0 then pc + 1 else tg) p
      | 7 => gaitWalk st readNs wave fuel tg p
      | _ => .error 2

/-- A Gait image of a container: slot, role, bands and steps (R284). -/
def gaitImage (k : List Byte) : Nat × Nat × Nat × List (BitVec 32) :=
  (fieldAt k 8 1, fieldAt k 9 1, fieldAt k 11 1,
   (List.range (fieldAt k 10 1)).map fun i => BitVec.ofNat 32 (fieldAt k (12 + 4 * i) 4))

/-- The check of R289 that an image fails for a band in a tile; none when it is valid. -/
def State.gaitFails (s : State) (t : TileId) (k : List Byte) (band : Nat) : Option Nat :=
  let (slot, role, bands, st) := gaitImage k
  if slot < 8 ∨ slot > 31 ∨ (role ≠ 2 ∧ role ≠ 3) ∨ st.length < 1 ∨ st.length > 64 ∨ bands ≥ 64
    ∨ !st.all stepReserved then some 1
  else if !st.all (stepAllowed role) then some 2
  else if !targetsOk st then some 4
  else if (st.getLast?.map stepOp) ≠ some 0 then some 5
  else
    let limit := if role = 2 then 340 else 3200
    let dies := allChans.flatMap fun (c : ChanId) => (allDies.filter fun (p : Fin 9) =>
      s.tiles[t].ch[c].present.getLsbD p).map (c, ·)
    let one (x : ChanId × Fin 9) : Option Nat :=
      let page := s.media[t].dies[x.1][x.2].page
      let ws := s.dieWaves t x.1 x.2
      match gaitWalk st (page.readNs.toList.getD band 110) (fun w => waveNs (waveAt ws band w)) 20000 0 {} with
      | .error e => some e
      | .ok ns => if ns > limit then some 6 else none
    dies.findSome? one

/-- A map entry that names a slot goes back to the default of its band. -/
def mapBack (m : Vector (BitVec 5) 6) (band slot dflt : Nat) : Vector (BitVec 5) 6 :=
  vmap m fun i x => if i.val = band ∧ x.toNat = slot then BitVec.ofNat 5 dflt else x

/-- The valid overrides of the record enter the program store and the maps of a tile; an image invalid for a band leaves that
band's default, sets GTB_PROG_REJECT and raises WARN event 0x1052 (R284, R289). With a band given, only that band's are judged. -/
def State.loadGait (s : State) (t : TileId) (only : Option Nat := none) : State :=
  let ks := ((recContainers s.cfg.record).getD []).filter fun k =>
    fieldAt k 0 1 = 3 && (BitVec.ofNat 8 (fieldAt k 1 1)).getLsbD t
  forAll ks (fun k s =>
    let (slot, role, bands, st) := gaitImage k
    forAll ((bitsOf (BitVec.ofNat 6 bands)).filter fun b => (only.map fun o => o = b : Option Bool).getD true) (fun band s =>
      match s.gaitFails t k band with
      | some f =>
        (s.modEng t fun e => { e with
          reject := bitOn e.reject slot, mapSlc := mapBack e.mapSlc band slot 2, mapMlc := mapBack e.mapMlc band slot 3 }).raise
          (mkEv 0x1052 .warn t 0 [(1, slot), (1, band), (1, f)])
      | none =>
        s.modEng t fun e =>
          let put (m : Vector (BitVec 5) 6) : Vector (BitVec 5) 6 := vmap m fun i x =>
            if i.val = band ∧ (x.toNat < 8 ∨ x.toNat ≤ slot) then BitVec.ofNat 5 slot else x
          { e with
            programs := tabPut e.programs slot st, valid := bitOn e.valid slot
            mapSlc := if role = 2 then put e.mapSlc else e.mapSlc
            mapMlc := if role = 3 then put e.mapMlc else e.mapMlc }) s) s

end Sys2Proof.Machine
end

