-- ==== Sys2Proof/Machine/BringUp.lean ====
section
/-! DEFINITION. Phases 4 to 12 of the bring-up: the record in force, channel initialisation, unit records, interrupted
erases and relayout, static extents and replay (R82 to R92, R110, R111, R133, R176, R209, R389 to R397, R417, R423 to R426,
R522, R524, R549, R550, R679, R680). -/

namespace Sys2Proof.Machine

/-! ### Phase 4: the record in force -/

/-- MEDIA_INIT scans the journals (R417): each undefined sector raises WARN event 0x7020 with its tile, bank and sector. -/
def State.scanJournals (s : State) : State :=
  forAll s.svcTiles (fun t s =>
    let v := s.nv[t]
    let bad := sortBy (fun (a b : Nat) => decide (a ≤ b)) (openKeys v ++ (v.tags.filter fun e => erasesOf v e.1 = 0).map (·.1)).eraseDups
    if bad = [] then s
    else
      forAll bad (fun k s => s.raise (mkEv 0x7020 .warn t 0 [(1, t.val), (1, k / 1025), (2, k % 1025)]))
        (s.modCfl t fun c => { c with undef := true })) s

/-- CFL_RECORD and CFL_SEQ_A and _B of a tile, from its two copies (R424, R446, R447). -/
def cflRecord (v : TileNv) (c : Cfl) : Cfl :=
  let dfn (b : Fin 2) : Bool := sectorDefined v (sectorKey b 512)
  let seqOf (b : Fin 2) : BitVec 32 := if dfn b && recCrcOk v.copies[b] then BitVec.ofNat 32 (recSeq v.copies[b]) else 0
  let a := copyValid v 0
  let b := copyValid v 1
  { c with
    aValid := a, bValid := b, aUndef := !dfn 0, bUndef := !dfn 1, seqA := seqOf 0, seqB := seqOf 1
    inForceB := b && (!a || decide ((seqOf 1).toNat > (seqOf 0).toNat))
    twinConflict := a && b && decide (seqOf 0 = seqOf 1) && v.copies[(0 : Fin 2)] != v.copies[(1 : Fin 2)] }

/-- Every tile's CFL_RECORD registers follow its copies. -/
def State.cflRecords (s : State) : State := forAll s.svcTiles (fun t s => s.modCfl t (cflRecord s.nv[t])) s

/-- The table of R424 on the lead's copies: the copy chosen, or the HOLD_REASON. -/
def State.judgeCopies (s : State) : Except Nat (List Byte) × State :=
  let v := s.nv[s.lead]
  let a := v.copies[(0 : Fin 2)]
  let b := v.copies[(1 : Fin 2)]
  let one (c : List Byte) := (Except.ok c, s.raise (mkEv 0x7010 .warn s.lead 0))
  match copyValid v 0, copyValid v 1 with
  | true, true =>
    if a = b ∨ recSeq a > recSeq b then (.ok a, s)
    else if recSeq b > recSeq a then (.ok b, s)
    else (.error 3, s.raise (mkEv 0x7011 .error s.lead 0))
  | true, false => one a
  | false, true => one b
  | false, false => (.error 2, s)

/-- The key set that governs (R675): the valid copy with the higher GEN, copy 0 among equals; and whether equal copies
differ. -/
def keySetOf (v : TileNv) : Option KeySet × Bool :=
  match v.keys[(0 : Fin 2)], v.keys[(1 : Fin 2)] with
  | some a, some b => (some (if b.gen.toNat > a.gen.toNat then b else a), decide (a.gen = b.gen ∧ a ≠ b))
  | some a, none => (some a, false)
  | none, b => (b, false)

/-- The way pairs that OFF_PAIRS powers down (R154): from (14, 15) downward, skipping pairs that hold a scratch way. -/
def offMapOf (scratch pairs : Nat) : BitVec 8 :=
  (((List.range 8).reverse.filter fun p => decide (2 * p + 1 < 16 - scratch)).take pairs).foldl (fun m p => bitOn m p) 0

/-- The mirror pair settings of the record (R510), with TAKEN_OVER restored from the newest black box record of a takeover
that matches them (R522). -/
def State.loadPair (s : State) : State :=
  let r := s.cfg.record
  let peer := fieldAt r 224 1 % 64
  let gen := fieldAt r 232 4
  let took := (s.bbHeld.filter fun e => e.2.kind = 7).foldl (fun (b : Option (Nat × BBRec)) e => match b with
    | some x => if e.2.seq.toNat ≥ x.2.seq.toNat then some e else b
    | none => some e) none
  let mine := match took with
    | some e => decide (e.2.body.toNat % 256 % 64 = peer ∧ e.2.body.toNat / 2 ^ 32 % 2 ^ 32 = gen)
    | none => false
  let paired := decide (fieldAt r 224 1 / 128 = 1)
  { s with mesh := { s.mesh with
      peer := BitVec.ofNat 6 peer, paired := paired
      takeoverHeads := BitVec.ofNat 8 (fieldAt r 225 1), regions := BitVec.ofNat 9 (fieldAt r 226 2)
      replica := BitVec.ofNat 9 (fieldAt r 228 2), pairGen := BitVec.ofNat 32 gen, takenOver := paired && mine } }

/-- A record comes into force: policies, slices, mirror settings, patrol parameters, cache ways, rail reactions, channels,
head masks and the reset-output latches follow it (R153, R154, R177, R308, R376, R418, R549, R550). -/
def State.putInForce (s : State) (r : List Byte) : State :=
  let s := { s with
    cfg := { s.cfg with record := r }
    svc := { s.svc with
      policies := Vector.ofFn fun k => recRegFlags r k.val % 2 = 1
      slices := Vector.ofFn fun k => recRegSlice r k.val }
    seq := { s.seq with react := Vector.ofFn fun q => BitVec.ofNat 2 (if q.val < 4 then 3 else recRailReact r q.val) }
    aon := { s.aon with boardExtra := BitVec.ofNat 16 (fieldAt r 242 2), boardFlags := BitVec.ofNat 8 (fieldAt r 244 1) }
    boot := { s.boot with holdReason := 0 }
    heads := vmap s.heads fun h x =>
      if (recHeads r).getLsbD h then { x with idle := x.idle && !s.inSvc h }
      else { x.conventional with idle := true, speed := 0, width := 0, flit256 := false, lopt := false }
    tiles := vmap s.tiles fun t x =>
      { x with
        d := { x.d with scratchWays := BitVec.ofNat 4 (recScratch r t.val), offPairs := BitVec.ofNat 3 (recOffPairs r t.val)
                        offMap := offMapOf (recScratch r t.val) (recOffPairs r t.val) }
        it := { x.it with
          enable := fieldAt r 44 1 % 2 = 1, thCorr := BitVec.ofNat 4 (fieldAt r 45 1), ageCool := BitVec.ofNat 4 (fieldAt r 46 1)
          ageHot := BitVec.ofNat 4 (fieldAt r 47 1), stageAge := BitVec.ofNat 4 (fieldAt r 48 1)
          coolH := BitVec.ofNat 12 (fieldAt r 50 2), hotH := BitVec.ofNat 12 (fieldAt r 52 2) }
        ch := vmap x.ch fun c k =>
          { k with
            enable := (recLayoutChans r).contains (t, c)
            spareArmed := (recSpareArm r).getLsbD (4 * t.val + c.val) } } }
  s.loadPair.headDown

/-- What phase 4 refuses the chosen record for (R396, R425, R432, R675, R712): the HOLD_REASON, in the order of R396. -/
def State.recordFails (s : State) (r : List Byte) : Option Nat :=
  let (twin, clash) := twinRead (s.prmPage 14)
  let re := s.boot.relayout
  let bad8 := !recFormatOk r || recContradicts s.fuses.variant r || (!re && (twin.isNone || clash))
    || (keySetOf s.nv[s.lead]).1.isNone
  let lone := match s.aon.loneLoss with
    | some t => s.inSvc t && !s.aon.loneSaved
    | none => false
  if bad8 then some 8
  else if s.recAbsentTile r then some 6
  else if recNoMedia r && !re then some 7
  else if lone then some 9
  else none

/-- The key set of the lead comes into the key engine beside the chosen record (R424, R675). -/
def State.readKeys (s : State) (r : List Byte) : State :=
  let s := { s with cfg := { s.cfg with chosen := r } }
  let (ks, clash) := keySetOf s.nv[s.lead]
  let s := if ks.isNone then s.raise (mkEv 0x8050 .error s.lead 0)
    else if clash then s.raise (mkEv 0x8051 .warn s.lead 0) else s
  { s with sec := { s.sec with
    conflict := clash, engine := (ks.map KeySet.keys).getD s.sec.engine } }

/-- RECORD_JUDGE (R396, R417, R424, R425, R552, R675, R712): the copies are judged, the chosen record is checked against the
part, and it comes into force; the hold-up measurement and the raising of the media rails start. A record that lists no
die to raise rails for goes on at once. -/
def execRecordJudge (s : State) : Host.Outcome State Fault Refusal :=
  if s.sys.state ≠ .mediaInit ∨ s.boot.phase ≠ 4 then .next s
  else
    let s := s.scanJournals.cflRecords
    match s.judgeCopies with
    | (.error n, s) => .next (s.configHold n).confirmTrial
    | (.ok r, s) =>
      let s := s.readKeys r
      -- the lone-loss mark is judged and cleared only when its tile is in service again
      let back := (s.aon.loneLoss.map s.inSvc).getD false
      match s.recordFails r with
      | some n =>
        let s := if n = 8 ∨ n = 6 ∨ n = 7 then s.raise (mkEv 0x7013 .error s.lead 0 [(1, n)]) else s
        let s := if n = 9 then s.raise (mkEv 0x3072 .error s.lead 0) else s
        .next (s.configHold n).confirmTrial
      | none =>
        let s := if back then { s with aon := { s.aon with loneLoss := none, loneSaved := false } } else s
        let s := s.putInForce r
        .next ({ s with hld := { s.hld with due := true }, boot := { s.boot with phase := 5 } }).raiseMedia

/-! ### Phases 6 and 7: MEDRST_N and channel initialisation -/

/-- The layout channels that take part in the media checks: their tile is in service, and no rail keeps them out (R546). -/
def State.liveChans (s : State) : List (TileId × ChanId) :=
  (recLayoutChans s.cfg.record).filter fun x => s.inSvc x.1 && !s.seq.tileOff.getLsbD x.1 && !s.seq.chOff.getLsbD (chanBit x.1 x.2)

/-- The channels that channel initialisation may bring up: the live ones, and those that a RETRY takes back (R547). -/
def State.initChans (s : State) (t : TileId) (c : ChanId) : Bool :=
  (recLayoutChans s.cfg.record).contains (t, c) && s.inSvc t
    && (chanRails s.cfg.record t c).all fun q => s.seq.pg.getLsbD q && !s.seq.off.getLsbD q

/-- MEDRST_STRETCH_END (R550, R570): every rail of the channel has been good for the whole stretch: MEDRST_N rises, every die
having been reset, and tINIT runs, in which every fitted die shows NOT_READY (R82). Pads that a sleep latched hold it low. -/
def execMedrstStretchEnd (t : TileId) (c : ChanId) (s : State) : Host.Outcome State Fault Refusal :=
  let resuming := s.pwr.transition = 2
  let held := s.sys.state = .boot || s.sys.state = .configHold || s.sys.state = .failed || s.sys.state = .flushing
    || (s.sys.state.isSleep && s.sys.state ≠ .sleepS1 && !resuming)
  if held || s.seq.lowering || s.pwr.padLatched.getLsbD t || !s.tiles[t].ch[c].inReset || !s.initChans t c then .next s
  else
    let s := s.modCh t c fun k => { k with
      inReset := false, tinit := true
      dies := vmap k.dies fun p d => if s.media[t].dies[c][p].fitted then d.afterReset.flag 5 else d.afterReset }
    .next { s with
      seq := { s.seq with medrst := bitOff s.seq.medrst (chanBit t c) }
      boot := { s.boot with phase := if s.sys.state = .mediaInit ∧ s.boot.phase = 5 then 6 else s.boot.phase } }

/-- The CRC-32C of a die's serial number, as DIE_IDS holds it (R418). -/
def State.dieId (s : State) (t : TileId) (c : ChanId) (p : Fin 9) : Nat :=
  (crc32c (leBytes 16 s.media[t].dies[c][p].page.serial.toNat)).toNat

/-- The serial number of a die does not match the record's entry, or the entry's die is missing (R86, R396). -/
def State.dieDiffers (s : State) (t : TileId) (c : ChanId) (p : Fin 9) : Bool :=
  let id := recDieId s.cfg.record t.val c.val p.val
  let k := s.tiles[t].ch[c]
  id ≠ 0 && (decide (p.val < 8) || k.spareArmed || k.spareInUse) && !(k.present.getLsbD p && decide (s.dieId t c p = id))

/-- Curve overrides that would break R88 for a die raise WARN event 0x7060 with their place in the list (R419). -/
def State.noteContainers (s : State) (t : TileId) (c : ChanId) : State :=
  let ks := ((recContainers s.cfg.record).getD []).zipIdx
  let live := allDies.filter fun (p : Fin 9) => s.tiles[t].ch[c].present.getLsbD p
  let broken (k : List Byte) (p : Fin 9) : Bool :=
    contHits k 1 t c p && !curveOk (((recContainers s.cfg.record).getD []).foldl (fun m k =>
      if contHits k 1 t c p then tabPut m (16 * fieldAt k 8 1 + fieldAt k 9 1) (curveOf (bytesAt k 12 8)) else m)
      s.media[t].dies[c][p].page.curves) (fieldAt k 8 1)
  forAll (ks.filter fun k => live.any (broken k.1)) (fun k s => s.raise (mkEv 0x7060 .warn t (c.val + 1) [(2, k.2)])) s

/-- The tables of a die for a band: its parameter page with the overrides (R90, R91). -/
def State.bandTables (s : State) (t : TileId) (c : ChanId) (p : Fin 9) (band : Nat) : List CurveEntry × List WaveRec :=
  ((List.range 16).map fun b => curveAt (s.dieCurves t c p) band b, (List.range 4).map fun w => waveAt (s.dieWaves t c p) band w)

/-- Tables go to bank `k` of a die by SET_REF and SET_WAVE (R83, R90). -/
def State.sendBank (s : State) (t : TileId) (c : ChanId) (p : Fin 9) (k : Nat) (tables : List CurveEntry × List WaveRec) : State :=
  let s := forAll tables.1.zipIdx (fun e s => s.send t c p (.setRef (16 * k + e.2)) (curveBytes e.1)) s
  forAll tables.2.zipIdx (fun e s => s.send t c p (.setWave (4 * k + e.2)) (waveBytes e.1)) s

/-- The tables of a band go to bank `k` of a die. -/
def State.sendTables (s : State) (t : TileId) (c : ChanId) (p : Fin 9) (k band : Nat) : State :=
  s.sendBank t c p k (s.bandTables t c p band)

/-- The four steps of R83 on one die: the step that it fails, if any. `lost` names positions and the steps whose bursts do not
come through, and `flags` what the die reports in step 4 beside the flags that it holds. -/
def State.initDie (s : State) (t : TileId) (c : ChanId) (p : Fin 9) (lost : List (Nat × Nat)) (flags : List (Nat × BitVec 6)) :
    Option Nat × State :=
  let d := s.media[t].dies[c][p]
  if d.used.isNone || lost.contains (p.val, 1) then (some 1, s)
  else
    let s := if d.copy0.valid && d.copy1.valid && d.copy0.bytes != d.copy1.bytes then
        s.raise (mkEv 0x1002 .warn t (c.val + 1) [(1, p.val)])
      else s
    if lost.contains (p.val, 2) then (some 2, s)
    else
      let s := s.send t c p .setScramble (leBytes 8 s.tiles[t].ch[c].key.toNat)
      if lost.contains (p.val, 3) then (some 3, s)
      else
        let s := s.sendTables t c p 0 s.tiles[t].ch[c].dies[p].band.toNat
        let f := s.tiles[t].ch[c].dies[p].flags ||| (tabGet flags p.val).getD 0
        let s := (s.send t c p .status).burst t c p
        if lost.contains (p.val, 4) then (some 4, s)
        else (if f = 0 then none else some 4, s.noteFlags t c (f.zeroExtend 8))

/-- The steps of R83 on one channel, on the eight data dies and the spare that is armed or in use: a die that fails one is not
present (event 0x1001). MCH_DIE_MAP comes from the record in force (R418). -/
def State.initChannel (s : State) (t : TileId) (c : ChanId) (lost : List (Nat × Nat)) (flags : List (Nat × BitVec 6)) : State :=
  let (v, s) := s.draw
  let first := s.sys.state = .mediaInit
  let map := if first then recDieMap s.cfg.record t.val c.val else s.tiles[t].ch[c].dieMap
  let s := s.modCh t c fun k => { k with
    tinit := false, up := true, key := BitVec.ofNat 64 v, frame := 0, outOfService := false, present := 0, dieMap := map
    spareInUse := if first then (List.range 8).any fun d => map.toNat / 16 ^ d % 16 = 8 else k.spareInUse
    dies := vmap k.dies fun _ d => { d with flags := 0, bankB := false } }
  let k := s.tiles[t].ch[c]
  let used := allDies.filter fun (p : Fin 9) => (decide (p.val < 8) || k.spareArmed || k.spareInUse) && !k.failed.getLsbD p
  let s := forAll used (fun p s =>
    match s.initDie t c p lost flags with
    | (some n, s) => s.raise (mkEv 0x1001 .warn t (c.val + 1) [(1, p.val), (1, n)])
    | (none, s) => s.modCh t c fun k => { k with present := bitOn k.present p }) s
  (s.modCh t c fun k => { k with spareArmed := k.spareArmed && k.present.getLsbD 8 }).noteContainers t c

/-- Phase 7 is complete when every live layout channel has been initialised. -/
def State.chansUp (s : State) : Bool := s.liveChans.all fun x => s.tiles[x.1].ch[x.2].up

/-- A channel of MEDIA_INIT is judged (R86, R425): a missing or different die, or after a relayout fewer than eight data dies,
enters CONFIG_HOLD with HOLD_REASON 0x4. Gait overrides of the tile are judged with its last channel (R289). -/
def State.judgeChannel (s : State) (t : TileId) (c : ChanId) : State :=
  let bad := if s.boot.relayout then ((List.range 8).any fun p => !s.tiles[t].ch[c].present.getLsbD p)
    else allDies.any fun p => s.dieDiffers t c p
  if bad then ((s.raise (mkEv 0x7013 .error s.lead 0 [(1, 4)])).configHold 4).confirmTrial
  else
    let s := if s.liveChans.all fun x => x.1 ≠ t || s.tiles[t].ch[x.2].up then s.loadGait t else s
    if s.chansUp then { s with boot := { s.boot with phase := 7 } } else s

/-- DIE_TINIT_END (R82, R83, R242, R547): the dies accept commands and the channel is initialised. In MEDIA_INIT the outcome is
judged against the record; in service a die that fails a step is declared failed, and a channel that a RETRY took out of
service returns. -/
def execDieTinitEnd (t : TileId) (c : ChanId) (status : InitStatus) (s : State) :
    Host.Outcome State Fault Refusal :=
  if !s.tiles[t].ch[c].tinit || s.tiles[t].ch[c].inReset then .next s
  else
    let before := s.tiles[t].ch[c].expected
    let s := (s.initChannel t c status.lost status.flags).modCh t c fun k => { k with expected := 0 }
    if s.sys.state = .mediaInit then .next (s.judgeChannel t c)
    else
      let lost := allDies.filter fun (p : Fin 9) => before.getLsbD p && !s.tiles[t].ch[c].present.getLsbD p
      let s := forAll lost (fun p s => s.failDie t c p 5) s
      let b := chanBit t c
      if s.seq.chOff.getLsbD b then
        let s := { s with seq := { s.seq with chOff := bitOff s.seq.chOff b } }
        let other := s.seq.chOff != 0 || s.tiles.toList.any fun x => x.ch.toList.any (·.outOfService)
        .next (if other then s else s.clearCause .channelOff)
      else .next s

/-! ### Phase 8: unit records -/

/-- The units of the layout whose records are checked: those of tiles that serve their share. -/
def State.liveUnits (s : State) : List (TileId × Nat) :=
  ((recTiles s.cfg.record).map toTile |>.filter fun t => s.ownerUp t).flatMap fun t =>
    (List.range s.unitsPerTile).map (t, ·)

/-- A unit's record disagrees with the layout or the epoch, or twin records conflict (R110, R127, R680). -/
def State.unitDiffers (s : State) (t : TileId) (unit : Nat) : Bool :=
  let ks := (keySetOf s.nv[s.lead]).1.getD {}
  s.unitConflict t unit || match s.unitRec t unit with
  | some u => decide (u.layout ≠ recLayout s.cfg.record)
      || !(if ks.pending then decide (u.epoch = ks.epoch ∨ u.epoch + 1 = ks.epoch)
           else decide (u.epoch = BitVec.ofNat 32 (s.ladder 12).1))
  | none => false

/-- UNIT_RECORD_CHECK (R110, R425): a difference enters CONFIG_HOLD with HOLD_REASON 0x5, but for the MEDIA_INIT that follows a
commit with RELAYOUT. -/
def execUnitRecordCheck (s : State) : Host.Outcome State Fault Refusal :=
  if s.sys.state ≠ .mediaInit ∨ s.boot.phase.toNat < 5 ∨ s.boot.phase.toNat > 7 ∨ !s.chansUp
    ∨ s.seq.raising then .next s
  else if !s.boot.relayout && s.liveUnits.any fun x => s.unitDiffers x.1 x.2 then
    .next ((s.raise (mkEv 0x7013 .error s.lead 0 [(1, 5)])).configHold 5).confirmTrial
  else .next { s with boot := { s.boot with phase := 8 } }

/-! ### Erasing and relayout (R110, R111, R679, R680) -/

/-- The placement state of a tile from each unit's newest valid record and the placement records above it (R126, R127, R391). -/
def State.loadPlacement (s : State) (t : TileId) : State :=
  let recs := (List.range s.unitsPerTile).filterMap fun u => (s.unitRec t u).map (u, ·)
  let base : Placement :=
    { moves := recs.foldl (fun m u => Sparse.set 0 m u.1 u.2.moves) []
      written := recs.foldl (fun m u => u.2.written.foldl (fun m r => Sparse.set false m (20480 * u.1 + r) true) m) []
      remap := recs.flatMap fun u => u.2.remap.map fun e => { unit := u.1, slot := e.1, pool := e.2 }
      spent := recs.flatMap fun u => u.2.spent.map fun p => (u.1, p) }
  let above (u seq : Nat) : Bool := match tabGet recs u with
    | some r => decide (seq > r.logSeq.toNat)
    | none => true
  let note (p : Placement) (u : Nat) : Placement :=
    { p with recCount := Sparse.set 0 p.recCount u (Sparse.get 0 p.recCount u + 1) }
  let apply (p : Placement) (e : Nat × PlacementRec) : Placement := match e.2 with
    | .move u m => if above u e.1 then note { p with moves := Sparse.set 0 p.moves u m } u else p
    | .written u r v => if above u e.1 then note { p with written := Sparse.set false p.written (20480 * u + r) v } u else p
    | .remap u slot pool =>
      if above u e.1 then
        let old := (p.remap.filter fun x => x.unit = u ∧ x.slot = slot ∧ x.pool ≠ pool).map fun x => (u, x.pool)
        note { p with
          remap := (p.remap.filter fun x => !(x.unit = u && x.slot = slot)) ++ [{ unit := u, slot := slot, pool := pool }]
          spent := p.spent ++ old } u
      else p
  let log := sortBy (fun (a b : Nat × PlacementRec) => decide (a.1 ≤ b.1)) s.media[t].placementLog
  s.modPl t fun _ => log.foldl apply base

/-- The highest LOG_SEQ that the media of a tile show (R160). -/
def State.highLogSeq (s : State) (t : TileId) : Nat :=
  ((List.range s.unitsPerTile).filterMap fun u => (s.unitRec t u).map (·.logSeq.toNat)).foldl max s.staged[t].top

/-- A new scatter key is drawn and the epoch ladder advances (R111). -/
def State.newScatter (s : State) : State :=
  let (v, s) := s.draw
  let s := s.twinWrite 14 (leBytes 8 v)
  s.ladderAdvance 12 ((s.ladder 12).1 + 1)

/-- All home and staged data are discarded (R110, R679): nothing is written, cached or staged any more, the poison list and
scan results are empty, Dynamic Capacity extents and replica entries are gone, and every unit's record is written under the
new epoch. The black box lines of the media copies stay (R645). -/
def State.discardData (s : State) : State :=
  let s := { s with
    svc := { s.svc with extents := s.svc.extents.filter (·.isStatic), offers := [], releases := [], dcGen := s.svc.dcGen + 1 }
    poison := {} }
  let s := forAll s.svcTiles (fun t s =>
    let s := s.modD t fun d => { d with
      cache := [], asm := .replicate 5 [], closed := [], dir := [], waiting := [], segs := [], folds := []
      urgent := [], refresh := [], refreshLow := [], remapNext := [], gpf := none, lent := [], zeroing := [], afterFolds := []
      cleaning := false
      stores := d.stores.map fun r => { r with phase := 4, peerDone := true, discarded := true } }
    let s := s.modPl t fun p => { p with written := [], counted := [], due := [], moving := [] }
    let s := s.modStaged t fun m => { top := m.top }
    s.modMedia t fun m => { m with placementLog := [], owedPoison := [] }) s
  let s := forAll s.liveUnits (fun x s => s.writeUnitRec x.1 x.2) s
  s.resizeArea

/-- The LSA is erased to zero (R679). -/
def State.eraseLsa (s : State) : State :=
  s.modNv s.lead fun v => { v with lsa := Memory.writeBytes (fun _ => 0xFF) v.lsa 0 (List.replicate 65536 0) }

/-- Both copies of the key set are written in every tile in service (R431, R675). -/
def State.putKeySets (s : State) (k : KeySet) : State :=
  forAll s.svcTiles (fun t s => s.modNv t fun v => { v with keys := .replicate 2 (some k) }) s

/-- Steps 3 to 6 of R680 for a key set with ERASE_PENDING: the other copy and the key engine follow it, the scatter key and the
epoch are renewed unless they already are, the data of R679 go, and ERASE_PENDING clears. -/
def State.finishErase (s : State) (k : KeySet) : State :=
  let s := s.putKeySets k
  let s := { s with sec := { s.sec with engine := k.keys } }
  let s := if BitVec.ofNat 32 (s.ladder 12).1 = k.epoch then s else s.newScatter
  let s := s.discardData
  let s := if k.kind = 1 then s.eraseLsa else s
  let s := s.putKeySets { k with
    gen := k.gen + 1, pending := false, kind := 0, userPw := if k.kind = 3 then none else k.userPw }
  { s with sec := { s.sec with eraseStep := 0, locked := s.sec.locked && k.kind ≠ 3 } }

/-! ### Phase 9 -/

/-- A record copy of one bank of a tile is written whole: its sector is erased once more and holds the image (R416, R422). -/
def State.putCopy (s : State) (t : TileId) (b : Fin 2) (img : List Byte) : State :=
  (s.modNv t fun v => { jErase v b 512 with copies := v.copies.set b img }).journalReuse t b

/-- The adopted dies' serial numbers enter a new record copy (R397), an internal commit with INFO event 0x7014. -/
def State.adoptDies (s : State) : State :=
  let r := (recLayoutChans s.cfg.record).foldl (fun r x => allDies.foldl (fun r (p : Fin 9) =>
    let id := if s.tiles[x.1].ch[x.2].present.getLsbD p
      then s.dieId x.1 x.2 p else 0
    putBytes r (512 + 4 * (36 * x.1.val + 9 * x.2.val + p.val)) (leBytes 4 id)) r) s.cfg.record
  let img := recSeal r (s.highSeq + 1)
  let s := forAll s.svcTiles (fun t s => (s.putCopy t 1 img).putCopy t 0 img) s
  ({ s with cfg := { s.cfg with record := img, chosen := img } }).raise (mkEv 0x7014 .info s.lead 0 [(1, 2)])

/-- Copies that were not valid, undefined or older are rewritten from the record in force (R426): in the lead with INFO event
0x7012; the standby copies of the other tiles follow too (R423). -/
def State.repairCopies (s : State) : State :=
  let img := s.cfg.record
  let lags (t : TileId) (b : Fin 2) (s : State) : Bool := !copyValid s.nv[t] b || s.nv[t].copies[b] != img
  let s := forAll ([0, 1] : List (Fin 2)) (fun b s =>
    if lags s.lead b s then
      let s := (s.putCopy s.lead b img).modCfl s.lead fun c => { c with repaired := true }
      s.raise (mkEv 0x7012 .info s.lead 0 [(1, b.val)])
    else s) s
  let s := forAll (s.svcTiles.filter (· ≠ s.lead)) (fun t s => forAll ([0, 1] : List (Fin 2)) (fun b s =>
    if lags t b s then (s.putCopy t b img).modCfl t fun c => { c with repaired := true } else s) s) s
  s.cflRecords

/-- INTERRUPTED_ERASE_COMPLETION (R110, R397, R423, R426, R440, R680): phase 9 completes an erase that power loss interrupted
(WARN event 0x8022), or discards the data of a relayout under a new scatter key and adopts its dies; lagging record copies
are rewritten. What the supply check refuses is tried again at the next event. -/
def execInterruptedEraseCompletion (s : State) : Host.Outcome State Fault Refusal :=
  if s.sys.state ≠ .mediaInit ∨ s.boot.phase ≠ 8 then .next s
  else if !s.supplyOk 25000 s.svcTiles.length then .next s.supplyRefused
  else
    let k := (keySetOf s.nv[s.lead]).1.getD {}
    let s := forAll s.svcTiles (fun t s =>
      (s.loadPlacement t).modD t fun d => { d with logSeq := BitVec.ofNat 64 (s.highLogSeq t) }) s
    let s := if k.pending then (s.finishErase k).raise (mkEv 0x8022 .warn s.lead 0 [(1, k.kind.toNat)]) else s
    let s := if s.boot.relayout then s.newScatter.discardData.adoptDies else s
    let s := s.repairCopies
    .next { s with boot := { s.boot with phase := 9 } }

/-! ### Phase 10: extents -/

/-- STATIC_EXTENT_CREATE (R129, R133, R522): the static entry of region 8 is created with its HEADS; in a package that has taken
over, a static replica entry keeps its takeover grants. -/
def execStaticExtentCreate (s : State) : Host.Outcome State Fault Refusal :=
  if s.sys.state ≠ .mediaInit ∨ s.boot.phase ≠ 9 then .next s
  else
    let r := s.cfg.record
    let blocks := recRegLen r 8 / 2 ^ 21
    let taken := s.mesh.takenOver && s.mesh.replica.getLsbD 8
    let heads := if taken then s.mesh.takeoverHeads else recRegHeads r 8
    let s := { s with svc := { s.svc with extents := [] } }
    let s := if blocks = 0 then s.resizeArea else s.addEntry 0 blocks 8 heads true
    .next { s with boot := { s.boot with phase := 10 } }

/-! ### Replay (R391 to R394) -/

/-- The unsaved ranges that the newest power-fail summary lists, as (first line number, length) (R561, R641). -/
def State.summaryRanges (s : State) : List (Nat × Nat) :=
  let pick (f : BBRec → Bool) := (s.bbHeld.filter fun e => f e.2).foldl (fun (b : Option BBRec) e => match b with
    | some x => if e.2.seq.toNat ≥ x.seq.toNat then some e.2 else b
    | none => some e.2) none
  match pick fun r => r.kind = 3 with
  | none => []
  | some e =>
    let id := e.body.toNat % 2 ^ 32
    let n := e.body.toNat / 2 ^ 40 % 256
    let parts := (s.bbHeld.filter fun x => x.2.kind = 4 && decide (x.2.body.toNat % 2 ^ 32 = id)
      && decide (x.2.seq.toNat > e.seq.toNat)).map fun x =>
        (x.2.body.toNat / 2 ^ 32 % 256, x.2.body.toNat / 2 ^ 64)
    (List.range n).filterMap fun i => (tabGet (sortBy (fun (a b : Nat × Nat) => decide (a.1 ≤ b.1)) parts) (i / 3)).map fun b =>
      let r := b / 2 ^ (96 * (i % 3)) % 2 ^ 96
      (r % 2 ^ 64 / 64, r / 2 ^ 64)

/-- Up to six lines of one area are written as a stripe of a tile's staging area within the step, as a rescue flush and replay do (R36,
R391); false when no place can take it. -/
def State.rescueStripe (s : State) (t : TileId) (a : Fin 5) (es : List StripeEntry) : Bool × State :=
  match s.pick (([0, 1, 2, 3] : List Nat).flatMap fun c => s.stripePlaces t a c) with
  | (some p, s) =>
    let q := s.tiles[t].d.logSeq + 1
    let x : Stripe := { seq := q, epoch := BitVec.ofNat 32 (s.ladder 12).1, area := a.val, entries := es }
    let s := s.modD t fun d => { d with logSeq := q, closed := d.closed ++ [x] }
    let s := s.placeStripe t q a p
    match s.tiles[t].d.closed.find? fun y => y.seq = q with
    | some y => (true, s.stripeVerified t y)
    | none => (false, s)
  | (none, s) => (false, s)

/-- Pieces of at most six. -/
def sixes {α : Type} : Nat → List α → List (List α)
  | 0, _ => []
  | n + 1, l => if l = [] then [] else l.take 6 :: sixes n (l.drop 6)

/-- The lines of a tile that the summary lists as unsaved, and those still owed their poison (R36, log 90). -/
def State.unsavedLines (s : State) (t : TileId) : List Nat :=
  (((s.summaryRanges.flatMap fun r => (List.range r.2).map (r.1 + ·)).filter fun n =>
    decide (64 * n < s.capacity) && (s.home n).tile = t) ++ s.media[t].owedPoison).eraseDups

/-- Lines whose newest value is lost are poisoned (R36, R254, R391): poisoned copies enter the staging log, newer than any older
value; those that find no place there are owed their poison, and are found poisoned meanwhile. -/
def State.poisonUnsaved (s : State) (t : TileId) : State :=
  let lines := s.unsavedLines t
  let s := s.modMedia t fun m => { m with owedPoison := [] }
  forAll ([0, 1, 2, 3, 4] : List (Fin 5)) (fun a s =>
    let mine := lines.filter fun n => s.areaOf (s.regionOf n) = a
    forAll (sixes mine.length mine) (fun g s =>
      match s.rescueStripe t a (g.map fun n => { kind := .data, line := n, val := s.stored 0 true }) with
      | (true, s) => s
      | (false, s) =>
        { s.modMedia t (fun m => { m with owedPoison := m.owedPoison ++ g }) with
          poison := { s.poison with madeThisBoot := g.map (·, .vendor) ++ s.poison.madeThisBoot } }) s) s

/-- The ordered entries of the staged stripes of a tile that carry a line of the current epoch: (line, entry, LOG_SEQ, kind). -/
def State.stagedEntries (s : State) (t : TileId) : List (DirEntry × Nat × Bool) :=
  let ep := BitVec.ofNat 32 (s.ladder 12).1
  (sortBy (fun (a b : Stripe) => decide (a.seq.toNat ≤ b.seq.toNat)) (s.staged[t].stripes.filter fun x => x.epoch = ep)).flatMap
    fun x => x.entries.zipIdx.filterMap fun e =>
      let d : DirEntry := { line := e.1.line, area := x.area, unit := x.unit, ring := x.ring, sslot := x.t / 5,
                            spos := x.t % 5, sidx := e.2 }
      match e.1.kind with
      | .data => some (d, x.seq.toNat, false)
      | .carry => some (d, x.seq.toNat, true)
      | _ => none

/-- Discard records of a tile: first line, length in lines, LOG_SEQ. -/
def State.discards (s : State) (t : TileId) : List (Nat × Nat × Nat) :=
  s.staged[t].stripes.flatMap fun x => x.entries.filterMap fun e => match e.kind with
    | .discard a n => some (a, n, x.seq.toNat)
    | _ => none

/-- A staged line is live at replay (R176): newer than its home page, or its ring not written; a carry line only when the page is
undefined; covered by no later discard record. -/
def State.liveAt (s : State) (t : TileId) (n seq : Nat) (carry : Bool) : Bool :=
  let h := s.home n
  let p := s.tiles[t].pl
  let written := ringWritten p h.unit h.ring
  let page := (tabGet s.media[t].pages (pageKey h.unit (homeSlot p h))).getD {}
  let undone := written && !page.defined
  let cov := (s.discards t).any fun d => decide (seq < d.2.2 ∧ d.1 ≤ n ∧ n < d.1 + d.2.1)
  !cov && (if carry then undone else undone || !written || decide (seq > page.foldSeq.toNat))

/-- The directory of a tile is rebuilt (R391 steps 3 to 7): each line's newest live copy takes its entry, in LOG_SEQ order; a line
that finds its bucket full waits and its page becomes urgent. Segments that hold stripes of this epoch are in use, and STG_LOG_SEQ
resumes above the highest found. Pages left undefined are queued to fold again. -/
def State.replayTile (s : State) (t : TileId) : State :=
  let s := s.loadPlacement t
  let ep := BitVec.ofNat 32 (s.ladder 12).1
  let high := s.highLogSeq t
  let keep := s.staged[t].stripes.filter fun x => x.epoch = ep
  let segs := (keep.map fun x => (x.unit, x.ring, x.area)).eraseDups.zipIdx.map fun g =>
    { unit := g.1.1, ring := g.1.2.1, area := g.1.2.2, isOpen := false, nextT := 1280, order := g.2 : Segment }
  let s := s.modStaged t fun m => { m with stripes := keep }
  let s := s.modD t fun d => { d with
    logSeq := BitVec.ofNat 64 high, segs := segs, segOrder := segs.length, dir := [], waiting := [] }
  let live := (s.stagedEntries t).filter fun e => s.liveAt t e.1.line e.2.1 e.2.2
  let newest := live.filter fun e => !(live.any fun f => f.1.line = e.1.line && decide (f.2.1 > e.2.1))
  let s := forAll newest (fun e s => s.dirInsert t e.1) s
  let undone := ((live.filter (·.2.2)).map fun e => ((s.home e.1.line).unit, (s.home e.1.line).pidx)).eraseDups
  s.modD t fun d => { d with urgent := d.urgent ++ undone.filter fun x => !d.urgent.contains x }

/-- REPLAY_START (R391): the part enters REPLAY; in every tile that serves its share the staging log is replayed and the staging
groups take their stamps, and the lines that the power-fail summary lists as unsaved are poisoned. -/
def execReplayStart (s : State) : Host.Outcome State Fault Refusal :=
  if s.sys.state ≠ .mediaInit ∨ s.boot.phase ≠ 10 then .next s
  else
    let s := { s.setDev .replay with boot := { s.boot with phase := 11 } }
    let ts := (recTiles s.cfg.record).map toTile |>.filter fun t => s.ownerUp t
    let s := forAll ts (fun t s => (s.replayTile t).replayReads t) s
    let s := s.resizeArea
    -- the bucket that decodes a staging group is the medium's: its stamp is a free choice of the sixteen (R209)
    let s := forAll ts (fun t s => forAll ((s.staged[t].stripes.map fun x => (x.unit, 256 * x.ring + x.t / 5)).eraseDups)
      (fun x s =>
        let (v, s) := s.draw
        s.learnStamp t x.1 x.2 (v % 16)) s) s
    -- the pages that step 6 or 7 of R391 folds again
    let again := (ts.map fun (t : TileId) => s.tiles[t].d.urgent.length).sum
    .next (forAll ts (fun t s => s.poisonUnsaved t)
      { s with boot := { s.boot with refolded := BitVec.ofNat 16 (min again 65535) } })

/-- The sequence numbers under which the copies of the black box hold differing records (R427). -/
def State.bbClashes (s : State) : List Nat :=
  let rs := (s.bbHeld.map (·.2) ++ s.svcTiles.flatMap fun t => s.bbx.media[t].map (·.2)).eraseDups
  ((rs.filter fun r => decide (2 ≤ (rs.filter fun q => q.seq = r.seq).length)).map (·.seq.toNat)).eraseDups

/-- The copies of the black box are compared: WARN event 0x7030 for each sequence number under which they differ (R427), and the records
of the flash copy that a tile's media copy lacks are appended to it (R645). -/
def State.copyBlackBox (s : State) : State :=
  let s := forAll s.bbClashes (fun q s => s.raise (mkEv 0x7030 .warn s.lead 0 [(4, q)])) s
  forAll s.svcTiles (fun t s =>
    let have_ := s.bbx.media[t].map fun e => e.2.seq
    forAll ((s.bbHeld.map (·.2)).filter fun r => !have_.contains r.seq) (fun r s =>
      s.append t 0 { kind := .blackBox r, line := 0, val := {} }) s) s

/-- The degrade causes that hold at the end of replay (R53): a tile lost, a channel or rail group out of service, a die without a
serving die. -/
def State.standingCauses (s : State) : BitVec 7 :=
  let d := s.sys.degrade
  let d := bitSet d 1 (d.getLsbD 1 || decide (s.seq.chOff ≠ 0))
  bitSet d 4 (d.getLsbD 4 || decide (s.seq.off ≠ 0))

/-- REPLAY_END (R325, R389, R390, R393, R524): the part enters ACTIVE, or DEGRADED when a degrade cause holds, with Memory_Active
set; CFG_REPLAY and CFG_READY report the times; fold, patrol and the recovery sweep start; a paired part holds its primaries
until contact. -/
def execReplayEnd (replayMs : Nat) (activeMs : Nat) (s : State) : Host.Outcome State Fault Refusal :=
  if s.sys.state ≠ .replay then .next s
  else
    let s := { s with
      boot := { s.boot with phase := 12, replayMs := BitVec.ofNat 11 (min replayMs 2047),
                            activeMs := BitVec.ofNat 16 (min activeMs 65535), relayout := false }
      sys := { s.sys with degrade := s.standingCauses }
      mesh := { s.mesh with heldRegions := if s.mesh.paired && !s.mesh.contact then s.mesh.regions else 0 }
      tiles := vmap s.tiles fun _ x =>
        { x with
          d := { x.d with recovery := unknownLeft x.pl { x.d with swept := [] }, swept := [] }
          it := { x.it with active := x.it.enable, passBase := s.aon.seconds.toNat } } }
    -- each unit resumes from its saved cursor (R249)
    let s := forAll s.svcTiles (fun t s =>
      let bs := s.prmBytes s.lead (64 * 32 + 256 * t.val) 256
      s.modIt t fun i => { i with
        cursors := (List.range s.unitsPerTile).foldl (fun m u => Sparse.set 0 m u (BitVec.ofNat 32 (fieldAt bs (4 * u) 4))) [] }) s
    let s := if s.sys.degrade = 0 then s.setDev .active
      else s.setDev .degraded ((bitsOf s.sys.degrade).headD 0)
    let s := (s.setMemActive true).headDown.applyBudgets.confirmTrial
    let s := forAll s.svcTiles (fun t s => s.wake t) s
    .next s.copyBlackBox

end Sys2Proof.Machine
end

