-- ==== Sys2Proof/Machine/Flush.lean ====
section
/-! DEFINITION. The power-fail flush, and how it ends (R49, R384, R556 to R563, R574, R585, R637, R638, R704). -/

namespace Sys2Proof.Machine

/-! ### The flush journal (R560) -/

/-- The Velvet journal of a tile takes a record; START begins it anew. -/
def State.journal (s : State) (t : TileId) (kind : BitVec 8) (value : Nat) (count : Nat := 0) : State :=
  s.modNv t fun v => { v with
    velvetJ := (if kind = 1 then [] else v.velvetJ) ++ [(BitVec.ofNat 32 s.boots, kind, value, count, false)] }

/-- PROGRESS records for the lines that a tile has staged, one every 4,096 lines. -/
def State.journalProgress (s : State) (t : TileId) (lines : Nat) : State :=
  forAll (List.range (lines / 4096)) (fun i s => s.journal t 2 (4096 * (i + 1))) s

/-! ### Starting (R557 steps 1 to 5) -/

/-- Steps 2 and 3 in one tile: work items of FOLD, PATROL and TELEMETRY that have not started are dropped, START enters the
journal, and every DIRTY line is staged; lines that were being staged go on. A warm reset of the tile ends: its Duikers serve
the flush (R402). -/
def State.flushTile (s : State) (t : TileId) : State :=
  let goes (w : WorkItem) : Bool := w.cls = .fgRead || w.cls = .fgWrite
  let s := { s with boot := { s.boot with warmStep := s.boot.warmStep.set t 0 } }
  let s := s.modEng t fun e => { e with queues := e.queues.map (·.filter goes), full := e.full.filter goes, stopDispatch := false }
  let s := s.journal t 1 s.tiles[t].d.logSeq.toNat
  let n := (s.tiles[t].d.cache.filter fun l => l.st ≠ .clean).length
  let s := s.stageAll t ((dirtyLines s.tiles[t].d).map (·.line))
  { s with flush := s.flush.map fun f => { f with staged := f.staged.set t n } }

/-- The part enters FLUSHING with its trigger: 0 PWRFAIL_N, 1 VIN, 2 a rail with SYSTEM_RESET, 3 a lead loss (R557, R585). A command
that executes is abandoned (R381). From
FAILED the device state does not change (R49). While one flush runs no other starts. -/
def State.startFlush (s : State) (trigger : Nat) : State :=
  if s.flush.isSome then s
  else
    let d := s.sys.state
    let s := s.bye 1
    let s := s.abandonCommands
    let s := { s with
      hld := { s.hld with measuring := false, chargeOff := false, sinking := false }
      pwr := { s.pwr with transition := 0, queued := 0 }
      flush := some { trigger := BitVec.ofNat 2 trigger, stateAtD := d, leadLoss := trigger = 3, railReset := trigger = 2,
                      returned := s.inputPresent && trigger ≥ 2 } }
    let s := if d = .failed then s else s.setDev .flushing
    let s := s.raise (mkEv 0x5001 .warn 15 0 [(1, trigger)])
    let s := forAll s.svcTiles (fun t s => s.flushTile t) s
    if !s.sys.mbReady then s
    else
      let body := leNat (leBytes 4 s.boots ++ ([BitVec.ofNat 8 trigger, BitVec.ofNat 8 d.code, s.sys.inService] : List Byte))
      let s := s.bbWrite 2 body true false
      { s with evr := { s.evr with flushDue := s.evr.flushDue || s.bbx.buffer.isNone } }

/-! ### The summary (R561) -/

/-- Ranges that touch or overlap are merged; the ranges ascend. -/
def coalesce (l : List (Nat × Nat)) : List (Nat × Nat) :=
  (l.foldl (fun (acc : List (Nat × Nat)) r => match acc with
    | (a, n) :: rest => if r.1 ≤ a + n then (a, max n (r.1 + r.2 - a)) :: rest else r :: (a, n) :: rest
    | [] => [r]) []).reverse

/-- Every range widened outward to an alignment in lines. -/
def widen (al : Nat) (l : List (Nat × Nat)) : List (Nat × Nat) :=
  coalesce (l.map fun r => (r.1 / al * al, (r.1 + r.2 + al - 1) / al * al - r.1 / al * al))

/-- At most 64 ranges: widened to 2 MiB, and to the next power of two as long as more remain. -/
def fitRanges : Nat → Nat → List (Nat × Nat) → List (Nat × Nat)
  | 0, _, l => l
  | n + 1, al, l => if l.length ≤ 64 then l else fitRanges n (2 * al) (widen al l)

/-- Lines of a tile that hold an acknowledged value that is not yet in verified staging. -/
def State.unsavedOf (s : State) (t : TileId) : List (Nat × Nat) :=
  coalesce (((sortBy (fun (a b : Nat) => decide (a ≤ b)) ((s.tiles[t].d.cache.filter CLine.postedDirty).map (·.line)))).map
    fun n => (n, 1))

/-- The event flush of FLUSHING runs to its end beside the other steps (R557 step 5, R638). -/
def State.finishEventFlush (s : State) : State :=
  if !s.sys.mbReady || s.bbx.buffer.isSome then s
  else
    let all (s : State) : State := (forAll (List.range ((s.evr.batch.length + 7) / 8)) (fun _ s => s.flushPage) s).closeEventFlush
    let s := if s.evr.flushRunning then all s else s
    if s.evr.flushDue then
      let (b, s) := s.flushBatch
      all { s with evr := { s.evr with
        flushRunning := true, flushDue := false, batch := b, batchTop := s.evr.nextSeq - 1, written := 0 } }
    else s

/-- PF_END and its PF_RANGES (R561, R641). -/
def State.writeSummary (s : State) (outcome : Nat) (ranges : List (Nat × Nat)) (staged : Vector Nat 8) (media : Bool) : State :=
  let parts := (ranges.length + 2) / 3
  let id := leBytes 4 s.boots
  let s := s.bbWrite 3 (leNat (id ++ ([BitVec.ofNat 8 outcome, BitVec.ofNat 8 ranges.length, BitVec.ofNat 8 parts, 0] : List Byte)
    ++ staged.toList.flatMap (leBytes 4))) true media
  forAll (List.range parts) (fun p s =>
    let rs := (ranges.drop (3 * p)).take 3
    s.bbWrite 4 (leNat (id ++ ([BitVec.ofNat 8 p, 0, 0, 0] : List Byte)
      ++ rs.flatMap fun r => leBytes 8 (64 * r.1) ++ leBytes 4 r.2)) true media) s

/-! ### Ending (R557 steps 7 and 8, R558, R561, R562) -/

/-- Every sequenced rail is off: the hold of 10 ms runs, and the part holds down on VAON (R558, R562). -/
def State.holdDown (s : State) : State :=
  { s.fixedOff with flush := s.flush.map fun f => { f with brownHold := true } }

/-- The flush work has ended. After a lead loss the part enters FAILED; if PKG_RST_N was asserted it resets, or powers off where
input has collapsed; after a rail fault with
SYSTEM_RESET it resets; else it disables its rails and waits for input. Input lost on the way counts as a power fail (R384,
R547, R562, R563). -/
def State.afterFlushWork (s : State) : State :=
  match s.flush with
  | none => s
  | some f =>
    let input := s.inputPresent
    let off (s : State) : State := if s.seq.en.toNat / 16 = 0 then s.holdDown else s
    if f.leadLoss then
      if f.pkgRst then (if input then s.finishStores.packageReset .pkgResetPin else off s)
      else
        let s := { s with flush := none, sys := { s.sys with failCause := .leadTileLost } }
        s.setDev .failed FailCause.leadTileLost.code
    else if f.railReset && input && f.returned then
      s.finishStores.packageReset (if f.pkgRst then .pkgResetPin else .railSystemReset) true
    else off s

/-- The flush work ends (R557 step 7, R558, R561): unsaved lines are journalled and summarised, PF_END is written, Memory_Active
becomes 0 at every head, HLD_FLUSH is latched, and the media rails are lowered. -/
def State.endFlushWork (s : State) (watchdog : Bool) : State :=
  match s.flush with
  | none => s
  | some f =>
    if f.workEnded then s
    else
      let left := s.svcTiles.filter fun (t : TileId) => !f.dataEnd.getLsbD t
      let s := forAll left (fun t s =>
        forAll (s.unsavedOf t) (fun r s => s.journal t 3 (64 * r.1) r.2)
          (s.journalProgress t (f.staged[t] - (s.tiles[t].d.cache.filter fun l => l.st ≠ .clean).length))) s
      let s := if watchdog then forAll left (fun t s => s.journal t 5 0) s else s
      let raw := coalesce (sortBy (fun (a b : Nat × Nat) => decide (a.1 ≤ b.1)) (f.unsaved ++ left.flatMap s.unsavedOf))
      let ranges := fitRanges 40 32768 raw
      let complete := left = [] && !f.tagsLost && s.sys.mbReady
      let outcome := b2n complete + 2 * b2n watchdog + 4 * b2n f.returned + 8 * b2n (decide (ranges ≠ raw))
      let s := s.finishEventFlush
      let media := f.stateAtD = .active || f.stateAtD = .degraded || f.stateAtD = .sleepS1
      let s := if s.sys.mbReady then s.writeSummary outcome ranges f.staged media else s
      let (us, s) := s.draw
      let lines := f.staged.toList.sum
      let s := if watchdog then s.raise (mkEv 0x5003 .error 15 0) else s
      let s := s.raise (mkEv 0x5002 .info 15 0 [(2, us % 4096), (1, outcome)] 0 lines)
      let n := (ranges.map (·.2)).sum
      let s := { s with
        aon := { s.aon with
          flushUs := BitVec.ofNat 12 us, flushComplete := complete, flushReturned := f.returned, flushTrigger := f.trigger
          flushUnsaved := BitVec.ofNat 16 (min n 65535), flushBefore := true }
        flush := some { f with workEnded := true } }
      ((s.setMemActive false).lowerMedia).afterFlushWork

/-- POWER_FAIL_DETECT (R49, R556, R704): PWRFAIL_N low or VIN below 10.8 V for 1 µs. Before package reset release no flush runs: the
fixed rails are lowered, and the sequence waits for input. A second indication has no effect. -/
def execPowerFailDetect (vin : Bool) (s : State) : Host.Outcome State Fault Refusal :=
  let s := { s with aon := { s.aon with
    inputOk := false, vinLow := s.aon.vinLow || vin, pwrfailN := s.aon.pwrfailN && vin } }
  if !s.aon.vaon then .next s
  else if !s.boot.released then .next s.fixedOff
  else
    let s : State := { s with flush := s.flush.map fun (f : FlushRun) => { f with returned := false } }
    .next (s.startFlush (if vin then 1 else 0))

/-- INPUT_RETURN (R556, R562): VIN and PWRFAIL_N have been good together for 10 ms. During FLUSHING it is recorded (WARN event
0x5004), and the flush work still runs to its end; before package reset release the fixed rails are raised. -/
def execInputReturn (s : State) : Host.Outcome State Fault Refusal :=
  let s := { s with aon := { s.aon with inputOk := true, vinLow := false, pwrfailN := true } }
  match s.flush with
  | some f =>
    if f.returned then .next s
    else
      let s := s.raise (mkEv 0x5004 .warn 15 0)
      .next { s with flush := some { f with returned := true }, aon := { s.aon with flushReturned := true } }
  | none => .next s.startFixed

/-- A tile has nothing left to stage: no DIRTY line, and no data line waits to verify. -/
def State.flushClean (s : State) (t : TileId) : Bool :=
  let d := s.tiles[t].d
  let data (e : StripeEntry) : Bool := e.kind = .data
  !(d.cache.any fun l => l.st = .dirty) && !(d.asm.toList.flatten.any data) && !(d.closed.any fun x => x.entries.any data)

/-- FLUSH_TILE_DATA_END (R557 step 6, R560): every stripe of the tile has verified; DATA_END enters its journal. After the last tile
the flush work ends. In the hardware flush of a lone lead the supervisor takes the DATA_END itself (R712). -/
def execFlushTileDataEnd (t : TileId) (s : State) : Host.Outcome State Fault Refusal :=
  match s.flush with
  | none => .next s
  | some f =>
    if f.workEnded || !s.inSvc t || f.dataEnd.getLsbD t || !s.flushClean t then .next s
    else
      let s := (s.journalProgress t f.staged[t]).journal t 4 f.staged[t]
      let e := bitOn f.dataEnd t
      let s := { s with flush := some { f with dataEnd := e } }
      if !s.sys.loneLost && s.svcTiles.all (fun (t : TileId) => e.getLsbD t) then .next (s.endFlushWork false) else .next s

/-- FLUSH_WATCHDOG (R558): at D + 5 ms the supervisor ends the flush work, whatever has been done. -/
def execFlushWatchdog (s : State) : Host.Outcome State Fault Refusal :=
  if s.flush.isSome && !s.sys.loneLost then .next (s.endFlushWork true) else .next s

/-- The part powers off: every output is undriven, and what the always-on domain held is lost. The pins stay what the board
drives. -/
def State.powerOff (s : State) : State :=
  let s := s.cutStores.packageReset .powerOn
  { s.fixedOff with
    nv := s.nv.map fun v => { v with velvetJ := [], saveOk := false }
    aon := { vaonLost := true, pwrfailN := s.aon.pwrfailN, pkgRstN := s.aon.pkgRstN, vinLow := s.aon.vinLow,
             vinMv := s.aon.vinMv, vholdMv := s.aon.vholdMv, inputOk := s.aon.inputOk }
    boot := {}
    evr := {}
    clk := {}
    seq := {}
    fab := Vector.replicate 8 {} }

/-- VAON_LOSS (R597, R704): every output goes to its undriven or reset state at once, and no flush runs. -/
def execVaonLoss (s : State) : Host.Outcome State Fault Refusal := if s.aon.vaon then .next s.powerOff else .next s

/-- VHOLD_COLLAPSE (R382, R558): in the hold-down VHOLD falls below 7.0 V and the part powers off. What VAON supplies stays as long
as VAON is good (its loss is VAON_LOSS); the next start is a POWER_ON reset when VIN returns. -/
def execVholdCollapse (s : State) : Host.Outcome State Fault Refusal :=
  if s.aon.vaon && !s.inputPresent && (s.flush.map (·.workEnded)).getD false then
    .next (s.finishStores.packageReset .powerOn).fixedOff
  else .next s

/-- BROWNOUT_HOLD_END (R562): the rails have been off for 10 ms and input counts as returned: the part resets with cause
BROWNOUT_RETURN, or PKG_RESET_PIN if PKG_RST_N was asserted during the flush (R384). -/
def execBrownoutHoldEnd (s : State) : Host.Outcome State Fault Refusal :=
  match s.flush with
  | some f =>
    if f.brownHold && s.inputPresent then
      .next (s.finishStores.packageReset (if f.pkgRst then .pkgResetPin else .brownoutReturn) f.railReset).startFixed
    else .next s
  | none => .next s

end Sys2Proof.Machine
end

