-- ==== Sys2Proof/Machine/Rails.lean ====
section
/-! DEFINITION. What a media rail's failure does, and the lowering of rails (R544 to R548, R563, R640, R704). -/

namespace Sys2Proof.Machine

/-- The mask of the rails of a group. -/
def groupMask (r : List Byte) (q : Nat) : BitVec 16 := (railGroup r q).foldl (fun m x => bitOn m x) 0

/-- The RAIL record of the black box (R640, R641): `what` 0 failed to come up, 1 running fault, 2 group shut down. -/
def State.railRecord (s : State) (q what reaction : Nat) : State :=
  s.bbWrite 5 (leNat (([BitVec.ofNat 8 q, BitVec.ofNat 8 what, BitVec.ofNat 8 reaction, BitVec.ofNat 8 s.seq.retries.toNat] : List Byte)
    ++ leBytes 2 s.seq.en.toNat ++ leBytes 2 s.seq.pg.toNat ++ ([BitVec.ofNat 8 s.sys.state.code] : List Byte)))

/-- A rail has faulted or failed: SEQ_FAULT.FAULT and SEQ_STATE (R577, R578). -/
def State.noteRail (s : State) (q reaction : Nat) : State :=
  { s with seq := { s.seq with lastRail := BitVec.ofNat 4 q, lastReaction := BitVec.ofNat 2 reaction, fault := bitOn s.seq.fault q } }

/-- The channels of a mask are reset with MEDRST_N, as every drop of a rail of theirs asserts it (R550); reads that were under way
there start again, and are poisoned where the channel is out of service (R548). -/
def State.resetChans (s : State) (mask : BitVec 32) : State :=
  forAll (bitsOf mask) (fun i s => s.resetChannel (toTile (i / 4)) (toChan i)) s

/-- The channels of a mask go out of service because of a rail (R546, R548): CHANNEL_OFF; their reads are poisoned, and their stripes
in flight are appended again elsewhere. Before service begins, the owner tiles serve none of their share (R546): replay cannot be
whole without them. -/
def State.chansOut (s : State) (mask : BitVec 32) : State :=
  let mask := (recLayoutChans s.cfg.record).foldl (fun (m : BitVec 32) x =>
    if mask.getLsbD (chanBit x.1 x.2) then bitOn m (chanBit x.1 x.2) else m) 0
  let new := mask &&& ~~~s.seq.chOff
  if new = 0 then s
  else
    let early := s.sys.state = .mediaInit || s.sys.state = .replay
    let tiles := allTiles.filter fun (t : TileId) => (bitsOf new).any fun i => i / 4 = t.val
    let s := { s with seq := { s.seq with
      chOff := s.seq.chOff ||| new
      tileOff := if early then tiles.foldl (fun m (t : TileId) => bitOn m t.val) s.seq.tileOff else s.seq.tileOff } }
    let s := s.resetChans new
    let s := forAll tiles (fun t s =>
      let on (u : Nat) : Bool := new.getLsbD (4 * t.val + u / 16)
      let ctxs := s.tiles[t].eng.ctxs.filter fun x => new.getLsbD (4 * t.val + x.item.chan)
      let s := forAll ctxs (fun x s => s.endCtx t x) s
      let dead (w : WorkItem) : Bool := new.getLsbD (4 * t.val + w.chan)
        && (match w.use with | .load _ => true | _ => false)
      let s := s.modEng t fun e => { e with
        queues := e.queues.map (·.filter fun w => !dead w), full := e.full.filter fun w => !dead w }
      let lost := s.tiles[t].d.closed.filter fun x => x.placed && on x.unit
      let s := s.modD t fun d => { d with closed := d.closed.filter fun x => !lost.contains x }
      let s := forAll lost (fun x s => s.appendAgain t x) s
      let reads := s.loads.filter fun r => r.owner = t && r.result.isNone && (match r.src with
        | .staged u _ _ _ _ => on u
        | .home u _ => on u
        | _ => false)
      forAll (reads.map (·.id)) (fun i s => s.startLoad i) s) s
    if s.flush.isSome then s else (s.addCause .channelOff).mediaGone

/-- A group is lowered in dependency order, its channels' MEDRST_N asserted first (R544). -/
def State.lowerGroup (s : State) (q : Nat) : State :=
  { s with seq := { s.seq with wanted := s.seq.wanted &&& ~~~(groupMask s.cfg.record q), lowering := true } }

/-- The rails that are still to come up. -/
def State.stillRaising (s : State) : State :=
  { s with seq := { s.seq with raising := s.seq.raising && decide (s.seq.wanted &&& ~~~s.seq.pg &&& ~~~s.seq.off ≠ 0) } }

/-- A group stays off until the next package reset: SEQ_FAULT.OFF, RAIL_GROUP, CHANNEL_OFF (R545, R547). -/
def State.holdGroupOff (s : State) (q : Nat) : State :=
  let s := { s with seq := { s.seq with off := s.seq.off ||| groupMask s.cfg.record q } }
  ((s.addCause .railGroup).chansOut (groupChans s.cfg.record q)).stillRaising

/-- GROUP_SHUTDOWN (R547). -/
def State.shutGroup (s : State) (q : Nat) : State :=
  let s := (s.lowerGroup q).holdGroupOff q
  let s := s.raise (mkEv 0x5013 .error 15 0 [(1, q)])
  s.railRecord q 2 2

/-- RAIL_RAMP_TIMEOUT (R545, R547): a media rail that is enabled has not become good: it is disabled. A RETRY makes up to three
attempts before it shuts the group down; anywhere else the rail's group stays off and its channels go out of service. -/
def execRailRampTimeout (rail : Fin 16) (s : State) : Host.Outcome State Fault Refusal :=
  let q := rail.val
  if q < 4 ∨ !s.seq.en.getLsbD q ∨ s.seq.pg.getLsbD q ∨ s.seq.ignored.getLsbD q ∨ s.flush.isSome then .next s
  else
    let s := { s with seq := { s.seq with en := bitOff s.seq.en q, fault := bitOn s.seq.fault q, lastRail := BitVec.ofNat 4 q } }
    let s := (s.raise (mkEv 0x5010 .error 15 0 [(1, q)])).railRecord q 0 (recRailReact s.cfg.record q)
    if s.seq.retryRail = some q then
      if s.seq.retries.toNat < 3 then .next s
      else .next ({ s with seq := { s.seq with retryRail := none } }.shutGroup q)
    else .next (s.holdGroupOff q)

/-- A running fault of a rail (R547, R563): event 0x5011 and the reaction in force; during FLUSHING no reaction is applied, and the
channels of its group are out of service for the flush. -/
def State.railFault (s : State) (q : Nat) : State :=
  let reaction := if q < 4 then 3 else (s.seq.react.toList.getD q 3).toNat
  let s := { s with seq := { s.seq with pg := bitOff s.seq.pg q } }
  let s := (s.noteRail q reaction).raise (mkEv 0x5011 .error 15 0 [(1, q), (1, reaction)])
  let s := s.railRecord q 1 reaction
  let chans := if q < 4 then 0 else groupChans s.cfg.record q
  if s.flush.isSome then s.chansOut chans
  else
    match reaction with
    | 0 => { s.resetChans chans with seq := { (s.resetChans chans).seq with ignored := bitOn s.seq.ignored q } }
    | 1 => { (s.chansOut chans).lowerGroup q with
             seq := { ((s.chansOut chans).lowerGroup q).seq with retryRail := some q, retries := 0 } }
    | 2 => s.shutGroup q
    | _ => (s.chansOut chans).startFlush 2

/-- RAIL_RUNNING_FAULT (R541, R547): SEQ_PG has fallen with SEQ_EN high. A fixed rail that falls before package reset release starts
the sequence again after 100 ms. -/
def execRailRunningFault (rail : Fin 16) (s : State) : Host.Outcome State Fault Refusal :=
  if !s.seq.en.getLsbD rail ∨ !s.seq.pg.getLsbD rail then .next s
  else if !s.boot.released then .next { s.fixedOff with seq := { s.fixedOff.seq with fixedWait := true } }
  else .next (s.railFault rail)

/-- PMB_ALERT (R704): PMB_ALERT_N of the VCORE regulator is a running fault of rail 0, with reaction SYSTEM_RESET. -/
def execPmbAlert (s : State) : Host.Outcome State Fault Refusal :=
  if !s.seq.en.getLsbD 0 ∨ !s.boot.released then .next s else .next (s.railFault 0)

/-- RAIL_RETRY_TIMER (R547): 1 ms after the disable the rail is enabled again, and its group as R544 allows; the attempts are
counted. -/
def execRailRetryTimer (s : State) : Host.Outcome State Fault Refusal :=
  match s.seq.retryRail with
  | none => .next s
  | some q =>
    if s.seq.en.getLsbD q || s.seq.retries = 3 || s.flush.isSome then .next s
    else
      .next { s with seq := { s.seq with
        retries := s.seq.retries + 1, wanted := s.seq.wanted ||| groupMask s.cfg.record q, raising := true } }.enableRails

/-- The rails that are still on and are to be lowered. -/
def State.toLower (s : State) : List Nat := ((List.range 12).map (· + 4)).filter fun q => s.seq.en.getLsbD q && !s.seq.wanted.getLsbD q

/-- Those of them that no other one depends on (R544). -/
def State.lowerNow (s : State) : List Nat :=
  let r := if s.cfg.record = [] then s.cfg.chosen else s.cfg.record
  s.toLower.filter fun q => !(s.toLower.any fun x => (recRailAfter r x).getLsbD q)

/-- The mask of a list of rails. -/
def railMask (l : List Nat) : BitVec 16 := l.foldl (fun m q => bitOn m q) 0

/-- MEDIA_RAIL_LOWER_STEP (R544, R557): every rail that is to be lowered, and whose dependants are disabled, is disabled; its SEQ_PG
falls. When the last media rail is off at the end of a flush, the fixed rails follow. -/
def execMediaRailLowerStep (s : State) : Host.Outcome State Fault Refusal :=
  if !s.seq.lowering then .next s
  else
    let mask := railMask s.lowerNow
    let en := s.seq.en &&& ~~~mask
    let more := s.toLower.any fun q => !s.lowerNow.contains q
    let s := { s with seq := { s.seq with
      en := en, pg := s.seq.pg &&& ~~~mask, ignored := s.seq.ignored &&& ~~~mask, lowering := more } }
    .next (if !more && (s.flush.map (·.workEnded)).getD false && en.toNat / 16 = 0 then s.holdDown else s)

end Sys2Proof.Machine
end

