-- ==== Sys2Proof/Machine/WidarLink.lean ====
section
/-! DEFINITION. The link layer of Widar and peer ports: training and INIT, flits, retry and retrain, links that go out of
service, and requests and barriers that a failure ends (R453 to R466, R482, R485, R499 to R502). -/

namespace Sys2Proof.Machine

/-! ### Requests that a tile's fabric interface has outstanding (R458, R472, R480 to R483) -/

/-- The oldest barrier of a tile completes when no BAR is awaited (R480 to R482): a broken one is counted, with event 0x3040
for each lost address and one black box record. -/
def State.finishBarrier (s : State) (t : TileId) : State :=
  match s.fab[t].barriers with
  | b :: r =>
    if b.waits ≠ [] then s
    else
      let s := (s.modFab t fun x => { x with
        barriers := r, early := [], barDone := wrapAdd x.barDone 1
        barBroken := if b.broken then satAdd x.barBroken 1 else x.barBroken }).count t 9 5
      if !b.broken then s
      else
        let s := forAll b.lost (fun a s => s.raise (mkEv 0x3040 .error t.val 0 [] a.toNat)) s
        s.bbWrite 6 (leNat (([0, b.target.zeroExtend 8, b.scope.zeroExtend 8, 0] : List Byte)
          ++ leBytes 4 b.lost.length ++ (b.lost.take 5).flatMap fun a => leBytes 8 a.toNat))
  | [] => s

/-- A BAR of the oldest barrier has ended at position `pos`; a DEAD one makes that position's early-acknowledged writes count
as lost (R482). -/
def State.barReturned (s : State) (t : TileId) (pos : BitVec 3) (bad : Bool) : State :=
  let s := s.modFab t fun x => { x with barriers := match x.barriers with
    | b :: r =>
      let lost := if bad then (x.early.filter fun e => e.1 = pos).map (·.2) else []
      { b with waits := b.waits.erase pos, lost := b.lost ++ lost, broken := b.broken || bad
               target := if bad && !b.broken then pos else b.target } :: r
    | [] => [] }
  s.finishBarrier t

/-- A request of tile `t` is refused with DEAD before it is sent (R482). -/
def State.refuseDead (s : State) (t : TileId) : State :=
  s.modFab t fun x => { x with refused := satAdd x.refused 1, roundRefused := x.roundRefused + 1 }

/-- A request leaves tile `t` with the next tag, or false when it cannot be sent. -/
def State.wRequest (s : State) (t : TileId) (m : Msg) : Bool × State :=
  let tag := s.fab[t].nextTag
  let m := { m with tag := tag, src := BitVec.ofNat 3 t.val }
  let s := s.modFab t fun x => { x with nextTag := tag + 1 }
  if s.fab[t].dead.getLsbD m.dst.toNat then (false, s.refuseDead t)
  else
    let (ok, s) := s.wsend t m
    if ok then
      (true, s.modFab t fun x => { x with outst := x.outst ++ [{ tag := tag, opcode := m.opcode, dst := m.dst, addr := m.addr }] })
    else (false, s)

/-- A barrier starts: a BAR goes to each position that holds early-acknowledged writes of the tile (R481). -/
def State.startBarrier (s : State) (t : TileId) (scope : BitVec 2) : State :=
  let ps := (s.fab[t].early.map (·.1)).eraseDups
  let s := s.modFab t fun x => { x with fence := false, barriers := x.barriers ++ [{ scope := scope, waits := ps }] }
  if ps = [] then s.finishBarrier t
  else forAll ps (fun p s =>
    let (ok, s) := s.wRequest t { opcode := 4, scope := scope, dst := p }
    if ok then s else s.barReturned t p true) s

/-- The position that serves an address (R473). -/
def State.addrPos (s : State) (t : TileId) (a : BitVec 52) : BitVec 3 :=
  let n := a.toNat
  if n < 2 ^ 44 then BitVec.ofNat 3 (s.home (n / 64)).tile.val
  else if n < 2 ^ 44 + 2 ^ 40 then 7
  else if 2 ^ 45 ≤ n ∧ n < 2 ^ 45 + 2 ^ 20 then BitVec.ofNat 3 s.lead.val
  else if n ≥ 2 ^ 51 then BitVec.ofNat 3 (n / 2 ^ 48 % 8)
  else BitVec.ofNat 3 t.val

/-- The Stag's store buffer issues its oldest store, one at a time and none while a barrier waits (R480, R483); a store that
cannot be sent ends with DEAD. An empty buffer lets a waiting FENCE start its barrier. -/
def State.issueStores (s : State) (t : TileId) : State :=
  forAll (List.range (s.fab[t].storeBuf.length + 1)) (fun _ s =>
    let x := s.fab[t]
    if x.barriers ≠ [] ∨ x.outst.any (fun o => !o.guest && o.opcode = 2) then s
    else match x.storeBuf with
      | (a, d) :: r =>
        let (ok, s) := s.wRequest t
          { opcode := 2, dslots := BitVec.ofNat 3 ((d.length + 15) / 16), len := BitVec.ofNat 7 d.length
            dst := s.addrPos t a, addr := a, data := d }
        if ok then s else s.modFab t fun x => { x with storeBuf := r }
      | [] => if x.fence then s.startBarrier t 0 else s) s

/-- An outstanding request of tile `t` completes with a status (R470, R477): a store leaves the buffer, and a write that was
acknowledged early waits for a barrier; a BAR ends. -/
def State.wDone (s : State) (t : TileId) (o : Outst) (status : Nat) (early : Bool) : State :=
  let s := s.modFab t fun x => { x with outst := x.outst.filter (· ≠ o) }
  if o.opcode = 2 then
    (s.modFab t fun x => { x with
      storeBuf := x.storeBuf.drop 1
      early := if early && status = 0 then x.early ++ [(o.dst, o.addr)] else x.early }).issueStores t
  else if o.opcode = 4 then (s.barReturned t o.dst (status ≠ 0)).issueStores t
  else s

/-- A guest request that the tile took ends with DEAD (R472); its broken barrier is one event that names the guest and the
dead position (R482). -/
def State.guestDead (s : State) (t : TileId) (o : Outst) : State :=
  let s := s.modFab t fun x => { x with outst := x.outst.filter (· ≠ o) }
  let s := s.wReply t { opcode := o.opcode, tag := o.tag, src := 7, dst := o.dst, addr := o.addr } 5
  if o.opcode = 4 then s.raise (mkEv 0x3040 .error 8 0 [(1, o.dst.toNat)]) else s

/-- The hops of the route from position a to d, as the tiles hold it now. -/
def State.followRoute (s : State) : Nat → Nat → Nat → List (Nat × Nat)
  | 0, _, _ => []
  | n + 1, a, d =>
    if a = d then []
    else match (hopPort s.fuses.variant s.fab[toTile a].route[toTile d]).bind fun p => neighbour s.fuses.variant a p.val with
      | some b => (a, b) :: s.followRoute n b d
      | none => []

/-- Requests that a head has forwarded over a hop that `bad` names complete with DEAD (R458): loads are poisoned, and stores that
have not reached their owner's cache are discarded. -/
def State.headsDead (s : State) (bad : Nat × Nat → Bool) : State :=
  let cut (h t : TileId) : Bool := (s.followRoute 8 h.val t.val).any bad
  let own (r : LoadReq) : Bool :=
    r.forStore.isNone && !r.internal && !r.hint && r.peer.isNone && r.wid.isNone && r.result.isNone && cut r.head r.owner
  let s := { s with loads := lmod s.loads own fun r => { r with result := some (0, true) } }
  forAll s.svcTiles (fun t s =>
    let hit (r : StoreReq) : Bool :=
      r.peer.isNone && !r.internal && r.wid.isNone && !r.discarded && (r.phase = 0 || r.phase = 1 || r.phase = 5) && cut r.head t
    let n := s.tiles[t].d.stores.countP hit
    let s := s.modD t fun d => { d with stores := lmod d.stores hit fun r => { r with discarded := true, phase := 4, peerDone := true } }
    { s with sys := { s.sys with roundDiscarded := s.sys.roundDiscarded + n } }) s

/-- Every outstanding request whose route uses a hop that `bad` names completes with DEAD (R458). Its message is taken out
of the queues of the tile that holds it. -/
def State.deadOut (s : State) (bad : Nat × Nat → Bool) : State :=
  let s := s.headsDead bad
  forAll s.svcTiles (fun t s =>
    let hit := s.fab[t].outst.filter fun o => (s.followRoute 8 t.val o.dst.toNat).any bad
    let mine (m : Msg) : Bool := hit.any fun o => o.tag = m.tag && o.dst = m.dst && (o.guest || m.src.toNat = t.val)
    let s := s.modFab t fun x => { x with ports := x.ports.map fun k => { k with waiting := k.waiting.filter (!mine ·) } }
    forAll hit (fun o s => if o.guest then s.guestDead t o else s.wDone t o 5 false) s) s

/-- A position is declared dead (R458, R482): it is marked in every tile, and requests to it or through it end. -/
def State.positionDead (s : State) (pos : Nat) : State :=
  let s := { s with fab := s.fab.map fun (x : Fabric) => { x with dead := bitOn x.dead pos } }
  s.deadOut fun h => h.1 = pos || h.2 = pos

/-- Some tile in service cannot be reached from another (R50). -/
def State.unreachable (s : State) : Bool :=
  s.svcTiles.any fun t => s.svcTiles.any fun d => (s.routeTo t d.val).1 = 7

/-! ### The guest die (R485) -/

/-- The link from a tile to the guest site is in service. -/
def State.guestLinks (s : State) : BitVec 2 :=
  bitSet (bitSet (0 : BitVec 2) 0 (s.linkOk 6 1)) 1 (s.linkOk 3 2)

/-- The guest die is declared dead (R485). -/
def State.guestLost (s : State) : State :=
  if !s.guest.admitted then s
  else
    let s := { s with guest := { s.guest with admitted := false, dead := true, awaiting := false } }
    (s.raise (mkEv 0x3050 .error 8 0)).positionDead 7

/-- The guest die asks for admission with a completed INIT: at most once per 100 ms it is admitted (event 0x3051), and its
window's acknowledgement attribute follows its INIT (R479, R485, R495). -/
def State.guestAdmit (s : State) (i : InitFlit) : State :=
  let s := { s with fab := s.fab.map fun (x : Fabric) => { x with ackGuest := i.flags.getLsbD 0 } }
  let now := s.clk.round.toNat
  let soon := s.guest.lastAdmitMs.any fun m => decide (now < m + 100)
  if !i.flags.getLsbD 1 || s.guest.admitted || soon || s.sys.lead.isNone then s
  else
    let s := { s with
      guest := { s.guest with admitted := true, dead := false, missed := 0, awaiting := false, lastAdmitMs := some now }
      fab := s.fab.map fun (x : Fabric) => { x with dead := bitOff x.dead 7 } }
    s.raise (mkEv 0x3051 .info 8 0)

/-! ### Links that come and go (R463, R464) -/

/-- An event of a port: the Widar code for a port of a tile, the mesh code for a peer port. -/
def linkEv (l : PortId) (widar mesh : Nat) (sev : Severity) (args : List (Nat × Nat) := []) : EventRec :=
  match l with
  | .widar t p => mkEv widar sev t.val (p.val + 1) args
  | .peer p => mkEv mesh sev 15 (p.val + 1) args

/-- Links are down in SLEEP_S2 and SLEEP_S3 until the controller resumes (R486, R502). -/
def State.linksSleep (s : State) : Bool :=
  (s.sys.state = .sleepS2 || s.sys.state = .sleepS3) && s.pwr.transition ≠ 2

/-- Unacknowledged flits from `e` on are replayed in order (R462, R463); earlier ones are acknowledged. -/
def Link.resume (k : Link) (e : BitVec 10) : Link :=
  let u := k.unacked.dropWhile fun f => f.1 ≠ e
  { k with unacked := u, peerAck := e - 1, txSeq := if u = [] then e else k.txSeq }

/-- After a training and INIT exchange: flit credits restart from the peer's FLIT_BUF, and unacknowledged flits are replayed
from its EXPECT_SEQ (R463). `h` is the link's home. -/
def State.resumeLink (s : State) (h : PortId) (buf : Nat) (e : BitVec 10) : State :=
  let s := s.modLink h fun k =>
    let k := k.resume e
    { k with flitCredits := buf - k.unacked.length, discarding := false, retryTries := 0 }
  (s.replay h (s.link h).unacked).pump h

/-- Both members of a bonded link are up, or not (R454, R489). -/
def State.markBonded (s : State) (h : PortId) : State :=
  let ms := s.membersUp h
  forAll (match h with
    | .widar t p => [h] ++ ((bondMate s.fuses.variant p).map (PortId.widar t)).toList
    | .peer _ => []) (fun m s => s.modLink m fun k => { k with bonded := ms.length = 2 }) s

/-- Some Widar link is out of service (R53). -/
def State.linkMissing (s : State) : Bool :=
  allTiles.any fun (t : TileId) => ([0, 1, 2, 3] : List (Fin 4)).any fun p =>
    let k := s.fab[t].ports[p]
    k.outOfService && !k.up && (s.membersUp (s.linkHome (.widar t p))).isEmpty

/-- The last member of a link has left service: what it carried is lost, and requests routed over it end (R458). The part is
degraded, until the next package reset where a tile is out of reach (R50, R53); without any link the guest is dead (R485); a
peer link starts a discovery (R504). -/
def State.linkLost (s : State) (h : PortId) : State :=
  let s := s.modLink h fun k => { k with unacked := [], ackDue := false, fcrdDue := 0, nullDue := false, discarding := false }
  match h with
  | .peer _ => (s.modLink h fun k => { k with mwaiting := [] }).startDiscovery
  | .widar t p =>
    match neighbour s.fuses.variant t.val p.val with
    | none => s
    | some n =>
      let s := s.deadOut fun e => e = (t.val, n) || e = (n, t.val)
      let s := { s with guest := { s.guest with links := s.guestLinks } }
      let s := if s.fuses.variant = .yd4871g ∧ n = 7 ∧ s.guestLinks = (0 : BitVec 2) then s.guestLost else s
      let s : State := { s with sys := { s.sys with cutOff := s.sys.cutOff || s.unreachable } }
      s.addCause .widarLink

/-- A port goes out of service (R463). On a bonded link the other member carries every flit (R454). -/
def State.linkOut (s : State) (l : PortId) : State :=
  let h := s.linkHome l
  let s := s.modLink l fun k => { k with
    up := false, trained := false, retraining := false, outOfService := true, bonded := false, speed := 0, width := 0
    initSent := false, flags := bitOn k.flags 3 }
  let s := s.raise (linkEv l 0x3012 0x4011 .error)
  let ms := s.membersUp h
  let s := s.markBonded h
  if ms = [] then s.linkLost h else s.raise (linkEv (ms.headD l) 0x3011 0x4010 .warn)

/-- A member enters service (R464): the first of a link sets its credits and replays; the class credits of the first INIT since
package reset stand, and carry across later trainings (R463). -/
def State.linkUp (s : State) (l : PortId) (i : InitFlit) : State :=
  let h := s.linkHome l
  let whole := s.membersUp h = []
  let first := decide ((s.link h).flitsSent = 0) && whole && (s.link h).unacked.isEmpty && (s.link h).init.isNone
  let s := s.modLink l fun k => { k with
    up := true, outOfService := false, retraining := false, init := some i, rxKey := i.key, rxFrame := 0
    peerSerial := i.serialCrc }
  let s := if first then
      s.modLink h fun k => { k with init := some i, reqCredits := i.crdReq.toNat, rspCredits := i.crdRsp.toNat }
    else s
  let s := if whole then s.resumeLink h i.flitBuf.toNat (i.expectSeq.setWidth 10) else s
  let s := s.markBonded h
  match l with
  | .widar _ _ => if s.linkMissing then s else s.clearCause .widarLink
  | .peer _ => s

/-- A link starts to retrain (R463). -/
def State.retrain (s : State) (l : PortId) : State :=
  s.modLink l fun k => { k with retraining := true, discarding := false }

/-- CRC-32C of the serial number that a tile has fused. -/
def State.serialCrc (s : State) (t : TileId) : BitVec 32 := crc32c (leBytes 8 s.fuses.serials[t].toNat)

/-- The INIT that a port sends (R464, R500, R501): FLIT_BUF 8, 15 on a peer link; the class slots that the part advertises, which
the spec leaves open from 64 to 4,095; and the number that the link expects. -/
def State.ownInit (s : State) (l : PortId) (key : BitVec 64) : InitFlit :=
  let e := ((s.link (s.linkHome l)).expect).zeroExtend 16
  let slots (rsp : Bool) : BitVec 16 := BitVec.ofNat 16 (64 + Config.classSlots rsp % 4032)
  match l with
  | .widar t _ =>
    { role := 0, position := BitVec.ofNat 8 t.val, flitBuf := 8, crdReq := slots false, crdRsp := slots true, expectSeq := e, key := key
      serialCrc := s.serialCrc t }
  | .peer p =>
    { role := 2, position := BitVec.ofNat 8 (s.pkgId % 64), flitBuf := 15, crdReq := slots false, crdRsp := slots true, expectSeq := e
      key := key, serialCrc := s.serialCrc (peerTile s.fuses.variant p) }

/-- A port draws the scramble key of its direction from the TRNG and sends its INIT, unscrambled (R464, R466). -/
def State.sendInit (s : State) (l : PortId) : State :=
  let (v, s) := s.draw
  let i := s.ownInit l (BitVec.ofNat 64 v)
  s.modLink l fun k => { k with initSent := true, txKey := i.key, txFrame := 0, sent := initBytes i }

/-- WIDAR_LINK_TRAINED (R453, R464, R499): a port completes its physical training, draws the scramble key of its direction,
and sends its INIT. -/
def execWidarLinkTrained (l : PortId) (speed : BitVec 2) (width : BitVec 2) (repaired : BitVec 4) (s : State) :
    Host.Outcome State Fault Refusal :=
  let k := s.link l
  if !s.boot.released || !s.portEnabled l || s.linksSleep || k.up || k.retraining || speed = 0 || speed = 3 || width = 0
    || width = 3 then .next s
  else
    .next ((s.modLink l fun k => { k with trained := true, speed := speed, width := width, repaired := repaired }).sendInit l)

/-- The fields of an INIT that every link checks are in range (R464). -/
def initRangeOk (i : InitFlit) : Bool :=
  i.version = 1 && decide (4 ≤ i.flitBuf.toNat ∧ i.flitBuf.toNat ≤ 15) && decide (64 ≤ i.crdReq.toNat ∧ i.crdReq.toNat ≤ 4095)
    && decide (64 ≤ i.crdRsp.toNat ∧ i.crdRsp.toNat ≤ 4095) && decide (i.expectSeq.toNat < 1024)

/-- An INIT at a Widar port is refused (R464). -/
def State.initRefused (s : State) (t : TileId) (p : Fin 4) (i : InitFlit) : Bool :=
  match neighbour s.fuses.variant t.val p.val with
  | none => true
  | some n =>
    let guest := s.fuses.variant = .yd4871g && n = 7
    i.role ≠ (if guest then 1 else 0) || i.position.toNat % 8 ≠ n || !initRangeOk i
      || i.flags.toNat ≥ (if guest then 4 else 1) || i.serialCrc ≠ (if guest then 0 else s.serialCrc t)

/-- The INIT of a bonded member disagrees with its partner's, while the partner is in service (R454). EXPECT_SEQ is compared
while nothing newer has been acknowledged. -/
def State.initDisagrees (s : State) (t : TileId) (p : Fin 4) (i : InitFlit) : Bool :=
  (bondMate s.fuses.variant p).any fun q =>
    let k := s.fab[t].ports[q]
    k.up && k.init.any fun j =>
      let h := s.link (s.linkHome (.widar t p))
      j.flitBuf ≠ i.flitBuf || j.crdReq ≠ i.crdReq || j.crdRsp ≠ i.crdRsp
        || (h.peerAck + 1 = j.expectSeq.setWidth 10 && i.expectSeq ≠ j.expectSeq)

/-- The events of a link that has come up (R487, R528). -/
def State.linkUpEvents (s : State) (l : PortId) (peer : List (Nat × Nat)) : State :=
  let k := s.link l
  let s := s.raise (linkEv l 0x3001 0x4001 .info ([(1, k.speed.toNat), (1, k.width.toNat)] ++ peer))
  if k.speed = 1 || k.width = 1 then s.raise (linkEv l 0x3011 0x4010 .warn) else s

/-- WIDAR_INIT (R464): the INIT of a trained port is checked; the port enters service, or stays out of it with ERROR event
0x3013. -/
def execWidarInit (t : TileId) (p : Fin 4) (wire : List Byte) (s : State) : Host.Outcome State Fault Refusal :=
  let l := PortId.widar t p
  let k := s.link l
  match readInit wire with
  | none => .next s
  | some init =>
    if !k.trained || k.up then .next s
    else if s.initRefused t p init then .next (s.raise (mkEv 0x3013 .error t.val (p.val + 1)))
    else if s.initDisagrees t p init then .next s
    else
      let s := (s.linkUp l init).linkUpEvents l []
      let s := { s with guest := { s.guest with links := s.guestLinks } }
      let s := if s.fuses.variant = .yd4871g && neighbour s.fuses.variant t.val p.val = some 7 then s.guestAdmit init else s
      .next s.applyRoutes

/-- The INIT at a peer port shows a loopback, or another package with this part's ID (R501). -/
def State.initLoop (s : State) (p : Fin 4) (i : InitFlit) : Bool := i.serialCrc = s.serialCrc (peerTile s.fuses.variant p)
def State.initClash (s : State) (p : Fin 4) (i : InitFlit) : Bool :=
  decide (i.position.toNat % 64 = s.pkgId) && !s.initLoop p i

/-- An INIT at a peer port is refused (R501). -/
def State.meshRefused (s : State) (p : Fin 4) (i : InitFlit) : Bool :=
  i.role ≠ 2 || s.initLoop p i || s.initClash p i || !initRangeOk i || i.flags ≠ 0

/-- A refused INIT at a peer port sets its flags, with ERROR event 0x4012 (R501). -/
def State.meshRefuse (s : State) (p : Fin 4) (i : InitFlit) : State :=
  let s := s.modLink (.peer p) fun k => { k with
    flags := bitSet (bitSet k.flags 6 (k.flags.getLsbD 6 || s.initLoop p i)) 7 (k.flags.getLsbD 7 || s.initClash p i) }
  s.raise (mkEv 0x4012 .error 15 (p.val + 1))

/-- MESH_INIT (R501): the INIT of a trained peer port is checked for role, loopback and ID conflict; a port that enters
service starts a discovery (R504). -/
def execMeshInit (p : Fin 4) (wire : List Byte) (s : State) : Host.Outcome State Fault Refusal :=
  let l := PortId.peer p
  let k := s.link l
  match readInit wire with
  | none => .next s
  | some init =>
    if !k.trained || k.up then .next s
    else if s.meshRefused p init then .next (s.meshRefuse p init)
    else
      let s := s.modLink l fun k => { k with peer := init.position.setWidth 6 }
      .next (((s.linkUp l init).linkUpEvents l [(1, init.position.toNat % 64)]).startDiscovery)

/-! ### Flits (R459 to R463, R467) -/

/-- A NULL flit is sent on a member whose transmitter is free; it carries the returns (R454, R461). -/
def State.sendNull (s : State) (h : PortId) : State :=
  match s.pick (s.membersUp h) with
  | (none, s) => s
  | (some m, s) =>
    let s := s.startFlit h m 0 0
    match h with
    | .widar t _ => s.count t 9 2
    | .peer _ => s

/-- A RETRY_REQ for the flit that is expected is sent, on both members of a bonded link (R454, R462). -/
def State.sendRetry (s : State) (h : PortId) : State :=
  let s := s.modLink h fun k => { k with retryTries := k.retryTries + 1, retrySent := k.retrySent + 1 }
  forAll (s.membersUp h) (fun m s => s.startFlit h m 2 (s.link h).expect) s

/-- What is to be returned goes with a PAYLOAD flit, or with a NULL flit if none can be sent (R461). -/
def State.sendReturns (s : State) (h : PortId) : State :=
  let s := s.pump h
  if (s.link h).nullDue then s.sendNull h else s

/-- The acknowledgement and credits of a flit's header are taken (R454, R460, R461). -/
def Link.takeHeader (k : Link) (f : Flit) : Link :=
  let k := if f.ackV && newer f.ackSeq k.peerAck && (k.unacked.any fun u => u.1 = f.ackSeq) then
      { k with peerAck := f.ackSeq, lastAck := f.ackSeq, unacked := (k.unacked.dropWhile fun u => u.1 ≠ f.ackSeq).drop 1 }
    else k
  { k with flitCredits := k.flitCredits + f.fcrd.toNat, reqCredits := k.reqCredits + f.crdReq.toNat
           rspCredits := k.rspCredits + f.crdRsp.toNat }

/-- A malformed request is counted at the tile, noted at the port it came from, and answered (R471, R475, R497). -/
def State.wReject (s : State) (t : TileId) (p : Option (Fin 4)) (m : Msg) (status : Nat) : State :=
  let s := s.modFab t fun x => match status with
    | 4 => { x with rejLength := satAdd x.rejLength 1, roundRejects := x.roundRejects + 1 }
    | 2 => { x with rejDenied := satAdd x.rejDenied 1, roundRejects := x.roundRejects + 1 }
    | 3 => { x with rejUnmapped := satAdd x.rejUnmapped 1, roundRejects := x.roundRejects + 1 }
    | 7 => { x with rejState := satAdd x.rejState 1 }
    | _ => x
  let s := match p with
    | some p => if status = 4 then s.modLink (.widar t p) fun k => { k with flags := bitOn k.flags 1 } else s
    | none => s
  s.wReply t m status

/-- Class slots of a message are due to be returned to the sender (R467). -/
def State.creditMsg (s : State) (l : PortId) (rsp : Bool) (n : Nat) : State :=
  s.modLink (s.linkHome l) fun k => if rsp then { k with rspDue := k.rspDue + n } else { k with reqDue := k.reqDue + n }

/-- A message of a good flit arrives at tile `t` on port `p`: it joins the class queue of its destination here, or is
forwarded on the route to it (R456). A guest request is first checked here and tracked (R472, R476, R482, R677); an undefined
opcode receives UNMAPPED (R469). -/
def State.msgIn (s : State) (t : TileId) (p : Fin 4) (m : Msg) : State :=
  let s := s.ungate t (bitOn 0 (26 + p.val))
  let fromGuest := s.fuses.variant = .yd4871g && neighbour s.fuses.variant t.val p.val = some 7 && !msgRsp m
  let l := PortId.widar t p
  let dpa := decide (m.addr.toNat < 2 ^ 44) && (m.opcode = 1 || m.opcode = 2)
  let known := m.opcode = 1 || m.opcode = 2 || m.opcode = 4 || msgRsp m
    || (m.opcode = 5 && (m.addr.toNat % 256 = 1 || m.addr.toNat % 256 = 2))
  if fromGuest && dpa && (!s.admits 7 (m.addr.toNat / 64) || s.sec.locked) then
    let s := if s.sec.locked then { s with sys := { s.sys with roundLocked := s.sys.roundLocked + 1 } } else s
    (s.creditMsg l false (msgSlots m)).wReject t (some p) m 2
  else if m.dst.toNat = t.val && !known then (s.creditMsg l false (msgSlots m)).wReject t (some p) m 3
  else if m.dst.toNat = t.val then s.modFab t fun x => { x with rxq := x.rxq ++ [(p.val, m)] }
  else
    let s := s.creditMsg l (msgRsp m) (msgSlots m)
    if fromGuest && s.fab[t].dead.getLsbD m.dst.toNat then
      (if m.opcode = 1 then s else s.refuseDead t).wReply t m 5
    else
      let s := s.count t 9 4
      let (ok, s) := s.wsend t m
      if ok then
        if fromGuest && m.opcode ≠ 5 then
          s.modFab t fun x => { x with
            outst := x.outst ++ [{ tag := m.tag, opcode := m.opcode, dst := m.dst, addr := m.addr, guest := true }] }
        else s
      else if fromGuest then s.wReply t m 5 else s

/-- The Widar messages of a good flit, slot by slot. A message that would run past slot 14 ends them: its slots and the rest
are credited, and a request gets LENGTH (R467, R471). -/
def State.msgsIn (s : State) (t : TileId) (p : Fin 4) : Nat → List Msg → State
  | _, [] => s
  | n, m :: r =>
    if n + 1 + m.dslots.toNat > 15 then
      let s := s.creditMsg (.widar t p) (msgRsp m) (15 - n)
      if msgRsp m then s.modLink (.widar t p) fun k => { k with flags := bitOn k.flags 1 } else s.wReject t (some p) m 4
    else (s.msgIn t p m).msgsIn t p (n + msgSlots m) r

/-- An opcode of R507. -/
def mmsgKnown (m : MMsg) : Bool := decide (0x21 ≤ m.opcode.toNat ∧ m.opcode.toNat ≤ 0x29) || mmsgRsp m

/-- The mesh messages of a good flit join the class queues of the part (R467, R508). An undefined opcode receives UNMAPPED, or is
forwarded to the package that it names (R508, R509). -/
def State.mmsgsIn (s : State) (p : Fin 4) : Nat → List MMsg → State
  | _, [] => s
  | n, m :: r =>
    if n + 1 + m.dslots.toNat > 15 then
      let s := s.creditMsg (.peer p) (mmsgRsp m) (15 - n)
      if mmsgRsp m || m.dst.toNat ≠ s.pkgId then s.modLink (.peer p) fun k => { k with flags := bitOn k.flags 1 }
      else s.meshReject p m 4
    else
      let s :=
        if mmsgKnown m then { s with mesh := { s.mesh with rxq := s.mesh.rxq ++ [(p.val, m)] } }
        else
          let s := s.creditMsg (.peer p) false (mmsgSlots m)
          if m.dst.toNat = s.pkgId then s.meshReject p m 3 else s.meshForward m
      s.mmsgsIn p (n + mmsgSlots m) r

/-- A flit that fails its CRC frees its buffer and is discarded, and the flit that is expected is asked for (R461, R462). -/
def State.badFlit (s : State) (l : PortId) : State :=
  let h := s.linkHome l
  let s := s.modLink l fun k => { k with crcErrors := satAdd k.crcErrors 1, flags := bitOn k.flags 0 }
  let asked := (s.link h).discarding
  let s := s.modLink h fun k => { k with fcrdDue := k.fcrdDue + 1, nullDue := true, discarding := true }
  if asked then s.sendReturns h else (s.modLink h fun k => { k with retryTries := 0 }).sendRetry h

/-- The port is one of a peer link. -/
def onPeer : PortId → Bool
  | .widar _ _ => false
  | .peer _ => true

/-- What a port in service receives (R461, R466): the flit, or none where its CRC fails. -/
def Link.receive (k : Link) (l : PortId) (wire : List Byte) : Option Flit := readFlit (onPeer l) k.rxKey k.rxFrame wire

/-- WIDAR_PAYLOAD_FLIT (R460 to R462, R467): a flit in service that checks and is the expected one is acknowledged and its
messages are queued or forwarded; any other is discarded; its buffer is freed. -/
def execWidarPayloadFlit (l : PortId) (wire : List Byte) (s : State) : Host.Outcome State Fault Refusal :=
  let k := s.link l
  if !k.up || k.retraining then .next s
  else
    let h := s.linkHome l
    let u := s.modLink l fun k => { k with rxFrame := k.rxFrame + 1 }
    match k.receive l wire with
    | none => .next (u.badFlit l)
    | some flit =>
      if flit.type ≠ 1 then .next s
      else
        let s := u.modLink h fun k => { k.takeHeader flit with fcrdDue := k.fcrdDue + 1, nullDue := true }
        if flit.seq ≠ (s.link h).expect then .next (s.sendReturns h)
        else
          let s := s.modLink h fun k => { k with
            expect := k.expect + 1, heard := true, ackDue := true, discarding := false, retryTries := 0 }
          match l with
          | .widar t p => .next (((s.count t 9 1).msgsIn t p 0 flit.msgs).sendReturns h)
          | .peer p => .next (((s.ungatePkg p.val).mmsgsIn p 0 flit.mmsgs).sendReturns h)

/-- WIDAR_NULL_FLIT (R461): its acknowledgement and credits are taken. -/
def execWidarNullFlit (l : PortId) (wire : List Byte) (s : State) : Host.Outcome State Fault Refusal :=
  let k := s.link l
  if !k.up || k.retraining then .next s
  else
    let u := s.modLink l fun k => { k with rxFrame := k.rxFrame + 1 }
    match k.receive l wire with
    | none => .next (u.badFlit l)
    | some flit =>
      if flit.type ≠ 0 then .next s
      else
        let h := s.linkHome l
        .next ((u.modLink h fun k => k.takeHeader flit).pump h)

/-- WIDAR_RETRY_REQ (R462): the transmitter replays from the named flit; one that names no unacknowledged flit is ignored and sets
MALFORMED. -/
def execWidarRetryReq (l : PortId) (wire : List Byte) (s : State) : Host.Outcome State Fault Refusal :=
  let k := s.link l
  if !k.up || k.retraining then .next s
  else
    let u := s.modLink l fun k => { k with rxFrame := k.rxFrame + 1 }
    match k.receive l wire with
    | none => .next (u.badFlit l)
    | some flit =>
      if flit.type ≠ 2 then .next s
      else
        let h := s.linkHome l
        let s := u.modLink h fun k => k.takeHeader flit
        if !((s.link h).unacked.any fun u => u.1 = flit.seq) then
          .next (s.modLink l fun k => { k with flags := bitOn k.flags 1 })
        else
          let again := (s.link h).unacked.dropWhile fun u => u.1 ≠ flit.seq
          let s := s.modLink l fun k => { k with
            replays := satAdd k.replays 1, roundReplays := k.roundReplays + 1 }
          let s := match l with
            | .widar t _ => s.count t 9 3
            | .peer _ => s
          let s := s.modLink h fun k => { k with flitCredits := k.flitCredits - again.length }
          .next ((s.replay h again).pump h)

/-- RETRY_REQ_RESEND_TIMER (R462): 200 ns have passed without the wanted flit: the RETRY_REQ is sent again, and after four
without progress the link retrains. -/
def execRetryReqResendTimer (l : PortId) (s : State) : Host.Outcome State Fault Refusal :=
  let h := s.linkHome l
  if !(s.link l).up || (s.link l).retraining || !(s.link h).discarding then .next s
  else if (s.link h).retryTries ≥ 4 then .next ((s.modLink h fun k => { k with retryTries := 0 }).retrain l)
  else .next (s.sendRetry h)

/-- WIDAR_TX_IDLE_TIMER (R463): 100 ns without a sent flit: a NULL flit is sent. -/
def execWidarTxIdleTimer (l : PortId) (s : State) : Host.Outcome State Fault Refusal :=
  let k := s.link l
  if !k.up || k.retraining then .next s
  else
    let s := s.startFlit (s.linkHome l) l 0 0
    match l with
    | .widar t _ => .next (s.count t 9 2)
    | .peer _ => .next s

/-- No good flit has come for the link's limit: it retrains. -/
def State.rxTimeout (s : State) (l : PortId) : State :=
  let k := s.link l
  if !k.up || k.retraining then s
  else (s.modLink l fun k => { k with flags := bitOn k.flags 5 }).retrain l

/-- WIDAR_RX_TIMEOUT (R463): no good flit for 1 µs. -/
def execWidarRxTimeout (t : TileId) (p : Fin 4) (s : State) : Host.Outcome State Fault Refusal :=
  .next (s.rxTimeout (.widar t p))

/-- PEER_LINK_RX_TIMEOUT (R500): no good flit for 2 µs. -/
def execPeerLinkRxTimeout (p : Fin 4) (s : State) : Host.Outcome State Fault Refusal := .next (s.rxTimeout (.peer p))

/-- The INIT of a retrain keeps the link out of service, with its event (R454, R464, R501). -/
def State.retrainRefused (s : State) (l : PortId) (i : InitFlit) : Bool :=
  match l with
  | .widar t p => s.initRefused t p i || s.initDisagrees t p i
  | .peer p => s.meshRefused p i

/-- That link goes out of service. -/
def State.refuseRetrain (s : State) (l : PortId) (i : InitFlit) : State :=
  (match l with
    | .widar t p => if s.initRefused t p i then s.raise (mkEv 0x3013 .error t.val (p.val + 1)) else s
    | .peer p => s.meshRefuse p i).linkOut l

/-- A retrain has completed: new keys in both directions, a WARN event, and the peer's INIT stands (R463, R466, R487). -/
def State.retrained (s : State) (l : PortId) (i : InitFlit) : State :=
  let (r, s) := s.lately BitVec.toNat (s.link l).recent
  let s := (s.modLink l fun k => { k with
    retraining := false, retrains := satAdd k.retrains 1, flags := bitOn k.flags 2
    recent := r ++ [s.aon.seconds], init := some i, rxKey := i.key, rxFrame := 0 }).sendInit l
  s.raise (linkEv l 0x3010 0x4010 .warn)

/-- WIDAR_RETRAIN_DONE (R463): the retrain and its INIT exchange complete, and unacknowledged flits are replayed; a link that
fails to retrain, whose INIT is refused, or that has retrained more than three times within one second, is out of service. -/
def execWidarRetrainDone (l : PortId) (ok : Bool) (wire : List Byte) (s : State) : Host.Outcome State Fault Refusal :=
  if !(s.link l).retraining then .next s
  else match (if ok then readInit wire else none) with
    | none => .next (s.linkOut l)
    | some i =>
      if s.retrainRefused l i then .next (s.refuseRetrain l i)
      else
        let s := s.retrained l i
        if (s.link l).recent.length > 3 then .next (s.linkOut l)
        else .next (s.resumeLink (s.linkHome l) i.flitBuf.toNat (i.expectSeq.setWidth 10))

/-- WIDAR_TRAIN_RETRY_TIMER (R463): an out-of-service link is trained again. -/
def execWidarTrainRetryTimer (l : PortId) (s : State) : Host.Outcome State Fault Refusal :=
  if (s.link l).outOfService ∧ !(s.link l).up then
    .next (s.modLink l fun k => { k with trained := false, initSent := false })
  else .next s

/-- FRAME_NUMBER_EXHAUSTED (R466): the link retrains as a fatal link reset (WARN event 0x3060). -/
def execFrameNumberExhausted (l : PortId) (s : State) : Host.Outcome State Fault Refusal :=
  let k := s.link l
  if !k.up || k.retraining then .next s
  else
    let s := (s.modLink l fun k => { k with flags := bitOn k.flags 4 }).retrain l
    match l with
    | .widar t p => .next (s.raise (mkEv 0x3060 .warn t.val (p.val + 1)))
    | .peer p => .next (s.raise (mkEv 0x3060 .warn 15 (p.val + 1)))

/-- ROUTE_UPDATE (R458): the tile applies new routes after position `pos`, or a link towards it, has failed: its outstanding
requests to `pos` that no route serves complete with DEAD, and messages that wait for a link out of service take the new
route. -/
def execRouteUpdate (t : TileId) (pos : BitVec 3) (s : State) : Host.Outcome State Fault Refusal :=
  if !s.inSvc t then .next s
  else
    let gone := (s.routeTo t pos.toNat).1 = 7 || s.fab[t].dead.getLsbD pos.toNat
    let hit := if gone then s.fab[t].outst.filter fun o => o.dst = pos else []
    let s := s.modFab t fun x => { x with
      route := Vector.ofFn fun (d : Fin 8) => (s.routeTo t d.val).1
      alt := (List.range 8).foldl (fun m d => bitSet m d (s.routeTo t d).2) 0 }
    let s := forAll hit (fun o s => if o.guest then s.guestDead t o else s.wDone t o 5 false) s
    let down := ([0, 1, 2, 3] : List (Fin 4)).filter fun p => s.linkHome (.widar t p) = .widar t p && !s.linkOk t p
    .next (forAll down (fun p s =>
      let ms := s.fab[t].ports[p].waiting
      forAll ms (fun m s => (s.wsend t m).2) (s.modLink (.widar t p) fun k => { k with waiting := [] })) s)

/-- GUEST_HEARTBEAT_TIMEOUT (R485): the guest has missed three consecutive replies, or has no link in service: it is declared
dead. -/
def execGuestHeartbeatTimeout (s : State) : Host.Outcome State Fault Refusal :=
  if s.guest.admitted && (s.guest.missed.toNat ≥ 3 || s.guestLinks = 0) then .next s.guestLost else .next s

end Sys2Proof.Machine
end

