-- ==== Sys2Proof/Machine/Power.lean ====
section
/-! DEFINITION. The hold-up monitor's measurement (R552 to R555), performance levels (R564, R565), and the sleep states
with their entry, resume and queued reversal (R566 to R573). -/

namespace Sys2Proof.Machine

/-! ### Hold-up measurement (R552, R553, R555) -/

/-- HOLDUP_MEASUREMENT_START (R552): one is asked for, or 24 hours of the seconds clock have passed since the last; the charge
path is off and the sink draws. None starts in a sleep state, in a transition or in FLUSHING. -/
def execHoldupMeasurementStart (s : State) : Host.Outcome State Fault Refusal :=
  let day := s.hld.firstDone && decide (s.clock ≥ s.hld.lastAt.toNat + 86400)
  if !(s.hld.due || day) || s.hld.measuring || s.flush.isSome || s.sys.state.isSleep || s.pwr.transition ≠ 0 then .next s
  else .next { s with hld := { s.hld with
    measuring := true, chargeOff := true, sinking := true, due := false, vrest := s.aon.vholdMv } }

/-- HOLDUP_SINK_END (R552): CAP_UF is 100 mA × time ÷ 200 mV, or 100,000 µF at the 200 ms limit. How far VHOLD has fallen by then
at the limit is free, up to 200 mV. -/
def execHoldupSinkEnd (us : BitVec 32) (limit : Bool) (s : State) : Host.Outcome State Fault Refusal :=
  if !s.hld.sinking then .next s
  else
    let (v, s) := s.draw
    let fall := if limit then v % 200 else 200
    let cap := if limit then 100000 else us.toNat / 2
    .next { s with hld := { s.hld with
      sinking := false, chargeOff := false
      sinkUs := if limit then 200000 else us
      cap := BitVec.ofNat 32 cap
      energyAtSink := usableUj cap (s.hld.vrest.toNat - fall) } }

/-- The least capacitance whose usable energy at rest reaches that measured at the end of the sink (R552 step 4). -/
def capForEnergy (e vrest : Nat) : Nat :=
  let d := vrest * vrest - 49000000
  if vrest ≤ 7000 then 0 else (e * 2000000 + d - 1) / d

/-- The record of a completed measurement (R555). -/
def State.holdupRecord (s : State) (slow : Bool) (u : Nat) : List Byte :=
  let seqNo := s.holdRecords.foldl (fun m r => max m (fieldAt r 0 4)) 0 + 1
  let n := s.svcTiles.length
  let body := leBytes 4 seqNo ++ leBytes 4 s.clock ++ leBytes 4 s.hld.cap.toNat ++ leBytes 2 s.hld.vrest.toNat ++ leBytes 2 0
    ++ leBytes 4 s.hld.sinkUs.toNat ++ leBytes 4 (u / 1000) ++ leBytes 4 s.hld.measured
    ++ leBytes 1 n
    ++ leBytes 1 (b2n (s.hld.sinkUs = 200000) + 2 * b2n slow + 4 * b2n s.sys.postedCert)
    ++ leBytes 32 0
  body ++ leBytes 2 (crc16 body).toNat

/-- The newest measurement record is written to its page, after a supply check (R440, R555). -/
def State.writeHoldup (s : State) : State :=
  if s.hld.report = [] then s
  else s.prmInternal 2 (64 * (16 + fieldAt s.hld.report 0 4 % 16)) s.hld.report

/-- HOLDUP_MEASUREMENT_COMPLETE (R552 to R555): VHOLD is back within 50 mV of rest, or 1 s has passed. The measured budget takes its
new value, the budgets follow (R180), and the record is written. -/
def execHoldupMeasurementComplete (slow : Bool) (vholdMv : BitVec 16) (s : State) : Host.Outcome State Fault Refusal :=
  if !s.hld.measuring || s.hld.sinking || (!slow && decide (vholdMv.toNat + 50 < s.hld.vrest.toNat)) then .next s
  else
    let cap := if slow then capForEnergy s.hld.energyAtSink s.hld.vrest.toNat else s.hld.cap.toNat
    let u := usableUj cap s.hld.vrest.toNat
    let s := { s with hld := { s.hld with
      measuring := false, cap := BitVec.ofNat 32 cap, measured := measuredBudget u s.svcTiles.length
      usable := usableUj cap vholdMv.toNat, firstDone := true, lastAt := s.aon.seconds } }
    let s := s.applyBudgets
    let s := s.raise (mkEv 0x5030 .info 15 0)
    let target := if s.cfg.record = [] then 65536 else recBudget s.cfg.record
    let s := if s.hld.measured < target then s.raise (mkEv 0x5031 .warn 15 0) else s
    let r := s.holdupRecord slow u
    .next { s with hld := { s.hld with report := r } }.writeHoldup

/-! ### Performance levels (R564, R565) -/

/-- VCORE of a level, in mV (R564). -/
def vcoreOf (l : BitVec 2) : BitVec 16 := if l = 0 then 850 else if l = 1 then 800 else if l = 2 then 750 else 700
/-- Word-line underdrive of a level in 10 mV steps (R564, R587). -/
def readAssistOf (l : BitVec 2) : BitVec 3 := if l = 2 then 2 else if l = 3 then 4 else 0
/-- Negative bit line of a level in 10 mV steps (R564, R587). -/
def writeAssistOf (l : BitVec 2) : BitVec 4 := if l = 0 then 0 else if l = 1 then 4 else if l = 2 then 8 else 12
/-- Forward body bias of a level in 10 mV steps (R564, R587). -/
def biasOf (l : BitVec 2) : BitVec 4 := if l = 2 then 4 else if l = 3 then 8 else 0

/-- The level that is to be in effect: the higher-numbered of the requested and the imposed one (R564). -/
def State.wantedLevel (s : State) : BitVec 2 :=
  if s.thm.active && decide (s.pwr.requested.toNat < s.thm.imposed.toNat) then s.thm.imposed else s.pwr.requested

/-- A level's assists, bias and divider are set: it is the effective level (R565). -/
def Pwr.setLevel (p : Pwr) (l : BitVec 2) : Pwr :=
  { p with effective := l, target := l, changing := false
           readAssist := readAssistOf l, writeAssist := writeAssistOf l, bias := biasOf l }

/-- PLEVEL_CHANGE (R565). Towards a lower number VCORE rises first; towards a higher number divider, bias and assists change first,
VCORE falls after them, and the change is complete. No level changes in a sleep state or a sleep transition, or after a trip. -/
def execPlevelChange (s : State) : Host.Outcome State Fault Refusal :=
  let l := s.wantedLevel
  if s.pwr.changing || l = s.pwr.effective || s.pwr.sleep ≠ 0 || s.pwr.transition ≠ 0 || s.thm.trip then .next s
  else if l.toNat < s.pwr.effective.toNat then
    .next { s with pwr := { s.pwr with changing := true, target := l, vcoreMv := vcoreOf l } }
  else
    .next ({ s with pwr := { s.pwr.setLevel l with vcoreMv := vcoreOf l } }.raise (mkEv 0x5040 .info 15 0))

/-- PLEVEL_VCORE_SETTLED (R565): SEQ_PG[0] and 20 µs after a raise, the change completes. -/
def execPlevelVcoreSettled (s : State) : Host.Outcome State Fault Refusal :=
  if !s.pwr.changing || !s.seq.pg.getLsbD 0 then .next s
  else .next ({ s with pwr := s.pwr.setLevel s.pwr.target }.raise (mkEv 0x5040 .info 15 0))

/-! ### Sleep entry and resume (R566 to R573) -/

/-- A sleep entry begins, and the drain starts as soon as nothing bars it (R567). -/
def State.beginSleep (s : State) (tgt level : BitVec 2) : State :=
  { s with pwr := { s.pwr with transition := 1, transTarget := tgt, requested := level } }.sleepDrain

/-- Registers of gated blocks that a failed restore leaves at their reset values: the counters of the tile (R569). -/
def State.resetCounters (s : State) (t : TileId) : State :=
  let zi (i : Integrity) : Integrity := { i with
    corr := .replicate 4 0, escPage := .replicate 4 0, escStripe := .replicate 4 0, uncorr := .replicate 4 0
    misdirect := .replicate 4 0, passes := 0, late := 0, refreshes := 0, corrected := 0, uncorrected := 0, addressErr := 0 }
  let ze (e : Engine) : Engine := { e with
    stolenFrom := .replicate 4 0, stolenBy := .replicate 4 0, abandonCount := 0, longestUs := 0, deferred := 0, maxRun := 0 }
  let zc (c : Chan) : Chan := { c with suspendCount := 0, sackSingle := 0, sackDouble := 0, errFlags := 0 }
  let zl (k : Link) : Link := { k with crcErrors := 0, replays := 0, retrains := 0 }
  let s := s.modTile t fun x => { x with
    it := zi x.it, eng := ze x.eng, ch := x.ch.map zc
    d := { x.d with foldCount := 0, bucketWaits := 0, otherBucket := 0, pageCode := 0 } }
  let s := s.modFab t fun f => { f with
    refused := 0, barDone := 0, barBroken := 0, rejLength := 0, rejDenied := 0, rejUnmapped := 0, rejState := 0
    ports := f.ports.map zl }
  { s with pmc := { s.pmc with ctr := Sparse.keep (fun k => decide (k / 256 ≠ t.val)) s.pmc.ctr } }

/-- A resume begins (R568): the controller resumes at once; for S2 and S3 the media rails are raised, and for S3 the save area is
restored where it checks (R569). -/
def State.beginResume (s : State) (level : BitVec 2) : State :=
  let deep := s.sys.state = .sleepS2 ∨ s.sys.state = .sleepS3
  let off := s.sys.state = .sleepS3
  let s := { s with pwr := { s.pwr with
    transition := 2, transTarget := 0, requested := level, ctrlDone := true, queued := 0 } }
  let s := if off then
    forAll s.svcTiles (fun t s =>
      if s.nv[t].saveOk then
        { s with pwr := { s.pwr with saved := bitOn s.pwr.saved t, restoreFailed := bitOff s.pwr.restoreFailed t } }
      else
        (({ s with pwr := { s.pwr with
          saved := bitOff s.pwr.saved t, restoreFailed := bitOn s.pwr.restoreFailed t } }.resetCounters t).raise
            (mkEv 0x5041 .warn t 0))) s
    else s
  if deep then s.raiseMedia else s

/-- Set Power State (R359, R572). Towards another sleep state than the one held, the part resumes first and the entry is queued. -/
def State.setPower (s : State) (tgt level : BitVec 2) : State :=
  if s.pwr.transition ≠ 0 then
    if tgt = s.pwr.transTarget then { s with pwr := { s.pwr with queued := 0, requested := level } }
    else { s with pwr := { s.pwr with queued := tgt.setWidth 3 + 1, queuedLevel := level } }
  else if tgt = s.pwr.sleep then { s with pwr := { s.pwr with requested := level } }
  else if s.pwr.sleep = 0 then s.beginSleep tgt level
  else
    let s := s.beginResume level
    if tgt = 0 then s else { s with pwr := { s.pwr with queued := tgt.setWidth 3 + 1, queuedLevel := level } }

/-- The queued reversal begins when the running sequence has finished (R572). -/
def State.reversal (s : State) : State :=
  if s.pwr.queued = 0 then s
  else { s with pwr := { s.pwr with queued := 0 } }.setPower ((s.pwr.queued - 1).setWidth 2) s.pwr.queuedLevel

/-- Step 3 of R567 has ended: nothing is dirty, no program or engine work is left but READ_TEMP, and the Stag stores have drained. -/
def State.drained (s : State) : Bool :=
  let work (w : WorkItem) : Bool := w.cls = .fgRead || w.cls = .fgWrite || w.cls = .fold
  s.sys.admitStop && s.svcTiles.all fun (t : TileId) =>
    s.flushClean t && !(s.tiles[t].eng.queues.toList.flatten.any work) && !(s.tiles[t].eng.full.any work)
      && s.tiles[t].eng.ctxs = [] && s.tiles[t].d.folds = [] && s.tiles[t].d.stores = [] && s.fab[t].storeBuf = []
      && s.tiles[t].d.gpf.isNone && decide (5242880 ≤ s.tiles[t].d.catchP)

/-- Every Widar and peer link goes down without an event (R567 step 5); the guest is no longer admitted. -/
def State.linksDown (s : State) : State :=
  let down (k : Link) : Link := { k with
    up := false, trained := false, retraining := false, bonded := false, speed := 0, width := 0, initSent := false
    unacked := [], waiting := [], mwaiting := [], ackDue := false, fcrdDue := 0, reqDue := 0, rspDue := 0, nullDue := false
    discarding := false, init := none }
  { s with
    fab := s.fab.map fun (f : Fabric) => { f with ports := f.ports.map down }
    mesh := { s.mesh with ports := s.mesh.ports.map down, contact := false }
    guest := { s.guest with admitted := false, awaiting := false } }

/-- The save of a tile's registers to Velvet at SLEEP_S3 entry (R569). Their layout in the area is not given: its bytes are free. -/
def State.saveRegisters (s : State) (t : TileId) : State :=
  let v := s.fv
  let bytes : List Byte := (List.range 0x8000).map fun k => BitVec.ofNat 8 (Config.free (v + k))
  let s := { s with fv := v + 0x8000 }
  (s.modFab t fun f => { f with velvet := Memory.writeBytes (fun _ => 0) f.velvet 0 bytes }).modNv t fun n =>
    { n with saveOk := true }

/-- What a sleep state itself does to a tile (R46, R208, R209, R566, R570). -/
def State.tileSleeps (s : State) (t : TileId) (l : BitVec 2) : State :=
  let s := s.modD t fun d => { d with
    eClk := if l = 3 then d.eClk else s.aon.seconds
    scratch := if l = 1 then d.scratch else []
    cache := if l = 3 then [] else d.cache
    stampTab := if l = 3 then [] else d.stampTab }
  if l ≠ 3 then s
  else
    let s := s.saveRegisters t
    { s with pwr := { s.pwr with padLatched := bitOn s.pwr.padLatched t } }

/-- SLEEP_ENTRY_DRAINED (R567 steps 4 and 5): MBYE AUX 2, then the state's own actions (R652 for request tagging). While something still drains, what has become
dirty is staged. -/
def execSleepEntryDrained (s : State) : Host.Outcome State Fault Refusal :=
  if s.pwr.transition ≠ 1 || s.flush.isSome then .next s
  else
    let s := s.sleepDrain
    if !s.drained then .next s
    else
      let l := s.pwr.transTarget
      let s := if s.meshTalks && s.mesh.paired then
        let s := (s.bye 2).degradePair
        { s with mesh := { s.mesh with contact := false } }
        else s
      let s := { s with pwr := { s.pwr with held := s.sys.state, sleep := l, transition := 0, ctrlDone := false } }
      let s := s.setDev (if l = 1 then .sleepS1 else if l = 2 then .sleepS2 else .sleepS3)
      let s := forAll s.svcTiles (fun t s => s.tileSleeps t l) s
      let s := if l = 1 then s
        else
          let s := s.linksDown.lowerMedia
          { s with pmc := { s.pmc with tagging := false, samples := [] }, pwr := { s.pwr with vcoreMv := 700 } }
      .next s.reversal

/-- PWR_PAD_RELEASE (R570): after the restore, once the tile's media rails are good, its Stag releases the YMI pads. -/
def execPwrPadRelease (t : TileId) (s : State) : Host.Outcome State Fault Refusal :=
  let ready := allChans.all fun (c : ChanId) => (chanRails s.cfg.record t c).all fun q => s.seq.pg.getLsbD q || s.seq.off.getLsbD q
  if !s.pwr.padLatched.getLsbD t || s.pwr.transition ≠ 2 || !ready then .next s
  else .next { s with pwr := { s.pwr with padLatched := bitOff s.pwr.padLatched t } }

/-- The added work of a resume from S2 or S3 is done (R568): rails, channels, pads and the fabric. -/
def State.resumed (s : State) : Bool :=
  if s.sys.state = .sleepS1 then true
  else !s.seq.raising && !s.seq.lowering && s.chansUp && !s.unreachable
    && s.svcTiles.all fun (t : TileId) => !s.pwr.padLatched.getLsbD t

/-- The part enters the state that it held before sleep, and goes on from there by the degrade causes that now hold (R49). -/
def State.stateHeld (s : State) : State :=
  let s := s.setDev s.pwr.held ((bitsOf s.sys.degrade).headD 0)
  if s.sys.state = .active && s.sys.degrade ≠ 0 then s.setDev .degraded ((bitsOf s.sys.degrade).headD 0)
  else if s.sys.state = .degraded && s.sys.degrade = 0 then s.setDev .active
  else s

/-- RESUME_END (R49, R568): the state held before sleep is restored at the level requested; the catch-up of R208 or the recovery
sweep of R209 starts. When the lead was lost asleep, the surviving tiles are awake and the rescue flush can end (R37). -/
def execResumeEnd (us : BitVec 32) (s : State) : Host.Outcome State Fault Refusal :=
  if s.pwr.transition ≠ 2 || !s.resumed then .next s
  else
    let old := s.sys.state
    let s := { s with pwr := { s.pwr with
      transition := 0, sleep := 0, lastResumeUs := us
      s3Exits := if old = .sleepS3 then satAdd s.pwr.s3Exits 1 else s.pwr.s3Exits } }
    let s := forAll s.svcTiles (fun t s => s.modTile t fun x => { x with
      d := { x.d with
        catchP := if old = .sleepS3 then x.d.catchP else 0
        recovery := x.d.recovery || old = .sleepS3
        swept := if old = .sleepS3 then [] else x.d.swept }
      it := { x.it with scrubDue := x.it.scrubDue || old = .sleepS2 } }) s
    let l := s.wantedLevel
    let changed := l ≠ s.pwr.effective
    let s := { s with pwr := { s.pwr.setLevel l with vcoreMv := vcoreOf l } }
    let s := if changed then s.raise (mkEv 0x5040 .info 15 0) else s
    if s.sys.wakeNeeded then .next { s with sys := { s.sys with wakeNeeded := false } }
    else
      let s := s.stateHeld
      let s := { s with sys := { s.sys with admitStop := false } }
      .next (forAll s.svcTiles (fun t s => s.wake t) s).reversal

end Sys2Proof.Machine
end

