-- ==== Sys2Proof/Machine/TileLoss.lean ====
section
/-! DEFINITION. Heartbeats, tiles lost in service, the loss of the lead with and without another tile (R35 to R37, R573, R712),
and tile warm resets (R398, R399). -/

namespace Sys2Proof.Machine

/-! ### Heartbeats (R35, R485) -/

/-- LEAD_HEARTBEAT_TIMER (R35, R485): every 100 µs the lead sends a heartbeat to every other tile in service and to the admitted
guest; one that the last heartbeat has not been answered by is missed. -/
def execLeadHeartbeatTimer (s : State) : Host.Outcome State Fault Refusal :=
  match s.sys.lead with
  | none => .next s
  | some l =>
    if !s.sys.fwRunning.getLsbD l || s.linksSleep || s.sys.loneLost then .next s
    else
      let beat (d : BitVec 3) (s : State) : State :=
        (s.wsend l { opcode := 5, src := BitVec.ofNat 3 l.val, dst := d, addr := 1 }).2
      let s := forAll (s.svcTiles.filter (· ≠ l)) (fun t s =>
        let n := if s.sys.awaiting.getLsbD t then s.sys.missed[t] + 1 else 0
        beat (BitVec.ofNat 3 t.val) { s with sys := { s.sys with
          missed := s.sys.missed.set t n, awaiting := bitOn s.sys.awaiting t } }) s
      .next (if s.guest.admitted then
          beat 7 { s with guest := { s.guest with
            missed := if s.guest.awaiting then satAdd s.guest.missed 1 else 0, awaiting := true } }
        else s)

/-! ### The rescue flush (R36) -/

/-- The lines of a tile that its cache holds newer than home: what a rescue flush reads. -/
def State.heldLines (s : State) (t : TileId) : List CLine :=
  sortBy (fun (a b : CLine) => decide (a.line ≤ b.line)) (s.tiles[t].d.cache.filter fun l => l.st ≠ .clean)

/-- The rescue flush of a tile: every line that its cache holds newer is appended to its staging area, poisoned where it could not
be read, so that its older value is never returned. The lines that are not saved, and those of them that found no place. -/
def State.rescueFlush (s : State) (t : TileId) (unread : List Nat) : (List Nat × List Nat) × State :=
  let ls := s.heldLines t
  let s := s.modD t fun d => { d with asm := .replicate 5 [], closed := [] }
  ([0, 1, 2, 3, 4] : List (Fin 5)).foldl (fun (acc : (List Nat × List Nat) × State) a =>
    let mine := ls.filter fun l => acc.2.areaOf l.region = a
    (sixes mine.length mine).foldl (fun (acc : (List Nat × List Nat) × State) g =>
      let es := g.map fun l =>
        { kind := EntryKind.data, line := l.line, val := acc.2.stored l.data (l.poison || unread.contains l.line) }
      let (ok, s) := acc.2.rescueStripe t a es
      ((acc.1.1 ++ (g.filter fun l => !ok || unread.contains l.line).map (·.line),
        acc.1.2 ++ if ok then [] else g.map (·.line)), s)) acc) (([], []), s)

/-- Lines that a rescue flush could not save enter the poison list with source Vendor specific, with ERROR event 0x3071 (R36, R254).
Those without a poisoned copy in the tile's staging area are owed one, so that no older value is returned after a reset either. -/
def State.rescueLost (s : State) (t : TileId) (lost bare : List Nat) : State :=
  let s := forAll lost (fun n s => s.listPoison n .vendor) s
  let s := s.modMedia t fun m => { m with owedPoison := (m.owedPoison ++ bare).eraseDups }
  if lost = [] then s else s.raise (mkEv 0x3071 .error t.val 0 [] 0 lost.length)

/-! ### Losing a tile (R35, R36) -/

/-- A lost tile's head goes out of service: the host sees its link down. -/
def State.headOut (s : State) (t : TileId) : State :=
  let s := if s.heads[t].speed = 0 then s else s.linkDown t
  (s.modHead t fun x => { x with idle := true, memActive := false }).headDown

/-- Requests that meet a lost tile (R36, R402, R486): what its head took is lost with the link; loads of other heads are poisoned and
their stores are discarded; the mirror peer is answered DEAD. -/
def State.dropRequests (s : State) (t : TileId) : State :=
  let own (r : LoadReq) : Bool := r.owner = t && r.forStore.isNone && !r.internal && !r.hint && r.head ≠ t
  let peers := s.loads.filter fun r => r.owner = t && r.peer.isSome
  let keep (r : LoadReq) : Bool :=
    (r.owner ≠ t && (r.head ≠ t || r.peer.isSome || r.wid.isSome)) || (own r && r.peer.isNone && r.wid.isNone)
  let end_ (r : LoadReq) : LoadReq := if r.owner = t then { r with result := some (0, true) } else r
  let s := { s with loads := (s.loads.filter keep).map end_ }
  let s := forAll peers (fun r s => match r.peer with
    | some (tag, src) => (s.meshSend { opcode := 0x31, dst := src, tag := tag, status := 5 }).2
    | none => s) s
  let gone := s.tiles[t].d.stores.filter fun r => r.peer.isSome && !r.early
  let s := forAll gone (fun r s => match r.peer with
    | some (tag, src) => s.meshReply src tag 5
    | none => s) s
  let kept := s.tiles[t].d.stores.filter fun r => r.peer.isNone && !r.internal && r.wid.isNone && r.head ≠ t
  let s := s.modD t fun d => { d with
    stores := kept.map fun r => { r with discarded := true, phase := 4, peerDone := true }, hold := .replicate 5 false }
  let s := { s with sys := { s.sys with roundDiscarded := s.sys.roundDiscarded + kept.length } }
  match s.svc.waiting with
  | some (m, .store t' _) => if t' = t then s.mbFinish m .internalError else s
  | _ => s

/-- The engines of a lost tile are gone; an MLC program that ran leaves its page slot undefined (R65). -/
def State.enginesGone (s : State) (t : TileId) : State :=
  let s := forAll s.tiles[t].eng.ctxs (fun x s => (s.cutProgram t x).endCtx t x) s
  s.modEng t fun e => { e with queues := .replicate 20 [], full := [], ctxs := [], results := [] }

/-- The peer ports of a tile go down, and Widar Mesh finds their links dead (R24, R504). -/
def State.peersDown (s : State) (t : TileId) : State :=
  forAll ((([0, 1, 2, 3] : List (Fin 4))).filter fun p => peerTile s.fuses.variant p = t && (s.link (.peer p)).up)
    (fun p s => s.linkOut (.peer p)) s

/-- What every declaration of a lost tile does (R24, R35, R54, R458): event 0x3070 (1 when a FATAL report decided), IN_SERVICE, its
head, its peer ports and the fabric. Its engines and queued events are gone. -/
def State.declareLost (s : State) (t : TileId) (fatal : Bool) : State :=
  let s := { s with
    sys := { s.sys with inService := bitOff s.sys.inService t, awaiting := bitOff s.sys.awaiting t
                        missed := s.sys.missed.set t 0 }
    evr := { s.evr with queues := s.evr.queues.set t [] } }
  let s := s.raise (mkEv 0x3070 .error t.val 0 [(1, b2n fatal)])
  ((((s.headOut t).dropRequests t).positionDead t.val).peersDown t).enginesGone t

/-- A tile is lost during a flush (R49, R563): the other tiles go on, and the lines that it held newer are listed; whether its tags
could be read is free. -/
def State.lostInFlush (s : State) (t : TileId) : State :=
  let (v, s) := s.draw
  let s : State := { s with flush := s.flush.map fun (f : FlushRun) =>
    { f with unsaved := coalesce (sortBy (fun (a b : Nat × Nat) => decide (a.1 ≤ b.1)) (f.unsaved ++ s.unsavedOf t))
             tagsLost := f.tagsLost || v % 2 = 1 } }
  match s.flush with
  | some f =>
    if !f.workEnded && s.svcTiles.all (fun (x : TileId) => f.dataEnd.getLsbD x) then s.endFlushWork false else s
  | none => s

/-- The slot whose firmware a rescue lead starts, from its own config flash: the one that the lost lead chose, else the one that
R385 would choose from the boot-select record; a copy that fails its checks leaves the other slot (R37, R385). -/
def State.rescueSlot (s : State) : Option Nat :=
  let c := s.bootSelect
  let active := if (c.getD 0 1).toNat = 2 then 2 else 1
  let pending := (c.getD 1 0).toNat
  let slot := if s.boot.slotChosen && s.boot.slot ≠ 0 then s.boot.slot.toNat
    else if pending ≠ 0 && c.getD 2 0 = 0 then pending else active
  [slot, 3 - slot].find? (s.slotOk s.lead ·)

/-- The LEAD_LOST record (R641). -/
def State.leadLostRecord (s : State) (lost : TileId) (poisoned : Nat) : State :=
  s.bbWrite 8 (leNat (([BitVec.ofNat 8 lost.val, BitVec.ofNat 8 s.lead.val] : List Byte) ++ leBytes 4 poisoned))

/-- The device configuration record in a tile's own config flash: the valid copy with the higher SEQ (R37, R424). -/
def ownRecord (v : TileNv) : Option (List Byte) :=
  (([0, 1] : List (Fin 2)).filter (copyValid v ·)).foldl (fun (acc : Option (List Byte)) b => match acc with
    | some r => if recSeq v.copies[b] > recSeq r then some v.copies[b] else some r
    | none => some v.copies[b]) none

/-- The lowest-numbered tile in service takes the lead role (R37), which no other event moves (R34): it serves the record
of its own config flash; its black box buffer starts from its media copy while the media rails are on; what the lost lead was executing is lost. -/
def State.takeLead (s : State) (r : TileId) : State :=
  let buf := if s.mediaOn then s.bbx.media[r] else []
  let s := s.abandonCommands
  let s := { s with
    sys := { s.sys with lead := some r, rescueLead := true, leadLoss := true }
    bbx := { s.bbx with buffer := some buf, pos := 0 }
    prm := { s.prm with queue := [] }
    cfg := { s.cfg with commit := none, record := (ownRecord s.nv[r]).getD s.cfg.record } }
  let top := buf.foldl (fun (b : Nat × Nat) e => if e.2.seq.toNat ≥ b.2 then ((e.1 + 1) % 1024, e.2.seq.toNat) else b) (0, 0)
  { s with bbx := { s.bbx with pos := top.1 } }

/-- The lead tile is lost with another tile in service (R37). -/
def State.leadLost (s : State) (t r : TileId) (fatal : Bool) : State :=
  let s := (s.declareLost t fatal).takeLead r
  if s.flush.isSome then
    ({ s with flush := s.flush.map fun (f : FlushRun) => { f with leadLoss := true } }.leadLostRecord t 0).lostInFlush t
  else if s.sys.state.isServing then { s with sys := { s.sys with rescueOf := s.sys.rescueOf ++ [t] } }
  else if s.sys.state.isSleep then 
    let s := { s with sys := { s.sys with rescueOf := s.sys.rescueOf ++ [t], wakeNeeded := true } }
    if s.pwr.transition = 2 then s else s.beginResume s.pwr.requested
  else
    let s := if s.sys.fwRunning.getLsbD r then s else match s.rescueSlot with
      | some slot => s.startFw r slot
      | none => s
    let s := s.leadLostRecord t 0
    ({ s with sys := { s.sys with mbReady := s.sys.mbReady || s.sys.fwRunning.getLsbD r } }.fail .leadTileLost)

/-- The media rails are lowered and the part is in FAILED (R51, R712 steps 3 and 4). -/
def State.loneFailed (s : State) : State :=
  let s : State := { s.lowerMedia with sys := { s.sys with failCause := .leadTileLost } }
  (s.setDev .failed FailCause.leadTileLost.code).setMemActive false

/-- The lone lead is lost (R35, R54, R712): it is declared lost and marked in the always-on latches; the supervisor stops admission
and holds every head in electrical idle; where lines can be dirty it starts the hardware flush, else the part is in FAILED at once. -/
def State.loneLost (s : State) (t : TileId) (fatal : Bool) : State :=
  let s := s.raise (mkEv 0x3070 .error t.val 0 [(1, b2n fatal)])
  let s := { s with
    aon := { s.aon with loneLoss := some t, loneSaved := false }
    sys := { s.sys with admitStop := true, mbReady := false, loneLost := true, inService := bitOff s.sys.inService t }
    heads := s.heads.map fun (x : Head) => { x.conventional with speed := 0, width := 0, flit256 := false, lopt := false, idle := true } }
  if s.flush.isSome then s
  else if s.sys.state.isServing || s.sys.state.isSleep then
    { s with flush := some { trigger := 3, stateAtD := s.sys.state } }.flushTile t
  else s.loneFailed

/-- A tile is declared lost (R35 to R37, R712). -/
def State.tileLost (s : State) (t : TileId) (fatal : Bool) : State :=
  if !s.inSvc t || s.sys.loneLost then s
  else if s.sys.lead = some t then
    match s.svcTiles.filter (· ≠ t) with
    | r :: _ => s.leadLost t r fatal
    | [] => s.loneLost t fatal
  else
    let s := s.declareLost t fatal
    if s.flush.isSome then s.lostInFlush t
    else if s.sys.state = .failed then s
    else { s with sys := { s.sys with rescueOf := s.sys.rescueOf ++ [t] } }

/-- An internal FATAL condition of a tile (R35, R398): the tile is lost at once; the lead, or the rescue lead, raises FATAL event
0x7051 with the tile and the condition, whose code the spec does not give. -/
def State.internalFatal (s : State) (t : TileId) : State :=
  if !s.inSvc t || s.sys.loneLost then s
  else
    let s := s.tileLost t true
    if s.sys.loneLost then s
    else
      let (v, s) := s.draw
      s.raise (mkEv 0x7051 .fatal t.val 0 [(1, v % 256)])

/-- TILE_HEARTBEAT_TIMEOUT (R35, R37): three consecutive heartbeats were missed. No heartbeat is sent to the lead: that the others
hear none of its own while it runs its firmware is the event itself (DESIGN CHOICE, log 91). -/
def execTileHeartbeatTimeout (t : TileId) (s : State) : Host.Outcome State Fault Refusal :=
  let silent : Bool := s.sys.lead = some t && s.sys.fwRunning.getLsbD t && !s.linksSleep && s.svcTiles.any (· ≠ t)
  if s.sys.missed[t] ≥ 3 || silent then .next (s.tileLost t false) else .next s

/-- TILE_FATAL_REPORT (R35, R398). -/
def execTileFatalReport (t : TileId) (s : State) : Host.Outcome State Fault Refusal := .next (s.internalFatal t)

/-- TILE_REJOIN_TIMEOUT (R573): a tile that the lead cannot reach 100 ms after the controller resume is declared lost. -/
def execTileRejoinTimeout (t : TileId) (s : State) : Host.Outcome State Fault Refusal :=
  if s.pwr.transition = 2 && s.pwr.ctrlDone && s.sys.lead ≠ some t && (s.routeTo s.lead t.val).1 = 7 then
    .next (s.tileLost t false)
  else .next s

/-- RESCUE_FLUSH_DONE (R36, R37): the rescue flush of the oldest lost tile ends; what it could not save is poisoned; the part is
DEGRADED by a lost tile, or after a lead loss enters FLUSHING. In a sleep state the tiles are woken first. -/
def execRescueFlushDone (unsaved : List Nat) (s : State) : Host.Outcome State Fault Refusal :=
  match s.sys.rescueOf with
  | [] => .next s
  | t :: r =>
    if s.flush.isSome || s.sys.wakeNeeded then .next s
    else
      let ((lost, bare), s) := s.rescueFlush t unsaved
      let s := s.rescueLost t lost bare
      let s := { s with sys := { s.sys with rescueOf := r } }
      let s := s.addCause .tileLost
      if s.sys.leadLoss && r = [] then .next ((s.leadLostRecord t lost.length).startFlush 3) else .next s

/-- LEAD_REPORT_ABSENT (R712): the lead's report is absent for 10 rounds, and no other tile is in service. -/
def execLeadReportAbsent (s : State) : Host.Outcome State Fault Refusal :=
  match s.sys.lead with
  | some t =>
    if s.clk.noReport ≥ 10 ∧ s.svcTiles = [t] ∧ !s.sys.loneLost then .next (s.tileLost t false) else .next s
  | none => .next s

/-- LONE_LOSS_FLUSH_END (R712): DATA_END, or the watchdog at 5 ms, ends the hardware flush: the media rails are lowered and the part is
in FAILED, or resets if PKG_RST_N was asserted with input present (R384). -/
def execLoneLossFlushEnd (dataEnd : Bool) (s : State) : Host.Outcome State Fault Refusal :=
  match s.aon.loneLoss, s.flush with
  | some t, some f =>
    if !s.sys.loneLost || f.workEnded || (dataEnd && !f.dataEnd.getLsbD t && !s.flushClean t) then .next s
    else
      let s := if dataEnd && !f.dataEnd.getLsbD t then (s.journalProgress t f.staged[t]).journal t 4 f.staged[t] else s
      let s := { s with aon := { s.aon with loneSaved := dataEnd || f.dataEnd.getLsbD t } }
      let s := s.loneFailed
      if s.inputPresent then
        if f.pkgRst then .next (s.finishStores.packageReset .pkgResetPin) else .next { s with flush := none }
      else
        let s := { s with flush := some { f with workEnded := true } }
        .next (if s.seq.en.toNat / 16 = 0 then s.holdDown else s)
  | _, _ => .next s

/-! ### Tile warm reset (R398, R399) -/

/-- Whether the last warm reset of a tile was within one second: known while the seconds clock shows the same second; one tick later
it is open. -/
def State.warmSoon (s : State) (t : TileId) : Bool × State :=
  match s.boot.warmAt[t] with
  | none => (false, s)
  | some at_ =>
    if s.aon.seconds = at_ then (true, s)
    else if s.aon.seconds = at_ + 1 then
      let (v, s) := s.draw
      (v % 2 = 1, s)
    else (false, s)

/-- A warm reset falls due: a second one within a second is an internal FATAL condition; else dispatch stops and every Posted-dirty
line is staged (steps 1 and 2 of R399). None occurs while the part sleeps (R402). R398 says nothing of a trigger during a power-fail
flush: it is dropped, as R402 lets a flush take over a warm reset (DESIGN CHOICE, log 92). -/
def State.warmReset (s : State) (t : TileId) : State :=
  if !s.inSvc t || s.sys.state.isSleep || s.flush.isSome || s.boot.warmStep[t] ≠ 0 then s
  else
    let (soon, s) := s.warmSoon t
    if soon then s.internalFatal t
    else
      let s := { s with boot := { s.boot with
        warmResets := satAdd s.boot.warmResets 1, warmAt := s.boot.warmAt.set t (some s.aon.seconds)
        warmStep := s.boot.warmStep.set t 2 } }
      let s := s.modEng t fun e => { e with stopDispatch := true }
      s.stageAll t (((dirtyLines s.tiles[t].d).filter (·.posted)).map (·.line))

/-- STAG_WATCHDOG_EXPIRY (R398): on the lead an internal FATAL condition, on another tile a warm reset. The watchdog is stopped in
every sleep state (R402). -/
def execStagWatchdogExpiry (t : TileId) (s : State) : Host.Outcome State Fault Refusal :=
  if s.sys.state.isSleep then .next s
  else if s.sys.lead = some t then .next (s.internalFatal t) else .next (s.warmReset t)

/-- DUIKER_RECOVERABLE_FAULT (R398): a warm reset of the tile. -/
def execDuikerRecoverableFault (t : TileId) (s : State) : Host.Outcome State Fault Refusal := .next (s.warmReset t)

/-- WARM_RESET_STAGED (R399): the staging has ended and the running Gait programs have finished; the store buffer drains. -/
def execWarmResetStaged (t : TileId) (s : State) : Host.Outcome State Fault Refusal :=
  if s.boot.warmStep[t] = 2 ∧ s.tiles[t].eng.ctxs = [] ∧ !(s.tiles[t].d.cache.any fun l => l.postedDirty && l.inFlight) then
    .next { s with boot := { s.boot with warmStep := s.boot.warmStep.set t 3 } }
  else .next s

/-- The producers issue their work items again (R399 step 4): loads and stripes from the cache controller, folds from F1; patrol visits,
gap moves and the running piece of a rebuild start anew. -/
def State.reissue (s : State) (t : TileId) : State :=
  let s := forAll s.tiles[t].eng.ctxs (fun x s => s.endCtx t x) s
  let s := s.modEng t fun e => { nextId := e.nextId }
  let s := s.loadGait t
  let s := s.modD t fun d => { d with
    scratch := []
    closed := d.closed.map fun x => { x with placed := false, program := false } }
  let s := s.modPl t fun p => { p with moving := [], copying := [] }
  let s := s.modIt t fun i => { i with
    visits := [], active := false, yielding := false
    rebuild := i.rebuild.map fun (r : Rebuild) => { r with busy := false, started := false } }
  let s := forAll s.tiles[t].d.closed (fun x s => s.enqueueStripe t x.seq x.area) s
  let s := forAll (s.tiles[t].d.folds.filter (·.step ≠ 10)) (fun f s => s.foldRestart t f) s
  forAll ((s.loads.filter fun r => r.owner = t && r.result.isNone && r.src ≠ .none).map (·.id)) (fun i s => s.startLoad i) s

/-- WARM_RESET_DRAIN_END (R399 steps 3 to 5): `drained` stores of the buffer were still performed, the others are discarded (WARN
event 0x7050 with their count); a store that had been issued counts among the performed. The Stag and the DKR_ block reset, scratch
ways read as zero, and the Duikers serve again. -/
def execWarmResetDrainEnd (t : TileId) (drained : Nat) (s : State) : Host.Outcome State Fault Refusal :=
  if s.boot.warmStep[t] ≠ 3 then .next s
  else
    let issued := if s.fab[t].outst.any fun o => !o.guest && o.opcode = 2 then 1 else 0
    let buf := s.fab[t].storeBuf
    let n := min buf.length (max drained issued)
    let s := forAll ((buf.take n).drop issued) (fun (w : BitVec 52 × List Byte) s =>
      (s.wRequest t { opcode := 2, dslots := BitVec.ofNat 3 ((w.2.length + 15) / 16), len := BitVec.ofNat 7 w.2.length
                      dst := s.addrPos t w.1, addr := w.1, data := w.2 }).2) s
    let lost := buf.length - n
    let s := if lost = 0 then s else s.raise (mkEv 0x7050 .warn t.val 0 [] 0 lost)
    let s := s.modFab t fun x => { x with storeBuf := [], fence := false, barriers := [], early := [] }
    let s := s.reissue t
    .next { s with boot := { s.boot with warmStep := s.boot.warmStep.set t 0 } }

end Sys2Proof.Machine
end

