-- ==== Sys2Proof/Machine/Sram.lean ====
section
/-! DEFINITION. What the SRAM scrubber of a tile finds (R225 to R228). -/

namespace Sys2Proof.Machine

/-- An uncorrectable word is counted, with ERROR event 0x1080 or, where the part cannot contain it, FATAL event 0x1081. The spec gives
no code for the array and no numbering of words: both items are free. -/
def State.badWord (s : State) (t : TileId) (addr fatal : Bool) : State :=
  let s := s.modIt t fun i => { i with
    uncorrected := satAdd i.uncorrected 1, addressErr := if addr then satAdd i.addressErr 1 else i.addressErr }
  let (a, s) := s.draw
  let (w, s) := s.draw
  let s := s.raise (mkEv (if fatal then 0x1081 else 0x1080) (if fatal then .fatal else .error) t.val 0 [(1, a % 256)] w)
  if fatal then s.fail .sramFault else s

/-- A word of cache data (R228): a CLEAN line is dropped; another is poisoned. -/
def State.badCacheData (s : State) (t : TileId) (n : Nat) : State :=
  match cached s.tiles[t].d n with
  | none => s
  | some l =>
    if l.st = .clean then s.modD t fun d => { d with cache := d.cache.filter fun x => x.line ≠ n }
    else s.poisonCached n .vendor

/-- The tables of a die are loaded again into the bank in use, from its parameter page and the overrides of R91 (R228). -/
def State.reloadDie (s : State) (t : TileId) (c : ChanId) (p : Fin 9) : State :=
  let d := s.tiles[t].ch[c].dies[p]
  s.sendTables t c p (b2n d.bankB) d.band.toNat

/-- The outcome of an uncorrectable word in each array (R228); `addr` where the word of another address answered. Of the tags
one copy has failed: the other serves. -/
def State.sramBad (s : State) (t : TileId) (word : SramWord) (addr : Bool) : State :=
  match word with
  | .cacheData n => (s.badWord t addr false).badCacheData t n
  | .cacheTag => s.badWord t addr false
  | .directory b =>
    (s.badWord t addr false).modIt t fun i => { i with
      rebuildDirs := if i.rebuildDirs.contains b then i.rebuildDirs else i.rebuildDirs ++ [b] }
  | .placement u =>
    (s.badWord t addr false).modPl t fun p => { p with
      unloaded := if p.unloaded.contains u then p.unloaded else p.unloaded ++ [u] }
  | .headRange => s.badWord t addr true
  | .age i => (s.badWord t addr false).modD t fun d => { setStamp d i 0xFF with recovery := true, swept := d.swept.filter (· ≠ i) }
  | .gaitTable c p => (s.badWord t addr false).reloadDie t c p
  | .foldBuffer u p =>
    match s.tiles[t].d.folds.find? (·.isPage u p) with
    | some f => (s.badWord t addr false).foldRestart t f
    | none => s
  | .tcm => (s.badWord t addr false).internalFatal t
  | .velvet k =>
    (s.badWord t addr false).modNv t fun v => { v with
      saveOk := v.saveOk && decide (k < v.velvetJ.length)
      velvetJ := v.velvetJ.zipIdx.map fun e => if e.2 = k then (e.1.1, e.1.2.1, e.1.2.2.1, e.1.2.2.2.1, true) else e.1 }
  | .other => s.badWord t addr true

/-- What the code of a word's array gives (R224): 32 data bits and 7 check bits in the TCM, else 64 and 8. -/
def sramRead (word : SramWord) (a : SramAccess) : SramRead :=
  if word = .tcm then secRead 7 32 a.flips a.diff a.latch else secRead 8 64 a.flips a.diff a.latch

/-- A word that is not valid reads as zero and reports no error (R226): a cache line or a fold buffer that is not there. -/
def State.sramValid (s : State) (t : TileId) (word : SramWord) : Bool :=
  match word with
  | .cacheData n => (cached s.tiles[t].d n).isSome
  | .foldBuffer u p => s.tiles[t].d.folds.any fun f => f.isPage u p && f.step ≠ 10
  | _ => true

/-- The scrubber or an access reads a word (R225 to R228): a corrected one is written back and counted; two copies of a tag
that both fail are FATAL. -/
def State.sramVisit (s : State) (t : TileId) (word : SramWord) (read twin : SramAccess) : State :=
  let addr (a : SramAccess) : Bool := !a.latch && oddOnes a.diff ≠ []
  let two : Bool := word = .cacheTag
  let r := sramRead word read
  let q := if two then sramRead word twin else .clean
  let fixed := b2n (decide (r = .corrected)) + b2n (decide (q = .corrected))
  let s := s.modIt t fun i => { i with corrected := satAdd i.corrected fixed }
  if r = .bad ∧ q = .bad then s.badWord t (addr read || addr twin) true
  else if r = .bad then s.sramBad t word (addr read)
  else if q = .bad then s.sramBad t word (addr twin)
  else s

/-- SRAM_SCRUB_VISIT (R224 to R228): the scrubber reads a valid word in ACTIVE, DEGRADED or SLEEP_S1, or in its run after
SLEEP_S2; an ordinary access reads one whenever the tile is awake. Of a tag both copies are read. In SLEEP_S3 the event stands for a word of the save area that does not check (R569). -/
def execSramScrubVisit (t : TileId) (visit : SramVisit) (s : State) : Host.Outcome State Fault Refusal :=
  let lost : Bool := match visit.word with
    | .velvet k => s.sys.state = .sleepS3 && decide (s.nv[t].velvetJ.length ≤ k)
    | _ => false
  let awake : Bool := !s.sys.state.isSleep || s.sys.state = .sleepS1
  let scrub : Bool := s.sys.state.isServing || s.sys.state = .sleepS1 || s.tiles[t].it.scrubDue
  if !s.inSvc t || !((visit.access && awake) || (!visit.access && scrub) || lost) || !s.sramValid t visit.word then .next s
  else
    let s := if visit.access then s else s.modIt t fun i => { i with scrubDue := false }
    .next (s.sramVisit t visit.word visit.read visit.twin)

end Sys2Proof.Machine
end

