-- ==== Sys2Proof/Machine/Commit.lean ====
section
/-! DEFINITION. Committing a device configuration record: by the host, by a vendor command that changes a field of it, and by the
part itself (R354, R357, R409, R421 to R423). -/

namespace Sys2Proof.Machine

/-- One record copy of a tile is erased and written (R416, R422). -/
def State.writeCopy (s : State) (t : TileId) (b : Fin 2) (img : List Byte) : State :=
  s.flashStart t b { sector := 512, erasing := true, pages := 16, use := .record img }

/-- The tiles that take part in a commit: all in service; the rescue lead alone under R37 (R423). -/
def State.commitTiles (s : State) : List TileId := if s.sys.rescueLead then [s.lead] else s.svcTiles

/-- The bank whose copy is written first: the one that is not the fetch bank (R422). -/
def State.firstBank (s : State) (t : TileId) : Fin 2 := if s.tiles[t].cfl.fetchEn.getLsbD 0 then 1 else 0

/-- A commit starts (R422 steps 2 and 3): every tile writes its first copy. -/
def State.startCommit (s : State) (img : List Byte) (host relayout : Bool) (cause : Nat) : State :=
  let ts := s.commitTiles
  let todo := ts.flatMap fun (t : TileId) => [2 * t.val + (s.firstBank t).val, 2 * t.val + (1 - (s.firstBank t).val)]
  let s := { s with cfg := { s.cfg with
    commit := some { image := img, todo := todo, relayout := relayout, host := host, cause := cause } } }
  forAll ts (fun t s => s.writeCopy t (s.firstBank t) img) s

/-- Entries 2 and 3 of the lead's option area follow the committed record where they differ (R409). -/
def State.commitOptions (s : State) (r : List Byte) : State :=
  let sb := BitVec.ofNat 16 (fieldAt r 56 2)
  let link := BitVec.ofNat 16 (fieldAt r 58 2)
  let w := s.cfg.optWords
  if sb = w[2] && link = w[3] then s
  else
    let entry (x : BitVec 16) : BitVec 32 := BitVec.ofNat 32 (x.toNat + (~~~ x).toNat * 65536)
    s.flashStart s.lead 0
      { sector := 1024, erasing := true, pages := 1, use := .option [entry w[0], entry w[1], entry sb, entry link] }

/-- Every copy has read back: the commit succeeds (R357, R422 step 4). In CONFIG_HOLD the part goes to MEDIA_INIT. -/
def State.commitDone (s : State) (r : CommitRun) : State :=
  let s := { s with cfg := { s.cfg with commit := none } }.cflRecords
  if r.host then
    let s := s.commitOptions r.image
    let s := { s with cfg := { s.cfg with loaded := none } }
    let s := s.waitDone .commit
    if s.sys.state = .configHold then
      { s with boot := { s.boot with phase := 4, relayout := r.relayout, holdReason := 0 } }.setDev .mediaInit
    else s
  else
    let s := s.raise (mkEv 0x7014 .info s.lead 0 [(1, r.cause)])
    if r.cause = 0 then s.waitDone .commit else s

/-- A commit whose last copies belonged to a tile that is lost is done; that tile's copies stay as they are (R442). -/
def State.commitCheck (s : State) : State :=
  match s.cfg.commit with
  | none => s
  | some r =>
    let todo := r.todo.filter fun k => s.inSvc (toTile (k / 2))
    if todo = [] then s.commitDone r
    else { s with cfg := { s.cfg with commit := some { r with todo := todo } } }

/-- A commit has failed: the command returns Internal Error; every copy keeps the state that it reached (R422). -/
def State.commitFailed (s : State) (r : CommitRun) : State :=
  let s := { s with cfg := { s.cfg with commit := none } }.cflRecords
  match s.svc.waiting with
  | some (m, .commit) => if r.host || r.cause = 0 then s.mbFinish m .internalError else s
  | _ => s

/-- COMMIT_COPY_READBACK (R422): the copy that a tile is writing has been programmed and is read back; a failure writes it once more,
and a second failure ends the commit. -/
def execCommitCopyReadback (t : TileId) (bankB : Bool) (ok : Bool) (s : State) : Host.Outcome State Fault Refusal :=
  match s.cfg.commit with
  | none => .next s
  | some r =>
    let b : Fin 2 := if bankB then 1 else 0
    let k := 2 * t.val + b.val
    let mine (o : FlashOp) : Bool := match o.use with
      | .record _ => true
      | _ => false
    let busy := s.tiles[t].cfl.ops[b].any mine || s.tiles[t].cfl.spare[b].any mine
    if (r.todo.filter fun x => x / 2 = t.val).head? ≠ some k || busy then .next s
    else if ok then
      let r := { r with todo := r.todo.filter (· ≠ k) }
      let s := { s with cfg := { s.cfg with commit := some r } }
      match (r.todo.filter fun x => x / 2 = t.val).head? with
      | some x => .next (s.writeCopy t (if x % 2 = 1 then 1 else 0) r.image)
      | none => .next s.commitCheck
    else
      let s := s.modNv t fun v => { v with copies := v.copies.set b [] }
      if r.retried.contains k then .next (s.commitFailed r)
      else
        let s := { s with cfg := { s.cfg with commit := some { r with retried := r.retried ++ [k] } } }
        .next (s.writeCopy t b r.image)

/-- The worst case of a commit, in µs (R422). -/
def commitUs : Nat := 25000

/-- The commit of a change to the record by a vendor command (R354): from the newest committed record, with a SEQUENCE one higher; the
record in force changes too. The command that waits completes when the copies are durable. -/
def State.dcrCommit (s : State) (m : Iface) (f : List Byte → List Byte) (out : List Byte := []) : State :=
  let img := recSeal (f s.newestRecord) (s.highSeq + 1)
  let s := { s with cfg := { s.cfg with record := f s.cfg.record } }.startCommit img false false 0
  { s with svc := { s.svc with waiting := some (m, .commit), waitOut := out } }

/-- A vendor command of kind DCR changes the record by `f` and its own state by `act` (R354): at once, with a new record from the
newest committed one; in CONFIG_HOLD it changes the loaded image. -/
def State.dcrChange (s : State) (m : Iface) (f : List Byte → List Byte) (act : State → State) (out : List Byte := []) : State :=
  if s.sys.state = .configHold then
    match s.cfg.loaded with
    | none => s.mbFinish m .invalidInput 0x126
    | some img =>
      let img := recSeal (f img) (recSeq img)
      { s with cfg := { s.cfg with loaded := some img } }.mbFinish m .success 0 out
  else if !s.supplyOk commitUs s.commitTiles.length then s.supplyRefused.mbFinish m .busy 0x122
  else (act s).dcrCommit m f out

/-- The DIE_MAP of every channel whose spare is in use (R95). -/
def State.spareMaps (s : State) (r : List Byte) : List Byte :=
  allTiles.foldl (fun r (t : TileId) => allChans.foldl (fun r (c : ChanId) =>
    if s.tiles[t].ch[c].spareInUse then putBytes r (1664 + 4 * (4 * t.val + c.val)) (leBytes 4 s.tiles[t].ch[c].dieMap.toNat)
    else r) r) r

/-- The internal commit of DIE_MAP after a rebuild (R95, R422); it waits for another commit and for the supply check. -/
def State.commitMaps (s : State) : State :=
  if s.cfg.commit.isSome then s
  else if !s.supplyOk commitUs s.commitTiles.length then s.supplyRefused
  else
    let img := recSeal (s.spareMaps s.newestRecord) (s.highSeq + 1)
    let s := { s with cfg := { s.cfg with
      record := s.spareMaps s.cfg.record, deferred := s.cfg.deferred.filter (· ≠ 4) } }
    s.startCommit img false false 1

end Sys2Proof.Machine
end

