-- ==== Sys2Proof/Machine/Thermal.lean ====
section
/-! DEFINITION. Clocks (R592, R595, R596), the housekeeping round (R598 to R600), sensors and bands (R601 to R607), throttling and the
media hold (R608, R609), the thermal trip (R610, R611), and compensation mode (R612 to R615). -/

namespace Sys2Proof.Machine

/-! ### Clocks -/

/-- PLL_LOCK_LOSS (R592): hold-over begins; every loss counts. -/
def execPllLockLoss (s : State) : Host.Outcome State Fault Refusal :=
  if !s.clk.locked then .next s
  else .next { s with clk := { s.clk with
    locked := false, holdover := true, holdoverLong := false, relocks := satAdd s.clk.relocks 1 } }

/-- PLL_HOLDOVER_TIMEOUT (R592): hold-over has lasted 1 ms. -/
def execPllHoldoverTimeout (s : State) : Host.Outcome State Fault Refusal :=
  if !s.clk.holdover || s.clk.holdoverLong then .next s
  else .next ({ s with clk := { s.clk with holdoverLong := true } }.raise (mkEv 0x6040 .error 15 0))

/-- PLL_RELOCK (R592): after a hold-over longer than 1 ms, INFO event 0x6041. -/
def execPllRelock (s : State) : Host.Outcome State Fault Refusal :=
  if !s.clk.holdover then .next s
  else
    let long := s.clk.holdoverLong
    let s := { s with clk := { s.clk with locked := true, holdover := false, holdoverLong := false } }
    .next (if long then s.raise (mkEv 0x6041 .info 15 0) else s)

/-- CLOCK_DOMAIN_IDLE_GATE (R23, R594, R595): a domain idle for 64 of its cycles is gated: domains 0 to 30 of a tile, of which 30
never is, and 31 to 36 the package's MESH0 to MESH3, SUPV and SBND. -/
def execClockDomainIdleGate (t : TileId) (domain : Fin 37) (s : State) : Host.Outcome State Fault Refusal :=
  if domain.val ≥ 31 then .next { s with clk := { s.clk with pkgGate := bitOn s.clk.pkgGate (domain.val - 31) } }
  else if !s.inSvc t || domain.val = 30 then .next s
  else .next { s with clk := { s.clk with gate := vmod s.clk.gate t (bitOn · domain) } }

/-- SECONDS_TICK (R596): the seconds clock advances while VAON is good; the black box takes a new second's records (R640). -/
def execSecondsTick (s : State) : Host.Outcome State Fault Refusal :=
  if !s.aon.vaon then .next s
  else .next { s with aon := { s.aon with seconds := s.aon.seconds + 1 }, bbx := { s.bbx with second := 0 } }

/-- DELAY_RECALIBRATION (R607): a tile's channels and ports recalibrate their capture delays; no frame, burst or flit is delayed. -/
def execDelayRecalibration (t : TileId) (s : State) : Host.Outcome State Fault Refusal :=
  if !s.inSvc t then .next s else .next (s.modTherm t fun x => { x with recal := x.recal + 1 })

/-! ### The strobe and the sensors (R598 to R602) -/

/-- The dies of a channel that give readings: present, and not declared failed. -/
def liveDies (c : Chan) : List (Fin 9) := allDies.filter fun (p : Fin 9) => c.present.getLsbD p && !c.failed.getLsbD p

/-- A READ_TEMP item for every present die of a tile (R276, R598); a die whose last item has not run yet gets no second one. A die
with two deferrals behind it holds new fold and patrol programs (R294). -/
def State.readTemps (s : State) (t : TileId) : State :=
  forAll allChans (fun (c : ChanId) s =>
    if !s.tiles[t].ch[c].up then s
    else forAll (liveDies s.tiles[t].ch[c]) (fun (p : Fin 9) s =>
      let mine (w : WorkItem) : Bool := w.use = .readTemp && w.chan = c.val && w.targets = [p.val]
      let e := s.tiles[t].eng
      let s := if waits e mine || e.ctxs.any (fun x => mine x.item) then s
        else s.enqueue t { id := 0, role := 5, cls := .telemetry, herd := c.val, chan := c.val, targets := [p.val], use := .readTemp }
      if s.tiles[t].ch[c].dies[p].missed ≥ 2 then
        s.modEng t fun e => { e with
          tempHold := if e.tempHold.contains (c.val, p.val) then e.tempHold else e.tempHold ++ [(c.val, p.val)] }
      else s) s) s

/-- The counters of cycles and of head flits, whose increase in a round the spec gives no way to compute (R646): free. They do not
count while asleep. -/
def State.cycleCounters (s : State) (t : TileId) : State :=
  forAll ([(1, 0), (1, 5), (1, 6), (5, 7), (7, 4)] : List (Nat × Nat)) (fun k s =>
    let (v, s) := s.draw
    s.count t k.1 k.2 (v % 2 ^ 32)) s

/-- HOUSEKEEPING_STROBE (R598 to R600): a round starts: voltages are sampled, READ_TEMP items are queued, and the FABCLK edges of the
last round are counted. -/
def execHousekeepingStrobe (vin : BitVec 16) (vhold : BitVec 16) (vaon : BitVec 16) (vcore : BitVec 16) (edges : BitVec 64)
    (s : State) : Host.Outcome State Fault Refusal :=
  if !s.aon.vaon then .next s
  else
    let s := { s with
      aon := { s.aon with vinMv := vin, vholdMv := vhold }
      thm := { s.thm with vcoreMv := vcore, vaonMv := vaon }
      clk := { s.clk with round := s.clk.round + 1, noReport := s.clk.noReport + 1 }
      pmc := { s.pmc with edge := s.pmc.edge + edges } }
    let s := s.ungatePkg 4
    let asleep := s.sys.state.isSleep
    let s := if asleep then s
      else forAll s.svcTiles (fun t s => (s.count t 9 7 edges.toNat).cycleCounters t) s
    let s := { s with tiles := vmap s.tiles fun t x => { x with
      thm := { x.thm with stale := s.sys.state = .sleepS3 && s.sys.lead ≠ some t }
      ch := x.ch.map fun (c : Chan) => { c with dies := c.dies.map fun (d : Die) => { d with thisRound := none } } } }
    if s.mediaOn && s.flush.isNone then .next (forAll s.svcTiles (fun t s => s.readTemps t) s) else .next s

/-- The tile maximum (R602): the highest reading of the sensors not excluded; 105 °C with more than six excluded. -/
def tileMax (x : TileThm) : BitVec 16 :=
  if (bitsOf x.excluded).length > 6 then 1680
  else ((List.finRange 12).filter fun (k : Fin 12) => !x.excluded.getLsbD k).foldl (fun m k =>
    if x.sensor[k].toInt > m.toInt then x.sensor[k] else m) 0x8000

/-- A conversion is good: it checks and lies from −40 °C to 125 °C (R602). -/
def goodReading (r : Option (BitVec 16)) : Bool := match r with
  | some v => decide (-640 ≤ v.toInt ∧ v.toInt ≤ 2000)
  | none => false

/-- SENSOR_RESULT_HOLD (R598, R599, R602): the conversions of a tile are held; a sensor bad in two rounds running is excluded. A bad
conversion leaves the last good reading. In SLEEP_S3 only the lead's sensors are sampled. -/
def execSensorResultHold (t : TileId) (readings : Vector (Option (BitVec 16)) 12) (s : State) :
    Host.Outcome State Fault Refusal :=
  if !s.aon.vaon || (s.sys.state = .sleepS3 && s.sys.lead ≠ some t) then .next s
  else
    let x := s.tiles[t].thm
    let ks := List.finRange 12
    let bad : BitVec 12 := ks.foldl (fun m (k : Fin 12) => if goodReading readings[k] then m else bitOn m k.val) 0
    let new := ks.filter fun (k : Fin 12) => bad.getLsbD k && x.bad.getLsbD k && !x.excluded.getLsbD k
    let s := s.modTherm t fun x =>
      let x := { x with
        sensor := vmap x.sensor fun k v => if goodReading readings[k] then (readings[k]).getD v else v
        bad := bad, excluded := new.foldl (fun m (k : Fin 12) => bitOn m k.val) x.excluded }
      { x with max := tileMax x }
    .next (forAll new (fun k s => s.raise (mkEv 0x6021 .warn t 0 [(1, k.val)])) s)

/-! ### Bands (R605, R606) -/

/-- The boundaries of R605 in 1/16 °C. -/
def bandBounds : List Int := [160, 480, 800, 1120, 1360]

/-- The band of a reading, from the band in force (R605): up at a boundary, down only below it by 2 °C; without hysteresis when no
band is in force. -/
def bandStep (cur : Option (BitVec 3)) (r : BitVec 16) : BitVec 3 :=
  let up := (bandBounds.filter fun b => decide (b ≤ r.toInt)).length
  let down := (bandBounds.filter fun b => decide (b - 32 ≤ r.toInt)).length
  match cur with
  | none => BitVec.ofNat 3 up
  | some c =>
    if c.toNat < up then BitVec.ofNat 3 up
    else if down < c.toNat then BitVec.ofNat 3 down
    else c

/-- Tables go into the bank not in use and the die switches to it (R92). -/
def State.loadBank (s : State) (t : TileId) (c : ChanId) (p : Fin 9) (tables : List CurveEntry × List WaveRec) : State :=
  let k := 1 - b2n s.tiles[t].ch[c].dies[p].bankB
  (s.sendBank t c p k tables).modDie t c p fun d => { d with bankB := !d.bankB }

/-- The blend of R613: the lower band and the weight, from a reading. -/
def blendOf (r : BitVec 16) : Nat × Nat :=
  let mid : List Nat := [0, 320, 640, 960, 1240, 1480]
  let t := min 1480 (r.toInt.toNat)
  if t ≥ 1480 then (4, 256)
  else
    let lo := ((List.range 5).filter fun n => decide (mid.getD n 0 ≤ t)).getLastD 0
    (lo, (t - mid.getD lo 0) * 256 / (mid.getD (lo + 1) 0 - mid.getD lo 0))

/-- One blended code (R613). -/
def blend (f a b : Nat) : Nat := (a * (256 - f) + b * f + 128) / 256

/-- A blended curve entry (R613). -/
def blendCurve (f : Nat) (a b : CurveEntry) : CurveEntry :=
  let x (p q : BitVec 12) : BitVec 12 := BitVec.ofNat 12 (blend f p.toNat q.toNat)
  { ref1 := x a.ref1 b.ref1, ref2 := x a.ref2 b.ref2, ref3 := x a.ref3 b.ref3, refSlc := x a.refSlc b.refSlc }

/-- A blended segment (R614): the amplitude is blended where the upper band has the segment; the rest is the lower band's. -/
def blendSeg (f : Nat) (a b : BitVec 32) : BitVec 32 :=
  if b.toNat / 2 ^ 10 % 2 ^ 12 = 0 then a
  else BitVec.ofNat 32 (a.toNat / 2 ^ 10 * 2 ^ 10 + blend f (a.toNat % 2 ^ 10) (b.toNat % 2 ^ 10))

/-- A blended waveform record (R614). -/
def blendWave (f : Nat) (a b : WaveRec) : WaveRec := Vector.ofFn fun (i : Fin 4) =>
  let x := a[i]
  let y := b[i]
  { seg0 := blendSeg f x.seg0 y.seg0, seg1 := blendSeg f x.seg1 y.seg1, seg2 := blendSeg f x.seg2 y.seg2
    verifyRef := BitVec.ofNat 16 (x.verifyRef.toNat / 2 ^ 12 * 2 ^ 12
      + blend f (x.verifyRef.toNat % 2 ^ 12) (y.verifyRef.toNat % 2 ^ 12))
    maxApply := x.maxApply
    stepInc := BitVec.ofNat 8 (blend f x.stepInc.toNat y.stepInc.toNat) }

/-- The blended tables of a die for its last good reading (R613, R614). -/
def State.blendTables (s : State) (t : TileId) (c : ChanId) (p : Fin 9) : List CurveEntry × List WaveRec :=
  let (lo, f) := blendOf s.tiles[t].ch[c].dies[p].temp
  let (c1, w1) := s.bandTables t c p lo
  let (c2, w2) := s.bandTables t c p (lo + 1)
  (c1.zipWith (blendCurve f) c2, w1.zipWith (blendWave f) w2)

/-- The tables a die is to use have changed in compensation mode (R614). -/
def State.blendDiffers (s : State) (t : TileId) (c : ChanId) (p : Fin 9) : Bool :=
  let d := s.tiles[t].ch[c].dies[p]
  let k := b2n d.bankB
  let (cs, ws) := s.blendTables t c p
  cs.zipIdx.any (fun e => tabGet d.refs (16 * k + e.2) != some e.1)
    || ws.zipIdx.any fun e => tabGet d.waves (4 * k + e.2) != some e.1

/-- What the round makes of one die's reading (R92, R294, R605): the band, and the tables that follow it. Without a good reading for 16
rounds the band is the highest among the channel's other dies. -/
def State.dieRound (s : State) (t : TileId) (c : ChanId) (p : Fin 9) : State :=
  let d := s.tiles[t].ch[c].dies[p]
  let good : Bool := match d.thisRound with
    | some v => v != 0x8000
    | none => false
  let missed := if good then 0 else d.missed + 1
  let s := if d.thisRound.isNone then s.modEng t fun e => { e with deferred := satAdd e.deferred 1 } else s
  let s := s.modEng t fun e => { e with maxRun := if missed > e.maxRun.toNat then BitVec.ofNat 8 (min missed 255) else e.maxRun }
  let s := if missed = 16 then s.raise (mkEv 0x6020 .warn t (c.val + 1) [(1, p.val)]) else s
  let others := (liveDies s.tiles[t].ch[c]).filter (· ≠ p)
  let band : Option (BitVec 3) :=
    if missed ≥ 16 then
      if others = [] then none
      else some (others.foldl (fun (m : BitVec 3) q =>
        if s.tiles[t].ch[c].dies[q].band.toNat > m.toNat then s.tiles[t].ch[c].dies[q].band else m) 0)
    else if d.temp = 0x8000 then none
    else some (bandStep (if d.bandSet then some d.band else none) d.temp)
  let s := s.modDie t c p fun d => { d with missed := missed, band := band.getD d.band, bandSet := d.bandSet || band.isSome }
  let new := band.getD d.band
  if s.clk.compMode then
    if d.temp ≠ 0x8000 && s.blendDiffers t c p then s.loadBank t c p (s.blendTables t c p) else s
  else if new ≠ d.band then (s.loadBank t c p (s.bandTables t c p new.toNat)).loadGait t (some new.toNat)
  else s

/-- The media side of the round: every die's band, each channel's highest, and the media maximum (R603, R605, R606). -/
def State.mediaRound (s : State) : State :=
  if !s.mediaOn then s
  else
    let s := forAll s.svcTiles (fun t s => forAll allChans (fun (c : ChanId) s =>
      if !s.tiles[t].ch[c].up then s
      else
        let s := forAll (liveDies s.tiles[t].ch[c]) (fun (p : Fin 9) s => s.dieRound t c p) s
        let top := (liveDies s.tiles[t].ch[c]).foldl (fun (m : BitVec 3) p =>
          if s.tiles[t].ch[c].dies[p].band.toNat > m.toNat then s.tiles[t].ch[c].dies[p].band else m) 0
        s.modCh t c fun k => { k with band := top }) s) s
    let temps := s.svcTiles.flatMap fun t => allChans.flatMap fun (c : ChanId) =>
      (liveDies s.tiles[t].ch[c]).map fun p => s.tiles[t].ch[c].dies[p].temp
    { s with thm := { s.thm with mediaMax := temps.foldl (fun m v => if v.toInt > m.toInt then v else m) 0x8000 } }

/-- Each tile's controller band, and the controller maximum (R603, R605). -/
def State.controllerRound (s : State) : State :=
  let s := { s with tiles := vmap s.tiles fun _ x =>
    let b := bandStep (if x.thm.bandSet then some x.thm.band else none) x.thm.max
    { x with thm := { x.thm with band := b, bandSet := true } } }
  { s with thm := { s.thm with
    ctrlMax := s.svcTiles.foldl (fun m t => if s.tiles[t].thm.max.toInt > m.toInt then s.tiles[t].thm.max else m) 0x8000 } }

/-! ### Throttling and the media hold (R608, R609) -/

/-- The level that throttling imposes next, from the level imposed now (0: none) and the controller maximum (R608). -/
def throttleStep (cur : Nat) (r : BitVec 16) : Nat :=
  let up := (([1600, 1680, 1760] : List Int).filter fun b => decide (b ≤ r.toInt)).length
  if up > cur then up
  else if 0 < cur && decide (r.toInt < ([1552, 1632, 1712] : List Int).getD (cur - 1) 0) then cur - 1
  else cur

/-- The throttling of the round (R608, R625). -/
def State.throttleRound (s : State) : State :=
  let cur := if s.thm.active then s.thm.imposed.toNat else 0
  let n := throttleStep cur s.thm.ctrlMax
  let s := if cur = 0 && n ≠ 0 then s.raise (mkEv 0x6001 .warn 15 0 [(1, n), (2, s.thm.ctrlMax.toNat)])
    else if cur ≠ 0 && n = 0 then s.raise (mkEv 0x6002 .info 15 0) else s
  { s with thm := { s.thm with
    imposed := BitVec.ofNat 2 n, active := n ≠ 0, rounds := if n = 0 then s.thm.rounds else satAdd s.thm.rounds 1 } }

/-- The media hold of one channel (R609). -/
def State.holdRound (s : State) (t : TileId) (c : ChanId) : State :=
  let k := s.tiles[t].ch[c]
  let temps := ((liveDies k).map fun p => k.dies[p].temp).filter (· ≠ 0x8000)
  let held := s.tiles[t].thm.hold.getLsbD c
  if temps.any (fun v => decide (1520 ≤ v.toInt)) then
    if held then s
    else (s.modTherm t fun x => { x with hold := bitOn x.hold c }).raise (mkEv 0x6011 .warn t (c.val + 1))
  else if held && temps.all (fun v => decide (v.toInt < 1472)) then
    (s.modTherm t fun x => { x with hold := bitOff x.hold c }).raise (mkEv 0x6012 .info t (c.val + 1))
  else s

/-! ### The thermal trip (R610, R611) -/

/-- THERMAL_TRIP (R610, R611): a sensor not excluded reaches 115 °C and THERMTRIP_N asserts. Outside FLUSHING heads stop admitting, VCORE
falls, a sleep sequence is abandoned, and every tile stages what is dirty; folds and patrol do not start. -/
def execThermalTrip (t : TileId) (sensor : Fin 12) (s : State) : Host.Outcome State Fault Refusal :=
  if s.thm.trip || s.tiles[t].thm.excluded.getLsbD sensor || !s.aon.vaon then .next s
  else
    let s := { s with thm := { s.thm with trip := true, tripAt := some (t, sensor) } }
    if s.flush.isSome || s.sys.state = .failed then .next s
    else
      let s := { s with
        sys := { s.sys with admitStop := true }
        pwr := { s.pwr with vcoreMv := 700, changing := false, transition := 0, queued := 0 } }
      let stays (w : WorkItem) : Bool := w.cls ≠ .patrol && w.cls ≠ .telemetry
      .next (forAll s.svcTiles (fun t s =>
        (s.modEng t fun e => { e with queues := e.queues.map (·.filter stays), full := e.full.filter stays }).stageAll t
          ((dirtyLines s.tiles[t].d).map (·.line))) s)

/-- TRIP_STAGED (R611, R563): nothing is dirty: FATAL event 0x6010 names tile and sensor, and the part enters FAILED with cause 0x4. In
FLUSHING only the records follow, once the flush work has ended. -/
def execTripStaged (s : State) : Host.Outcome State Fault Refusal :=
  match s.thm.tripAt with
  | none => .next s
  | some (t, k) =>
    let ready := match s.flush with
      | some f => f.workEnded
      | none => s.svcTiles.all fun (t : TileId) => s.flushClean t
    if !ready then .next (forAll s.svcTiles (fun t s => s.stageAll t ((dirtyLines s.tiles[t].d).map (·.line))) s)
    else
      let s := { s with thm := { s.thm with tripAt := none } }.raise (mkEv 0x6010 .fatal t 0 [(1, k.val)])
      .next (if s.flush.isSome then s else s.fail .thermalTrip)

end Sys2Proof.Machine
end

