-- ==== Sys2Proof/Machine/Housekeeping.lean ====
section
/-! DEFINITION. The deciding point of a housekeeping round (R598): bands, throttling, media hold, hold-up energy (R554), the
rail check (R547), events raised once per round, and internal writes tried again (R440). -/

namespace Sys2Proof.Machine

/-- Hold-up energy of the round (R554): the usable energy follows VHOLD; the measured budget falls at once, and never rises here. -/
def State.energyRound (s : State) : State :=
  if !s.hld.firstDone then s
  else
    let u := usableUj s.hld.cap.toNat s.aon.vholdMv.toNat
    let m := measuredBudget u s.svcTiles.length
    let s := { s with hld := { s.hld with usable := u } }
    if m < s.hld.measured then { s with hld := { s.hld with measured := m } }.applyBudgets else s

/-- What a head raises once per round (R218, R316), and its highest DevLoad of the round (R336). -/
def State.headRound (s : State) (h : TileId) : State :=
  let x := s.heads[h]
  let s := if x.roundMiss = 0 then s
    else s.raise (mkEv 0x9010 .warn h 1 [] x.missFirst.toNat x.roundMiss)
  let s := if x.roundDeadline = 0 then s
    else s.raise (mkEv 0x9012 .warn h 0 [(1, x.deadlineOwner), (1, x.deadlineStage)] x.deadlineFirst.toNat x.roundDeadline)
  s.modHead h fun x => { x with roundMiss := 0, roundDeadline := 0, devLoadMax := x.devLoadRound, devLoadRound := 0 }

/-- What a tile's fabric interface raises once per round (R473, R476, R477). -/
def State.fabRound (s : State) (t : TileId) : State :=
  let f := s.fab[t]
  let s := forAll (List.finRange 4) (fun (p : Fin 4) s =>
    if f.ports[p].roundReplays = 0 then s else s.raise (mkEv 0x3020 .warn t (p.val + 1))) s
  let s := if f.roundRejects = 0 then s else s.raise (mkEv 0x3030 .warn t 0)
  let s := if f.roundRefused = 0 then s else s.raise (mkEv 0x3041 .warn t 0)
  s.modFab t fun f => { f with
    roundRejects := 0, roundRefused := 0, ports := f.ports.map fun (k : Link) => { k with roundReplays := 0 } }

/-- The package-level events of a round: R36 and R47 (0x9011), R677 (0x8010), R689 (0x8041), R440 (0x7022), R640 (0x7071) and the
mesh (0x4041). -/
def State.packageRound (s : State) : State :=
  let y := s.sys
  let s := if y.roundPoisoned + y.roundDiscarded = 0 then s
    else s.raise (mkEv 0x9011 .warn 15 0 [(4, y.roundDiscarded)] 0 y.roundPoisoned)
  let s := if y.roundLocked = 0 then s else s.raise (mkEv 0x8010 .warn 15 0)
  let s := if y.roundDebug = 0 then s else s.raise (mkEv 0x8041 .warn 15 0)
  let s := if y.roundSupply = 0 then s else s.raise (mkEv 0x7022 .warn s.lead 0)
  let s := if s.bbx.roundDropped then s.raise (mkEv 0x7071 .warn s.lead 0) else s
  let s := if s.mesh.roundRefused = 0 then s else s.raise (mkEv 0x4041 .warn 15 0)
  let s := { s with
    sys := { s.sys with roundPoisoned := 0, roundDiscarded := 0, roundLocked := 0, roundDebug := 0, roundSupply := 0 }
    bbx := { s.bbx with roundDropped := false }
    mesh := { s.mesh with roundRefused := 0, ports := s.mesh.ports.map fun (k : Link) => { k with roundReplays := 0 } } }
  forAll (bitsOf s.seq.ignored) (fun q s => s.raise (mkEv 0x5020 .warn 15 0 [(1, q)])) s

/-- Counters that newly overflowed in the round (R647): with OVF_MSIX, vector 6 and one INFO event 0x9030 for each. -/
def State.counterRound (s : State) : State :=
  let ks := s.pmc.newOver
  let s := { s with pmc := { s.pmc with newOver := [] } }
  if !s.pmc.ovfMsix || ks = [] then s
  else forAll ks (fun k s => s.raise (mkEv 0x9030 .info (k / 256) 0 [(1, k / 8 % 32), (1, k % 8)])) (s.vectorMgmt 6)

/-- The RDP_ERASE mark is written into the boot-select twin, after a supply check (R373 step 1, R440). -/
def State.markRdp (s : State) : State :=
  if s.supplyOk 50 s.svcTiles.length then
    { s.twinEnqueue 3 1 (putBytes s.bootSelect 3 ([0xA5] : List Byte)) with
      cfg := { s.cfg with deferred := s.cfg.deferred.filter (· ≠ 5) } }
  else
    { s.supplyRefused with cfg := { s.cfg with
        deferred := if s.cfg.deferred.contains 5 then s.cfg.deferred else s.cfg.deferred ++ [5] } }

/-- Internal writes that a supply check refused are tried again (R440): patrol cursors, the hold-up record, the trial confirmation,
DIE_MAP and the RDP_ERASE mark. -/
def State.retryWrites (s : State) : State :=
  if s.flush.isSome then s
  else forAll s.cfg.deferred (fun k s => match k with
    | 1 => s.saveCursors
    | 2 => s.writeHoldup
    | 3 => s.confirmTrial
    | 4 => s.commitMaps
    | 5 => s.markRdp
    | _ => s) s

/-- HOUSEKEEPING_DECIDE (R598): 600 µs into the round; the lead's report reaches the rail supervisor (R604). -/
def execHousekeepingDecide (s : State) : Host.Outcome State Fault Refusal :=
  if !s.aon.vaon then .next s
  else
    let s := s.mediaRound.controllerRound.throttleRound
    let s := if s.mediaOn then
        forAll s.svcTiles (fun t s => forAll allChans (fun (c : ChanId) s => s.holdRound t c) s) s
      else s
    let s := if s.clk.compMode then
        let (v, s) := s.draw
        { s with aon := { s.aon with trim := BitVec.ofNat 16 v } }
      else s
    let s := s.energyRound
    let s := forAll s.svcTiles (fun t s => (s.headRound t).fabRound t) s
    let s := s.packageRound.counterRound.retryWrites.commitCheck
    let s := forAll s.svcTiles (fun t s => s.answerPeers t) s
    .next (match s.sys.lead with
      | none => s
      | some l =>
        if !s.inSvc l || s.sys.loneLost then s
        else { s with clk := { s.clk with
          noReport := 0, report := some (s.sys.state, s.sys.inService, s.sys.rescueLead) } })

end Sys2Proof.Machine
end

