-- ==== Sys2Proof/Machine/Registers.lean ====
section
/-! DEFINITION. The vendor registers as they read (R52 to R55, R98 to R106, R140 to R144, R186 to R195, R219 to R223, R260 to R272,
R297 to R305, R334 to R338, R403 to R406, R444 to R452, R488 to R498, R529 to R540, R575 to R589, R618 to R628, R656 to R671,
R690 to R693). A register is named by its tile, block code and offset. -/

namespace Sys2Proof.Machine

/-- Low and high words of a number. -/
def word (n k : Nat) : BitVec 32 := BitVec.ofNat 32 (n / 2 ^ (32 * k))

/-- HDC_ (R219 to R221, R334 to R338). -/
def State.readHdc (s : State) (h : TileId) (off : Nat) : BitVec 32 :=
  let x := s.heads[h]
  match off with
  | 0x000 => packFields [(0, x.speed.toNat), (4, x.width.toNat), (8, b2n x.flit256), (9, b2n x.lopt), (10, b2n x.ideIo),
      (11, b2n x.ideMem), (12, b2n (s.enabledHeads.getLsbD h)), (13, b2n (s.mgmtHeads.getLsbD h)), (14, b2n x.degraded)]
  | 0x004 => packFields [(0, x.admitLoads.toNat), (16, x.admitStores.toNat)]
  | 0x008 => packFields [(0, x.gpfCount.toNat), (16, x.gpfLast.toNat)]
  | 0x00C => packFields [(0, x.devLoadMax.toNat)]
  | 0x100 => packFields [(0, x.rdDeadline.toNat)]
  | 0x104 => packFields [(0, x.latMax.toNat)]
  | _ => 0

/-- CCH_ (R187 to R189). -/
def State.readCch (s : State) (t : TileId) (off : Nat) : BitVec 32 :=
  let d := s.tiles[t].d
  match off with
  | 0x00 => packFields [(0, d.scratchWays.toNat), (4, d.offPairs.toNat), (8, (cacheWays d).length)]
  | 0x04 => packFields [(0, postedCount d)]
  | 0x08 => packFields [(0, d.budget)]
  | _ => 0

/-- STG_ (R190 to R194). -/
def State.readStg (s : State) (t : TileId) (off : Nat) : BitVec 32 :=
  let d := s.tiles[t].d
  let slice (k : Nat) : Nat := if recSlice s.cfg.record k = 0 then 0 else s.occupancy t (areaFin (k + 1))
  match off with
  | 0x00 => packFields [(0, (d.dir.filter fun e => e.area = 0).length), (21, s.occupancy t 0)]
  | 0x04 => packFields [(0, b2n d.pressure[(0 : Fin 5)]), (1, b2n d.hold[(0 : Fin 5)]), (2, b2n d.hold[(1 : Fin 5)]),
      (3, b2n d.hold[(2 : Fin 5)]), (4, b2n d.hold[(3 : Fin 5)]), (5, b2n d.hold[(4 : Fin 5)]), (8, d.folds.length),
      (16, d.bucketWaits.toNat)]
  | 0x08 => packFields ((List.range 4).map fun k => (8 * k, slice k))
  | 0x0C => word d.logSeq.toNat 0
  | 0x10 => word d.logSeq.toNat 1
  | _ => 0

/-- FLD_ (R195). -/
def State.readFld (s : State) (t : TileId) (off : Nat) : BitVec 32 := if off = 0 then s.tiles[t].d.foldCount else 0

/-- DKR_ (R298 to R301). -/
def State.readDkr (s : State) (t : TileId) (off : Nat) : BitVec 32 :=
  let e := s.tiles[t].eng
  let h := off / 0x10
  let held (bg : Bool) : Nat := (e.ctxs.filter fun x => x.duiker / 16 = h && (x.ctx = 3 : Bool) = bg).length
  let queued (c : WorkClass) : Nat := e.queues[queueIdx h c].length
  if off = 0x40 then packFields [(0, e.abandonCount.toNat), (16, e.longestUs.toNat)]
  else if off = 0x44 then
    packFields [(0, e.deferred.toNat), (16, e.maxRun.toNat),
      (24, min 255 ((s.tiles[t].ch.toList.flatMap fun c => (liveDies c).map fun p => c.dies[p].missed).filter (decide <| · ≥ 16)).length)]
  else if h < 4 ∧ off % 0x10 = 0 then
    packFields [(0, held false), (8, held true), (16, queued .fgRead + queued .fgWrite),
      (24, queued .telemetry + queued .fold + queued .patrol)]
  else if h < 4 ∧ off % 0x10 = 4 then
    packFields [(0, (e.stolenFrom.toList.getD h 0).toNat), (16, (e.stolenBy.toList.getD h 0).toNat)]
  else 0

/-- Stamps of written rings and of in-use staging segments that are UNKNOWN (R222). -/
def unknownStamps (x : Tile) : Nat :=
  let rings := (x.pl.written.filter (·.2)).map (·.1) ++ x.d.segs.map fun g => 20480 * g.unit + g.ring
  ((rings.eraseDups.flatMap fun r => (List.range 4).map fun g => 4 * r + g).filter fun i => stampAt x.d i = 0xFF).length

/-- GTB_ (R222, R223, R302 to R305). -/
def State.readGtb (s : State) (t : TileId) (off : Nat) : BitVec 32 :=
  let x := s.tiles[t]
  let maps (m : Vector (BitVec 5) 6) : BitVec 32 := packFields (m.toList.zipIdx.map fun e => (5 * e.2, e.1.toNat))
  match off with
  | 0x000 => maps x.eng.mapSlc
  | 0x004 => maps x.eng.mapMlc
  | 0x008 => x.eng.valid
  | 0x00C => x.eng.reject
  | 0x100 => packFields [(0, b2n x.d.recovery), (1, b2n (decide (x.d.catchP < 5242880))), (8, unknownStamps x)]
  | 0x104 => packFields [(0, x.d.otherBucket.toNat), (16, x.d.pageCode.toNat)]
  | _ => 0

/-- MCH_ (R99 to R106, R261 to R265). -/
def State.readMch (s : State) (t : TileId) (off : Nat) : BitVec 32 :=
  if off ≥ 0x400 then 0
  else
    let c := toChan (off / 0x100)
    let k := s.tiles[t].ch[c]
    let i := s.tiles[t].it
    let r := i.rebuild[c]
    match off % 0x100 with
    | 0x00 => packFields [(0, b2n k.enable), (1, b2n k.scrambleEn), (2, b2n k.spareArmed)]
    | 0x04 => packFields [(0, b2n k.up), (1, b2n (k.inReset || k.tinit)), (2, b2n k.alert), (3, b2n k.spareInUse),
        (8, k.failedDie.toNat), (11, b2n k.failedValid), (16, (k.dies.toList.map progsOn).foldl max 0)]
    | 0x08 => k.dieMap
    | 0x0C => packFields [(0, k.present.toNat), (16, k.failed.toNat)]
    | 0x10 => k.suspendCount
    | 0x14 => packFields [(0, k.sackSingle.toNat), (16, k.sackDouble.toNat)]
    | 0x18 => packFields [(0, k.errFlags.toNat)]
    | 0x1C => packFields ((0, k.band.toNat) :: allDies.map fun (p : Fin 9) => (4 + p.val, b2n k.dies[p].bankB))
    | 0x20 => i.corr[c]
    | 0x24 => packFields [(0, i.escPage[c].toNat), (16, i.escStripe[c].toNat)]
    | 0x28 => packFields [(0, i.uncorr[c].toNat), (16, i.misdirect[c].toNat)]
    | 0x2C => packFields [(0, b2n r.active), (1, r.ldie.toNat), (8, r.percent.toNat)]
    | 0x30 => r.start
    | _ => 0

/-- How far a unit is through its patrol pass, in whole percent (R270). -/
def unitProgress (x : Tile) (unit : Nat) : Nat :=
  let cur := (Sparse.get 0 x.it.cursors unit).toNat
  let rings := writtenRings x.pl unit
  let segs := (x.d.segs.filter fun g => g.unit = unit && !g.isOpen).map fun g => segPlace g.ring
  let done := (rings.map fun r => min 256 (cur - 256 * r)).sum + min 16 (cur - 256 * 20479)
    + (segs.filter (decide <| · < cur)).length
  100 * done / (256 * rings.length + 16 + segs.length)

/-- PTL_ (R266 to R271). -/
def State.readPtl (s : State) (t : TileId) (off : Nat) : BitVec 32 :=
  let i := s.tiles[t].it
  match off with
  | 0x00 => packFields [(0, b2n i.enable), (1, b2n (i.visits ≠ [])), (2, b2n i.yielding)]
  | 0x04 => packFields [(0, i.coolH.toNat), (12, i.hotH.toNat)]
  | 0x08 => packFields [(0, i.thCorr.toNat), (4, i.ageCool.toNat), (8, i.ageHot.toNat), (12, i.stageAge.toNat)]
  | 0x0C => packFields [(0, i.passes.toNat), (16, i.late.toNat)]
  | 0x10 => packFields [(0, ((List.range s.unitsPerTile).map (unitProgress s.tiles[t])).foldl min 100)]
  | 0x14 => i.refreshes
  | _ => 0

/-- WDR_ (R489 to R498). -/
def State.readWdr (s : State) (t : TileId) (off : Nat) : BitVec 32 :=
  let f := s.fab[t]
  if off < 0x80 then
    let p : Fin 4 := toChan (off / 0x20)
    let k := f.ports[p]
    let y := s.link (s.linkHome (.widar t p))
    let n := neighbour s.fuses.variant t.val p.val
    match off % 0x20 with
    | 0x00 => packFields [(0, b2n k.up), (1, b2n k.bonded), (2, k.speed.toNat), (4, k.width.toNat), (6, n.getD 0),
        (9, b2n (s.fuses.variant = .yd4871g && n = some 7)), (16, k.repaired.toNat), (20, k.retrains.toNat)]
    | 0x04 => packFields [(0, k.crcErrors.toNat), (16, k.replays.toNat)]
    | 0x08 => packFields [(0, k.flags.toNat)]
    | 0x0C => packFields [(0, y.txSeq.toNat), (10, y.lastAck.toNat), (20, y.unacked.length)]
    | _ => 0
  else
    match off with
    | 0x080 => packFields ((List.finRange 8).flatMap fun (d : Fin 8) =>
        [(4 * d.val, f.route[d].toNat), (4 * d.val + 3, b2n (f.alt.getLsbD d))])
    | 0x084 => packFields [(0, f.dead.toNat), (16, f.refused.toNat)]
    | 0x088 => packFields [(4, 1), (5, b2n f.ackGuest)]
    | 0x08C => packFields [(0, f.barDone.toNat), (16, f.barBroken.toNat)]
    | 0x090 => packFields [(0, f.rejLength.toNat), (8, f.rejDenied.toNat), (16, f.rejUnmapped.toNat), (24, f.rejState.toNat)]
    | 0x094 =>
      if s.fuses.variant ≠ .yd4871g ∨ s.sys.lead ≠ some t then 0
      else packFields [(0, 1), (1, b2n s.guest.admitted), (2, b2n s.guest.dead), (3, b2n f.ackGuest), (4, s.guest.links.toNat),
        (8, s.guest.missed.toNat)]
    | _ => 0

/-- MSH_ (R530 to R540). -/
def State.readMsh (s : State) (off : Nat) : BitVec 32 :=
  let m := s.mesh
  if 0x040 ≤ off ∧ off < 0x080 then
    let k := m.ports[toChan ((off - 0x040) / 0x10)]
    match off % 0x10 with
    | 0x0 => packFields [(0, b2n k.up), (1, k.speed.toNat), (3, k.width.toNat), (5, k.peer.toNat), (12, k.retrains.toNat)]
    | 0x4 => packFields [(0, k.crcErrors.toNat), (16, k.replays.toNat)]
    | 0x8 => packFields [(0, k.flags.toNat)]
    | _ => 0
  else
    match off with
    | 0x000 => packFields [(0, s.pkgId), (6, b2n m.conflict), (8, m.epoch.toNat), (24, m.packages.toNat)]
    | 0x004 => packFields [(0, m.peer.toNat), (6, b2n m.paired), (8, m.state.toNat), (11, b2n m.takenOver), (12, b2n m.alone),
        (13, b2n m.pairConflict), (16, m.regions.toNat)]
    | 0x008 => packFields [(0, m.replica.toNat), (16, m.takeoverHeads.toNat)]
    | 0x00C => packFields [(0, m.missed.toNat), (16, m.declared.toNat)]
    | 0x010 => packFields [(0, m.resyncPercent.toNat), (7, b2n m.resyncActive), (8, b2n m.resyncSource), (16, m.broken.toNat)]
    | 0x014 => packFields [(0, m.ackMax.toNat)]
    | 0x018 => packFields [(0, m.forwarded.toNat), (16, m.expired.toNat), (24, m.noRoute.toNat)]
    | 0x01C => m.pairGen
    | _ => 0

/-- PWR_ (R586 to R589). -/
def State.readPwr (s : State) (t : TileId) (off : Nat) : BitVec 32 :=
  let p := s.pwr
  let tr := if p.transition ≠ 0 then p.transition.toNat else if p.changing then 3 else 0
  match off with
  | 0x000 => packFields [(0, p.effective.toNat), (2, p.requested.toNat), (4, p.sleep.toNat), (6, tr), (8, p.queued.toNat)]
  | 0x004 => packFields [(0, p.readAssist.toNat), (3, p.writeAssist.toNat), (7, p.bias.toNat)]
  | 0x008 => packFields [(0, b2n (p.padLatched.getLsbD t))]
  | 0x00C => packFields [(0, b2n (p.saved.getLsbD t)), (1, b2n (p.restoreFailed.getLsbD t)), (16, p.s3Exits.toNat)]
  | _ => 0

/-- SEQ_ (R576 to R579). -/
def State.readSeq (s : State) (off : Nat) : BitVec 32 :=
  let q := s.seq
  match off with
  | 0x000 => packFields [(0, q.en.toNat), (16, q.pg.toNat)]
  | 0x004 => packFields [(0, q.fault.toNat), (16, q.off.toNat)]
  | 0x008 => packFields [(0, q.lastRail.toNat), (4, q.lastReaction.toNat), (6, q.retries.toNat), (8, b2n q.boardRst),
      (9, b2n q.raising), (10, b2n q.lowering)]
  | 0x00C => q.medrst
  | _ => 0

/-- HLD_ (R580 to R585). -/
def State.readHld (s : State) (off : Nat) : BitVec 32 :=
  let h := s.hld
  match off with
  | 0x000 => packFields [(0, b2n s.sys.postedCert), (1, b2n h.measuring), (2, b2n h.chargeOff), (3, b2n (!s.aon.pwrfailN)),
      (4, b2n s.aon.vinLow), (5, b2n s.aon.inputOk)]
  | 0x004 => packFields [(0, s.aon.vholdMv.toNat), (16, s.aon.vinMv.toNat)]
  | 0x008 => h.cap
  | 0x00C => packFields [(0, min 65535 (h.usable / 1000)), (16, min 65535 s.requiredMj)]
  | 0x010 => packFields [(0, h.measured)]
  | 0x014 => packFields [(0, s.aon.flushUs.toNat), (12, b2n s.aon.flushComplete), (13, b2n s.aon.flushReturned),
      (14, s.aon.flushTrigger.toNat), (16, s.aon.flushUnsaved.toNat)]
  | _ => 0

/-- The clock domains of a tile that are held gated (R595). -/
def State.heldDomains (s : State) (t : TileId) : BitVec 31 :=
  if !s.inSvc t then 0x7FFFFFFF
  else
    let x := s.tiles[t]
    let head : List Nat := if s.enabledHeads.getLsbD t then [] else [0, 1, 2]
    let ways := (bitsOf x.d.offMap).map (3 + ·)
    let chans := (allChans.filter fun (c : ChanId) => !x.ch[c].enable).map fun c => 19 + c.val
    let ports := ((List.finRange 4).filter fun (p : Fin 4) => (neighbour s.fuses.variant t.val p.val).isNone).map fun p => 26 + p.val
    let sleep : List Nat := if s.sys.state = .sleepS1 then
        (List.range 31).filter fun i => !(decide (i ≤ 2) || (decide (19 ≤ i) && decide (i ≤ 22)) || i = 30
          || (i = 25 && s.sys.lead = some t))
      else []
    (head ++ ways ++ chans ++ ports ++ sleep).foldl (fun m i => bitOn m i) 0

/-- CLK_ (R619 to R622). -/
def State.readClk (s : State) (t : TileId) (off : Nat) : BitVec 32 :=
  let lead := s.sys.lead = some t
  match off with
  | 0x000 => packFields [(0, b2n s.clk.locked), (1, b2n s.clk.holdover), (2, b2n (s.clk.refclk.getLsbD t)), (3, b2n s.clk.compMode),
      (4, b2n s.clk.seeded), (8, s.clk.relocks.toNat)]
  | 0x004 => packFields [(0, (s.clk.gate[t] ||| s.heldDomains t).toNat)]
  | 0x008 => packFields [(0, (s.heldDomains t).toNat)]
  | 0x00C => if lead then s.aon.seconds else 0
  | 0x010 => if lead then s.clk.round else 0
  | _ => 0

/-- THM_ (R623 to R628). -/
def State.readThm (s : State) (t : TileId) (off : Nat) : BitVec 32 :=
  let x := s.tiles[t].thm
  let sensor (k : Nat) : Nat := if x.excluded.getLsbD k then 0x8000 else (x.sensor.toList.getD k 0).toNat
  if 0x010 ≤ off ∧ off < 0x028 then
    let k := (off - 0x010) / 4
    packFields [(0, sensor (2 * k)), (16, sensor (2 * k + 1))]
  else
    match off with
    | 0x000 => packFields [(0, x.max.toNat), (16, x.band.toNat), (19, b2n x.stale)]
    | 0x004 => if s.sys.lead = some t then packFields [(0, s.thm.ctrlMax.toNat), (16, s.thm.mediaMax.toNat)] else 0
    | 0x008 => packFields [(0, s.thm.imposed.toNat), (2, b2n s.thm.active), (3, b2n s.thm.trip), (4, x.hold.toNat),
        (8, s.thm.rounds.toNat)]
    | 0x00C => packFields [(0, s.thm.vcoreMv.toNat), (16, s.thm.vaonMv.toNat)]
    | 0x028 => packFields [(0, x.excluded.toNat)]
    | _ => 0

/-- The oldest and newest SEQ held; 0 when none is (R658). -/
def Evr.oldest (e : Evr) : Nat := (e.held.head?.map fun h => h.r.seq).getD 0
def Evr.newest (e : Evr) : Nat := (e.held.getLast?.map fun h => h.r.seq).getD 0

/-- The bytes of EVR_WIN (R634). -/
def Evr.window (e : Evr) : List Byte :=
  ((e.held.filter fun h => decide (e.cursor.toNat ≤ h.r.seq)).take 8).flatMap fun h => evBytes h.r

/-- EVR_ (R657 to R663), which the lead tile holds. -/
def Evr.read (e : Evr) (off : Nat) : BitVec 32 :=
  if 0x100 ≤ off ∧ off < 0x200 then BitVec.ofNat 32 (fieldAt e.window (off - 0x100) 4)
  else
    match off with
    | 0x000 => packFields [(0, e.held.length), (15, b2n (e.held.length = 16384)), (16, b2n e.flushRunning)]
    | 0x004 => word e.oldest 0
    | 0x008 => word e.oldest 1
    | 0x00C => word e.newest 0
    | 0x010 => word e.newest 1
    | 0x014 => packFields [(0, e.drops[(0 : Fin 4)].toNat), (16, e.drops[(1 : Fin 4)].toNat)]
    | 0x018 => packFields [(0, e.drops[(2 : Fin 4)].toNat), (16, e.drops[(3 : Fin 4)].toNat)]
    | 0x01C => packFields [(0, min 65535 (e.held.filter (!·.flushed)).length), (16, e.flushes.toNat)]
    | 0x024 => word e.cursor.toNat 0
    | 0x028 => word e.cursor.toNat 1
    | _ => 0

/-- BBX_ (R664 to R667), which the lead tile holds. -/
def State.readBbx (s : State) (off : Nat) : BitVec 32 :=
  let held := s.bbHeld
  let copy := s.bbx.media[s.lead]
  match off with
  | 0x000 => packFields [(0, held.length), (16, (held.filter fun e => e.2.kind = 1).length)]
  | 0x004 => BitVec.ofNat 32 s.bbMaxSeq
  | 0x008 => packFields [(0, s.bbNext.getD (s.bbx.pos % 1024)), (16, s.bbx.dropped.toNat)]
  | 0x00C => packFields [(0, copy.length), (11, b2n (held.any fun e => !(copy.any fun m => m.2.seq = e.2.seq)))]
  | _ => 0

/-- PMC_ (R668 to R671), which the lead tile holds. -/
def Pmc.read (p : Pmc) (off : Nat) : BitVec 32 :=
  match off with
  | 0x000 => packFields [(0, b2n p.frozen), (1, b2n p.ovfMsix), (2, b2n p.tagging)]
  | 0x004 => word p.edge.toNat 0
  | 0x008 => word p.edge.toNat 1
  | 0x00C => (p.ovf.map fun k => k / 8 % 32).foldl (fun m b => bitOn m b) 0
  | 0x010 => packFields [(0, p.samples.length), (13, b2n p.tagging), (14, b2n p.wrapped), (15, p.log2n.toNat), (20, p.heads.toNat)]
  | _ => 0

/-- CFL_STATUS.FETCH_EN (R412): the bank of the running slot; not while an operation runs in it, which Krytirnan's routine does
from TCM with the bit clear (DEDUCED, log 100). -/
def fetchBits (c : Cfl) : BitVec 2 :=
  c.fetchEn &&& ~~~(BitVec.ofNat 2 (b2n c.ops[(0 : Fin 2)].isSome + 2 * b2n c.ops[(1 : Fin 2)].isSome))

/-- CFL_ (R445 to R449). -/
def State.readCfl (s : State) (t : TileId) (off : Nat) : BitVec 32 :=
  let c := s.tiles[t].cfl
  let v := s.nv[t]
  let keys := (List.range 1025) ++ (List.range 1024).map fun k => 1025 + k
  match off with
  | 0x00 => packFields [(0, (fetchBits c).toNat), (2, b2n c.ops[(0 : Fin 2)].isSome), (3, b2n c.ops[(1 : Fin 2)].isSome),
      (4, b2n (c.ops.toList.any fun o => o.any (·.erasing))), (5, c.lastSector), (16, b2n c.samebank), (17, b2n c.supply),
      (18, b2n c.undef)]
  | 0x04 => packFields [(0, b2n c.aValid), (1, b2n c.bValid), (2, b2n c.aUndef), (3, b2n c.bUndef), (4, b2n c.inForceB),
      (5, b2n c.twinConflict), (6, b2n c.repaired)]
  | 0x08 => c.seqA
  | 0x0C => c.seqB
  | 0x10 => packFields [(0, c.mismatch.toNat), (4, c.rdp.toNat), (6, b2n s.fuses.rdpFuse)]
  | 0x14 => BitVec.ofNat 32 (((keys.filter (sectorDefined v)).map (erasesOf v)).foldl max 0)
  | _ => 0

/-- A password is set in the twin of page 3 (R431, R678). -/
def State.prmPwSet (s : State) : Bool := match (twinRead (s.prmPage 3)).1 with
  | some c => c.any (· ≠ 0)
  | none => false

/-- PRM_ (R450 to R452), which the lead tile holds. -/
def State.readPrm (s : State) (off : Nat) : BitVec 32 :=
  let p := s.prm
  match off with
  | 0x00 => packFields [(0, p.bp.toNat), (2, b2n s.prmPwSet), (3, b2n p.unlocked), (4, p.tries.toNat), (7, b2n (p.queue ≠ [])),
      (8, p.sbSupplyRefused.toNat), (16, p.sbProtectHits.toNat)]
  | 0x04 => packFields [(0, p.bp.toNat)]
  | 0x08 => word (s.ladder 4).1 0
  | 0x0C => word (s.ladder 6).1 0
  | 0x10 => word (s.ladder 8).1 0
  | 0x14 => word (s.ladder 10).1 0
  | _ => 0

/-- SEC_ (R691 to R693), which the lead tile holds. -/
def State.readSec (s : State) (off : Nat) : BitVec 32 :=
  let k := ((keySetOf s.nv[s.lead]).1).getD {}
  let rdp := s.tiles[s.lead].cfl.rdp
  let fw := s.runningFw s.lead
  match off with
  | 0x000 => packFields [(0, b2n k.userPw.isSome), (1, b2n k.masterPw.isSome), (2, b2n s.sec.locked), (3, b2n s.sec.frozen),
      (4, b2n (s.sec.userTries = 0)), (5, b2n (s.sec.masterTries = 0)), (8, s.sec.userTries.toNat), (12, s.sec.masterTries.toNat),
      (16, rdp.toNat), (18, rdp.toNat)]
  | 0x004 => packFields [(0, k.gen.toNat % 2 ^ 16), (16, b2n k.pending), (17, k.kind.toNat), (20, b2n s.sec.conflict),
      (24, s.sec.erases.toNat)]
  | 0x008 => packFields [(0, (fw.map FwImage.secVersion).getD 0 % 2 ^ 16), (16, (fw.map FwImage.keySlot).getD 0 % 4),
      (20, s.fuses.revoked.toNat), (24, s.fuses.programmed.toNat)]
  | _ => 0

/-- The code of a package reset's cause (R382). -/
def ResetCause.code : ResetCause → Nat
  | .powerOn => 1
  | .pkgResetPin => 2
  | .brownoutReturn => 3
  | .railSystemReset => 4
  | .recoveryRestart => 5

/-- CFG_DEVICE_STATE (R53). -/
def State.deviceState (s : State) : BitVec 32 :=
  packFields [(0, s.sys.state.code), (4, s.sys.prev.code), (8, b2n s.sys.memActive), (9, b2n (s.sys.mbReady && s.sys.state ≠ .flushing)),
    (10, b2n s.sys.postedCert), (16, s.sys.degrade.toNat), (24, s.sys.failCause.code)]

/-- CFG_TILE_MAP (R54). -/
def State.tileMap (s : State) : BitVec 32 :=
  packFields [(0, (fittedMask s.fuses.variant).toNat), (8, s.sys.selftestPass.toNat), (16, s.sys.inService.toNat),
    (24, (s.sys.lead.map (·.val)).getD 7), (27, b2n (s.fuses.variant = .yd4871g)), (28, b2n s.sys.rescueLead)]

/-- CFG_ of the lead tile (R53 to R55, R141 to R144, R404 to R406). -/
def State.readCfgLead (s : State) (off : Nat) : BitVec 32 :=
  let r := s.cfg.record
  let b := s.boot
  let units := s.svcTiles.flatMap fun (t : TileId) => (List.range s.unitsPerTile).map (t, ·)
  match off with
  | 0x000 => s.deviceState
  | 0x004 => s.tileMap
  | 0x008 => packFields [(0, s.sys.changes.toNat)]
  | 0x010 => packFields [(0, recT r), (4, b2n (recC r = 4)), (8, fieldAt r 18 3)]
  | 0x014 => packFields [(0, s.capacity / 2 ^ 28), (16, sliceRows r)]
  | 0x018 => word (s.ladder 12).1 0
  | 0x01C =>
    let used := units.map fun x => (s.tiles[x.1].pl.remap.filter fun e => e.unit = x.2).length
    let out := (units.filter fun x => poolEmpty s.tiles[x.1].pl x.2).length
    packFields [(0, used.foldl max 0), (8, b2n (out ≠ 0)), (16, out)]
  | 0x020 => packFields [(0, b.cause.code), (8, b2n b.flushDone), (16, b.warmResets.toNat)]
  | 0x024 => packFields [(0, b.slot.toNat), (2, b2n b.fallback), (3, b2n b.trial), (4, b2n b.recovery), (8, b.holdReason.toNat),
      (12, b.phase.toNat), (16, b.activeMs.toNat)]
  | 0x028 => packFields [(0, b.replayMs.toNat), (16, b.refolded.toNat)]
  | _ => 0

/-- CFG_, with CFG_SRAM_ERR in every tile (R272). -/
def State.readCfg (s : State) (t : TileId) (off : Nat) : BitVec 32 :=
  let i := s.tiles[t].it
  if off = 0x040 then packFields [(0, i.corrected.toNat), (16, i.uncorrected.toNat), (24, i.addressErr.toNat)]
  else if s.sys.lead = some t then s.readCfgLead off else 0

/-- One vendor register (R377). Registers that a statement places in the lead tile read as zero in the others; offsets that no
statement assigns read as zero. -/
def State.readReg (s : State) (t : TileId) (block off : Nat) : BitVec 32 :=
  let lead (v : BitVec 32) : BitVec 32 := if s.sys.lead = some t then v else 0
  match block with
  | 0x01 => s.readHdc t off
  | 0x02 => s.readCch t off
  | 0x03 => s.readStg t off
  | 0x04 => s.readFld t off
  | 0x05 => s.readDkr t off
  | 0x06 => s.readGtb t off
  | 0x07 => s.readMch t off
  | 0x08 => s.readPtl t off
  | 0x09 => s.readWdr t off
  | 0x0A => s.readMsh off
  | 0x0B => s.readPwr t off
  | 0x0C => s.readSeq off
  | 0x0D => s.readHld off
  | 0x0E => s.readClk t off
  | 0x0F => s.readThm t off
  | 0x10 => lead (s.evr.read off)
  | 0x11 => lead (s.readBbx off)
  | 0x12 => lead (s.pmc.read off)
  | 0x13 => s.readCfl t off
  | 0x14 => lead (s.readPrm off)
  | 0x15 => lead (s.readSec off)
  | 0x16 => s.readCfg t off
  | _ => 0

/-! ### Writes (R15, R379) -/

/-- A register whose flags a write of ones clears. -/
def clearOnes {w : Nat} (x : BitVec w) (v : BitVec 32) : BitVec w := x &&& ~~~ (BitVec.ofNat w v.toNat)

/-- The registers that host software may write (R98, R219, R444, R488, R529, R575, R656), each field under its access code; every
other write is discarded. -/
def State.writeReg (s : State) (t : TileId) (block off : Nat) (v : BitVec 32) : State :=
  match block, off with
  | 0x01, 0x104 => if v.getLsbD 31 then s.modHead t fun x => { x with latMax := 0 } else s
  | 0x07, _ =>
    if off % 0x100 = 0x18 ∧ off < 0x400 then
      s.modCh t (toChan (off / 0x100)) fun k => { k with errFlags := clearOnes k.errFlags v }
    else s
  | 0x09, _ =>
    if off % 0x20 = 0x08 ∧ off < 0x80 then
      s.modLink (.widar t (toChan (off / 0x20))) fun k => { k with flags := clearOnes k.flags v }
    else s
  | 0x0A, 0x014 => if v.getLsbD 31 then { s with mesh := { s.mesh with ackMax := 0 } } else s
  | 0x0A, _ =>
    if off % 0x10 = 0x8 ∧ 0x040 ≤ off ∧ off < 0x080 then
      s.modLink (.peer (toChan ((off - 0x040) / 0x10))) fun k => { k with flags := clearOnes k.flags v }
    else s
  | 0x0C, 0x004 => { s with seq := { s.seq with fault := clearOnes s.seq.fault v } }
  | 0x10, 0x020 => if s.sys.lead = some t && v.getLsbD 0 then { s with evr := { s.evr with drops := .replicate 4 0 } } else s
  | 0x10, 0x024 =>
    if s.sys.lead = some t then { s with evr := { s.evr with
      cursor := BitVec.ofNat 48 (s.evr.cursor.toNat / 2 ^ 32 * 2 ^ 32 + v.toNat) } } else s
  | 0x10, 0x028 =>
    if s.sys.lead = some t then { s with evr := { s.evr with
      cursor := BitVec.ofNat 48 (s.evr.cursor.toNat % 2 ^ 32 + v.toNat % 2 ^ 16 * 2 ^ 32) } } else s
  | 0x12, 0x000 => if s.sys.lead = some t then { s with pmc := { s.pmc with ovfMsix := v.getLsbD 1 } } else s
  | 0x13, 0x00 =>
    s.modCfl t fun c => { c with
      samebank := c.samebank && !v.getLsbD 16, supply := c.supply && !v.getLsbD 17, undef := c.undef && !v.getLsbD 18 }
  | _, _ => s

end Sys2Proof.Machine
end

