-- ==== Sys2Proof/Machine/HostSpace.lean ====
section
/-! DEFINITION. What a host addresses directly at a head (R47, R306, R325, R327, R331, R333, R334): configuration space, BAR0
and BAR2. The spec names the capabilities, the two BARs and the blocks of BAR0; their inner layouts are those of PCIe 6.x and
CXL 3.1 (PRESUMED), and their places in configuration space, in the CXL.cachemem area and in BAR2 are a DESIGN CHOICE (log 96). -/

namespace Sys2Proof.Machine

/-- A dword of which the bits in the mask have this value; its other bits are open. -/
abbrev Known := BitVec 32 × BitVec 32

def Known.all (v : Nat) : Known := (BitVec.allOnes 32, BitVec.ofNat 32 v)
def Known.some (mask v : Nat) : Known := (BitVec.ofNat 32 mask, BitVec.ofNat 32 v)
/-- A dword that no rule fixes. -/
def Known.open : Known := (0, 0)

/-! ### Configuration space (R306, R323, R325, R331, R333) -/

/-- The Device ID (R306). -/
def deviceId : Variant → Nat
  | .yd4820 => 0x4820 | .yd4840 => 0x4840 | .yd4880 => 0x4880 | .yd4871g => 0x4871

/-- A configuration dword as it was last written; 0 where it was not. -/
def Head.cfgWord (x : Head) (o : Nat) : Nat := ((tabGet x.config (o / 4)).getD 0).toNat

/-- The capabilities below 0x100 with their lengths (R331): PCI Express, Power Management, MSI-X. -/
def stdCaps : List (Nat × Nat × Nat) := [(0x40, 0x10, 0x3C), (0x80, 0x01, 0x08), (0x90, 0x11, 0x0C)]

/-- The extended capabilities (R331) as offset, ID, version and length: AER, Device Serial Number, Data Link Feature, Physical
Layer 16, 32 and 64 GT/s, Flit Logging, DOE (R328), and the DVSECs for CXL Devices, GPF, Flex Bus Port and Register Locator. -/
def extCaps : List (Nat × Nat × Nat × Nat) :=
  [(0x100, 0x01, 2, 0x48), (0x150, 0x03, 1, 0x0C), (0x160, 0x25, 1, 0x0C), (0x170, 0x26, 1, 0x30), (0x1A0, 0x2A, 1, 0x24),
   (0x1D0, 0x31, 1, 0x14), (0x1F0, 0x32, 1, 0x40), (0x240, 0x2E, 2, 0x18), (0x260, 0x23, 1, 0x3C), (0x2A0, 0x23, 1, 0x10),
   (0x2C0, 0x23, 1, 0x20), (0x2E0, 0x23, 1, 0x24)]

/-- The DVSECs: offset, DVSEC ID and revision. -/
def dvsecs : List (Nat × Nat × Nat) := [(0x260, 0, 3), (0x2A0, 5, 0), (0x2C0, 7, 2), (0x2E0, 8, 0)]

/-- Whether an offset lies inside a capability. -/
def inCap (o : Nat) : Bool :=
  stdCaps.any (fun c => decide (c.1 ≤ o ∧ o < c.1 + c.2.2)) || extCaps.any fun c => decide (c.1 ≤ o ∧ o < c.1 + c.2.2.2)

/-- The header of an extended capability, whose next pointer leads to the one that follows it. -/
def extHeader (o : Nat) : Option Nat :=
  (extCaps.find? fun c => c.1 = o).map fun c =>
    c.2.1 + 2 ^ 16 * c.2.2.1 + 2 ^ 20 * ((extCaps.find? fun d => decide (c.1 < d.1)).map (·.1)).getD 0

/-- The first header of a DVSEC: CXL's vendor ID, revision and length. -/
def dvsecHeader (o : Nat) : Option Nat :=
  (dvsecs.find? fun d => d.1 + 4 = o).map fun d =>
    0x1E98 + 2 ^ 16 * d.2.2 + 2 ^ 20 * ((extCaps.find? fun c => c.1 = d.1).map (·.2.2.2)).getD 0

/-- The blocks that the Register Locator names (R333): component registers, device registers, and the vendor block 0xFF. The
entry of CXL holds an offset in steps of 64 KiB: of 0x1_2000 it has no place for the low bits. -/
def locatorBlocks : List (Nat × Nat) := [(0x00000, 0x01), (0x10000, 0x03), (0x12000, 0xFF)]

/-- GPF Phase 2 power in mW (R323, and 18 under "Power"). -/
def gpfPower : Variant → Nat
  | .yd4820 => 82000 | .yd4840 => 162000 | .yd4880 => 322000 | .yd4871g => 282000

/-- The dwords of the CXL DVSECs and of the Device Serial Number (R26, R306, R323, R325, R333). -/
def State.dvsecWord (s : State) (h : TileId) (o : Nat) : Option Known :=
  let serial := s.fuses.serials[s.lead].toNat
  let size := recRegLen s.cfg.record 8
  match o with
  | 0x154 => some (.all (serial % 2 ^ 32))
  | 0x158 => some (.all (serial / 2 ^ 32))
  -- CXL Capability: CXL.io, CXL.mem, HDM_Count 1, CXL Reset; no cache, Mem_HwInit_Mode, Memory Clear, MLD or Viral
  | 0x268 => some (.some (0x68BF * 2 ^ 16 + 0xFFFF) (0x0096 * 2 ^ 16))
  | 0x278 => some (.all (size / 2 ^ 32))
  | 0x27C => some (.some 0xF000E002 (size / 2 ^ 28 % 16 * 2 ^ 28 + 4 * 2 ^ 13 + 2 * b2n s.heads[h].memActive))
  | 0x288 => some (.all 0)
  | 0x28C => some (.some 0xF0000000 0)
  | 0x2A8 => some (.all (5 + 0x0302 * 2 ^ 16))
  | 0x2AC => some (.all (gpfPower s.fuses.variant))
  | 0x2C8 => some (.some 0xFFFF 7)
  | 0x2E8 => some (.all 8)
  | _ =>
    if 0x2EC ≤ o ∧ o < 0x304 then
      let b := locatorBlocks.getD ((o - 0x2EC) / 8) (0, 0)
      some (.all (if (o - 0x2EC) % 8 = 0 then b.1 / 2 ^ 16 * 2 ^ 16 + 2 ^ 8 * b.2 else 0))
    else none

/-- A dword of configuration space as far as it is known. Outside the capabilities what is not listed reads as zero. -/
def State.configKnown (s : State) (h : TileId) (o : Nat) : Known :=
  let x := s.heads[h]
  let vid := Config.vendorId.toNat
  let did := deviceId s.fuses.variant
  let sub (k d : Nat) : Nat := if fieldAt s.cfg.record k 2 = 0 then d else fieldAt s.cfg.record k 2
  match o with
  | 0x00 => .all (did * 2 ^ 16 + vid)
  -- Command: memory space, bus master, parity and SERR enables; Status: a capability list
  | 0x04 => .some 0x001FFFFF (2 ^ 20 + (x.cfgWord 4 &&& 0x0146))
  | 0x08 => .all (0x050210 * 2 ^ 8 + Config.revision.toNat)
  | 0x0C => .all (x.cfgWord 0x0C % 2 ^ 8)
  | 0x10 => .all (x.cfgWord 0x10 / 2 ^ 19 * 2 ^ 19 + 4)
  | 0x14 => .all (x.cfgWord 0x14)
  | 0x18 => .all (x.cfgWord 0x18 / 2 ^ 12 * 2 ^ 12 + 4)
  | 0x1C => .all (x.cfgWord 0x1C)
  | 0x2C => .all (sub 26 did * 2 ^ 16 + sub 24 vid)
  | 0x34 => .all 0x40
  | 0x3C => .all (x.cfgWord 0x3C % 2 ^ 8)
  | 0x40 => .some 0xC1FFFFFF 0x00028010
  | 0x44 => .some 0x10000007 0x10000001
  | 0x80 => .some 0x0600FFFF 0x9001
  | 0x84 => .some 3 (if x.d3hot then 3 else 0)
  -- MSI-X: 16 vectors, table and pending bits in BAR2
  | 0x90 => .all (0x11 + 15 * 2 ^ 16 + x.cfgWord 0x90 / 2 ^ 30 * 2 ^ 30)
  | 0x94 => .all 0x002
  | 0x98 => .all 0x802
  | _ =>
    match extHeader o with
    | some v => .all v
    | none => match dvsecHeader o with
      | some v => .all v
      | none => match s.dvsecWord h o with
        | some k => k
        | none => if inCap o then .open else .all 0

/-- A configuration dword that is known whole. -/
def State.configWord (s : State) (h : TileId) (o : Nat) : Option (BitVec 32) :=
  let k := s.configKnown h o
  if k.1 = BitVec.allOnes 32 then some k.2 else none

/-! ### BAR0 (R317, R325, R326, R333, R334, R340 to R344, R349) -/

/-- A register of an HDM decoder (R317). -/
def decoderWord (d : Decoder) (o : Nat) : Known :=
  match o with
  | 0x00 => .all (d.base / 2 ^ 28 % 16 * 2 ^ 28)
  | 0x04 => .all (d.base / 2 ^ 32)
  | 0x08 => .all (d.size / 2 ^ 28 % 16 * 2 ^ 28)
  | 0x0C => .all (d.size / 2 ^ 32)
  | 0x10 => .some 0xFFF (d.gran.log2 - 8 + 2 ^ 4 * d.ways.log2 + 2 ^ 8 * b2n d.lock + 2 ^ 9 * b2n (d.committed || d.err)
      + 2 ^ 10 * b2n d.committed + 2 ^ 11 * b2n d.err)
  | 0x14 => .all (d.skip / 2 ^ 28 % 16 * 2 ^ 28)
  | 0x18 => .all (d.skip / 2 ^ 32)
  | _ => .all 0

/-- The CXL.cachemem capabilities: RAS, Link, HDM Decoder and IDE. -/
def Head.componentWord (x : Head) (o : Nat) : Known :=
  let caps : List (Nat × Nat) := [(2, 0x200), (4, 0x300), (5, 0x100), (7, 0x400)]
  if o < 0x1000 then .all 0
  else if o = 0x1000 then .some 0xFF00FFFF (1 + 4 * 2 ^ 24)
  else if o < 0x1014 then
    let c := caps.getD ((o - 0x1004) / 4) (0, 0)
    .some 0xFFF0FFFF (c.1 + 2 ^ 20 * c.2)
  -- 4 decoders; granularities up to 16 KiB; no 3-, 6-, 12- or 16-way interleave
  else if o = 0x1100 then .some 0x1BFF 0x0302
  else if o = 0x1104 then .open
  else if 0x1110 ≤ o ∧ o < 0x1190 then decoderWord (x.decoders.toList.getD ((o - 0x1110) / 0x20) {}) ((o - 0x1110) % 0x20)
  else if 0x1200 ≤ o ∧ o < 0x1500 then .open
  else .all 0

/-- Media Status, Mailbox Interface Ready and Reset Needed of a device state (R325). -/
def DevState.mediaStatus (d : DevState) : Nat × Bool × Nat :=
  match d with
  | .boot => (0, false, 0)
  | .mediaInit => (0, true, 0)
  | .replay => (0, true, 0)
  | .configHold => (3, true, 0)
  | .active => (1, true, 0)
  | .degraded => (1, true, 0)
  | .sleepS1 => (0, true, 0)
  | .sleepS2 => (0, true, 0)
  | .sleepS3 => (0, true, 0)
  | .flushing => (0, false, 0)
  | .failed => (2, true, 1)

/-- The device capabilities array, Device Status and Memory Device Status. -/
def State.deviceWord (s : State) (h : TileId) (o : Nat) : Known :=
  let caps : List (Nat × Nat × Nat) := [(1, 0x80, 8), (2, 0x10000, 65568), (3, 0x30000, 65568), (0x4000, 0x1000, 8)]
  if o = 0 then .all (2 ^ 16 + 2 ^ 24)
  else if o = 4 then .all 4
  else if 0x10 ≤ o ∧ o < 0x50 then
    let c := caps.getD ((o - 0x10) / 16) (0, 0, 0)
    match (o - 0x10) % 16 with
    | 0 => .some 0xFF00FFFF c.1
    | 4 => .all c.2.1
    | 8 => .all c.2.2
    | _ => .all 0
  else if o = 0x80 then
    .all (((List.finRange 5).filter fun k => s.heads[h].logs[k].recs ≠ []).foldl (fun v k => v + 2 ^ k.val) 0)
  else if o = 0x1000 then
    let m := s.sys.state.mediaStatus
    .some 0xFFFFFFFC (4 * m.1 + 16 * b2n m.2.1 + 32 * m.2.2)
  else .all 0

/-- The vendor page (R334): the registers that it lists, as Read Vendor Register gives them. -/
def State.vendorPage (s : State) (h : TileId) (o : Nat) : BitVec 32 :=
  match o with
  | 0x000 => s.readReg s.lead 0x16 0x000
  | 0x004 => s.readReg s.lead 0x16 0x004
  | 0x008 => s.readReg s.lead 0x16 0x008
  | 0x010 => s.readReg h 0x01 0x000
  | 0x014 => s.readReg h 0x01 0x004
  | 0x018 => s.readReg h 0x01 0x008
  | 0x01C => s.readReg h 0x01 0x00C
  | 0x020 => s.readReg h 0x01 0x100
  | 0x024 => s.readReg h 0x01 0x104
  | _ => 0

/-- The registers of a mailbox and its payload (R340, R341, R343, R344, R349). -/
def mailboxWord (b : Mailbox) (secondary : Bool) (o : Nat) : Known :=
  match o with
  | 0x00 => .some 0x7FF (16 + 2 ^ 5 + 2 ^ 6 * b2n (!secondary))
  | 0x04 => .all (b2n b.doorbell + 2 * b2n b.irq + 4 * b2n b.bgIrq)
  | 0x08 => if b.doorbell then .open else .some 0xFFFF0000 (b.output.length % 2 ^ 16 * 2 ^ 16)
  | 0x0C => if b.doorbell then .open else .all (b.output.length / 2 ^ 16)
  | 0x10 => .all (b2n b.bgActive)
  | 0x14 => .all (b.status.toNat + 2 ^ 16 * b.ext.toNat)
  | 0x18 => .all (b.bgOpcode.toNat + 2 ^ 16 * b.bgPercent.toNat)
  | 0x1C => .all (b.bgStatus.toNat + 2 ^ 16 * b.bgExt.toNat)
  | _ => if o - 0x20 + 4 ≤ b.output.length then .all (fieldAt b.output (o - 0x20) 4) else .open

/-- A dword of BAR0 (R333). -/
def State.bar0Word (s : State) (h : TileId) (o : Nat) : Known :=
  let x := s.heads[h]
  if o < 0x10000 then x.componentWord o
  else if o < 0x12000 then s.deviceWord h (o - 0x10000)
  else if o < 0x13000 then .all (s.vendorPage h (o - 0x12000)).toNat
  else if 0x20000 ≤ o ∧ o < 0x30020 then mailboxWord x.mb[0] false (o - 0x20000)
  else if 0x40000 ≤ o ∧ o < 0x50020 then mailboxWord x.mb[1] true (o - 0x40000)
  else .all 0

/-! ### BAR2 (R327, R333) -/

/-- A dword of BAR2: the MSI-X table of 16 vectors and, at 0x800, the pending bits. -/
def Head.bar2Word (x : Head) (o : Nat) : Known :=
  if o < 0x100 then .all (x.vectorWord (o / 4)).toNat
  else if o = 0x800 then .all x.pba.toNat
  else .all 0

/-! ### Requests -/

/-- A write to a BAR. Of BAR0 the interrupt enables of the mailboxes are written here; the doorbell, the command and the payload
come with MAILBOX_DOORBELL and a decoder with HDM_DECODER_COMMIT. In BAR2 reserved bits of the table stay zero. -/
def Head.barWrite (x : Head) (space : HostSpace) (o : Nat) (v : BitVec 32) : Head :=
  let irqs (b : Mailbox) : Mailbox := { b with irq := v.getLsbD 1, bgIrq := v.getLsbD 2 }
  match space with
  | .config => x
  | .bar0 =>
    if o = 0x20004 then { x with mb := vmod x.mb 0 irqs }
    else if o = 0x40004 then { x with mb := vmod x.mb 1 irqs } else x
  | .bar2 =>
    if o < 0x100 then
      let keep : BitVec 32 := if o / 4 % 4 = 0 then 0xFFFFFFFC else if o / 4 % 4 = 3 then 1 else 0xFFFFFFFF
      { x with vectors := tabPut x.vectors (o / 4) (v &&& keep) }.sendPending
    else x

/-- The data of a read: what is known of the dword; its open bits are free. -/
def State.readKnown (s : State) (k : Known) : BitVec 32 × State :=
  if k.1 = BitVec.allOnes 32 then (k.2, s)
  else
    let (v, s) := s.draw
    ((BitVec.ofNat 32 v &&& ~~~ k.1) ||| (k.2 &&& k.1), s)

/-- A BAR answers: the function is in D0 and its memory space is enabled (R331, R334). -/
def Head.barOn (x : Head) : Bool := !x.d3hot && (x.cfgWord 4).testBit 1

/-- CONFIG_REQUEST (R47, R331, R333, R334): before the mailbox is ready a configuration request receives Request Retry Status and a BAR
cannot be reached; then the request is served. -/
def execConfigRequest (h : TileId) (write : Bool) (at_ : HostAddr) (value : BitVec 32) (s : State) :
    Host.Outcome State Fault Refusal :=
  let o := at_.offset / 4 * 4
  if s.heads[h].speed = 0 then .next s
  else if at_.space ≠ .config ∧ (!s.sys.mbReady ∨ !s.heads[h].barOn) then .next s
  else if !s.sys.mbReady then .next (s.modHead h fun x => { x with cfgRetry := true })
  else if write then
    .next (s.modHead h fun x =>
      if at_.space = .config then { x with cfgRetry := false, config := tabPut x.config (at_.offset / 4) value }.sendPending
      else x.barWrite at_.space o value)
  else
    let (v, s) := s.readKnown (match at_.space with
      | .config => s.configKnown h o
      | .bar0 => s.bar0Word h o
      | .bar2 => s.heads[h].bar2Word o)
    .next (s.modHead h fun x => { x with cfgRetry := false, cfgData := v })

end Sys2Proof.Machine
end

