-- ==== Sys2Proof/Machine/Mailbox.lean ====
section
/-! DEFINITION. The mailbox service (09): taking a command and judging it (R340 to R348), and the standard commands that describe the
part, its logs, its health and its interrupts (R353). Payload layouts of standard commands are those of CXL 3.1 (PRESUMED). -/

namespace Sys2Proof.Machine

/-! ### Taking and judging a command -/

/-- Legality of a command in a device state (R380): it executes, returns Busy, or returns Invalid Input. -/
inductive Legal where
  | y | b | i
deriving DecidableEq, Repr

/-- A row of R380: MEDIA_INIT, CONFIG_HOLD, REPLAY, ACTIVE and DEGRADED, SLEEP_S1 and S2, FAILED; `s3`: it also executes in
SLEEP_S3. -/
structure StateRule where
  mi : Legal
  ch : Legal
  rp : Legal
  ac : Legal
  sl : Legal
  fl : Legal
  s3 : Bool := false
deriving DecidableEq, Repr

def StateRule.judge (r : StateRule) : DevState → Legal
  | .mediaInit => r.mi
  | .configHold => r.ch
  | .replay => r.rp
  | .active => r.ac
  | .degraded => r.ac
  | .sleepS1 => r.sl
  | .sleepS2 => r.sl
  | .sleepS3 => if r.s3 then .y else .b
  | .failed => r.fl
  | .boot => .b
  | .flushing => .b

/-- The rows of R380, named by the first command of each. -/
def StateRule.identify : StateRule := ⟨.y, .y, .y, .y, .y, .y, false⟩
def StateRule.tileStatus : StateRule := ⟨.y, .y, .y, .y, .y, .y, true⟩
def StateRule.setAlert : StateRule := ⟨.y, .y, .y, .y, .y, .i, false⟩
def StateRule.setShutdown : StateRule := ⟨.b, .y, .b, .y, .y, .i, false⟩
def StateRule.poisonList : StateRule := ⟨.b, .i, .b, .y, .y, .y, false⟩
def StateRule.injectPoison : StateRule := ⟨.b, .i, .b, .y, .i, .i, false⟩
def StateRule.setPassphrase : StateRule := ⟨.b, .y, .b, .y, .i, .i, false⟩
def StateRule.capacity : StateRule := ⟨.b, .b, .b, .y, .b, .b, false⟩
def StateRule.loadConfig : StateRule := ⟨.b, .y, .b, .y, .i, .y, false⟩
def StateRule.setPower : StateRule := ⟨.b, .b, .b, .y, .y, .i, true⟩

/-- The sideband endpoint is a management head; a head is one where its MGMT_HEADS bit is 1 (R308). -/
def State.isMgmt (s : State) : Iface → Bool
  | .head h _ => s.mgmtHeads.getLsbD h
  | .mctp => true

def Iface.isSecondary : Iface → Bool
  | .head _ sec => sec
  | .mctp => false

/-- The extended status that names the device state (R344). -/
def State.inState (s : State) : Nat := 0x110 + s.sys.state.code

/-- The commands that the ROM recovery loader executes (R388). -/
def recoveryOps : List Nat := [0x0001, 0x0002, 0x0200, 0x0201, 0x0202, 0xC001, 0xC030, 0xC031]

/-- The checks of R342 before the lengths; none where the command passes. In FLUSHING, and while the RDP_ERASE mark is set (R373),
every command is Busy. -/
def State.cmdCheck (s : State) (m : Iface) (op : Nat) (mgmt bg : Bool) (r : StateRule) : Option (Ret × Nat) :=
  if s.sys.state = .flushing || s.svc.rdpPending then some (.busy, s.inState)
  else if mgmt && !s.isMgmt m then some (.unsupported, 0x120)
  else if bg && Iface.isSecondary m then some (.wrongMailbox, 0)
  else if s.boot.recovery && !recoveryOps.contains op then some (.invalidInput, 0x11A)
  else match r.judge s.sys.state with
    | .y => none
    | .b => some (.busy, s.inState)
    | .i => some (.invalidInput, s.inState)

/-- The input of the command with an opcode that waits at a mailbox, when the lead Stag can take it: it handles one command at a
time, and the mailboxes in a round (R27, R341). -/
def State.taken (s : State) (m : Iface) (op : Nat) : Option (List Byte) :=
  if s.svc.waiting.isSome || s.sys.lead.isNone || s.nextMb ≠ some m then none
  else match (s.mbox m).cmd with
    | some c => if c.opcode.toNat = op then some c.input else none
    | none => none

/-- A command is taken, judged in the order of R342, and runs. `lenOk`: the length rules of R346 hold for its input. Without such a
command the state stays. -/
def State.command (s : State) (m : Iface) (op : Nat) (r : StateRule) (lenOk : List Byte → Bool)
    (run : List Byte → State → State) (mgmt : Bool := false) (bg : Bool := false) : Host.Outcome State Fault Refusal :=
  match s.taken m op with
  | none => .next s
  | some inp =>
    match s.cmdCheck m op mgmt bg r with
    | some e => .next (s.mbFinish m e.1 e.2)
    | none =>
      if inp.length > 65536 || !lenOk inp then .next (s.mbFinish m .payloadLength) else .next (run inp s)

/-- A fixed input length. -/
def lenIs (n : Nat) (inp : List Byte) : Bool := inp.length = n

/-- An output is posted with Success, unless it exceeds the response limit (R346). -/
def State.reply (s : State) (m : Iface) (out : List Byte) : State :=
  if out.length > (s.mbox m).limit then s.mbFinish m .payloadLength else s.mbFinish m .success 0 out

/-- Bytes of a layout given as (length, value) pairs in order. -/
def lay (fs : List (Nat × Nat)) : List Byte := fs.flatMap fun f => leBytes f.1 f.2

/-- The all-ones value of a field of `n` bytes (R346). -/
def allOnes (n v : Nat) : Bool := v = 256 ^ n - 1

/-- MAILBOX_DOORBELL (R341): the host has written a command and rings; the command waits for the lead Stag. -/
def execMailboxDoorbell (m : Iface) (opcode : BitVec 16) (input : List Byte) (s : State) : Host.Outcome State Fault Refusal :=
  match m with
  | .mctp => .next s
  | .head h _ =>
    if s.heads[h].speed = 0 || s.heads[h].d3hot || !s.sys.mbReady || !s.inSvc h || (s.mbox m).doorbell then .next s
    else .next (s.modMb m fun b => { b with doorbell := true, cmd := some { opcode := opcode, input := input } })

/-! ### Opcodes -/

/-- The opcodes of R353 and R354. -/
def opcodes : List Nat :=
  [0x0001, 0x0002, 0x0003, 0x0004, 0x0005, 0x0100, 0x0101, 0x0102, 0x0103, 0x0104, 0x0105, 0x0200, 0x0201, 0x0202, 0x0300, 0x0301,
   0x0400, 0x0401, 0x0500, 0x4000, 0x4100, 0x4102, 0x4103, 0x4200, 0x4201, 0x4202, 0x4203, 0x4204, 0x4300, 0x4301, 0x4302, 0x4303,
   0x4304, 0x4305, 0x4400, 0x4401] ++
  [0x4500, 0x4501, 0x4502, 0x4503, 0x4504, 0x4505, 0x4800, 0x4801, 0x4802, 0x4803, 0x5600, 0x5601, 0x5602, 0x5603, 0x5604, 0x5605,
   0xC001, 0xC010, 0xC011, 0xC012, 0xC020, 0xC021, 0xC030, 0xC031, 0xC040, 0xC041, 0xC050, 0xC051, 0xC052, 0xC060, 0xC061, 0xC062,
   0xC070, 0xC071, 0xC072, 0xC080, 0xC090, 0xC091, 0xC0A0, 0xC0B0, 0xC0C0, 0xC0C1]

/-- An interface supports an opcode: the MCTP event policies are for the sideband endpoint only, the FM API for management heads
(R353). -/
def State.supports (_s : State) (m : Iface) (op : Nat) : Bool :=
  opcodes.contains op && !((op = 0x0104 || op = 0x0105) && m ≠ .mctp)

/-- UNSUPPORTED_COMMAND (R342, R353): the command that waits has an opcode that the interface does not support. -/
def execUnsupportedCommand (m : Iface) (s : State) : Host.Outcome State Fault Refusal :=
  if s.svc.waiting.isSome || s.sys.lead.isNone || s.nextMb ≠ some m then .next s
  else match (s.mbox m).cmd with
    | none => .next s
    | some c =>
      if s.supports m c.opcode.toNat then .next s
      else if s.sys.state = .flushing || s.svc.rdpPending then .next (s.mbFinish m .busy s.inState)
      else .next (s.mbFinish m .unsupported)

/-! ### Information and background status -/

/-- IDENTIFY (R306, R353): vendor, device and subsystem numbers, serial number, message limit and component type. -/
def execIdentify (m : Iface) (s : State) : Host.Outcome State Fault Refusal :=
  s.command m 0x0001 .identify (lenIs 0) fun _ s =>
    let vid := Config.vendorId.toNat
    let did := deviceId s.fuses.variant
    let sub (o d : Nat) : Nat := if fieldAt s.cfg.record o 2 = 0 then d else fieldAt s.cfg.record o 2
    s.reply m (lay [(2, vid), (2, did), (2, sub 24 vid), (2, sub 26 did), (8, s.fuses.serials[s.lead].toNat), (1, 16), (1, 3)])

/-- BACKGROUND_OPERATION_STATUS (R349): the running or last background operation of this mailbox. How far a running one has come by
now is a free value, never below what was reported before. -/
def execBackgroundOperationStatus (m : Iface) (s : State) : Host.Outcome State Fault Refusal :=
  s.command m 0x0002 .identify (lenIs 0) fun _ s =>
    let (v, s) := s.draw
    let s := s.modMb m fun x =>
      { x with bgPercent := if x.bgActive then BitVec.ofNat 7 (max x.bgPercent.toNat (v % 100)) else x.bgPercent }
    let b := s.mbox m
    s.reply m (lay [(1, b2n b.bgActive + 2 * b.bgPercent.toNat), (1, 0), (2, b.bgOpcode.toNat), (2, b.bgStatus.toNat),
      (2, b.bgExt.toNat)])

/-- The power of two that a limit is. -/
def log2Limit (n : Nat) : Nat := ((List.range 17).find? fun k => 2 ^ k = n).getD 16

/-- GET_RESPONSE_MESSAGE_LIMIT (R353). -/
def execGetResponseMessageLimit (m : Iface) (s : State) : Host.Outcome State Fault Refusal :=
  s.command m 0x0003 .identify (lenIs 0) fun _ s => s.reply m [BitVec.ofNat 8 (log2Limit (s.mbox m).limit)]

/-- SET_RESPONSE_MESSAGE_LIMIT (R353): below 256 bytes is refused; above 65,536 sets 65,536. -/
def execSetResponseMessageLimit (m : Iface) (s : State) : Host.Outcome State Fault Refusal :=
  s.command m 0x0004 .identify (lenIs 1) fun inp s =>
    let n := fieldAt inp 0 1
    if n < 8 then s.mbFinish m .invalidInput
    else
      let n := min n 16
      (s.modMb m fun b => { b with limit := 2 ^ n }).mbFinish m .success 0 [BitVec.ofNat 8 n]

/-- REQUEST_ABORT_BACKGROUND_OPERATION (R351): Scan Media and Mesh Discover end; an erase does not. R351
names no answer when nothing runs: Success (DESIGN CHOICE, log 95). -/
def execRequestAbortBackgroundOperation (m : Iface) (s : State) : Host.Outcome State Fault Refusal :=
  s.command m 0x0005 .identify (lenIs 0) fun _ s =>
    match s.svc.bg with
    | none => s.mbFinish m .success
    | some b =>
      if b.opcode = 0x4304 ∨ b.opcode = 0xC060 then
        { s with svc := { s.svc with bg := some { b with abortReq := true } } }.mbFinish m .success
      else s.mbFinish m .invalidInput 0x1B1

/-! ### Event logs (R326, R327) -/

/-- The UUIDs that CXL 3.1 gives the event records of R326, by LogRec.kind. -/
def logUuid : Nat → List Byte
  | 0 => [0xfe, 0x92, 0x74, 0x75, 0xdd, 0x59, 0x43, 0x39, 0xa5, 0x86, 0x79, 0xba, 0xb1, 0x13, 0xb7, 0x74]
  | 1 => [0xfb, 0xcd, 0x0a, 0x77, 0xc2, 0x60, 0x41, 0x7f, 0x85, 0xa9, 0x08, 0x8b, 0x16, 0x21, 0xeb, 0xa6]
  | _ => [0xca, 0x95, 0xaf, 0xa7, 0xf1, 0x83, 0x40, 0x18, 0x8c, 0x2f, 0x95, 0x26, 0x8e, 0x10, 0x1a, 0x2a]

/-- A layout whose fields are free: (length, number of values that the field may hold) in order; reserved fields hold one. -/
def freeLay (v : Nat) (fs : List (Nat × Nat)) : List Byte :=
  (fs.foldl (fun (acc : List (Nat × Nat) × Nat) f => (acc.1 ++ [(f.1, acc.2 % f.2)], acc.2 / f.2)) ([], v)).1.flatMap
    fun f => leBytes f.1 f.2

/-- The fields that R326 does not fix in a Memory Module record: event type, device health, validity and component. Reserved bytes
are zero (R18). -/
def moduleFields : List (Nat × Nat) :=
  [(1, 9), (1, 16), (1, 9), (1, 64), (1, 256), (2, 2 ^ 16), (4, 2 ^ 32), (4, 2 ^ 32), (4, 2 ^ 32), (2, 4), (16, 2 ^ 128), (1, 256), (42, 1)]

/-- Those of a General Media record after its address and descriptor: types, validity, channel, rank, device and component. -/
def mediaFields : List (Nat × Nat) :=
  [(1, 3), (1, 8), (2, 64), (1, 256), (1, 256), (3, 2 ^ 24), (16, 2 ^ 128), (1, 256), (45, 1)]

/-- The 128 bytes of a CXL event record. The fields that R326 does not fix are taken from `free`. -/
def logBytes (k : Fin 5) (r : LogRec) (free : Nat) : List Byte :=
  let sev := if k.val = 4 then 0 else k.val
  let head := logUuid r.kind ++ lay [(1, 128), (3, sev), (2, r.handle.toNat), (2, 0), (8, r.stamp.toNat), (16, 0)]
  let body := match r.kind with
    | 0 => freeLay free moduleFields
    | 1 => lay [(8, r.addr.toNat), (1, 1)] ++ freeLay free mediaFields
    | _ => lay [(1, r.dcType), (1, 0), (2, 0), (1, 0), (1, b2n r.more), (2, 0), (8, r.addr.toNat), (8, r.len), (16, 0), (8, 0),
        (32, 0)]
  head ++ body

/-- The bytes of the first records of a log. -/
def State.logsBytes (s : State) (k : Fin 5) : List LogRec → List Byte × State
  | [] => ([], s)
  | r :: rest =>
    let (v, s) := s.draw
    let (bs, s) := s.logsBytes k rest
    (logBytes k r v ++ bs, s)

/-- A log number of Get and Clear Event Records. -/
def toLog (n : Nat) : Fin 5 := ⟨n % 5, Nat.mod_lt _ (by decide)⟩

/-- GET_EVENT_RECORDS (R326, R346): as many whole records as fit in the response limit. -/
def execGetEventRecords (m : Iface) (s : State) : Host.Outcome State Fault Refusal :=
  s.command m 0x0100 .identify (lenIs 1) fun inp s =>
    if fieldAt inp 0 1 > 4 then s.mbFinish m .invalidInput
    else
      let k := toLog (fieldAt inp 0 1)
      let l := s.heads[s.headOf m].logs[k]
      let n := min l.recs.length (((s.mbox m).limit - 32) / 128)
      let (bs, s) := s.logsBytes k (l.recs.take n)
      s.mbFinish m .success 0 (lay [(1, b2n (l.overflow ≠ 0) + 2 * b2n (decide (n < l.recs.length))), (1, 0), (2, l.overflow.toNat),
        (8, l.firstOver.toNat), (8, l.lastOver.toNat), (2, n), (10, 0)] ++ bs)

/-- CLEAR_EVENT_RECORDS (R326): the oldest records leave by their handles, or all of an overflowed log. -/
def execClearEventRecords (m : Iface) (s : State) : Host.Outcome State Fault Refusal :=
  s.command m 0x0101 .identify (fun inp => decide (inp.length = 6 + 2 * fieldAt inp 2 1) && fieldAt inp 2 1 ≠ 0xFF) fun inp s =>
    let h := s.headOf m
    let k := toLog (fieldAt inp 0 1)
    let l := s.heads[h].logs[k]
    let hs := (List.range (fieldAt inp 2 1)).map fun i => BitVec.ofNat 16 (fieldAt inp (6 + 2 * i) 2)
    let put (rs : List LogRec) : State := (s.modHead h fun x => { x with logs := x.logs.set k { x.logs[k] with
        recs := rs, overflow := 0, firstOver := 0, lastOver := 0 } }).mbFinish m .success
    if fieldAt inp 0 1 > 4 then s.mbFinish m .invalidInput
    else if fieldAt inp 1 1 % 2 = 1 then
      if l.overflow = 0 then s.mbFinish m .invalidInput else put []
    else if hs ≠ (l.recs.take hs.length).map (·.handle) then s.mbFinish m .invalidHandle
    else put (l.recs.drop hs.length)

/-- GET_EVENT_INTERRUPT_POLICY (R327): mode and vector of each log. -/
def execGetEventInterruptPolicy (m : Iface) (s : State) : Host.Outcome State Fault Refusal :=
  s.command m 0x0102 .identify (lenIs 0) fun _ s =>
    let logs := s.heads[s.headOf m].logs
    s.reply m ((List.finRange 5).map fun (k : Fin 5) => BitVec.ofNat 8 (b2n logs[k].msix + 16 * (k.val + 1)))

/-- SET_EVENT_INTERRUPT_POLICY (R327): MSI/MSI-X or none for each log; firmware interrupts are refused. -/
def execSetEventInterruptPolicy (m : Iface) (s : State) : Host.Outcome State Fault Refusal :=
  s.command m 0x0103 .identify (lenIs 5) fun inp s =>
    if inp.any fun b => b.toNat % 4 > 1 then s.mbFinish m .invalidInput
    else (s.modHead (s.headOf m) fun x =>
      { x with logs := vmap x.logs fun k l => { l with msix := decide (fieldAt inp k.val 1 % 4 = 1) } }).mbFinish m .success

/-- GET_MCTP_EVENT_INTERRUPT_POLICY (R353), on the sideband endpoint only. -/
def execGetMctpEventInterruptPolicy (m : Iface) (s : State) : Host.Outcome State Fault Refusal :=
  if m ≠ .mctp then .next s
  else s.command m 0x0104 .identify (lenIs 0) fun _ s => s.reply m [s.svc.mctpPolicy, 0]

/-- SET_MCTP_EVENT_INTERRUPT_POLICY (R353), on the sideband endpoint only. -/
def execSetMctpEventInterruptPolicy (m : Iface) (s : State) : Host.Outcome State Fault Refusal :=
  if m ≠ .mctp then .next s
  else s.command m 0x0105 .identify (lenIs 2) fun inp s =>
    { s with svc := { s.svc with mctpPolicy := BitVec.ofNat 8 (fieldAt inp 0 1) } }.mbFinish m .success

/-! ### Timestamp, logs and features -/

/-- GET_TIMESTAMP (R353). -/
def execGetTimestamp (m : Iface) (s : State) : Host.Outcome State Fault Refusal :=
  s.command m 0x0300 .identify (lenIs 0) fun _ s => s.reply m (leBytes 8 s.heads[s.headOf m].stamp.toNat)

/-- SET_TIMESTAMP (R353): of this head's event logs only. -/
def execSetTimestamp (m : Iface) (s : State) : Host.Outcome State Fault Refusal :=
  s.command m 0x0301 .identify (lenIs 8) fun inp s =>
    (s.modHead (s.headOf m) fun x => { x with stamp := BitVec.ofNat 64 (fieldAt inp 0 8) }).mbFinish m .success

/-- The UUID of the Command Effects Log in CXL 3.1. -/
def celUuid : List Byte := [0x0d, 0xa9, 0xc0, 0xb5, 0xbf, 0x41, 0x4b, 0x78, 0x8f, 0x79, 0x96, 0xb1, 0x62, 0x3b, 0x3f, 0x17]

/-- The Command Effects Log: one entry per opcode. -/
def celBytes : List Byte := opcodes.flatMap fun op => leBytes 2 op ++ leBytes 2 (Config.commandEffect (BitVec.ofNat 16 op)).toNat

/-- GET_SUPPORTED_LOGS (R353): the Command Effects Log only. -/
def execGetSupportedLogs (m : Iface) (s : State) : Host.Outcome State Fault Refusal :=
  s.command m 0x0400 .identify (lenIs 0) fun _ s =>
    s.reply m (lay [(2, 1), (6, 0)] ++ celUuid ++ leBytes 4 (4 * opcodes.length))

/-- GET_LOG (R346 to R348, R353). -/
def execGetLog (m : Iface) (s : State) : Host.Outcome State Fault Refusal :=
  s.command m 0x0401 .identify
    (fun inp => lenIs 24 inp && !allOnes 4 (fieldAt inp 20 4) &&
      (decide (fieldAt inp 16 4 + fieldAt inp 20 4 ≤ 4 * opcodes.length) || inp.take 16 ≠ celUuid)) fun inp s =>
    if inp.take 16 ≠ celUuid then s.mbFinish m .invalidInput
    else s.reply m (bytesAt celBytes (fieldAt inp 16 4) (fieldAt inp 20 4))

/-- GET_SUPPORTED_FEATURES (R353): none. -/
def execGetSupportedFeatures (m : Iface) (s : State) : Host.Outcome State Fault Refusal :=
  s.command m 0x0500 .identify (fun inp => lenIs 8 inp && !allOnes 4 (fieldAt inp 0 4)) fun _ s => s.reply m (List.replicate 8 0)

/-! ### The memory device -/

/-- IDENTIFY_MEMORY_DEVICE (R319, R353). -/
def execIdentifyMemoryDevice (m : Iface) (s : State) : Host.Outcome State Fault Refusal :=
  s.command m 0x4000 .identify (lenIs 0) fun _ s =>
    let (v, s) := s.draw
    s.reply m (((s.runningFw s.lead).map FwImage.revision).getD (List.replicate 16 0)
      ++ lay [(8, s.capacity / 2 ^ 28), (8, 0), (8, recRegLen s.cfg.record 8 / 2 ^ 28), (8, 0), (2, 32), (2, 64), (2, 64), (2, 16),
        (4, 65536), (3, 8192), (2, 256), (1, v % 4), (1, v / 4 % 4), (2, 64)])

/-- GET_PARTITION_INFO (R353): no volatile capacity. -/
def execGetPartitionInfo (m : Iface) (s : State) : Host.Outcome State Fault Refusal :=
  s.command m 0x4100 .identify (lenIs 0) fun _ s =>
    s.reply m (lay [(8, 0), (8, recRegLen s.cfg.record 8 / 2 ^ 28), (8, 0), (8, 0)])

/-- GET_LSA (R346, R353): bytes of the lead tile's label storage area. -/
def execGetLsa (m : Iface) (s : State) : Host.Outcome State Fault Refusal :=
  s.command m 0x4102 .identify
    (fun inp => lenIs 8 inp && !allOnes 4 (fieldAt inp 4 4) && decide (fieldAt inp 0 4 + fieldAt inp 4 4 ≤ 65536)) fun inp s =>
    s.reply m (Memory.readBytes (fun _ => 0xFF) s.nv[s.lead].lsa (fieldAt inp 0 4) (fieldAt inp 4 4))

/-- SET_LSA (R428): each sector that the write touches is erased and written with its new bytes, after a supply check. -/
def execSetLsa (m : Iface) (s : State) : Host.Outcome State Fault Refusal :=
  s.command m 0x4103 .setShutdown
    (fun inp => decide (8 ≤ inp.length) && decide (fieldAt inp 0 4 + (inp.length - 8) ≤ 65536)) (mgmt := true) fun inp s =>
    let off := fieldAt inp 0 4
    let n := inp.length - 8
    let new := Memory.writeBytes (fun _ => 0xFF) s.nv[s.lead].lsa off (inp.drop 8)
    let sectors := (List.range 16).filter fun k => decide (4096 * k < off + n ∧ off < 4096 * (k + 1))
    if n = 0 then s.mbFinish m .success
    else if !s.supplyOk (11900 * sectors.length) 1 then s.supplyRefused.mbFinish m .busy 0x122
    else
      let s := forAll sectors (fun k s => s.flashStart s.lead 0
        { sector := 516 + k, erasing := true, pages := 16,
          use := .lsa (Memory.readBytes (fun _ => 0xFF) new (4096 * k) 4096) }) s
      { s with svc := { s.svc with waiting := some (m, .flash) } }

/-- Life used: the largest mean wear of any unit, in whole percent (R62, R120, R353): each of its 5,216,256 home slots is rated for
2 × 10^6 programs, and 64 counted programs come with one copy per gap move. -/
def State.lifeUsed (s : State) : Nat :=
  let wear (p : Placement) (u : Nat) : Nat := (65 * Sparse.get 0 p.moves u + Sparse.get 0 p.counted u) * 100 / (5216256 * 2000000)
  min 255 ((s.svcTiles.flatMap fun (t : TileId) => (List.range s.unitsPerTile).map (wear s.tiles[t].pl)).foldl max 0)

/-- Additional Status of Get Health Info, as CXL 3.1 codes it: life used and temperature against the critical limits and the enabled
warning thresholds, and the corrected count against its own (R353). -/
def Head.additionalStatus (x : Head) (life : Nat) (temp : Int) (corrected : Nat) : Nat :=
  let a (k : Nat) : BitVec 16 := x.alerts.getD k 0
  let on (k : Nat) : Bool := x.alertEn.getLsbD k
  let lim (k : Fin 3) : BitVec 16 := Config.alertLimit k
  let l := if life ≥ (lim 0).toNat then 2 else b2n (on 0 && decide (life ≥ (a 0).toNat))
  let t := if temp ≥ (lim 1).toInt ∨ temp ≤ (lim 2).toInt then 2
    else b2n ((on 1 && decide (temp ≥ (a 1).toInt)) || (on 2 && decide (temp ≤ (a 2).toInt)))
  l + 4 * t + 32 * b2n (on 4 && decide (corrected ≥ (a 4).toNat))

/-- GET_HEALTH_INFO (R353): life used, temperature, dirty shutdowns, and the alerts. Device and media status and the corrected-error
count are not stated; their reserved bits are zero (R18). -/
def execGetHealthInfo (m : Iface) (s : State) : Host.Outcome State Fault Refusal :=
  s.command m 0x4200 .identify (lenIs 0) fun _ s =>
    let (v, s) := s.draw
    let temp := s.thm.ctrlMax.toInt / 16
    let corrected := v / 2 ^ 24 % 2 ^ 32
    s.reply m (lay [(1, v % 16), (1, v / 16 % 9), (1, s.heads[s.headOf m].additionalStatus s.lifeUsed temp corrected), (1, s.lifeUsed),
      (2, (BitVec.ofInt 16 temp).toNat), (4, (s.ladder 8).1), (4, 0), (4, corrected)])

/-- GET_ALERT_CONFIGURATION (R353). -/
def execGetAlertConfiguration (m : Iface) (s : State) : Host.Outcome State Fault Refusal :=
  s.command m 0x4201 .identify (lenIs 0) fun _ s =>
    let x := s.heads[s.headOf m]
    let a (k : Nat) : Nat := (x.alerts.getD k 0).toNat
    s.reply m (lay [(1, x.alertEn.toNat), (1, 0x17), (1, (Config.alertLimit 0).toNat), (1, a 0), (2, (Config.alertLimit 1).toNat),
      (2, (Config.alertLimit 2).toNat), (2, a 1), (2, a 2), (2, a 3), (2, a 4)])

/-- SET_ALERT_CONFIGURATION (R353): the thresholds whose valid bits are set. -/
def execSetAlertConfiguration (m : Iface) (s : State) : Host.Outcome State Fault Refusal :=
  s.command m 0x4202 .setAlert (lenIs 12) fun inp s =>
    let valid := BitVec.ofNat 8 (fieldAt inp 0 1) &&& 0x17
    let en := BitVec.ofNat 8 (fieldAt inp 1 1)
    let new : List Nat := [fieldAt inp 2 1, fieldAt inp 4 2, fieldAt inp 6 2, fieldAt inp 8 2, fieldAt inp 10 2, 0]
    (s.modHead (s.headOf m) fun x =>
      { x with
        alertEn := (x.alertEn &&& ~~~ valid) ||| (en &&& valid)
        alerts := x.alerts.zipIdx.map fun e => if valid.getLsbD e.2 then BitVec.ofNat 16 (new.getD e.2 0) else e.1 }).mbFinish m .success

/-- GET_SHUTDOWN_STATE (R353). -/
def execGetShutdownState (m : Iface) (s : State) : Host.Outcome State Fault Refusal :=
  s.command m 0x4203 .identify (lenIs 0) fun _ s => s.reply m [s.heads[s.headOf m].shutdown]

/-- SET_SHUTDOWN_STATE (R353). -/
def execSetShutdownState (m : Iface) (s : State) : Host.Outcome State Fault Refusal :=
  s.command m 0x4204 .setShutdown (lenIs 1) (mgmt := true) fun inp s =>
    if fieldAt inp 0 1 > 1 then s.mbFinish m .invalidInput
    else (s.modHead (s.headOf m) fun x => { x with shutdown := BitVec.ofNat 8 (fieldAt inp 0 1) }).mbFinish m .success

end Sys2Proof.Machine
end

