-- ==== Sys2Proof/Machine/Vendor.lean ====
section
/-! DEFINITION. The vendor commands of R354, but for firmware, erase and readout protection: tile status, configuration, power,
events, black box, acknowledgement policy, hold-up report, counters, tagging, mesh, parameter store, cache, patrol, rails and vendor
registers (R355 to R379, R526). -/

namespace Sys2Proof.Machine

/-! ### Tile status (R355) -/

/-- STATUS of a tile record. -/
def State.tileStatusCode (s : State) (t : TileId) : Nat :=
  if s.fuses.variant = .yd4871g ∧ t = 7 then 4
  else if !(fittedMask s.fuses.variant).getLsbD t then 0
  else if !s.sys.selftestPass.getLsbD t then 1
  else if s.inSvc t then 2 else 3

/-- A tile record; bytes 1 to 31 are zero unless the tile is in service. -/
def State.tileRecord (s : State) (t : TileId) : List Byte :=
  let code := s.tileStatusCode t
  let chan (f : Chan → Bool) : Nat := allChans.foldl (fun a (c : ChanId) => a + 2 ^ c.val * b2n (f s.tiles[t].ch[c])) 0
  if code ≠ 2 then lay [(1, code), (31, 0)]
  else lay [(1, code), (1, chan Chan.up + 16 * chan Chan.spareInUse), (2, s.tiles[t].thm.max.toNat), (4, (s.readHdc t 0).toNat),
    (4, (s.readStg t 0).toNat), (4, (s.readStg t 4).toNat), (4, (s.readCch t 8).toNat), (4, (s.readCch t 4).toNat),
    (4, (s.readCfg t 0x040).toNat), (4, 0)]

/-- The 272 bytes of Get Tile Status. -/
def State.tileStatus (s : State) : List Byte :=
  let op := match s.svc.bg, s.svc.lastBg with
    | some b, _ => b.opcode.toNat
    | none, some l => l.1.toNat
    | none, none => 0
  lay [(4, s.deviceState.toNat), (4, s.tileMap.toNat), (2, s.sys.changes.toNat), (2, s.svc.bgSeq.toNat), (1, s.boot.cause.code),
    (1, b2n s.svc.bg.isSome), (2, op)] ++ allTiles.flatMap s.tileRecord

/-- GET_TILE_STATUS (R355). -/
def execGetTileStatus (m : Iface) (s : State) : Host.Outcome State Fault Refusal :=
  s.command m 0xC001 .tileStatus (lenIs 0) fun _ s => s.reply m s.tileStatus

/-! ### Configuration (R356 to R358, R420) -/

/-- LOAD_CONFIGURATION (R356, R420, R421): the image is checked and held as the loaded image. -/
def execLoadConfiguration (m : Iface) (s : State) : Host.Outcome State Fault Refusal :=
  s.command m 0xC010 .loadConfig (lenIs 4096) (mgmt := true) fun inp s =>
    if !recCrcOk inp then s.mbFinish m .invalidInput 0x123
    else if !recFormatOk inp || decide (recSeq inp ≤ s.highSeq ∨ recSeq inp > 0xFFFFFFFE) then s.mbFinish m .invalidInput 0x124
    else if s.recInconsistent inp then s.mbFinish m .invalidInput 0x125
    else { s with cfg := { s.cfg with loaded := some inp } }.mbFinish m .success

/-- COMMIT_CONFIGURATION (R357, R420, R422): the loaded image becomes the next record copy of every tile; the command waits for the
copies. -/
def execCommitConfiguration (m : Iface) (s : State) : Host.Outcome State Fault Refusal :=
  if s.cfg.commit.isSome then .next s
  else s.command m 0xC011 .loadConfig (lenIs 8) (mgmt := true) fun inp s =>
    match s.cfg.loaded with
    | none => s.mbFinish m .invalidInput 0x126
    | some img =>
      if fieldAt inp 4 4 ≠ recSeq img then s.mbFinish m .invalidInput 0x127
      else if s.recInconsistent img then s.mbFinish m .invalidInput 0x125
      else if !s.supplyOk commitUs s.commitTiles.length then s.supplyRefused.mbFinish m .busy 0x122
      else
        let s := s.startCommit img true (fieldAt inp 0 1 % 2 = 1) 0
        { s with svc := { s.svc with waiting := some (m, .commit), waitOut := [] } }

/-- The bytes of a record copy as its cells return them (R358): erased cells read all ones, those of an undefined sector are free at
each read. -/
def State.copyBytes (s : State) (b : Fin 2) : List Byte × State :=
  let v := s.nv[s.lead]
  if !sectorDefined v (sectorKey b 512) then
    let (x, s) := s.draw
    (leBytes 4096 x, s)
  else (if v.copies[b] = [] then List.replicate 4096 0xFF else v.copies[b], s)

/-- READ_CONFIGURATION (R358): the copy that phase 4 chose, a copy as stored, or the loaded image. -/
def execReadConfiguration (m : Iface) (s : State) : Host.Outcome State Fault Refusal :=
  s.command m 0xC012 .identify
    (fun inp => lenIs 8 inp && !allOnes 2 (fieldAt inp 4 2) && decide (fieldAt inp 2 2 + fieldAt inp 4 2 ≤ 4096)) fun inp s =>
    let which := fieldAt inp 0 1
    if which > 3 ∨ fieldAt inp 2 2 > 4095 then s.mbFinish m .invalidInput 0x153
    else if which = 0 ∧ s.cfg.chosen = [] then s.mbFinish m .invalidInput s.inState
    else if which = 3 ∧ s.cfg.loaded = none then s.mbFinish m .invalidInput 0x126
    else
      let (bytes, s) := match which with
        | 0 => (s.cfg.chosen, s)
        | 1 => s.copyBytes 0
        | 2 => s.copyBytes 1
        | _ => (s.cfg.loaded.getD [], s)
      s.reply m (bytesAt bytes (fieldAt inp 2 2) (fieldAt inp 4 2))

/-! ### Power (R359, R360) -/

/-- SET_POWER_STATE (R359): Success once the sequence has started or is queued. -/
def execSetPowerState (m : Iface) (s : State) : Host.Outcome State Fault Refusal :=
  s.command m 0xC020 .setPower (lenIs 4) (mgmt := true) fun inp s =>
    if fieldAt inp 0 1 > 3 ∨ fieldAt inp 1 1 > 3 then s.mbFinish m .invalidInput 0x153
    else (s.setPower (BitVec.ofNat 2 (fieldAt inp 0 1)) (BitVec.ofNat 2 (fieldAt inp 1 1))).mbFinish m .success

/-- GET_POWER_STATE (R360). -/
def execGetPowerState (m : Iface) (s : State) : Host.Outcome State Fault Refusal :=
  s.command m 0xC021 .tileStatus (lenIs 0) fun _ s =>
    let p := s.pwr
    let tr := if p.transition ≠ 0 then p.transition.toNat else if p.changing then 3 else 0
    s.reply m (lay [(1, p.sleep.toNat), (1, p.requested.toNat), (1, tr), (1, p.queued.toNat),
      (1, if s.thm.active then s.thm.imposed.toNat else 0xFF), (3, 0), (4, p.lastResumeUs.toNat), (4, 0)])

/-! ### Events and the black box (R361, R362, R633) -/

/-- READ_EVENT_WINDOW (R361): up to 8 held records at or above the cursor and the severity, at one instant. -/
def execReadEventWindow (m : Iface) (s : State) : Host.Outcome State Fault Refusal :=
  s.command m 0xC030 .identify (fun inp => lenIs 16 inp && !allOnes 1 (fieldAt inp 8 1)) fun inp s =>
    let cursor := fieldAt inp 0 6
    let n := fieldAt inp 8 1
    if n > 8 ∨ fieldAt inp 9 1 > 3 then s.mbFinish m .invalidInput 0x153
    else if n = 0 then s.mbFinish m .success
    else
      let rs := ((s.evr.held.map HeldRec.r).filter fun (r : EventRec) => decide (cursor ≤ r.seq ∧ fieldAt inp 9 1 ≤ r.sev.code)).take n
      let next := (rs.getLast?.map fun (r : EventRec) => r.seq + 1).getD cursor
      s.reply m (lay [(8, s.evr.oldest), (8, s.evr.newest), (8, next)]
        ++ (s.evr.drops.toList.flatMap fun d => leBytes 2 d.toNat) ++ lay [(1, rs.length), (7, 0)] ++ rs.flatMap evBytes)

/-- The bytes of black box slots: from the governing flash copy, the lead's media copy, or the rescue lead's buffer (R362, R644,
R645). -/
def State.bbSlots (s : State) (source index n : Nat) : List Byte :=
  ((List.range n).map (· + index)).flatMap fun k =>
    match s.bbx.buffer, source with
    | some b, _ => ((tabGet b k).map bbBytes).getD (List.replicate 64 0)
    | none, 0 => ((bbFlashSlot s.nv[s.lead] k).map bbBytes).getD (List.replicate 64 0xFF)
    | none, _ => ((tabGet s.bbx.media[s.lead] k).map bbBytes).getD (List.replicate 64 0)

/-- READ_BLACK_BOX (R362). -/
def execReadBlackBox (m : Iface) (s : State) : Host.Outcome State Fault Refusal :=
  s.command m 0xC031 .identify
    (fun inp => lenIs 8 inp && !allOnes 1 (fieldAt inp 2 1) && decide (fieldAt inp 0 2 + fieldAt inp 2 1 ≤ 1024)) fun inp s =>
    let src := fieldAt inp 3 1
    let rescue := s.bbx.buffer.isSome
    if fieldAt inp 0 2 > 1023 ∨ fieldAt inp 2 1 > 64 ∨ src > 1 then s.mbFinish m .invalidInput 0x153
    else if rescue ∧ src = 0 then s.mbFinish m .invalidInput 0x135
    else if !rescue ∧ src = 1 ∧ !(s.sys.state.isServing || s.sys.state = .sleepS1) then s.mbFinish m .invalidInput s.inState
    else s.reply m (s.bbSlots src (fieldAt inp 0 2) (fieldAt inp 2 1))

/-! ### Acknowledgement and hold-up (R363, R364) -/

/-- SET_REGION_ACK_POLICY (R181, R330, R363): the policy of a defined region changes in every tile at one instant, and the CDAT of
every head follows. -/
def execSetRegionAckPolicy (m : Iface) (s : State) : Host.Outcome State Fault Refusal :=
  if s.cfg.commit.isSome then .next s
  else s.command m 0xC040 .injectPoison (lenIs 4) (mgmt := true) fun inp s =>
    let r := fieldAt inp 0 1
    let strict := decide (fieldAt inp 1 1 = 1)
    if r > 8 ∨ (r < 8 ∧ recRegLen s.cfg.record r = 0) ∨ fieldAt inp 1 1 > 1 then s.mbFinish m .invalidInput 0x153
    else
      s.dcrChange m (fun img => putBytes img (89 + 16 * r) [BitVec.ofNat 8 (recRegFlags img r / 2 * 2 + b2n strict)])
        fun s => { s with
          svc := { s.svc with policies := s.svc.policies.mapIdx fun k x => if k = r then strict else x }
          heads := s.heads.map fun (x : Head) => { x with cdatChanged := true } }

/-- GET_HOLD_UP_REPORT (R364): the newest completed measurement; bit 0 of FLAGS asks for a new one. -/
def execGetHoldUpReport (m : Iface) (s : State) : Host.Outcome State Fault Refusal :=
  s.command m 0xC041 .identify (lenIs 4) fun inp s =>
    let s := if fieldAt inp 0 1 % 2 = 1 then { s with hld := { s.hld with due := true } } else s
    let r := s.hld.report
    let per (f : TileId → Nat) : List Byte := allTiles.flatMap fun (t : TileId) => leBytes 4 (if s.inSvc t then f t else 0)
    s.reply m (lay [(4, fieldAt r 20 4), (4, s.requiredMj), (4, fieldAt r 4 4), (2, fieldAt r 12 2),
        (1, b2n s.sys.postedCert + 2 * b2n s.hld.measuring), (1, 0)]
      ++ per (fun _ => s.hld.measured) ++ per fun t => s.tiles[t].d.budget)

/-! ### Performance counters and tagging (R365 to R367, R646 to R652) -/

/-- PERFORMANCE_SNAPSHOT (R365, R647, R648): copy, freeze, unfreeze or clear overflow bits on one FABCLK edge; the edges since the
counter was last kept are free. -/
def execPerformanceSnapshot (m : Iface) (s : State) : Host.Outcome State Fault Refusal :=
  s.command m 0xC050 .poisonList (lenIs 4) fun inp s =>
    let (v, s) := s.draw
    let p := { s.pmc with edge := s.pmc.edge + BitVec.ofNat 64 v }
    let out := lay [(8, p.edge.toNat), (8, 0)]
    let put (p : Pmc) : State := { s with pmc := p }.mbFinish m .success 0 out
    match fieldAt inp 0 1 with
    | 0 => put { p with snap := p.ctr }
    | 1 => put { p with frozen := true }
    | 2 => put { p with frozen := false }
    | 3 => put { p with ovf := [] }
    | _ => s.mbFinish m .invalidInput 0x153

/-- Counters of a block (R646). -/
def ctrCount : Nat → Nat
  | 0x01 => 8 | 0x02 => 8 | 0x03 => 6 | 0x04 => 4 | 0x05 => 8 | 0x07 => 8 | 0x08 => 4 | 0x09 => 8 | 0x0A => 6 | _ => 0

/-- The block code is one R377 assigns. -/
def blockKnown (block : Nat) : Bool := decide (1 ≤ block ∧ block ≤ 0x16)

/-- The tile that TILE and BLOCK name, or the extended status (R366, R377): package-level blocks take 0x0F only, and for the others
0x0F is the lead tile. -/
def State.regTile (s : State) (tile block : Nat) : Except Nat TileId :=
  let pkg := block = 0x0A ∨ block = 0x0C ∨ block = 0x0D
  if tile > 7 ∧ tile ≠ 0x0F then .error 0x153
  else if tile = 0x0F then .ok s.lead
  else if pkg ∨ !s.inSvc (toTile tile) then .error 0x150
  else .ok (toTile tile)

/-- READ_PERFORMANCE_COUNTERS (R344, R346, R366): FIRST plus COUNT past the counters of a block that exists, none for a block without
counters, is a length fault; an unassigned block code is BLOCK_UNKNOWN. -/
def execReadPerformanceCounters (m : Iface) (s : State) : Host.Outcome State Fault Refusal :=
  s.command m 0xC051 .poisonList
    (fun inp => lenIs 8 inp && !allOnes 1 (fieldAt inp 3 1) &&
      (!blockKnown (fieldAt inp 1 1) || decide (fieldAt inp 2 1 + fieldAt inp 3 1 ≤ ctrCount (fieldAt inp 1 1)))) fun inp s =>
    let block := fieldAt inp 1 1
    match s.regTile (fieldAt inp 0 1) block with
    | .error e => s.mbFinish m .invalidInput e
    | .ok t =>
      if !blockKnown block then s.mbFinish m .invalidInput 0x151
      else if fieldAt inp 3 1 > 8 ∨ fieldAt inp 4 1 > 1 then s.mbFinish m .invalidInput 0x153
      else
        let src := if fieldAt inp 4 1 = 1 then s.pmc.snap else s.pmc.ctr
        let one (i : Nat) : List Byte :=
          let k := ctrKey (if block = 0x0A then 15 else t.val) block i
          leBytes 8 ((Sparse.get (0 : BitVec 48) src k).toNat + 2 ^ 48 * b2n (s.pmc.ovf.contains k))
        s.reply m (((List.range (fieldAt inp 3 1)).map (· + fieldAt inp 2 1)).flatMap one)

/-- The 64 bytes of a sample (R651). -/
def sampleBytes (x : Sample) : List Byte :=
  lay [(4, x.seq.toNat), (1, x.head), (1, x.owner), (1, x.op), (1, x.path), (8, x.addr.toNat), (8, x.t0.toNat)]
    ++ (List.range 7).flatMap (fun i => leBytes 4 ((x.delta.getD i 0xFFFFFFFF).toNat)) ++ List.replicate 12 0

/-- One nonzero seed per head from the TRNG (R649). -/
def State.seeds (s : State) : Vector (BitVec 32) 8 × State :=
  (Vector.ofFn fun i => BitVec.ofNat 32 (1 + Config.free (s.fv + i.val) % (2 ^ 32 - 1)), { s with fv := s.fv + 8 })

/-- CONFIGURE_REQUEST_TAGGING (R367, R649, R652): start, read samples, status, stop. A read of more samples than are held returns
those held, 64 bytes each (DESIGN CHOICE, log 93: R367 does not say what fills the rest). -/
def execConfigureRequestTagging (m : Iface) (s : State) : Host.Outcome State Fault Refusal :=
  s.command m 0xC052 .injectPoison
    (fun inp => lenIs 8 inp && !allOnes 2 (fieldAt inp 6 2)
      && (fieldAt inp 0 1 ≠ 1 || decide (fieldAt inp 4 2 + fieldAt inp 6 2 ≤ 4096))) (mgmt := true) fun inp s =>
    let op := fieldAt inp 0 1
    let setup := fieldAt inp 1 3
    let read := fieldAt inp 4 4
    let bad := s.mbFinish m .invalidInput 0x153
    match op with
    | 0 =>
      if fieldAt inp 1 1 < 8 ∨ fieldAt inp 1 1 > 20 ∨ fieldAt inp 2 1 > 1 ∨ read ≠ 0 then bad
      else
        let (seeds, s) := s.seeds
        { s with pmc := { s.pmc with
            tagging := true, wrapMode := decide (fieldAt inp 2 1 = 1), wrapped := false
            log2n := BitVec.ofNat 5 (fieldAt inp 1 1), heads := BitVec.ofNat 8 (fieldAt inp 3 1), lfsr := seeds, samples := []
            sampleSeq := 0 } }.mbFinish m .success
    | 1 =>
      if setup ≠ 0 ∨ fieldAt inp 4 2 > 4095 ∨ fieldAt inp 6 2 > 1024 then bad
      else s.reply m (((s.pmc.samples.drop (fieldAt inp 4 2)).take (fieldAt inp 6 2)).flatMap sampleBytes)
    | 2 =>
      if setup ≠ 0 ∨ read ≠ 0 then bad
      else s.reply m (lay [(2, s.pmc.samples.length), (1, b2n s.pmc.tagging + 2 * b2n s.pmc.wrapped), (1, s.pmc.log2n.toNat),
        (1, s.pmc.heads.toNat), (11, 0)])
    | 3 => if setup ≠ 0 ∨ read ≠ 0 then bad else { s with pmc := { s.pmc with tagging := false } }.mbFinish m .success
    | _ => bad

/-! ### Mesh (R349, R350, R368, R369, R526) -/

/-- A background operation starts (R349, R350): the sequence advances, and the mailbox that started it reports it. -/
def State.startBackground (s : State) (m : Iface) (op : Nat) (inp : List Byte) : State :=
  let n := s.svc.bgSeq + 1
  let head := match m with
    | .head h _ => some h
    | .mctp => none
  let s := { s with svc := { s.svc with
    bgSeq := n, bg := some { opcode := BitVec.ofNat 16 op, head := head, seqNo := n, input := inp } } }
  (s.modMb m fun b => { b with
    bgActive := true, bgOpcode := BitVec.ofNat 16 op, bgPercent := 0, bgStatus := 0, bgExt := 0 }).mbFinish m .started

/-- MESH_DISCOVER (R368, R504): a background discovery; bit 0 of FLAGS drops the old route table at its start. -/
def execMeshDiscover (m : Iface) (s : State) : Host.Outcome State Fault Refusal :=
  s.command m 0xC060 .injectPoison (lenIs 4) (mgmt := true) (bg := true) fun inp s =>
    if s.svc.bg.isSome then s.mbFinish m .busy 0x1B0
    else
      let s := { s with mesh := { s.mesh with dropTable := s.mesh.dropTable || decide (fieldAt inp 0 1 % 2 = 1) } }
      s.startDiscovery.startBackground m 0xC060 inp

/-- GET_MESH_TOPOLOGY (R369, R505). -/
def execGetMeshTopology (m : Iface) (s : State) : Host.Outcome State Fault Refusal :=
  s.command m 0xC061 .identify (lenIs 0) fun _ s =>
    let k := s.mesh
    let up := (List.finRange 4).foldl (fun a (p : Fin 4) => a + 2 ^ p.val * b2n k.ports[p].up) 0
    s.reply m (lay [(1, s.pkgId), (1, up), (1, if k.paired then k.peer.toNat else 0xFF), (1, k.state.toNat), (2, k.regions.toNat),
        (1, k.takeoverHeads.toNat), (1, 0), (8, k.present.toNat)]
      ++ (List.finRange 64).map fun (i : Fin 64) => BitVec.ofNat 8 (k.prim[i].toNat + 16 * k.altm[i].toNat))

/-- The MIRROR field of a record follows the pair settings (R510). -/
def mirrorField (k : Mesh) (img : List Byte) : List Byte :=
  let img := putBytes img 224 (lay [(1, k.peer.toNat + 128 * b2n k.paired), (1, k.takeoverHeads.toNat), (2, k.regions.toNat),
    (2, k.replica.toNat)])
  putBytes img 232 (leBytes 4 k.pairGen.toNat)

/-- The pair dissolves (R526): MBYE AUX 5, no roles, state none; replica entries that are not taken over are released. -/
def State.dissolvePair (s : State) : State :=
  let es := s.svc.extents.filter fun e => s.mesh.replica.getLsbD e.region && e.heads = 0
  let s := (s.bye 5).releaseMirrored
  let s := forAll es (fun e s => s.dropReplica e) s
  let s := { s with mesh := { s.mesh with
    paired := false, regions := 0, replica := 0, walks := [], resyncStep := 0, resyncActive := false, heldRegions := 0 } }
  (s.setPair 0).clearCause .mirror

/-- SET_MIRROR_GROUP (R370, R511, R526): form, dissolve, re-admit, or set the takeover heads; each change of the record is committed. -/
def execSetMirrorGroup (m : Iface) (s : State) : Host.Outcome State Fault Refusal :=
  if s.cfg.commit.isSome then .next s
  else s.command m 0xC062 .injectPoison (lenIs 8) (mgmt := true) fun inp s =>
    let peer := BitVec.ofNat 6 (fieldAt inp 1 1)
    let heads := BitVec.ofNat 8 (fieldAt inp 4 1)
    let k := s.mesh
    let change (k : Mesh) (act : State → State) : State := s.dcrChange m (mirrorField k) act
    let takeHeads := change { k with takeoverHeads := heads } fun s =>
      { s with mesh := { s.mesh with takeoverHeads := heads } }
    match fieldAt inp 0 1 with
    | 0 =>
      if !k.present.getLsbD peer.toNat then s.mbFinish m .invalidInput 0x170
      else if k.state ≠ 0 then
        if k.paired ∧ k.peer = peer then takeHeads else s.mbFinish m .invalidInput 0x171
      else
        let k1 := { k with
          paired := true, peer := peer, regions := BitVec.ofNat 9 (fieldAt inp 2 2), takeoverHeads := heads, pairGen := k.pairGen + 1
          contact := false, peerDead := false, resyncStep := 0, alone := false }
        let s1 := { s with mesh := k1 }
        -- the exchange with a peer that has formed already is judged at once
        let fails := match k.peerPair with
          | some (src, d) => src = peer && fieldAt d 9 1 / 128 = 1 && decide (fieldAt d 10 1 % 64 = s.pkgId) && !s1.pairPasses src d
          | none => false
        if fails then (s.raise (mkEv 0x4034 .warn 15 0)).mbFinish m .invalidInput 0x125
        else change k1 fun s => { s with mesh := k1 }.setPair 1
    | 1 => change { k with paired := false, regions := 0, replica := 0 } State.dissolvePair
    | 2 =>
      if k.state ≠ 3 then s.mbFinish m .invalidInput 0x172
      else if k.takenOver ∨ k.pairConflict then
        let gen := BitVec.ofNat 32 (max k.pairGen.toNat k.peerGen.toNat + 1)
        let k1 := { k with
          regions := k.regions ||| k.replica, replica := 0, pairGen := gen, takenOver := false, pairConflict := false, readmit := true }
        change k1 fun s => { s with mesh := k1 }.sendPair
      else ({ s with mesh := { k with readmit := true } }.sendPair).mbFinish m .success
    | 3 => takeHeads
    | _ => s.mbFinish m .invalidInput 0x153

/-! ### The parameter store (R371, R372, R431) -/

/-- Pages that read as zero through the command: sealed and reserved ones of the vendor partition (R371, R431). -/
def zeroPage (p : Nat) : Bool := p = 3 || p = 14 || p = 15 || (decide (64 ≤ p) && decide (p < 256))

/-- The length rules of the parameter store header. -/
def prmSpanOk (inp : List Byte) : Bool :=
  !allOnes 2 (fieldAt inp 2 2) && decide (fieldAt inp 0 2 + fieldAt inp 2 2 ≤ 65536)

/-- READ_PARAMETER_STORE (R371, R380). -/
def execReadParameterStore (m : Iface) (s : State) : Host.Outcome State Fault Refusal :=
  s.command m 0xC070 .identify (fun inp => lenIs 8 inp && prmSpanOk inp) fun inp s =>
    let off := fieldAt inp 0 2
    if s.sys.rescueLead ∧ s.sys.state = .failed then s.mbFinish m .internalError 0x134
    else
      let bytes := s.prmBytes s.lead off (fieldAt inp 2 2)
      s.reply m (bytes.zipIdx.map fun b => if zeroPage ((off + b.2) / 64) then 0 else b.1)

/-- WRITE_PARAMETER_STORE (R371, R440): the owner partition, after the lock and supply checks; the command waits for its page
writes. -/
def execWriteParameterStore (m : Iface) (s : State) : Host.Outcome State Fault Refusal :=
  s.command m 0xC071 .setShutdown
    (fun inp => decide (8 ≤ inp.length) && decide (inp.length = 8 + fieldAt inp 2 2) && prmSpanOk inp) (mgmt := true) fun inp s =>
    let off := fieldAt inp 0 2
    let n := fieldAt inp 2 2
    if off < 16384 then s.mbFinish m .invalidInput 0x130
    else if s.prmPwSet ∧ !s.prm.unlocked then s.mbFinish m .securityState 0x131
    else if n = 0 then s.mbFinish m .success
    else if !s.supplyOk (50 * (n / 64 + 2)) 1 then s.supplyRefused.mbFinish m .busy 0x122
    else
      let s := s.prmEnqueue 1 off (inp.drop 8)
      { s with svc := { s.svc with waiting := some (m, .prm), waitOut := [] } }

/-- A password verifies against the twin of page 3 (R678). -/
def State.prmPwOk (s : State) (pw : List Byte) : Bool :=
  let c := (twinRead (s.prmPage 3)).1.getD []
  decide (bytesAt c 10 16 = (verifierMac (bytesAt c 0 10) pw).take 16)

/-- The output of Parameter Store Password: STATE and TRIES_LEFT. -/
def prmPwOut (set unlocked : Bool) (tries : Nat) : List Byte :=
  lay [(1, if !set then 0 else if unlocked then 2 else 1), (1, tries), (2, 0)]

/-- PARAMETER_STORE_PASSWORD (R372, R678): unlock, lock, set or clear; five wrong passwords lock the command out. R372 names no
answer to an all-zero NEW on OP 2, which gets FIELD_RANGE, nor to a CURRENT or NEW that is not zero where the OP does not use it, which
is ignored (DESIGN CHOICE, log 94). -/
def execParameterStorePassword (m : Iface) (s : State) : Host.Outcome State Fault Refusal :=
  s.command m 0xC072 .setShutdown (lenIs 68) (mgmt := true) fun inp s =>
    let op := fieldAt inp 0 1
    let cur := bytesAt inp 4 32
    let new := bytesAt inp 36 32
    let isSet := s.prmPwSet
    let checks := op = 0 ∨ op = 2 ∨ op = 3
    let done (s : State) (set unlocked : Bool) : State :=
      { s with prm := { s.prm with unlocked := unlocked } }.mbFinish m .success 0 (prmPwOut set unlocked s.prm.tries.toNat)
    -- the new content of the twin is written in the background; the command waits for it
    let store (s : State) (content : List Byte) (set unlocked : Bool) : State :=
      if !s.supplyOk 50 s.svcTiles.length then s.supplyRefused.mbFinish m .busy 0x122
      else
        let s := { s with prm := { s.prm with unlocked := unlocked } }.twinEnqueue 1 3 content
        { s with svc := { s.svc with waiting := some (m, .prm), waitOut := prmPwOut set unlocked s.prm.tries.toNat } }
    if op > 3 ∨ (op = 2 ∧ new.all (· = 0)) then s.mbFinish m .invalidInput 0x153
    else if s.prm.tries = 0 then s.mbFinish m .securityState 0x133
    else if checks ∧ isSet ∧ !s.prmPwOk cur then
      { s with prm := { s.prm with tries := s.prm.tries - 1 } }.mbFinish m .passphrase 0x132
    else match op with
      | 0 => done s isSet isSet
      | 1 => done s isSet false
      | 2 =>
        let (v, s) := s.draw
        let salt := leBytes 10 v
        store s (salt ++ (verifierMac salt new).take 16) true s.prm.unlocked
      | _ => if isSet then store s (List.replicate 26 0) false false else done s false false

/-! ### Cache ways (R153, R154, R374) -/

/-- Cacheable powered ways of a tile after a change to SCRATCH and OFF_PAIRS. -/
def waysAfter (d : TileData) (scratch pairs : Nat) : List Nat :=
  cacheWays { d with scratchWays := BitVec.ofNat 4 scratch, offPairs := BitVec.ofNat 3 pairs, offMap := offMapOf scratch pairs }

/-- The CACHE field of the record with the tiles of a mask changed. -/
def State.cacheField (s : State) (mask : BitVec 8) (f : TileData → Nat × Nat) : List Byte :=
  allTiles.map fun (t : TileId) =>
    let d := s.tiles[t].d
    if mask.getLsbD t then BitVec.ofNat 8 ((f d).1 + 16 * (f d).2) else BitVec.ofNat 8 (recScratch s.cfg.record t.val + 16 * recOffPairs s.cfg.record t.val)

/-- DIRTY lines of the ways that a conversion takes away are staged (R153, R154). -/
def State.stageLeaving (s : State) (t : TileId) : State :=
  let d := s.tiles[t].d
  s.stageAll t ((d.cache.filter fun (l : CLine) => d.leaving.contains l.way && l.st = .dirty && !l.inFlight).map CLine.line)

/-- No line of a leaving way is dirty any more. -/
def State.leavingClean (s : State) : Bool :=
  s.svcTiles.all fun (t : TileId) => s.tiles[t].d.cache.all fun (l : CLine) => !s.tiles[t].d.leaving.contains l.way || l.st = .clean

/-- A tile takes its new ways: lines of ways that left are invalidated, scratch contents of ways that return are discarded, and a
way that becomes scratch reads as zero (R153, R154). -/
def convertWays (scratch pairs : Nat) (d : TileData) : TileData :=
  let d1 := { d with
    scratchWays := BitVec.ofNat 4 scratch, offPairs := BitVec.ofNat 3 pairs, offMap := offMapOf scratch pairs, leaving := [] }
  let ways := cacheWays d1
  let keepScratch (a : Nat) : Bool := decide (16 - scratch ≤ a / 2 ^ 20) && decide (16 - d.scratchWays.toNat ≤ a / 2 ^ 20)
  { d1 with
    cache := d1.cache.filter fun (l : CLine) => ways.contains l.way
    scratch := Sparse.keep keepScratch d1.scratch }

/-- Every named tile has converted: the budgets follow (R180), and the record is committed. -/
def State.convertDone (s : State) (m : Iface) (cache : List Byte) : State :=
  let s := forAll s.svcTiles (fun t s =>
    let b := fieldAt cache t.val 1
    s.modD t (convertWays (b % 16) (b / 16 % 8))) s
  s.applyBudgets.dcrCommit m fun img => putBytes img 36 cache

/-- A command of R374: the new CACHE field is judged, and the lines of the ways that leave the cache are staged; when none is dirty
the ways convert. -/
def State.cacheCommand (s : State) (m : Iface) (op limit : Nat) (f : Nat → TileData → Nat × Nat) : Host.Outcome State Fault Refusal :=
  match s.svc.waiting with
  | some (m', .staged cache) =>
    if m' = m ∧ (s.mbox m).cmd.map (fun (c : MbCmd) => c.opcode.toNat) = some op then
      if s.leavingClean ∧ s.cfg.commit.isNone then .next (s.convertDone m cache)
      else .next (forAll s.svcTiles (fun t s => s.stageLeaving t) s)
    else .next s
  | _ =>
    if s.cfg.commit.isSome then .next s
    else s.command m op .injectPoison (lenIs 4) (mgmt := true) fun inp s =>
      let mask := BitVec.ofNat 8 (fieldAt inp 0 1)
      let n := fieldAt inp 1 1
      let ts := allTiles.filter fun (t : TileId) => mask.getLsbD t
      let few (t : TileId) : Bool :=
        let x := f n s.tiles[t].d
        decide (16 < 4 + x.1 + 2 * x.2)
      if ts.any fun t => !s.inSvc t then s.mbFinish m .invalidInput 0x150
      else if n > limit then s.mbFinish m .invalidInput 0x153
      else if ts.any few then s.mbFinish m .invalidInput 0x160
      else if !s.supplyOk commitUs s.commitTiles.length then s.supplyRefused.mbFinish m .busy 0x122
      else
        let cache := s.cacheField mask (f n)
        let s := forAll ts (fun t s =>
          let s := s.modD t fun d =>
            let after := waysAfter d (f n d).1 (f n d).2
            { d with leaving := (cacheWays d).filter fun w => !after.contains w }
          s.stageLeaving t) s
        { s with svc := { s.svc with waiting := some (m, .staged cache), waitOut := [] } }

/-- CACHE_PARTITION (R153, R374): SCRATCH of the named tiles. -/
def execCachePartition (m : Iface) (s : State) : Host.Outcome State Fault Refusal :=
  s.cacheCommand m 0xC090 8 fun n d => (n, d.offPairs.toNat)

/-- CACHE_WAY_POWER (R154, R374): OFF_PAIRS of the named tiles. -/
def execCacheWayPower (m : Iface) (s : State) : Host.Outcome State Fault Refusal :=
  s.cacheCommand m 0xC091 6 fun n d => (d.scratchWays.toNat, n)

/-! ### Patrol and rails (R375, R376) -/

/-- PATROL_CONTROL (R375): the values apply in every tile; bit 3 restarts every unit's pass. -/
def execPatrolControl (m : Iface) (s : State) : Host.Outcome State Fault Refusal :=
  if s.cfg.commit.isSome then .next s
  else s.command m 0xC0A0 .injectPoison (lenIs 12) (mgmt := true) fun inp s =>
    let fl := fieldAt inp 0 1
    let th := decide (fl / 2 % 2 = 1)
    let pe := decide (fl / 4 % 2 = 1)
    let rs := decide (fl / 8 % 2 = 1)
    let b (o : Nat) : Nat := fieldAt inp o 1
    let age (x : Nat) : Bool := decide (1 ≤ x ∧ x ≤ 15)
    let hours (x : Nat) : Bool := decide (1 ≤ x ∧ x ≤ 720)
    let okTh := decide (1 ≤ b 1 ∧ b 1 ≤ 8) && age (b 2) && age (b 3) && age (b 4)
    let okPe := hours (fieldAt inp 6 2) && hours (fieldAt inp 8 2)
    if (th && !okTh) || (pe && !okPe) then s.mbFinish m .invalidInput 0x153
    else
      let f (img : List Byte) : List Byte :=
        let img := putBytes img 44 [BitVec.ofNat 8 (fl % 2)]
        let img := if th then putBytes img 45 (bytesAt inp 1 4) else img
        if pe then putBytes img 50 (bytesAt inp 6 4) else img
      s.dcrChange m f fun s => { s with tiles := vmap s.tiles fun _ x => { x with it :=
        let i := { x.it with enable := decide (fl % 2 = 1) }
        let i := if th then { i with
            thCorr := BitVec.ofNat 4 (b 1), ageCool := BitVec.ofNat 4 (b 2), ageHot := BitVec.ofNat 4 (b 3)
            stageAge := BitVec.ofNat 4 (b 4) } else i
        let i := if pe then { i with coolH := BitVec.ofNat 12 (fieldAt inp 6 2), hotH := BitVec.ofNat 12 (fieldAt inp 8 2) } else i
        if rs then { i with cursors := [], passBase := s.aon.seconds.toNat, passStart := [], lateUnits := [], skip := [] } else i } }

/-- The reactions that a record gives, 0xFF for unused rails. -/
def recReactions (r : List Byte) : List Byte :=
  (List.range 16).map fun q => if q < 4 then 3 else if recRailUsed r q then BitVec.ofNat 8 (recRailReact r q) else 0xFF

/-- RAIL_POLICY (R376, R542): the reaction of a used rail changes; the output gives the reactions in force, or those of the loaded
image in CONFIG_HOLD. -/
def execRailPolicy (m : Iface) (s : State) : Host.Outcome State Fault Refusal :=
  if s.cfg.commit.isSome then .next s
  else s.command m 0xC0B0 .setPassphrase (lenIs 4) (mgmt := true) fun inp s =>
    let q := fieldAt inp 0 1
    let re := fieldAt inp 1 1
    let hold := decide (s.sys.state = .configHold)
    let rec_ := if hold then s.cfg.loaded.getD [] else s.cfg.record
    if hold ∧ s.cfg.loaded = none then s.mbFinish m .invalidInput 0x126
    else if q > 15 ∨ (q ≥ 4 ∧ !recRailUsed rec_ q) ∨ (re > 3 ∧ re ≠ 0xFF) ∨ (q < 4 ∧ re ≠ 3 ∧ re ≠ 0xFF) then
      s.mbFinish m .invalidInput 0x153
    else
      let f (img : List Byte) : List Byte := putBytes img (257 + 16 * q) [BitVec.ofNat 8 re]
      if re = 0xFF then s.mbFinish m .success 0 (recReactions rec_)
      else s.dcrChange m f (fun s => { s with seq := { s.seq with react := s.seq.react.mapIdx fun k x => if k = q then BitVec.ofNat 2 re else x } })
        (recReactions (f rec_))

/-! ### Vendor registers (R377 to R379) -/

/-- The checks on TILE, BLOCK and OFFSET, in this order (R342): the tile, or the extended status. -/
def State.regCheck (s : State) (inp : List Byte) : Except Nat TileId :=
  let tile := fieldAt inp 0 1
  let block := fieldAt inp 1 1
  match s.regTile tile block with
  | .error e => .error e
  | .ok t =>
    if !blockKnown block then .error 0x151
    else if fieldAt inp 2 2 % 4 ≠ 0 then .error 0x152
    else if fieldAt inp 2 2 ≥ 4096 then .error 0x153
    else .ok t

/-- READ_VENDOR_REGISTER (R378). -/
def execReadVendorRegister (m : Iface) (s : State) : Host.Outcome State Fault Refusal :=
  s.command m 0xC0C0 .identify
    (fun inp => lenIs 8 inp && !allOnes 2 (fieldAt inp 4 2) && decide (fieldAt inp 2 2 + 4 * fieldAt inp 4 2 ≤ 4096)) fun inp s =>
    match s.regCheck inp with
    | .error e => s.mbFinish m .invalidInput e
    | .ok t => s.reply m ((List.range (fieldAt inp 4 2)).flatMap fun i =>
        leBytes 4 (s.readReg t (fieldAt inp 1 1) (fieldAt inp 2 2 + 4 * i)).toNat)

/-- The register that the Write Vendor Register command at a mailbox names: block and offset. -/
def State.writeTarget (s : State) (m : Iface) : Nat × Nat :=
  match s.taken m 0xC0C1 with
  | some inp => (fieldAt inp 1 1, fieldAt inp 2 2)
  | none => (0, 0)

/-- Registers whose writes have a behaviour of their own: a row of the command table each. -/
def ownWrites : List (Nat × Nat) :=
  [(0x01, 0x104), (0x0A, 0x014), (0x10, 0x020), (0x10, 0x024), (0x10, 0x028), (0x12, 0x000), (0x14, 0x004)]

/-- Write Vendor Register (R379): judged, then `act` with the tile and the input. -/
def State.vendorWrite (s : State) (m : Iface) (act : TileId → List Byte → State → State) : Host.Outcome State Fault Refusal :=
  s.command m 0xC0C1 .setPassphrase (lenIs 8) (mgmt := true) fun inp s =>
    match s.regCheck inp with
    | .error e => s.mbFinish m .invalidInput e
    | .ok t => act t inp s

/-- The write itself, with Success. -/
def State.plainWrite (m : Iface) (t : TileId) (inp : List Byte) (s : State) : State :=
  (s.writeReg t (fieldAt inp 1 1) (fieldAt inp 2 2) (BitVec.ofNat 32 (fieldAt inp 4 4))).mbFinish m .success

/-- WRITE_VENDOR_REGISTER (R15, R379): a register without a behaviour of its own. -/
def execWriteVendorRegister (m : Iface) (s : State) : Host.Outcome State Fault Refusal :=
  if ownWrites.contains (s.writeTarget m) then .next s else s.vendorWrite m (State.plainWrite m)

/-- HDC_RD_LAT_MAX_CLEAR (R221). -/
def execHdcRdLatMaxClear (m : Iface) (s : State) : Host.Outcome State Fault Refusal :=
  if s.writeTarget m ≠ (0x01, 0x104) then .next s else s.vendorWrite m (State.plainWrite m)

/-- MSH_ACK_CLEAR (R535). -/
def execMshAckClear (m : Iface) (s : State) : Host.Outcome State Fault Refusal :=
  if s.writeTarget m ≠ (0x0A, 0x014) then .next s else s.vendorWrite m (State.plainWrite m)

/-- EVR_CTRL_CLEAR_DROPS (R661). -/
def execEvrCtrlClearDrops (m : Iface) (s : State) : Host.Outcome State Fault Refusal :=
  if s.writeTarget m ≠ (0x10, 0x020) then .next s else s.vendorWrite m (State.plainWrite m)

/-- EVR_WIN_CURSOR_WRITE (R634). -/
def execEvrWinCursorWrite (m : Iface) (s : State) : Host.Outcome State Fault Refusal :=
  if s.writeTarget m ≠ (0x10, 0x024) ∧ s.writeTarget m ≠ (0x10, 0x028) then .next s else s.vendorWrite m (State.plainWrite m)

/-- PMC_CTRL_OVF_MSIX_WRITE (R668). -/
def execPmcCtrlOvfMsixWrite (m : Iface) (s : State) : Host.Outcome State Fault Refusal :=
  if s.writeTarget m ≠ (0x12, 0x000) then .next s else s.vendorWrite m (State.plainWrite m)

/-- PRM_PROTECT_BP_WRITE (R435, R440): the new block protection is stored in page 2; refused by the supply check it keeps its
value. -/
def execPrmProtectBpWrite (m : Iface) (s : State) : Host.Outcome State Fault Refusal :=
  if s.writeTarget m ≠ (0x14, 0x004) then .next s
  else s.vendorWrite m fun t inp s =>
    let bp := BitVec.ofNat 2 (fieldAt inp 4 1)
    if s.sys.lead ≠ some t then s.mbFinish m .success
    else if !s.supplyOk 50 1 then s.supplyRefused.mbFinish m .success
    else
      let s := { s with prm := { s.prm with bp := bp } }.twinEnqueue 1 2 (bp.setWidth 8 :: List.replicate 25 0)
      { s with svc := { s.svc with waiting := some (m, .prm), waitOut := [] } }

end Sys2Proof.Machine
end

