-- ==== Sys2Proof/Machine/Capacity.lean ====
section
/-! DEFINITION. Dynamic Capacity (R129 to R133, R319 to R322): the host's commands and the fabric manager's. Payload layouts are those
of CXL 3.1 (PRESUMED). -/

namespace Sys2Proof.Machine

/-- An extent of a payload: base and blocks in units of 2 MiB, and whether both are whole units. -/
def payloadExtent (inp : List Byte) (off : Nat) : Nat × Nat × Bool :=
  let a := fieldAt inp off 8
  let n := fieldAt inp (off + 8) 8
  let unit := 2 ^ 21
  (a / unit, (a + n + unit - 1) / unit - a / unit, decide (a % unit = 0 ∧ n % unit = 0))

/-- The extents of a payload: `size` bytes each from byte `off` on. -/
def payloadExtents (inp : List Byte) (off size n : Nat) : List (Nat × Nat × Bool) :=
  (List.range n).map fun i => payloadExtent inp (off + size * i)

/-- Length of a DC region as heads and the FM API report it: zero for a replica region that is not taken over (R512). -/
def State.regionLen (s : State) (k : Nat) : Nat := if s.reportedRegions.contains k then recRegLen s.cfg.record k else 0

/-- The block sizes of R320 as a mask of powers of two. -/
def blockMask : Nat := 2 ^ 21 + 2 ^ 24 + 2 ^ 27 + 2 ^ 30

/-- Extents and tags, in total and available (R129, R320). -/
def State.extentTotals (s : State) : List Byte :=
  lay [(4, 32768), (4, 32768 - s.svc.extents.length - (s.svc.offers.flatMap (·.exts)).eraseDups.length), (4, 0), (4, 0)]

/-- The dynamic extents granted to a head that a list names (R353, R512). -/
def State.grantedTo (s : State) (h : TileId) : List Extent :=
  s.svc.extents.filter fun (e : Extent) => e.heads.getLsbD h && !e.isStatic && s.reportedRegions.contains e.region

/-- An extent as a list gives it: its tag is all zeros (R320). -/
def extentBytes (e : Extent) : List Byte := lay [(8, e.base * 2 ^ 21), (8, e.blocks * 2 ^ 21), (24, 0)]

/-- GET_DYNAMIC_CAPACITY_CONFIGURATION (R319, R320): the eight DC regions; one that the record does not define has zero length. -/
def execGetDynamicCapacityConfiguration (m : Iface) (s : State) : Host.Outcome State Fault Refusal :=
  s.command m 0x4800 .capacity
    (fun inp => lenIs 2 inp && !allOnes 1 (fieldAt inp 0 1) && decide (fieldAt inp 0 1 + fieldAt inp 1 1 ≤ 8)) fun inp s =>
    let r := s.cfg.record
    let n := fieldAt inp 0 1
    let region (k : Nat) : List Byte :=
      lay [(8, recRegBase r k), (8, s.regionLen k / 2 ^ 28), (8, s.regionLen k), (8, recRegBlock r k), (4, k + 1), (1, 1), (3, 0)]
    s.reply m (lay [(1, 8), (1, n), (6, 0)] ++ ((List.range n).map (· + fieldAt inp 1 1)).flatMap region ++ s.extentTotals)

/-- GET_DYNAMIC_CAPACITY_EXTENT_LIST (R353): the extents granted to the receiving head. -/
def execGetDynamicCapacityExtentList (m : Iface) (s : State) : Host.Outcome State Fault Refusal :=
  s.command m 0x4801 .capacity
    (fun inp => lenIs 8 inp && !allOnes 4 (fieldAt inp 0 4) && decide (fieldAt inp 0 4 + fieldAt inp 4 4 ≤ 16384)) fun inp s =>
    let all := s.grantedTo (s.headOf m)
    let es := (all.drop (fieldAt inp 4 4)).take (fieldAt inp 0 4)
    s.reply m (lay [(4, es.length), (4, all.length), (4, s.svc.dcGen.toNat), (4, 0)] ++ es.flatMap extentBytes)

/-- The head's oldest offer gives up what it held; what is left of it after some extents were accepted, unless the response goes on. -/
def State.answerOffer (s : State) (o : Offer) (taken : List (Nat × Nat)) (more : Bool) : State :=
  let left := o.exts.filter fun e => !taken.contains e
  let offers := if more && !left.isEmpty then s.svc.offers.map fun (x : Offer) => if x = o then { o with exts := left } else x
    else s.svc.offers.erase o
  { s with svc := { s.svc with offers := offers } }

/-- An accepted extent becomes an entry, at first without the grant, so that its rows are taken; the mirror peer creates the replica
entry of an extent in a primary region (R131, R132, R512). -/
def State.acceptExtent (s : State) (e : Nat × Nat) : State :=
  let region := (recRegionOf s.cfg.record (e.1 * 2 ^ 21)).getD 0
  let known := s.svc.extents.any fun (x : Extent) => x.base = e.1 && x.blocks = e.2
  let s := s.addEntry e.1 e.2 region 0
  if !known && s.mirroring && s.mesh.regions.getLsbD region then
    let (tag, s) := s.meshTag
    let s := { s with mesh := { s.mesh with extWaits := s.mesh.extWaits ++ [(tag, e.1)] } }
    (s.meshSend { opcode := 0x26, dslots := 1, tag := tag, dst := s.mesh.peer, aux := 1,
                  data := leBytes 4 e.1 ++ leBytes 4 e.2 ++ [0, BitVec.ofNat 8 region] ++ List.replicate 6 0 }).2
  else s

/-- ADD_DYNAMIC_CAPACITY_RESPONSE (R132, R321): the host accepts all or some extents of its oldest offer; the response completes when
they are admitted at the head. -/
def execAddDynamicCapacityResponse (m : Iface) (s : State) : Host.Outcome State Fault Refusal :=
  s.command m 0x4802 .capacity
    (fun inp => decide (8 ≤ inp.length) && !allOnes 4 (fieldAt inp 0 4) && decide (inp.length = 8 + 24 * fieldAt inp 0 4))
    fun inp s =>
    let h := s.headOf m
    let es := payloadExtents inp 8 24 (fieldAt inp 0 4)
    let exts := (es.map fun e => (e.1, e.2.1)).eraseDups
    match s.svc.offers.find? fun (o : Offer) => o.head = h with
    | none => s.mbFinish m (if es.isEmpty then .success else .invalidAddress)
    | some o =>
      if es.any fun e => !e.2.2 || !o.exts.contains (e.1, e.2.1) then s.mbFinish m .invalidAddress
      else
        let s := s.answerOffer o exts (fieldAt inp 4 1 % 2 = 1)
        let s := forAll exts (fun e s => s.acceptExtent e) s
        { s with svc := { s.svc with waiting := some (m, .add h exts), waitOut := [] } }.addProceed

/-- The first refusal of releases of a head's ranges, judged in order, or the state with the grants dropped (R132). -/
def State.releaseRanges (s : State) (h : TileId) : List (Nat × Nat × Bool) → Except Nat State
  | [] => .ok s
  | e :: rest =>
    match s.checkRelease h.val e.1 e.2.1 with
    | some c => .error c
    | none => if e.2.2 then (s.dropGrant h.val e.1 e.2.1).releaseRanges h rest else .error 0x183

/-- The fabric manager's releases that wait for the host end where the host's grant ends. -/
def State.releasesEnd (s : State) (h : TileId) (es : List (Nat × Nat × Bool)) : State :=
  let covered (r : Release) : Bool := decide (r.head = h) && es.any fun e => decide (e.1 ≤ r.base ∧ r.base + r.blocks ≤ e.1 + e.2.1)
  { s with svc := { s.svc with releases := s.svc.releases.filter fun (r : Release) => !covered r } }

/-- RELEASE_DYNAMIC_CAPACITY (R132, R321): the grants of this head on the ranges end at the completion of this command; what remains
of the release follows (EXTENT_RELEASE_COMPLETE). -/
def execReleaseDynamicCapacity (m : Iface) (s : State) : Host.Outcome State Fault Refusal :=
  s.command m 0x4803 .capacity
    (fun inp => decide (8 ≤ inp.length) && !allOnes 4 (fieldAt inp 0 4) && decide (inp.length = 8 + 24 * fieldAt inp 0 4))
    fun inp s =>
    let h := s.headOf m
    let es := payloadExtents inp 8 24 (fieldAt inp 0 4)
    match s.releaseRanges h es with
    | .error c => s.mbFinish m .invalidInput c
    | .ok s => (s.releasesEnd h es).mbFinish m .success

/-! ### The fabric manager -/

/-- The guest die counts as head 7 in the YD-4871G (R476). -/
def State.isGuest (s : State) (h : TileId) : Bool := decide (s.fuses.variant = .yd4871g ∧ h = 7)

/-- The head that a host number names: an enabled head of a tile in service, or the guest die. -/
def State.fmHead (s : State) (n : Nat) : Option TileId :=
  if n < 8 && (s.isGuest (toTile n) || (s.enabledHeads.getLsbD n && s.inSvc (toTile n))) then some (toTile n) else none

/-- GET_DCD_INFO (R319, R320). -/
def execGetDcdInfo (m : Iface) (s : State) : Host.Outcome State Fault Refusal :=
  s.command m 0x5600 .capacity (lenIs 0) (mgmt := true) fun _ s =>
    let hosts := (allTiles.filter fun (t : TileId) => (s.fmHead t.val).isSome).length
    let total := ((List.range 8).map fun k => s.regionLen k / 2 ^ 28).sum
    s.reply m (lay ([(1, hosts), (1, 8), (2, 0), (2, 4), (2, 0), (2, 2), (1, 1), (1, 0), (8, total)] ++ List.replicate 8 (8, blockMask)))

/-- GET_HOST_DC_REGION_CONFIGURATION (R319, R320). -/
def execGetHostDcRegionConfiguration (m : Iface) (s : State) : Host.Outcome State Fault Refusal :=
  s.command m 0x5601 .capacity
    (fun inp => lenIs 4 inp && !allOnes 1 (fieldAt inp 2 1) && decide (fieldAt inp 2 1 + fieldAt inp 3 1 ≤ 8)) (mgmt := true)
    fun inp s =>
    let r := s.cfg.record
    let n := fieldAt inp 2 1
    let region (k : Nat) : List Byte :=
      lay [(8, recRegBase r k), (8, s.regionLen k / 2 ^ 28), (8, s.regionLen k), (8, recRegBlock r k),
        (1, 4 + 8 * (recRegFlags r k / 2 % 2)), (3, 0), (1, 1), (3, 0)]
    match s.fmHead (fieldAt inp 0 2) with
    | none => s.mbFinish m .invalidInput 0x150
    | some h => s.reply m (lay [(2, h.val), (1, 8), (1, n)] ++ ((List.range n).map (· + fieldAt inp 3 1)).flatMap region
        ++ s.extentTotals)

/-- SET_DC_REGION_CONFIGURATION (R320, R353): the block size of a defined region with no extents, and its sharable flag. -/
def execSetDcRegionConfiguration (m : Iface) (s : State) : Host.Outcome State Fault Refusal :=
  if s.cfg.commit.isSome then .next s
  else s.command m 0x5602 .capacity (lenIs 16) (mgmt := true) fun inp s =>
    let r := s.cfg.record
    let k := fieldAt inp 0 1
    let block := fieldAt inp 4 8
    let code := (List.range 4).find? fun c => 2 ^ (21 + 3 * c) = block
    let share := fieldAt inp 12 1 / 8 % 2
    let used := s.svc.extents.any (fun (e : Extent) => e.region = k) || s.svc.offers.any (fun (o : Offer) => o.exts.any fun x => recRegionOf r (x.1 * 2 ^ 21) = some k)
    if k > 7 ∨ s.regionLen k = 0 then s.mbFinish m .invalidInput 0x153
    else match code with
      | none => s.mbFinish m .invalidInput 0x153
      | some c =>
        if block ≠ recRegBlock r k ∧ used then s.mbFinish m .invalidInput
        else if recRegLen r k % block ≠ 0 ∨ recRegBase r k % block ≠ 0 then s.mbFinish m .invalidInput 0x183
        else s.dcrChange m (fun img => putBytes img (88 + 16 * k)
          [BitVec.ofNat 8 c, BitVec.ofNat 8 (recRegFlags img k % 2 + 2 * share)]) id

/-- GET_DC_REGION_EXTENT_LISTS (R353): the extents granted to the named head. -/
def execGetDcRegionExtentLists (m : Iface) (s : State) : Host.Outcome State Fault Refusal :=
  s.command m 0x5603 .capacity
    (fun inp => lenIs 12 inp && !allOnes 4 (fieldAt inp 4 4) && decide (fieldAt inp 4 4 + fieldAt inp 8 4 ≤ 16384)) (mgmt := true)
    fun inp s =>
    match s.fmHead (fieldAt inp 0 2) with
    | none => s.mbFinish m .invalidInput 0x150
    | some h =>
      let all := s.grantedTo h
      let es := (all.drop (fieldAt inp 8 4)).take (fieldAt inp 4 4)
      s.reply m (lay [(2, h.val), (2, 0), (4, fieldAt inp 8 4), (4, es.length), (4, all.length), (4, s.svc.dcGen.toNat), (4, 0)]
        ++ es.flatMap extentBytes)

/-- Event records for the extents of one request, with the More flag on all but the last (R321). -/
def State.dcRecords (s : State) (h : TileId) (dcType : Nat) : List (Nat × Nat) → State
  | [] => s
  | e :: rest =>
    let r : LogRec := { kind := 2, addr := BitVec.ofNat 64 (e.1 * 2 ^ 21), len := e.2 * 2 ^ 21, dcType := dcType, more := !rest.isEmpty }
    (s.logPush h 4 r).dcRecords h dcType rest

/-- The first refusal of adds offered to a head, judged in order against entries and offered extents (R131). A region that the heads
report with zero length is not defined (R512). -/
def State.checkAdds (s : State) (h : TileId) (pre : List (Nat × Nat)) : List (Nat × Nat × Bool) → Option Nat
  | [] => none
  | e :: rest =>
    let s' := { s with svc := { s.svc with offers := s.svc.offers ++ [Offer.mk h pre] } }
    let hidden := (Option.map s.regionLen (recRegionOf s.cfg.record (e.1 * 2 ^ 21))) = some 0
    let c := s'.checkAdd h e.1 e.2.1
    let code := if c = some 0x180 then c else if hidden ∨ c = some 0x184 then some 0x184 else if e.2.2 then c else some 0x183
    match code with
    | some c => some c
    | none => s.checkAdds h (pre ++ [(e.1, e.2.1)]) rest

/-- INITIATE_DYNAMIC_CAPACITY_ADD (R131, R321, R476): up to 1,024 extents are offered to a head; one refusal refuses the request. The
guest die has no mailbox to answer with: its extents are admitted before the command completes. -/
def execInitiateDynamicCapacityAdd (m : Iface) (s : State) : Host.Outcome State Fault Refusal :=
  s.command m 0x5604 .capacity
    (fun inp => decide (32 ≤ inp.length) && !allOnes 4 (fieldAt inp 28 4) && decide (inp.length = 32 + 40 * fieldAt inp 28 4))
    (mgmt := true) fun inp s =>
    let n := fieldAt inp 28 4
    let es := payloadExtents inp 32 40 n
    let exts := es.map fun e => (e.1, e.2.1)
    match s.fmHead (fieldAt inp 0 2) with
    | none => s.mbFinish m .invalidInput 0x150
    | some h =>
      if fieldAt inp 2 1 % 16 ≠ 2 ∨ n = 0 ∨ n > 1024 then s.mbFinish m .invalidInput 0x153
      else match s.checkAdds h [] es with
        | some c => s.mbFinish m .invalidInput c
        | none =>
          if s.isGuest h then
            let s := forAll exts.eraseDups (fun e s => s.acceptExtent e) s
            { s with svc := { s.svc with waiting := some (m, .add h exts.eraseDups), waitOut := [] } }.addProceed
          else if (s.svc.offers.filter fun (o : Offer) => o.head = h).length ≥ 16 then s.mbFinish m .busy 0x186
          else
            let s := { s with svc := { s.svc with offers := s.svc.offers ++ [Offer.mk h exts] } }
            (s.dcRecords h 0 exts).mbFinish m .success

/-- INITIATE_DYNAMIC_CAPACITY_RELEASE (R132, R321): without force the host is asked to release the ranges; forced removal, and a
release of the guest die's grant, ends the grants at once. -/
def execInitiateDynamicCapacityRelease (m : Iface) (s : State) : Host.Outcome State Fault Refusal :=
  s.command m 0x5605 .capacity
    (fun inp => decide (32 ≤ inp.length) && !allOnes 4 (fieldAt inp 28 4) && decide (inp.length = 32 + 40 * fieldAt inp 28 4))
    (mgmt := true) fun inp s =>
    let n := fieldAt inp 28 4
    let es := payloadExtents inp 32 40 n
    let exts := es.map fun e => (e.1, e.2.1)
    let forced := fieldAt inp 2 1 / 16 % 2 = 1
    match s.fmHead (fieldAt inp 0 2) with
    | none => s.mbFinish m .invalidInput 0x150
    | some h =>
      if fieldAt inp 2 1 % 16 ≠ 1 ∨ n = 0 then s.mbFinish m .invalidInput 0x153
      else match s.releaseRanges h es with
        | .error c => s.mbFinish m .invalidInput c
        | .ok s' =>
          if forced ∨ s.isGuest h then ((s'.releasesEnd h es).dcRecords h 2 exts).mbFinish m .success
          else
            let s := { s with svc := { s.svc with
              releases := s.svc.releases ++ exts.map fun (e : Nat × Nat) => Release.mk h e.1 e.2 true } }
            (s.dcRecords h 1 exts).mbFinish m .success

end Sys2Proof.Machine
end

