-- ==== Sys2Proof/Machine/PoisonCmds.lean ====
section
/-! DEFINITION. The commands on poison and Scan Media (R255 to R258, R309, R353). Payload layouts are those of CXL 3.1 (PRESUMED): a
range is a DPA in bytes and a length in lines. -/

namespace Sys2Proof.Machine

/-- The extent entries that an interface acts under: those granted to the receiving head, or over MCTP all of them (R309). -/
def State.reach (s : State) (m : Iface) : List Extent :=
  match m with
  | .head h _ => s.svc.extents.filter fun (e : Extent) => e.heads.getLsbD h
  | .mctp => s.svc.extents.filter fun (e : Extent) => e.heads ≠ 0

/-- A line lies in one of the entries. -/
def inEntries (es : List Extent) (n : Nat) : Bool := es.any fun (e : Extent) => inRange n e.base e.blocks

/-- Every line of a range lies in some entry: the entries carry the front of the range to its end. -/
def coversRange (es : List Extent) (first len : Nat) : Bool :=
  let step (at_ : Nat) : Nat := es.foldl (fun a (e : Extent) => if inRange a e.base e.blocks then (e.base + e.blocks) * 32768 else a) at_
  decide (first + len ≤ (List.range es.length).foldl (fun a _ => step a) first)

/-- The part of an entry that lies in a range of lines. -/
def clipEntry (e : PoisonEntry) (first len : Nat) : List PoisonEntry :=
  let lo := max e.line first
  let hi := min (e.line + e.len) (first + len)
  if lo < hi then [{ e with line := lo, len := hi - lo }] else []

/-- What an interface sees of a list, within a range of lines. -/
def State.visible (s : State) (m : Iface) (l : List PoisonEntry) (first len : Nat) : List PoisonEntry :=
  l.flatMap fun (e : PoisonEntry) => (s.reach m).flatMap fun (x : Extent) =>
    (clipEntry e first len).flatMap fun (y : PoisonEntry) => clipEntry y (x.base * 32768) (x.blocks * 32768)

/-- The codes that CXL gives the sources of R254. -/
def PoisonSrc.code : PoisonSrc → Nat
  | .unknown => 0 | .external => 1 | .internal => 2 | .injected => 3 | .vendor => 7

/-- A media error record. -/
def poisonRec (e : PoisonEntry) : List Byte := lay [(8, 64 * e.line + e.src.code), (4, e.len), (4, 0)]

/-- A range input (R346): its length in lines is not all ones, and it ends within the capacity. -/
def State.rangeOk (s : State) (inp : List Byte) : Bool :=
  !allOnes 8 (fieldAt inp 8 8) && decide (fieldAt inp 0 8 / 64 + fieldAt inp 8 8 ≤ s.capacity / 64)

/-- GET_POISON_LIST (R255, R309, R346, R347): the entries of a range that the interface admits. -/
def execGetPoisonList (m : Iface) (s : State) : Host.Outcome State Fault Refusal :=
  s.command m 0x4300 .poisonList (fun inp => lenIs 16 inp && s.rangeOk inp) fun inp s =>
    let first := fieldAt inp 0 8 / 64
    let n := fieldAt inp 8 8
    let es := s.visible m s.poison.list first n
    let fit := (es.take (((s.mbox m).limit - 32) / 16))
    if !inEntries (s.reach m) first then s.mbFinish m .invalidAddress
    else if n = 0 then s.mbFinish m .success
    else s.mbFinish m .success 0 (lay [(1, b2n (decide (fit.length < es.length)) + 2 * b2n s.poison.overflow), (9, 0), (2, fit.length),
      (20, 0)] ++ fit.flatMap poisonRec)

/-- A command's own full-line store: Strict, completing the command at its point (R256, R257). -/
def State.commandStore (s : State) (m : Iface) (n : Nat) (data : Line) (poison : Bool) : State :=
  let t := (s.home n).tile
  if !s.ownerStores n then s.mbFinish m .internalError
  else
    let s := { s with svc := { s.svc with waiting := some (m, .store t s.nextReq), waitOut := [] } }
    let src : PoisonSrc := if poison then .injected else .external
    s.newStore t
      { id := 0, head := t, line := n, data := data, mask := BitVec.allOnes 64, region := s.regionOf n, strict := true, poison := poison,
        src := src, internal := true }

/-- Lines that carry the source Injected. -/
def Poison.injected (p : Poison) : Nat := ((p.list.filter fun (e : PoisonEntry) => e.src = .injected).map fun (e : PoisonEntry) => e.len).sum

/-- INJECT_POISON (R257, R353): a poisoned full-line store; at most 256 lines with source Injected. -/
def execInjectPoison (m : Iface) (s : State) : Host.Outcome State Fault Refusal :=
  s.command m 0x4301 .injectPoison (lenIs 8) fun inp s =>
    let n := fieldAt inp 0 8 / 64
    if !inEntries (s.reach m) n then s.mbFinish m .invalidAddress
    else if s.poison.injected ≥ 256 ∧ !s.poison.has n then s.mbFinish m .injectLimit
    else s.commandStore m n 0 true

/-- CLEAR_POISON (R256): the supplied 64 bytes are written as a Strict store. -/
def execClearPoison (m : Iface) (s : State) : Host.Outcome State Fault Refusal :=
  s.command m 0x4302 .injectPoison (lenIs 72) fun inp s =>
    let n := fieldAt inp 0 8 / 64
    if !inEntries (s.reach m) n then s.mbFinish m .invalidAddress
    else s.commandStore m n (bytesLine (bytesAt inp 8 64)) false

/-- GET_SCAN_MEDIA_CAPABILITIES (R258): the estimate in milliseconds, rounded up. -/
def execGetScanMediaCapabilities (m : Iface) (s : State) : Host.Outcome State Fault Refusal :=
  s.command m 0x4303 .injectPoison (fun inp => lenIs 16 inp && s.rangeOk inp) fun inp s =>
    let first := fieldAt inp 0 8 / 64
    let n := fieldAt inp 8 8
    let rate := 2000000 * recT s.cfg.record
    if !coversRange (s.reach m) first n then s.mbFinish m .invalidAddress
    else s.reply m (leBytes 4 ((64 * n + rate - 1) / rate))

/-- SCAN_MEDIA (R258, R349): a background scan of the range; the results of an earlier scan go. -/
def execScanMedia (m : Iface) (s : State) : Host.Outcome State Fault Refusal :=
  s.command m 0x4304 .injectPoison (fun inp => lenIs 17 inp && s.rangeOk inp) (bg := true) fun inp s =>
    if !coversRange (s.reach m) (fieldAt inp 0 8 / 64) (fieldAt inp 8 8) then s.mbFinish m .invalidAddress
    else if s.svc.bg.isSome then s.mbFinish m .busy 0x1B0
    else
      { s with poison := { s.poison with scan := [], scanMore := false, scanRest := (0, 0) } }.startBackground m 0x4304 inp

/-- GET_SCAN_MEDIA_RESULTS (R258, R309, R346): as many whole records as fit in the response limit; those returned are gone. -/
def execGetScanMediaResults (m : Iface) (s : State) : Host.Outcome State Fault Refusal :=
  s.command m 0x4305 .poisonList (lenIs 0) fun _ s =>
    let mine (e : PoisonEntry) : List PoisonEntry := s.visible m [e] e.line e.len
    let seen := s.poison.scan.filter fun (e : PoisonEntry) => mine e ≠ []
    let fit := seen.take (((s.mbox m).limit - 32) / 16)
    let more := decide (fit.length < seen.length) || s.poison.scanMore
    let rest := s.poison.scanRest
    let s' := { s with poison := { s.poison with scan := s.poison.scan.filter fun (e : PoisonEntry) => !fit.contains e } }
    s'.mbFinish m .success 0 (lay [(8, 64 * rest.1), (8, rest.2), (1, b2n more), (1, 0), (2, fit.length), (12, 0)]
      ++ (fit.flatMap mine).flatMap poisonRec)

/-- A line that a scan reports joins the results; with 1,024 entries the indication of more is set (R258). -/
def scanAdd (last : Nat) (p : Poison) (n : Nat) (src : PoisonSrc) : Poison :=
  match p.scan.find? fun (e : PoisonEntry) => e.src = src ∧ e.line + e.len = n with
  | some e => { p with scan := p.scan.map fun (x : PoisonEntry) => if x = e then { e with len := e.len + 1 } else x }
  | none =>
    if p.scan.length < 1024 then { p with scan := p.scan ++ [{ line := n, len := 1, src := src }] }
    else if p.scanMore then p
    else { p with scanMore := true, scanRest := (n, last - n) }

/-- The scan reads page `p` of the range, lines 64p to 64p + 63, as a patrol visit does (R255, R258): a page of a written ring whose
tile serves. A line that no rung gives, and one that decodes as poisoned, is entered in the list and reported; one whose newest value
is elsewhere, or that the mirror peer repairs, is not. -/
def State.scanPage (s : State) (first last p : Nat) (noise : PageNoise) : State :=
  let h := s.home (64 * p)
  if !s.ownerUp h.tile || s.chanOut h.tile (toChan (h.unit / 16)) || !ringWritten s.tiles[h.tile].pl h.unit h.ring then s
  else
    let slot := s.slotOf h
    let (rs, s) := s.pageRead h.tile h.unit slot noise
    let s := s.listPage h.tile h.unit slot (64 * p) rs
    let lost := (pageLost rs).filter fun l => s.homeNewest h.tile (64 * p + l)
    let s := forAll lost (fun l s => s.visitBad h.tile h.unit slot (64 * p + l)) s
    let found := (List.range 64).filter fun l =>
      decide (first ≤ 64 * p + l ∧ 64 * p + l < last) && s.homeNewest h.tile (64 * p + l)
    forAll found (fun l s => match s.poison.list.find? fun e => e.line ≤ 64 * p + l ∧ 64 * p + l < e.line + e.len with
      | some e => { s with poison := scanAdd last s.poison (64 * p + l) e.src }
      | none => s) s

/-- The end of a scan of the range that its command named (R258); `noise` is what the reads of a page got wrong, by its number. -/
def State.scanDone (s : State) (inp : List Byte) (noise : List (Nat × PageNoise)) : State :=
  let first := fieldAt inp 0 8 / 64
  let last := first + fieldAt inp 8 8
  forAll (List.range ((last + 63) / 64 - first / 64)) (fun i s =>
    s.scanPage first last (first / 64 + i) ((tabGet noise (first / 64 + i)).getD ([], []))) s

end Sys2Proof.Machine
end

