-- ==== Sys2Proof/Machine/Firmware.lean ====
section
/-! DEFINITION. The firmware commands (R353, R387, R388, R412, R681 to R683). Payload layouts are those of CXL 3.1 (PRESUMED). -/

namespace Sys2Proof.Machine

/-- The active slot: the bank that the Stag fetches from; 0 under the recovery loader (R353, R412). -/
def State.activeSlot (s : State) : Nat := if s.boot.recovery then 0 else s.tiles[s.lead].cfl.fetchEn.toNat % 3

/-- A slot is staged for the next cold reset. -/
def State.pendingSlot (s : State) : Nat := (s.bootSelect.getD 1 0).toNat

/-- GET_FW_INFO (R353): two slots; a slot that holds no whole image is empty. -/
def execGetFwInfo (m : Iface) (s : State) : Host.Outcome State Fault Refusal :=
  s.command m 0x0200 .identify (lenIs 0) fun _ s =>
    let rev (slot : Nat) : List Byte := ((s.slotImage s.lead slot).map FwImage.revision).getD (List.replicate 16 0)
    s.reply m (lay [(1, 2), (1, s.activeSlot + 8 * (s.pendingSlot % 4)), (1, 0), (13, 0)] ++ rev 1 ++ rev 2 ++ List.replicate 32 0)

/-- The sectors of a slot that a part touches, with whether it begins them and the 256-byte pages that it programs in them. -/
def partSectors (off n : Nat) : List (Nat × Bool × Nat) :=
  ((List.range 512).filter fun k => decide (4096 * k < off + n ∧ off < 4096 * (k + 1))).map fun k =>
    let lo := max off (4096 * k)
    let hi := min (off + n) (4096 * (k + 1))
    (k, decide (off ≤ 4096 * k), (hi + 255) / 256 - lo / 256)

/-- A part is written into the slot of every tile in service (R387); the last operation of the last part completes the image. -/
def State.writePart (s : State) (slot off n : Nat) (img : Option FwImage) : State :=
  let bank : Fin 2 := if slot = 2 then 1 else 0
  let secs := partSectors off n
  forAll s.svcTiles (fun t s =>
    let s := s.modNv t fun v => { v with fw := v.fw.set bank none }
    forAll secs.zipIdx (fun x s =>
      let use : FlashUse := match img with
        | some i => if x.2 + 1 = secs.length then .firmware slot i else .fwPart slot
        | none => .fwPart slot
      s.flashStart t bank { sector := x.1.1, erasing := x.1.2.1, pages := x.1.2.2, use := use }) s) s

/-- The worst case of writing a part, in µs (R416). -/
def partUs (off n : Nat) : Nat := 11900 * (partSectors off n).length

/-- A part is taken: `img` is the image so far, of which the first `off` bytes were received before it (R353); the command waits for every
tile's copy. -/
def State.takePart (s : State) (m : Iface) (slot off : Nat) (img : FwImage) (last : Bool) : State :=
  let n := img.length - off
  if !s.supplyOk (partUs off n) s.svcTiles.length then s.supplyRefused.mbFinish m .busy 0x122
  else
    let s := s.writePart slot off n (if last then some img else none)
    { s with svc := { s.svc with
      fwXfer := if last then none else some (slot, img), waiting := some (m, .flash), waitOut := [] } }

/-- TRANSFER_FW (R353, R387, R412): a whole image, or parts in order, into a slot that the Stag does not fetch from. -/
def execTransferFw (m : Iface) (_ : Unit) (s : State) : Host.Outcome State Fault Refusal :=
  s.command m 0x0201 .identify
    (fun inp => decide (128 ≤ inp.length) && decide (inp.length % 128 = 0) && !allOnes 4 (fieldAt inp 4 4)
      && decide (128 * fieldAt inp 4 4 + (inp.length - 128) ≤ 2 ^ 21)) (mgmt := true) fun inp s =>
    let action := fieldAt inp 0 1
    let slot := fieldAt inp 1 1
    let off := 128 * fieldAt inp 4 4
    let data := inp.drop 128
    if action > 4 then s.mbFinish m .invalidInput
    else if action = 4 then
      match s.svc.fwXfer with
      | some _ => { s with svc := { s.svc with fwXfer := none } }.mbFinish m .success
      | none => s.mbFinish m .success
    else if action ≤ 1 then
      if slot ≠ 1 ∧ slot ≠ 2 then s.mbFinish m .invalidSlot
      else if slot = s.activeSlot then
        let s := s.modCfl s.lead fun c => { c with samebank := true }
        (s.raise (mkEv 0x7021 .info s.lead 0)).mbFinish m .invalidSlot 0x121
      else if s.svc.fwXfer.isSome then s.mbFinish m .fwInProgress
      else if off ≠ 0 ∨ data = [] then s.mbFinish m .fwOutOfOrder
      else s.takePart m slot 0 data (action = 0)
    else match s.svc.fwXfer with
      | none => s.mbFinish m .fwOutOfOrder
      | some x =>
        if off ≠ x.2.length ∨ data = [] then s.mbFinish m .fwOutOfOrder else s.takePart m x.1 off (x.2 ++ data) (action = 3)

/-- ACTIVATE_FW (R353, R386, R388, R682): at the next cold reset only; a slot that verifies becomes PENDING_SLOT. -/
def execActivateFw (m : Iface) (s : State) : Host.Outcome State Fault Refusal :=
  s.command m 0x0202 .identify (lenIs 2) (mgmt := true) fun inp s =>
    let slot := fieldAt inp 1 1
    if fieldAt inp 0 1 ≠ 1 then s.mbFinish m .invalidInput
    else if slot ≠ 1 ∧ slot ≠ 2 then s.mbFinish m .invalidSlot
    else if s.svc.fwXfer.any fun x => x.1 = slot then s.mbFinish m .fwInProgress
    else match s.slotImage s.lead slot with
      | none => s.mbFinish m .invalidSlot
      | some i =>
        match s.fwCheck i with
        | some code =>
          let e := if code = 0x1A1 then mkEv 0x8031 .warn s.lead 0 [(3, i.secVersion), (3, (s.ladder 10).1)]
            else mkEv 0x8030 .warn s.lead 0 [(1, (s.fwFails i).getD 0)]
          (s.raise e).mbFinish m .fwVerify code
        | none =>
          if !s.supplyOk 50 s.svcTiles.length then s.supplyRefused.mbFinish m .busy 0x122
          else
            let s := s.twinEnqueue 1 1 (putBytes s.bootSelect 1 [BitVec.ofNat 8 slot, 0])
            { s with svc := { s.svc with
              waiting := some (m, .prm), waitOut := [], recoveryRestart := s.svc.recoveryRestart || s.boot.recovery } }

end Sys2Proof.Machine
end

