-- ==== Sys2Proof/Machine/Security.lean ====
section
/-! DEFINITION. Passphrases, erase, readout protection and debug access (R373, R429, R674 to R680, R687, R688, R708). Payload layouts of
standard commands are those of CXL 3.1 (PRESUMED); a passphrase type is 0 for master and 1 for user. -/

namespace Sys2Proof.Machine

/-- The governing key set of the lead. -/
def State.keySet (s : State) : KeySet := (keySetOf s.nv[s.lead]).1.getD {}

/-- The copy that the next write takes (R675): the one that is not valid, else the one with the lower GEN, else copy 1. -/
def State.keyTarget (s : State) : Fin 2 :=
  match s.nv[s.lead].keys[(0 : Fin 2)], s.nv[s.lead].keys[(1 : Fin 2)] with
  | none, _ => 0
  | _, none => 1
  | some a, some b => if a.gen.toNat < b.gen.toNat then 0 else 1

/-- The worst case of writing a key-set copy: 32 pages (R430, R674). -/
def keySetUs : Nat := 1600

/-- An erase runs. -/
def State.erasing (s : State) : Bool :=
  s.sec.eraseStep ≠ 0 || s.svc.bg.any fun (b : Background) => b.opcode = 0x4400 || b.opcode = 0x4401 || b.opcode = 0x4505

/-- The verifier of a type (R674). -/
def KeySet.pw (k : KeySet) (user : Bool) : Option (BitVec 128 × BitVec 256) := if user then k.userPw else k.masterPw

def KeySet.setPw (k : KeySet) (user : Bool) (v : Option (BitVec 128 × BitVec 256)) : KeySet :=
  if user then { k with userPw := v } else { k with masterPw := v }

/-- TAG of R678: the first 32 bytes of HMAC-SHA-384 over SALT and the passphrase. -/
def pwTag (salt : BitVec 128) (pw : List Byte) : BitVec 256 :=
  BitVec.ofNat 256 (leNat ((verifierMac (leBytes 16 salt.toNat) pw).take 32))

/-- A passphrase matches its verifier. -/
def pwMatches (v : BitVec 128 × BitVec 256) (pw : List Byte) : Bool := decide (pwTag v.1 pw = v.2)

/-- Wrong passphrases of a type that are still allowed (R676). -/
def State.tries (s : State) (user : Bool) : BitVec 4 := if user then s.sec.userTries else s.sec.masterTries

/-- A wrong passphrase (R676, R689): one try less with WARN event 0x8002, and ERROR event 0x8003 at the limit. -/
def State.wrongPw (s : State) (m : Iface) (user : Bool) : State :=
  let left := s.tries user - 1
  let s := { s with sec := if user then { s.sec with userTries := left } else { s.sec with masterTries := left } }
  let s := s.raise (mkEv 0x8002 .warn s.lead 0 [(1, b2n user)])
  let s := if left = 0 then s.raise (mkEv 0x8003 .error s.lead 0 [(1, b2n user)]) else s
  s.mbFinish m .passphrase

/-- The conditions of R676 on a command that takes a passphrase of a type: an erase that runs, the frozen state, the attempt limit, the
passphrase itself where one is set. -/
def State.withPw (s : State) (m : Iface) (user : Bool) (pw : List Byte) (ok : State → State) : State :=
  if s.erasing then s.mbFinish m .busy 0x1B0
  else if s.sec.frozen ∨ s.tries user = 0 then s.mbFinish m .securityState
  else match s.keySet.pw user with
    | none => ok s
    | some v => if pwMatches v pw then ok s else s.wrongPw m user

/-- A changed key set is stored after a supply check, and the command waits for its copy (R675, R688). -/
def State.storeKeySet (s : State) (m : Iface) (k : KeySet) : State :=
  if !s.supplyOk keySetUs s.svcTiles.length then s.supplyRefused.mbFinish m .busy 0x122
  else
    let s := s.keyStart s.keyTarget { k with gen := s.keySet.gen + 1 }
    { s with svc := { s.svc with waiting := some (m, .keys), waitOut := [] } }

/-- GET_SECURITY_STATE (R676). -/
def execGetSecurityState (m : Iface) (s : State) : Host.Outcome State Fault Refusal :=
  s.command m 0x4500 .identify (lenIs 0) fun _ s =>
    let k := s.keySet
    s.reply m (leBytes 4 (b2n k.userPw.isSome + 2 * b2n k.masterPw.isSome + 4 * b2n s.sec.locked + 8 * b2n s.sec.frozen
      + 16 * b2n (decide (s.sec.userTries = 0)) + 32 * b2n (decide (s.sec.masterTries = 0))))

/-- SET_PASSPHRASE (R676, R678). -/
def execSetPassphrase (m : Iface) (s : State) : Host.Outcome State Fault Refusal :=
  s.command m 0x4501 .setPassphrase (lenIs 96) (mgmt := true) fun inp s =>
    let user := decide (fieldAt inp 0 1 = 1)
    if fieldAt inp 0 1 > 1 then s.mbFinish m .invalidInput
    else s.withPw m user (bytesAt inp 32 32) fun s =>
      let (v, s) := s.draw
      let salt := BitVec.ofNat 128 v
      s.storeKeySet m (s.keySet.setPw user (some (salt, pwTag salt (bytesAt inp 64 32))))

/-- DISABLE_PASSPHRASE (R676): a passphrase that is not set cannot be disabled. -/
def execDisablePassphrase (m : Iface) (s : State) : Host.Outcome State Fault Refusal :=
  s.command m 0x4502 .setPassphrase (lenIs 64) (mgmt := true) fun inp s =>
    let user := decide (fieldAt inp 0 1 = 1)
    if fieldAt inp 0 1 > 1 then s.mbFinish m .invalidInput
    else s.withPw m user (bytesAt inp 32 32) fun s =>
      if (s.keySet.pw user).isNone then s.mbFinish m .securityState else s.storeKeySet m (s.keySet.setPw user none)

/-- UNLOCK (R677, R688): the user passphrase admits CXL.mem at every head. -/
def execUnlock (m : Iface) (s : State) : Host.Outcome State Fault Refusal :=
  s.command m 0x4503 .setPassphrase (lenIs 32) (mgmt := true) fun inp s =>
    s.withPw m true (bytesAt inp 0 32) fun s =>
      let s := { s with sec := { s.sec with locked := false } }
      (s.raise (mkEv 0x8001 .info s.lead 0)).mbFinish m .success

/-- FREEZE_SECURITY_STATE (R676): until the next package reset. -/
def execFreezeSecurityState (m : Iface) (s : State) : Host.Outcome State Fault Refusal :=
  s.command m 0x4504 .setPassphrase (lenIs 0) (mgmt := true) fun _ s =>
    { s with sec := { s.sec with frozen := true } }.mbFinish m .success

/-! ### Erase (R679, R680) -/

/-- An erase starts: after a supply check of steps 1 to 3 a copy of the key set is written with new keys, ERASE_PENDING and its kind
(R680), and the EPOCH that the ladder will take. -/
def State.startErase (s : State) (m : Iface) (op kind : Nat) (inp : List Byte) : State :=
  if !s.supplyOk (2 * keySetUs) s.svcTiles.length then s.supplyRefused.mbFinish m .busy 0x122
  else
    let k := s.keySet
    let new : KeySet :=
      { k with gen := k.gen + 1, epoch := BitVec.ofNat 32 ((s.ladder 12).1 + 1), pending := true, kind := BitVec.ofNat 3 kind
               keys := s.sec.nextDraw }
    let s := { s with sec := { s.sec with nextDraw := s.sec.nextDraw + 1, eraseStep := 2 } }
    (s.keyStart s.keyTarget new).startBackground m op inp

/-- SANITIZE (R679, R680): refused while locked. -/
def execSanitize (m : Iface) (s : State) : Host.Outcome State Fault Refusal :=
  s.command m 0x4400 .injectPoison (lenIs 0) (mgmt := true) (bg := true) fun inp s =>
    if s.svc.bg.isSome then s.mbFinish m .busy 0x1B0
    else if s.sec.locked then s.mbFinish m .securityState
    else s.startErase m 0x4400 1 inp

/-- SECURE_ERASE (R679, R680): refused while locked. -/
def execSecureErase (m : Iface) (s : State) : Host.Outcome State Fault Refusal :=
  s.command m 0x4401 .injectPoison (lenIs 0) (mgmt := true) (bg := true) fun inp s =>
    if s.svc.bg.isSome then s.mbFinish m .busy 0x1B0
    else if s.sec.locked then s.mbFinish m .securityState
    else s.startErase m 0x4401 2 inp

/-- PASSPHRASE_SECURE_ERASE (R676, R679, R680): with the passphrase of a type; while locked that passphrase must be set. -/
def execPassphraseSecureErase (m : Iface) (s : State) : Host.Outcome State Fault Refusal :=
  s.command m 0x4505 .injectPoison (lenIs 64) (mgmt := true) (bg := true) fun inp s =>
    let user := decide (fieldAt inp 0 1 = 1)
    if fieldAt inp 0 1 > 1 then s.mbFinish m .invalidInput
    else if s.svc.bg.isSome then s.mbFinish m .busy 0x1B0
    else if s.sec.locked ∧ (s.keySet.pw user).isNone then s.mbFinish m .securityState
    else s.withPw m user (bytesAt inp 32 32) fun s => s.startErase m 0x4505 3 inp

/-! ### Background completion (R349 to R351) -/

/-- The background operation ends: its status is posted in the mailbox that started it, INFO event 0x9020 is raised and vector 0 of that
head is signalled (R349, R350). -/
def State.endBackground (s : State) (b : Background) (code : Ret) (ext : Nat) : State :=
  let m : Iface := match b.head with
    | some h => .head h false
    | none => .mctp
  let s := { s with svc := { s.svc with
    bg := none, lastBg := some (b.opcode, BitVec.ofNat 16 code.code, BitVec.ofNat 16 ext) } }
  let s := s.modMb m fun x => if x.bgActive && x.bgOpcode = b.opcode then
      { x with bgActive := false, bgPercent := 100, bgStatus := BitVec.ofNat 16 code.code, bgExt := BitVec.ofNat 16 ext }
    else x
  let s := s.raise (mkEv 0x9020 .info s.lead 0 [(2, b.seqNo.toNat), (2, b.opcode.toNat), (2, code.code)] 0 ext)
  match b.head with
  | some h => if s.heads[h].mb[0].bgIrq then s.vector h 0 else s
  | none => s

/-- Steps 4 to 6 of a running erase, after a supply check of their stores (R680). -/
def State.eraseRest (s : State) : State :=
  let s := s.finishErase s.keySet
  { s with sec := { s.sec with erases := satAdd s.sec.erases 1 } }

/-- BACKGROUND_OP_COMPLETE (R258, R349 to R351, R680): the running operation ends. `noise` is what a scan's reads of a page got wrong, by the
page's number. An erase ends once its key sets are written and the supply check of its last steps passes; a discovery once it has settled, or
at its abort with the routes held before. -/
def execBackgroundOpComplete (noise : List (Nat × PageNoise)) (s : State) : Host.Outcome State Fault Refusal :=
  match s.svc.bg with
  | none => .next s
  | some b =>
    let code : Ret := if b.abortReq then .aborted else .success
    if b.opcode = 0x4304 then .next ((s.scanDone b.input noise).endBackground b code 0)
    else if b.opcode = 0xC060 then
      if b.abortReq then
        let s := { s with mesh := { s.mesh with discovering := false, dropTable := false } }
        .next (s.sendHeld.endBackground b code 0)
      else if s.mesh.discovering then .next s else .next (s.endBackground b code 0)
    else if s.sec.eraseStep ≠ 4 ∨ s.sec.keyWrite.isSome then .next s
    else if !s.supplyOk (2 * keySetUs + 100) s.svcTiles.length then .next s.supplyRefused
    else .next (s.eraseRest.endBackground b .success 0)

/-! ### Readout protection (R373, R409, R429) -/

/-- The option word of a level (R407). -/
def rdpWord : Nat → BitVec 16
  | 0 => 0x5AA5 | 2 => 0x3CC3 | _ => 0x0000

/-- The level in force of the lead. -/
def State.rdp (s : State) : Nat := if s.fuses.rdpFuse then 2 else s.tiles[s.lead].cfl.rdp.toNat

/-- An option entry: its word with the inverse half (R407). -/
def optEntry (w : BitVec 16) : BitVec 32 := w.setWidth 32 ||| ((~~~ w).setWidth 32 <<< 16)

/-- Raising (R373, R409, R429): for level 2 the fuse is blown first; the level is in force before the command completes, which waits for
the option area. -/
def State.raiseRdp (s : State) (m : Iface) (level : Nat) : State :=
  if !s.supplyOk 11900 1 then s.supplyRefused.mbFinish m .busy 0x122
  else
    let old := s.rdp
    let w := s.cfg.optWords
    let s := { s with
      fuses := if level = 2 then { s.fuses with rdpFuse := true } else s.fuses
      cfg := { s.cfg with optWords := w.set 1 (rdpWord level) }
      tiles := vmap s.tiles fun _ x => { x with cfl := { x.cfl with rdp := BitVec.ofNat 2 level } } }
    let s := s.raise (mkEv 0x8040 .info s.lead 0 [(1, old), (1, level)])
    let s := s.flashStart s.lead 0
      { sector := 1024, erasing := true, pages := 1, use := .option [optEntry w[0], optEntry (rdpWord level), optEntry w[2], optEntry w[3]] }
    { s with svc := { s.svc with waiting := some (m, .flash), waitOut := [] } }

/-- SET_READOUT_PROTECTION (R373, R380): the current level is left as it is; level 2 is permanent; level 1 is lowered in CONFIG_HOLD and
FAILED only, and the erase follows. -/
def execSetReadoutProtection (m : Iface) (s : State) : Host.Outcome State Fault Refusal :=
  s.command m 0xC080 .loadConfig (lenIs 8) (mgmt := true) fun inp s =>
    let level := fieldAt inp 0 1
    let confirm := fieldAt inp 2 2
    let cur := s.rdp
    if level > 2 then s.mbFinish m .invalidInput 0x153
    else if level = cur then s.mbFinish m .success
    else if cur = 2 then s.mbFinish m .invalidInput 0x140
    else if level < cur ∧ s.sys.state.isServing then s.mbFinish m .invalidInput s.inState
    else if confirm ≠ (if level = 2 then 0x4C32 else if level < cur then 0x4C30 else 0) then s.mbFinish m .invalidInput 0x141
    else if level < cur then s.markRdp.mbFinish m .success
    else s.raiseRdp m level

/-- What the whole config flash holds after its erase (R373 step 2): every tag is programmed anew, and no journal entry is open. -/
def eraseAll (v : TileNv) : TileNv :=
  { v with
    tags := v.tags.map fun x => (x.1, sectorTag (erasesOf v x.1 + 1)), fullErases := v.fullErases + 1, journals := .replicate 2 []
    fw := .replicate 2 none, copies := .replicate 2 [], lsa := [], evFlash := [], evPos := 0, bb := [], bbFill := 0xFFFF }

/-- RDP_ERASE_DONE (R373 steps 2 and 3): the config flash of every tile is erased, the option area is written with level 0 and the
defaults, the mark is cleared, and the part resets into the recovery loader. -/
def execRdpEraseDone (s : State) : Host.Outcome State Fault Refusal :=
  if !s.svc.rdpPending then .next s
  else
    let s := { s with nv := vmap s.nv fun _ v => eraseAll v }
    let s := s.modNv s.lead fun v => { v with opt := [optEntry 1, optEntry (rdpWord 0), optEntry 0x6250, optEntry 0] }
    let s := s.raise (mkEv 0x8040 .info s.lead 0 [(1, 1), (1, 0)])
    let s := s.twinWrite 1 (putBytes s.bootSelect 3 ([0] : List Byte))
    .next (s.packageReset .recoveryRestart)

/-! ### Debug (R687, R708) -/

/-- The part field of a TAP's IDCODE (R708): TAP 0 is the package supervisor's, TAP t + 1 that of tile t. -/
def State.tapPart (s : State) (tap : Fin 9) : Nat := if tap.val = 0 then deviceId s.fuses.variant else 0x48D0

/-- JTAG_ACCESS (R687, R708): served or blocked by the level of readout protection. A tile field without a tile is a bypass stage; at
level 2 TDO is not driven. A blocked access returns zeros. What a scan, a debug access or a memory read returns is free. -/
def execJtagAccess (tap : Fin 9) (kind : JtagKind) (_addr : Nat) (s : State) : Host.Outcome State Fault Refusal :=
  let level := s.rdp
  let there := tap.val = 0 || (fittedMask s.fuses.variant).getLsbD (tap.val - 1)
  let put (r : Option (List Byte)) (s : State) : State := { s with svc := { s.svc with jtag := r } }
  if !s.aon.vaon || !there then .next s
  else
    let open_ := level = 0 || (level = 1 && (kind = .idcode || kind = .boundary))
    if !open_ then
      let s := { s with sys := { s.sys with roundDebug := s.sys.roundDebug + 1 } }
      .next (put (if level = 2 then none else some [0, 0, 0, 0]) s)
    else if kind = .idcode then
      .next (put (some (leBytes 4 (Config.jep106.toNat + 4096 * s.tapPart tap + 2 ^ 28 * Config.idVersion.toNat))) s)
    else
      let (v, s) := s.draw
      .next (put (some (leBytes 4 v)) s)

end Sys2Proof.Machine
end

