-- ==== Sys2Proof/Machine/Sideband.lean ====
section
/-! DEFINITION. The sideband (R25, R348, R434, R435, R603, R604, R707): the EEPROM-emulation window, the readouts, MCTP and I3C. -/

namespace Sys2Proof.Machine

/-- The result of a transfer: acknowledged in full or not, with the bytes that it returned. It ungates the sideband's clock. -/
def State.sbEnd (s : State) (ack : Bool) (reply : List Byte := []) : State := { s.ungatePkg 5 with svc := { s.svc with sbAck := ack, reply := reply } }

/-- The sideband acknowledges: package reset release has happened (the pin table of Signals, Package and Electrical Limits). -/
def State.sbUp (s : State) : Bool := s.aon.vaon && s.boot.released

/-- The window's address is not acknowledged while a sideband write runs (R434). -/
def State.sbBusy (s : State) : Bool := s.prm.queue.any fun (w : PageWrite) => w.tag = 2

/-- The lowest window offset that BP protects (R435). -/
def protectedFrom (bp : BitVec 2) : Nat :=
  match bp.toNat with
  | 1 => 1536 | 2 => 1024 | 3 => 0 | _ => 2048

/-- A page with bytes written from offset `w` on, wrapping within the page (R434). -/
def pageWrap (page : List Byte) (w : Nat) (data : List Byte) : List Byte :=
  data.zipIdx.foldl (fun p b => p.set ((w + b.2) % 64) b.1) page

/-- A page of the lead's store once every write that waits has been performed (R436). -/
def State.pageAfter (s : State) (p : Nat) : List Byte :=
  (s.prm.queue.filter fun (w : PageWrite) => w.addr / 64 = p).foldl
    (fun page (w : PageWrite) => putBytes page (w.addr % 64) w.bytes) (s.prmPage p)

/-- SIDEBAND_EEPROM_WRITE (R348, R434, R435, R440): one page write, wrapping in its page. A start outside the window, a count of all ones or
beyond 64, or a refusal by the supply check is not acknowledged; a write that touches a protected byte is acknowledged and counted. -/
def execSidebandEepromWrite (offset : BitVec 16) (count : BitVec 8) (data : List Byte) (s : State) : Host.Outcome State Fault Refusal :=
  let w := offset.toNat
  let n := count.toNat
  let page := 992 + w / 64
  if !s.sbUp || s.sbBusy || w ≥ 2048 || n > 64 then .next (s.sbEnd false)
  else if n = 0 then .next (s.sbEnd true)
  else if data.length < n then .next (s.sbEnd false)
  else if w - w % 64 ≥ protectedFrom s.prm.bp then
    .next ({ s with prm := { s.prm with sbProtectHits := satAdd s.prm.sbProtectHits 1 } }.sbEnd true)
  else if !s.supplyOk 50 1 then
    let s := s.supplyRefused
    .next ({ s with prm := { s.prm with sbSupplyRefused := satAdd s.prm.sbSupplyRefused 1 } }.sbEnd false)
  else
    .next ((s.prmEnqueue 2 (64 * page) (pageWrap (s.pageAfter page) (w % 64) (data.take n))).sbEnd true)

/-- SIDEBAND_EEPROM_READ (R348, R434): bytes of the window, from 2,047 on to 0. -/
def execSidebandEepromRead (offset : BitVec 16) (count : BitVec 8) (s : State) : Host.Outcome State Fault Refusal :=
  let w := offset.toNat
  let n := count.toNat
  if !s.sbUp || s.sbBusy || w ≥ 2048 || n = 255 then .next (s.sbEnd false)
  else
    let window := s.prmBytes s.lead 0xF800 2048
    .next (s.sbEnd true ((List.range n).map fun k => window.getD ((w + k) % 2048) 0))

/-- SIDEBAND_THERMAL_READOUT (R603): its 8 bytes. -/
def execSidebandThermalReadout (s : State) : Host.Outcome State Fault Refusal :=
  if !s.sbUp then .next (s.sbEnd false)
  else
    let x := s.thm
    let some_ (f : TileThm → Bool) : Nat := b2n (s.svcTiles.any fun (t : TileId) => f s.tiles[t].thm)
    let flags := b2n x.trip + 2 * some_ (fun y => y.excluded ≠ 0) + 4 * some_ (fun y => y.hold ≠ 0) + 8 * some_ (fun y => y.stale)
    .next (s.sbEnd true (lay [(2, x.ctrlMax.toNat), (2, x.mediaMax.toNat), (1, if x.active then x.imposed.toNat else 0xFF), (1, flags),
      (2, s.clk.round.toNat)]))

/-- The 8 bytes of the status readout (R604), from the supervisor's own latches and the lead's last report. -/
def State.statusReadout (s : State) : List Byte :=
  let lone := s.sys.loneLost
  let r := s.clk.report
  let inService : BitVec 8 := if s.sys.lead.isNone then 0 else (r.map fun (x : DevState × BitVec 8 × Bool) => x.2.1).getD 0
  let map := { s with sys := { s.sys with inService := inService, rescueLead := (r.map fun (x : DevState × BitVec 8 × Bool) => x.2.2).getD false } }.tileMap
  let state := if lone && s.sys.state = .failed then 0xA else if s.sys.lead.isNone then 0 else (r.map fun (x : DevState × BitVec 8 × Bool) => x.1.code).getD 0
  let ready := s.sys.mbReady && s.sys.state ≠ .flushing && !lone
  let flags := b2n s.sys.noLead + 2 * b2n ready + 4 * b2n (lone || decide (s.clk.noReport ≥ 10))
  lay [(4, map.toNat), (1, state), (1, flags), (1, s.boot.cause.code), (1, 0)]

/-- SIDEBAND_STATUS_READOUT (R25, R604, R712). -/
def execSidebandStatusReadout (s : State) : Host.Outcome State Fault Refusal :=
  .next (if s.sbUp then s.sbEnd true s.statusReadout else s.sbEnd false)

/-- MCTP_REQUEST (R25, R340): a command for the sideband endpoint's mailbox; without a lead that serves it, the not-ready completion of
MCTP. A second request while one waits is not taken. -/
def execMctpRequest (opcode : BitVec 16) (input : List Byte) (s : State) : Host.Outcome State Fault Refusal :=
  if !s.sbUp then .next (s.sbEnd false)
  else if s.sys.lead.isNone || !s.sys.mbReady || s.sys.loneLost then .next (s.sbEnd true [0x04])
  else if s.svc.mctp.doorbell then .next (s.sbEnd true)
  else
    let s := s.sbEnd true
    .next (s.modMb .mctp fun b => { b with doorbell := true, cmd := some { opcode := opcode, input := input } })

/-- The static address of the MCTP endpoint (R407). -/
def State.mctpAddr (s : State) : BitVec 7 := (s.cfg.optWords[2] >>> 8).setWidth 7

/-- I3C_SETDASA (R707): from the MCTP static address. -/
def execI3cSetdasa (static : BitVec 7) (dynamic : BitVec 7) (s : State) : Host.Outcome State Fault Refusal :=
  if !s.sbUp || static ≠ s.mctpAddr then .next (s.sbEnd false)
  else .next ({ s with svc := { s.svc with i3cAddr := some dynamic, i3cMode := true } }.sbEnd true)

/-- I3C_SETAASA (R707): the static address becomes the dynamic address. -/
def execI3cSetaasa (s : State) : Host.Outcome State Fault Refusal :=
  if !s.sbUp then .next (s.sbEnd false)
  else .next ({ s with svc := { s.svc with i3cAddr := some s.mctpAddr, i3cMode := true } }.sbEnd true)

/-- I3C_RSTDAA (R707): the sideband returns to SMBus. -/
def execI3cRstdaa (s : State) : Host.Outcome State Fault Refusal :=
  if !s.sbUp then .next (s.sbEnd false)
  else .next ({ s with svc := { s.svc with i3cAddr := none, i3cMode := false } }.sbEnd true)

/-- SMBUS_CLOCK_LOW_TIMEOUT (R707): the running transfer is abandoned. -/
def execSmbusClockLowTimeout (s : State) : Host.Outcome State Fault Refusal :=
  if !s.sbUp || s.svc.i3cMode then .next s else .next (s.sbEnd false)

end Sys2Proof.Machine
end

