-- ==== Sys2Proof/Machine/WidarMsg.lean ====
section
/-! DEFINITION. Widar messages at their destination (R35, R467 to R483): requests, judged and performed by the window that their address
lies in, heartbeats, responses, and the Stag's stores and fences. -/

namespace Sys2Proof.Machine

/-! ### Taking a message -/

/-- A message that is the oldest of its source and class in tile t's class queues leaves them, and its slots are credited (R467, R478);
with the port it came on, 9 for the tile's own. None where it does not wait there. -/
def State.wTake (s : State) (t : TileId) (m : Msg) : Option (Nat × State) :=
  match s.fab[t].rxq.find? fun x => x.2.src = m.src ∧ msgRsp x.2 = msgRsp m with
  | none => none
  | some x =>
    if x.2 ≠ m || !s.sys.selftestPass.getLsbD t then none
    else
      let s := s.modFab t fun f => { f with rxq := f.rxq.erase x }
      some (x.1, if x.1 < 4 then s.creditMsg (.widar t (toChan x.1)) (msgRsp m) (msgSlots m) else s)

/-- The port of a message as an argument of wReject. -/
def rxPort (p : Nat) : Option (Fin 4) := if p < 4 then some (toChan p) else none

/-! ### Windows (R473, R474) -/

/-- The window of an address, with the offset in it. -/
inductive Window where
  | dpa (a : Nat) | package (block off : Nat) | regs (block off : Nat) | tcm (a : Nat) | velvet (a : Nat) | cache (a : Nat) | tags (a : Nat)
  | media (a : Nat) | unmapped
deriving DecidableEq, Repr

/-- The windows that tile t serves. -/
def State.window (s : State) (t : TileId) (addr : BitVec 52) : Window :=
  let a := addr.toNat
  if a < 2 ^ 44 then (if a < s.capacity then .dpa a else .unmapped)
  else if 2 ^ 45 ≤ a ∧ a < 2 ^ 45 + 2 ^ 20 then
    let b := a / 4096 % 256
    if b = 0x0A ∨ b = 0x0C ∨ b = 0x0D then .package b (a % 4096) else .unmapped
  else if a < 2 ^ 51 ∨ a / 2 ^ 48 % 8 ≠ t.val then .unmapped
  else
    let o := a % 2 ^ 48
    let b := o / 4096
    if o < 2 ^ 20 then (if 1 ≤ b ∧ b ≤ 0x16 ∧ b ≠ 0x0A ∧ b ≠ 0x0C ∧ b ≠ 0x0D then .regs b (o % 4096) else .unmapped)
    else if 0x10000000 ≤ o ∧ o < 0x10080000 then .tcm (o - 0x10000000)
    else if 0x20000000 ≤ o ∧ o < 0x20040000 then .velvet (o - 0x20000000)
    else if 0x40000000 ≤ o ∧ o < 0x41000000 then .cache (o - 0x40000000)
    else if 0x50000000 ≤ o ∧ o < 0x50200000 then .tags (o - 0x50000000)
    else if 2 ^ 47 ≤ o then .media (o - 2 ^ 47)
    else .unmapped

/-- A register block of either kind. -/
def Window.isRegs : Window → Bool
  | .package _ _ => true
  | .regs _ _ => true
  | _ => false

/-- A source is the guest die: position 7 of a YD-4871G. -/
def State.srcGuest (s : State) (m : Msg) : Bool := m.src = 7 && decide (s.fuses.variant = .yd4871g)

/-- A tile has been declared lost (R36). -/
def State.isLost (s : State) (t : TileId) : Bool := s.sys.selftestPass.getLsbD t && !s.inSvc t

/-- Access rights (R475). -/
def State.mayAccess (s : State) (t : TileId) (m : Msg) (write : Bool) (w : Window) : Bool :=
  let guest := s.srcGuest m
  let own := !guest && m.src.toNat = t.val
  let lead := !guest && s.sys.lead.any fun (l : TileId) => l.val = m.src.toNat
  match w with
  | .dpa _ => true
  | .package _ _ => lead
  | .regs _ _ => !guest && (own || lead || !write)
  | .tcm _ => own || lead
  | .velvet _ => own || (lead && !write)
  | .cache a => decide (16 - s.tiles[t].d.scratchWays.toNat ≤ a / 2 ^ 20) || (lead && !write && s.isLost t)
  | .tags _ => lead && !write && s.isLost t
  | .media _ => !guest && !write
  | .unmapped => true

/-- The length rules of R471. -/
def lengthOk (m : Msg) (w : Window) : Bool :=
  let n := m.len.toNat
  let a := m.addr.toNat
  let need := if m.opcode = 2 then (n + 15) / 16 else 0
  decide (m.dslots.toNat ≤ 4 ∧ n ≤ 64 ∧ a % 64 + n ≤ 64 ∧ m.dslots.toNat = need) && (!w.isRegs || decide (n = 4 ∧ a % 4 = 0))

/-- The verdict on an RD or WR: LENGTH, then a length of zero with OK, then UNMAPPED, DENIED and STATE; none where it is performed. -/
def State.wJudge (s : State) (t : TileId) (m : Msg) : Option Nat :=
  let w := s.window t m.addr
  let write := decide (m.opcode = 2)
  if !lengthOk m w then some 4
  else if m.len = 0 then some 0
  else if w = .unmapped then some 3
  else if !s.mayAccess t m write w then some 2
  else match w with
    | .dpa a =>
      if !s.sys.state.isServing then some 7
      else if write && !s.ownerStores (a / 64) then some 7 else none
    | _ => none

/-! ### Contents of the windows -/

/-- A record of the flush journal as bytes (R560). -/
def journalBytes (t : TileId) (r : BitVec 32 × BitVec 8 × Nat × Nat × Bool) : List Byte :=
  let b := leBytes 4 r.1.toNat ++ [r.2.1, BitVec.ofNat 8 t.val, 0, 0] ++ leBytes 8 r.2.2.1 ++ leBytes 8 r.2.2.2.1 ++ List.replicate 6 0
  b ++ leBytes 2 (crc16 b).toNat

/-- A byte of Velvet: the flush journal holds its records from 0x8000 on; a torn record reads as its cells. -/
def State.velvetByte (s : State) (t : TileId) (a : Nat) : Byte :=
  let cell := Sparse.get (0 : Byte) s.fab[t].velvet a
  if a < 0x8000 then cell
  else match s.nv[t].velvetJ[(a - 0x8000) / 32]? with
    | some r => if r.2.2.2.2 then cell else (journalBytes t r).getD ((a - 0x8000) % 32) 0
    | none => cell

/-- The line of a way and set of the cache. -/
def State.lineAt (s : State) (t : TileId) (way set : Nat) : Option CLine :=
  s.tiles[t].d.cache.find? fun (l : CLine) => l.way = way ∧ cacheSet (s.home l.line) = set

/-- A byte of the cache array: a scratch way's own, or that of the line that a cacheable way holds. -/
def State.cacheByte (s : State) (t : TileId) (a : Nat) : Byte :=
  if 16 - s.tiles[t].d.scratchWays.toNat ≤ a / 2 ^ 20 then Sparse.get (0 : Byte) s.tiles[t].d.scratch a
  else ((s.lineAt t (a / 2 ^ 20) (a / 64 % 16384)).map fun (l : CLine) => (lineBytes l.data).getD (a % 64) 0).getD 0

/-- The code of a cache state (R148). -/
def CState.code : CState → Nat
  | .clean => 1 | .dirty => 2 | .staging => 3 | .stream => 4

/-- A tag entry (R474). -/
def State.tagWord (s : State) (t : TileId) (set way : Nat) : Nat :=
  match s.lineAt t way set with
  | none => 0
  | some l =>
    let h := s.home l.line
    h.unit + 2 ^ 6 * (h.pidx / 256) + 2 ^ 21 * l.st.code + 2 ^ 24 * b2n l.poison + 2 ^ 25 * b2n l.postedDirty

/-- The 128 bytes of the media window at a line's media address (R474): the stored line's 80 bytes, descrambled and not decoded, and
zeros. The window names no MODE: a place that holds a stripe gives that, any other its MLC line (DESIGN CHOICE, log 101). Places
that no die serves, and offsets beyond the lines, hold nothing that the spec states. -/
def State.mediaLine (s : State) (t : TileId) (n : Nat) : List Byte × State :=
  let c := toChan (n / 2 ^ 34)
  let o : YOperand := { part := n / 2 ^ 27 % 16, slot := n / 2 ^ 4 % 2 ^ 23, line := n % 16 }
  let slc := (stripeAt s.staged[t] (16 * c.val + o.part) o.slot o.line).isSome
  let p := s.tiles[t].ch[c].dieMap.toNat / 16 ^ (n / 2 ^ 31 % 8) % 16
  let (b, s) :=
    if n < 2 ^ 36 ∧ p < 9 ∧ o.slotOk ∧ o.line < 10 then s.dieBytes t c (toDie p) { o with slc := slc } false else s.freeBytes 80
  (b ++ List.replicate 48 0, s)

/-- The bytes that an RD returns. -/
def State.windowRead (s : State) (t : TileId) (w : Window) (n : Nat) : List Byte × State :=
  let each (f : Nat → Byte) (a : Nat) : List Byte × State := ((List.range n).map fun i => f (a + i), s)
  match w with
  | .package b o => (leBytes 4 (s.readReg t b o).toNat, s)
  | .regs b o => (leBytes 4 (s.readReg t b o).toNat, s)
  | .tcm a => each (Sparse.get (0 : Byte) s.fab[t].tcm) a
  | .velvet a => each (s.velvetByte t) a
  | .cache a => each (s.cacheByte t) a
  | .tags a => each (fun k => (leBytes 8 (s.tagWord t (k / 128) (k / 8 % 16))).getD (k % 8) 0) a
  | .media a =>
    let (b, s) := s.mediaLine t (a / 128)
    (bytesAt b (a % 128) n, s)
  | _ => ([], s)

/-- What a WR does to a window other than the DPA window. -/
def State.windowWrite (s : State) (t : TileId) (w : Window) (data : List Byte) : State :=
  match w with
  | .package b o => s.writeReg t b o (BitVec.ofNat 32 (leNat data))
  | .regs b o => s.writeReg t b o (BitVec.ofNat 32 (leNat data))
  | .tcm a => s.modFab t fun f => { f with tcm := Memory.writeBytes (fun _ => 0) f.tcm a data }
  | .velvet a =>
    let s := s.modFab t fun f => { f with velvet := Memory.writeBytes (fun _ => 0) f.velvet a data }
    let hit (k : Nat) : Bool := decide (0x8000 + 32 * k < a + data.length ∧ a < 0x8000 + 32 * (k + 1))
    s.modNv t fun v => { v with
      saveOk := v.saveOk && decide (0x8000 ≤ a)
      velvetJ := v.velvetJ.zipIdx.map fun r => if hit r.2 then (r.1.1, r.1.2.1, r.1.2.2.1, r.1.2.2.2.1, true) else r.1 }
  | .cache a => s.modD t fun d => { d with scratch := Memory.writeBytes (fun _ => 0) d.scratch a data }
  | _ => s

/-! ### Requests -/

/-- WIDAR_RD (R470 to R476): rejected, or read from its window; in the DPA window by the owner tile as a load. -/
def execWidarRd (t : TileId) (msg : Msg) (s : State) : Host.Outcome State Fault Refusal :=
  if msg.opcode ≠ 1 then .next s
  else match s.wTake t msg with
    | none => .next s
    | some (p, s) =>
      match s.wJudge t msg, s.window t msg.addr with
      | some 0, _ => .next (s.wReply t msg 0)
      | some c, _ => .next (s.wReject t (rxPort p) msg c)
      | none, .dpa a =>
        let o := (s.home (a / 64)).tile
        .next (s.newLoad { id := 0, head := o, owner := o, line := a / 64, src := .none, wid := some msg })
      | none, w =>
        let (bs, s) := s.windowRead t w msg.len.toNat
        .next (s.wReply t msg 0 bs)

/-- A write of part of a line: the line's data and byte enables. -/
def partLine (off : Nat) (bs : List Byte) : Line × BitVec 64 :=
  (bytesLine (putBytes (List.replicate 64 0) off bs), BitVec.ofNat 64 ((2 ^ bs.length - 1) * 2 ^ off))

/-- WIDAR_WR (R470 to R476, R479): rejected, or written to its window; in the DPA window by the owner tile as a store. A write to a
scratch way may be acknowledged early, unless its source holds 256 such writes. -/
def execWidarWr (t : TileId) (msg : Msg) (s : State) : Host.Outcome State Fault Refusal :=
  if msg.opcode ≠ 2 then .next s
  else match s.wTake t msg with
    | none => .next s
    | some (p, s) =>
      let data := bytesAt msg.data 0 msg.len.toNat
      match s.wJudge t msg, s.window t msg.addr with
      | some 0, _ => .next (s.wReply t msg 0)
      | some c, _ => .next (s.wReject t (rxPort p) msg c)
      | none, .dpa a =>
        let o := (s.home (a / 64)).tile
        let x := partLine (a % 64) data
        .next (s.newStore o { id := 0, head := o, line := a / 64, data := x.1, mask := x.2, region := s.regionOf (a / 64)
                              poison := msg.poison, ptl := decide (msg.len ≠ 64), wid := some (msg.src, msg.tag) })
      | none, w =>
        let s := s.windowWrite t w data
        match w with
        | .cache _ =>
          let (v, s) := s.draw
          let full := !s.srcGuest msg && decide (s.fab[toTile msg.src.toNat].early.length ≥ 256)
          .next (s.wReply t msg 0 [] (!full && decide (v % 2 = 1)))
        | _ => .next (s.wReply t msg 0)

/-- WIDAR_BAR (R471, R481): answered once every request that arrived before it from its source has been performed. -/
def execWidarBar (t : TileId) (msg : Msg) (s : State) : Host.Outcome State Fault Refusal :=
  if msg.opcode ≠ 4 then .next s
  else match s.wTake t msg with
    | none => .next s
    | some (p, s) =>
      if msg.len ≠ 0 ∨ msg.dslots.toNat > 4 then .next (s.wReject t (rxPort p) msg 4)
      else
        let loads := (s.loads.filter fun (r : LoadReq) => r.wid.any fun w => w.src = msg.src ∧ w.dst = msg.dst).map LoadReq.id
        let stores := (s.tiles[t].d.stores.filter fun (r : StoreReq) => r.wid.any fun w => w.1 = msg.src).map StoreReq.id
        .next (s.modFab t fun f => { f with barsIn := f.barsIn ++ [(msg.src, msg.tag, loads ++ stores)] }).answerWidarBars

/-- WIDAR_HEARTBEAT (R35, R469): answered with a heartbeat reply by a Stag that runs. -/
def execWidarHeartbeat (t : TileId) (msg : Msg) (s : State) : Host.Outcome State Fault Refusal :=
  if msg.opcode ≠ 5 ∨ msg.addr.toNat % 256 ≠ 1 then .next s
  else match s.wTake t msg with
    | none => .next s
    | some (p, s) =>
      if msg.len ≠ 0 ∨ msg.dslots.toNat > 4 then .next (s.wReject t (rxPort p) msg 4)
      else if !s.sys.fwRunning.getLsbD t then .next s
      else .next (s.wsend t { opcode := 5, src := BitVec.ofNat 3 t.val, dst := msg.src, addr := 2 }).2

/-- WIDAR_HEARTBEAT_REPLY (R35, R469, R485): at the lead, it clears the missed count of its source. -/
def execWidarHeartbeatReply (t : TileId) (msg : Msg) (s : State) : Host.Outcome State Fault Refusal :=
  if msg.opcode ≠ 5 ∨ msg.addr.toNat % 256 ≠ 2 then .next s
  else match s.wTake t msg with
    | none => .next s
    | some (p, s) =>
      if msg.len ≠ 0 ∨ msg.dslots.toNat > 4 then .next (s.wReject t (rxPort p) msg 4)
      else if s.sys.lead ≠ some t then .next s
      else if s.srcGuest msg then .next { s with guest := { s.guest with missed := 0, awaiting := false } }
      else
        let q := toTile msg.src.toNat
        .next { s with sys := { s.sys with missed := s.sys.missed.set q 0, awaiting := bitOff s.sys.awaiting q } }

/-! ### Responses -/

/-- A response completes the request with its tag and destination; one that names none is discarded and MALFORMED is set (R472). -/
def State.wResponse (s : State) (t : TileId) (p : Nat) (m : Msg) (fits : BitVec 8 → Bool) : State :=
  match s.fab[t].outst.find? fun (o : Outst) => o.tag = m.tag ∧ o.dst = m.src ∧ !o.guest ∧ fits o.opcode with
  | some o => s.wDone t o m.status.toNat m.early
  | none => if p < 4 then s.modLink (.widar t (toChan p)) fun k => { k with flags := bitOn k.flags 1 } else s

/-- WIDAR_CMP (R469, R472, R477). -/
def execWidarCmp (t : TileId) (msg : Msg) (s : State) : Host.Outcome State Fault Refusal :=
  if msg.opcode ≠ 8 then .next s
  else match s.wTake t msg with
    | none => .next s
    | some (p, s) => .next (s.wResponse t p msg fun o => o ≠ 1)

/-- WIDAR_RDATA (R469, R472, R477). -/
def execWidarRdata (t : TileId) (msg : Msg) (s : State) : Host.Outcome State Fault Refusal :=
  if msg.opcode ≠ 9 then .next s
  else match s.wTake t msg with
    | none => .next s
    | some (p, s) => .next (s.wResponse t p msg fun o => o = 1)

/-! ### The Stag's store buffer (R483) -/

/-- STAG_STORE (R483): a store of at most 64 bytes inside one line enters a buffer with room; a running FENCE or barrier holds it. -/
def execStagStore (t : TileId) (addr : BitVec 52) (data : List Byte) (s : State) : Host.Outcome State Fault Refusal :=
  let f := s.fab[t]
  let fits := decide (1 ≤ data.length ∧ addr.toNat % 64 + data.length ≤ 64)
  if !s.sys.fwRunning.getLsbD t || !s.inSvc t || f.fence || f.barriers ≠ [] || f.storeBuf.length ≥ 8 || !fits then .next s
  else .next ((s.modFab t fun f => { f with storeBuf := f.storeBuf ++ [(addr, data)] }).issueStores t)

/-- STAG_FENCE (R483): the buffer drains, then a core-scope barrier is issued. -/
def execStagFence (t : TileId) (s : State) : Host.Outcome State Fault Refusal :=
  let f := s.fab[t]
  if !s.sys.fwRunning.getLsbD t || !s.inSvc t || f.fence || f.barriers ≠ [] then .next s
  else .next ((s.modFab t fun f => { f with fence := true }).issueStores t)

end Sys2Proof.Machine
end

