-- ==== Sys2Proof/Machine/Dispatch.lean ====
section
/-! DEFINITION. The dispatch of exec: one arm per command or event of spec/opcode_table.json. -/

namespace Sys2Proof.Machine

/-- What a command or an event does to everything but the queue. -/
def exec (i : Instr) (s : State) : Host.Outcome State Fault Refusal :=
  match i with
  | .vaonGood => Sys2Proof.Machine.execVaonGood s
  | .vaonLoss => Sys2Proof.Machine.execVaonLoss s
  | .xtalStartTimeout => Sys2Proof.Machine.execXtalStartTimeout s
  | .fixedRailPgTimeout rail => Sys2Proof.Machine.execFixedRailPgTimeout rail s
  | .fixedRailRestartTimer => Sys2Proof.Machine.execFixedRailRestartTimer s
  | .rootPllLock => Sys2Proof.Machine.execRootPllLock s
  | .packageResetRelease => Sys2Proof.Machine.execPackageResetRelease s
  | .pkgRstNFall => Sys2Proof.Machine.execPkgRstNFall s
  | .pkgRstNRise => Sys2Proof.Machine.execPkgRstNRise s
  | .tileSelftestDone t pass => Sys2Proof.Machine.execTileSelftestDone t pass s
  | .selftestWindowClose => Sys2Proof.Machine.execSelftestWindowClose s
  | .optionAreaRead => Sys2Proof.Machine.execOptionAreaRead s
  | .firmwareSlotChoice => Sys2Proof.Machine.execFirmwareSlotChoice s
  | .tileFirmwareVerify t => Sys2Proof.Machine.execTileFirmwareVerify t s
  | .tileFirmwareRewriteDone t => Sys2Proof.Machine.execTileFirmwareRewriteDone t s
  | .recoveryRestartTimer => Sys2Proof.Machine.execRecoveryRestartTimer s
  | .mailboxReady => Sys2Proof.Machine.execMailboxReady s
  | .recordJudge => Sys2Proof.Machine.execRecordJudge s
  | .railPowerGood rail => Sys2Proof.Machine.execRailPowerGood rail s
  | .railRampTimeout rail => Sys2Proof.Machine.execRailRampTimeout rail s
  | .railRunningFault rail => Sys2Proof.Machine.execRailRunningFault rail s
  | .railRetryTimer => Sys2Proof.Machine.execRailRetryTimer s
  | .mediaRailLowerStep => Sys2Proof.Machine.execMediaRailLowerStep s
  | .medrstStretchEnd t c => Sys2Proof.Machine.execMedrstStretchEnd t c s
  | .boardRstStretchEnd => Sys2Proof.Machine.execBoardRstStretchEnd s
  | .dieTinitEnd t c status => Sys2Proof.Machine.execDieTinitEnd t c status s
  | .unitRecordCheck => Sys2Proof.Machine.execUnitRecordCheck s
  | .interruptedEraseCompletion => Sys2Proof.Machine.execInterruptedEraseCompletion s
  | .staticExtentCreate => Sys2Proof.Machine.execStaticExtentCreate s
  | .replayStart => Sys2Proof.Machine.execReplayStart s
  | .replayEnd replayMs activeMs => Sys2Proof.Machine.execReplayEnd replayMs activeMs s
  | .leadHeartbeatTimer => Sys2Proof.Machine.execLeadHeartbeatTimer s
  | .tileHeartbeatTimeout t => Sys2Proof.Machine.execTileHeartbeatTimeout t s
  | .tileFatalReport t => Sys2Proof.Machine.execTileFatalReport t s
  | .rescueFlushDone unsaved => Sys2Proof.Machine.execRescueFlushDone unsaved s
  | .leadReportAbsent => Sys2Proof.Machine.execLeadReportAbsent s
  | .loneLossFlushEnd dataEnd => Sys2Proof.Machine.execLoneLossFlushEnd dataEnd s
  | .memrd h hpa => Sys2Proof.Machine.execMemrd h hpa s
  | .memspecrd h hpa => Sys2Proof.Machine.execMemspecrd h hpa s
  | .meminv h hpa => Sys2Proof.Machine.execMeminv h hpa s
  | .memclnevct h hpa => Sys2Proof.Machine.execMemclnevct h hpa s
  | .memwr h hpa data poison => Sys2Proof.Machine.execMemwr h hpa data poison s
  | .memwrptl h hpa data mask poison => Sys2Proof.Machine.execMemwrptl h hpa data mask poison s
  | .forbiddenMemMessage h => Sys2Proof.Machine.execForbiddenMemMessage h s
  | .stripeCloseTimer t area => Sys2Proof.Machine.execStripeCloseTimer t area s
  | .stripeProgramEnd t seq note => Sys2Proof.Machine.execStripeProgramEnd t seq note s
  | .bucketSlotFreed t => Sys2Proof.Machine.execBucketSlotFreed t s
  | .postedHoldRelease t => Sys2Proof.Machine.execPostedHoldRelease t s
  | .wayWaitRelease t => Sys2Proof.Machine.execWayWaitRelease t s
  | .storeAcknowledge h id => Sys2Proof.Machine.execStoreAcknowledge h id s
  | .loadResponseEgress h id ns => Sys2Proof.Machine.execLoadResponseEgress h id ns s
  | .loadDeadlineExpiry h id stage => Sys2Proof.Machine.execLoadDeadlineExpiry h id stage s
  | .gpfFlushDone us => Sys2Proof.Machine.execGpfFlushDone us s
  | .stagingStallTimeout t area => Sys2Proof.Machine.execStagingStallTimeout t area s
  | .foldClaim t unit pidx => Sys2Proof.Machine.execFoldClaim t unit pidx s
  | .foldReadDone t unit pidx noise => Sys2Proof.Machine.execFoldReadDone t unit pidx noise s
  | .foldCarryVerified t unit pidx => Sys2Proof.Machine.execFoldCarryVerified t unit pidx s
  | .foldProgramEnd t unit pidx note => Sys2Proof.Machine.execFoldProgramEnd t unit pidx note s
  | .foldReadbackDone t unit pidx noise => Sys2Proof.Machine.execFoldReadbackDone t unit pidx noise s
  | .gapMoveStart t unit => Sys2Proof.Machine.execGapMoveStart t unit s
  | .gapMoveVerify t unit noise => Sys2Proof.Machine.execGapMoveVerify t unit noise s
  | .unitRecordWrite t unit => Sys2Proof.Machine.execUnitRecordWrite t unit s
  | .rowReclaimDone row => Sys2Proof.Machine.execRowReclaimDone row s
  | .extentReleaseComplete base => Sys2Proof.Machine.execExtentReleaseComplete base s
  | .ageSweepStep t idx => Sys2Proof.Machine.execAgeSweepStep t idx s
  | .ageCatchupStep t => Sys2Proof.Machine.execAgeCatchupStep t s
  | .recoverySweepVisit t idx tries => Sys2Proof.Machine.execRecoverySweepVisit t idx tries s
  | .foregroundReadArrival t c die part sus ca => Sys2Proof.Machine.execForegroundReadArrival t c die part sus ca s
  | .ladderRungDone t id noise => Sys2Proof.Machine.execLadderRungDone t id noise s
  | .stagedLadderRungDone t id noise => Sys2Proof.Machine.execStagedLadderRungDone t id noise s
  | .spareRebuildStep t c noise => Sys2Proof.Machine.execSpareRebuildStep t c noise s
  | .workDispatch t duiker ctx => Sys2Proof.Machine.execWorkDispatch t duiker ctx s
  | .queueRoomFreed t => Sys2Proof.Machine.execQueueRoomFreed t s
  | .gaitEnd t duiker ctx => Sys2Proof.Machine.execGaitEnd t duiker ctx s
  | .gaitIssue t duiker ctx line => Sys2Proof.Machine.execGaitIssue t duiker ctx line s
  | .gaitWait t duiker ctx => Sys2Proof.Machine.execGaitWait t duiker ctx s
  | .gaitWaitExpiry t duiker ctx => Sys2Proof.Machine.execGaitWaitExpiry t duiker ctx s
  | .gaitFetch t duiker ctx => Sys2Proof.Machine.execGaitFetch t duiker ctx s
  | .fetchBurstReceived t duiker ctx die dq counts => Sys2Proof.Machine.execFetchBurstReceived t duiker ctx die dq counts s
  | .gaitVchk t duiker ctx => Sys2Proof.Machine.execGaitVchk t duiker ctx s
  | .gaitSetc t duiker ctx => Sys2Proof.Machine.execGaitSetc t duiker ctx s
  | .gaitDecj t duiker ctx => Sys2Proof.Machine.execGaitDecj t duiker ctx s
  | .gaitJump t duiker ctx => Sys2Proof.Machine.execGaitJump t duiker ctx s
  | .yalertAssert t alert => Sys2Proof.Machine.execYalertAssert t alert s
  | .statusPollResult t c pos dq us ca note => Sys2Proof.Machine.execStatusPollResult t c pos dq us ca note s
  | .scrambleCounterExhausted t c => Sys2Proof.Machine.execScrambleCounterExhausted t c s
  | .sramScrubVisit t visit => Sys2Proof.Machine.execSramScrubVisit t visit s
  | .directoryBucketRebuilt t bucket => Sys2Proof.Machine.execDirectoryBucketRebuilt t bucket s
  | .placementWordReloaded t unit => Sys2Proof.Machine.execPlacementWordReloaded t unit s
  | .patrolVisitStart t unit => Sys2Proof.Machine.execPatrolVisitStart t unit s
  | .patrolVisitDone t unit noise => Sys2Proof.Machine.execPatrolVisitDone t unit noise s
  | .patrolCursorSave => Sys2Proof.Machine.execPatrolCursorSave s
  | .headLinkUp h speed width flit256 lopt => Sys2Proof.Machine.execHeadLinkUp h speed width flit256 lopt s
  | .headLinkDown h => Sys2Proof.Machine.execHeadLinkDown h s
  | .headTrainRetry h => Sys2Proof.Machine.execHeadTrainRetry h s
  | .headRefclkLoss h => Sys2Proof.Machine.execHeadRefclkLoss h s
  | .configRequest h write at_ value => Sys2Proof.Machine.execConfigRequest h write at_ value s
  | .hdmDecoderCommit h n base size skip ways gran lock => Sys2Proof.Machine.execHdmDecoderCommit h n base size skip ways gran lock s
  | .d3hotTransition h enter => Sys2Proof.Machine.execD3hotTransition h enter s
  | .gpfPhase1 h => Sys2Proof.Machine.execGpfPhase1 h s
  | .gpfPhase2 h => Sys2Proof.Machine.execGpfPhase2 h s
  | .dcOfferTimeout h => Sys2Proof.Machine.execDcOfferTimeout h s
  | .dcReleaseHostTimeout h => Sys2Proof.Machine.execDcReleaseHostTimeout h s
  | .ideIntegrityFailure h mem => Sys2Proof.Machine.execIdeIntegrityFailure h mem s
  | .cxlIdeKm h io mem => Sys2Proof.Machine.execCxlIdeKm h io mem s
  | .doeDiscovery h index => Sys2Proof.Machine.execDoeDiscovery h index s
  | .spdmRequest h code => Sys2Proof.Machine.execSpdmRequest h code s
  | .cdatTableAccess h entry => Sys2Proof.Machine.execCdatTableAccess h entry s
  | .conventionalReset h => Sys2Proof.Machine.execConventionalReset h s
  | .functionLevelReset h => Sys2Proof.Machine.execFunctionLevelReset h s
  | .cxlReset h => Sys2Proof.Machine.execCxlReset h s
  | .mailboxDoorbell m opcode input => Sys2Proof.Machine.execMailboxDoorbell m opcode input s
  | .unsupportedCommand m => Sys2Proof.Machine.execUnsupportedCommand m s
  | .identify m => Sys2Proof.Machine.execIdentify m s
  | .backgroundOperationStatus m => Sys2Proof.Machine.execBackgroundOperationStatus m s
  | .getResponseMessageLimit m => Sys2Proof.Machine.execGetResponseMessageLimit m s
  | .setResponseMessageLimit m => Sys2Proof.Machine.execSetResponseMessageLimit m s
  | .requestAbortBackgroundOperation m => Sys2Proof.Machine.execRequestAbortBackgroundOperation m s
  | .getEventRecords m => Sys2Proof.Machine.execGetEventRecords m s
  | .clearEventRecords m => Sys2Proof.Machine.execClearEventRecords m s
  | .getEventInterruptPolicy m => Sys2Proof.Machine.execGetEventInterruptPolicy m s
  | .setEventInterruptPolicy m => Sys2Proof.Machine.execSetEventInterruptPolicy m s
  | .getMctpEventInterruptPolicy m => Sys2Proof.Machine.execGetMctpEventInterruptPolicy m s
  | .setMctpEventInterruptPolicy m => Sys2Proof.Machine.execSetMctpEventInterruptPolicy m s
  | .getFwInfo m => Sys2Proof.Machine.execGetFwInfo m s
  | .transferFw m note => Sys2Proof.Machine.execTransferFw m note s
  | .activateFw m => Sys2Proof.Machine.execActivateFw m s
  | .getTimestamp m => Sys2Proof.Machine.execGetTimestamp m s
  | .setTimestamp m => Sys2Proof.Machine.execSetTimestamp m s
  | .getSupportedLogs m => Sys2Proof.Machine.execGetSupportedLogs m s
  | .getLog m => Sys2Proof.Machine.execGetLog m s
  | .getSupportedFeatures m => Sys2Proof.Machine.execGetSupportedFeatures m s
  | .identifyMemoryDevice m => Sys2Proof.Machine.execIdentifyMemoryDevice m s
  | .getPartitionInfo m => Sys2Proof.Machine.execGetPartitionInfo m s
  | .getLsa m => Sys2Proof.Machine.execGetLsa m s
  | .setLsa m => Sys2Proof.Machine.execSetLsa m s
  | .getHealthInfo m => Sys2Proof.Machine.execGetHealthInfo m s
  | .getAlertConfiguration m => Sys2Proof.Machine.execGetAlertConfiguration m s
  | .setAlertConfiguration m => Sys2Proof.Machine.execSetAlertConfiguration m s
  | .getShutdownState m => Sys2Proof.Machine.execGetShutdownState m s
  | .setShutdownState m => Sys2Proof.Machine.execSetShutdownState m s
  | .getPoisonList m => Sys2Proof.Machine.execGetPoisonList m s
  | .injectPoison m => Sys2Proof.Machine.execInjectPoison m s
  | .clearPoison m => Sys2Proof.Machine.execClearPoison m s
  | .getScanMediaCapabilities m => Sys2Proof.Machine.execGetScanMediaCapabilities m s
  | .scanMedia m => Sys2Proof.Machine.execScanMedia m s
  | .getScanMediaResults m => Sys2Proof.Machine.execGetScanMediaResults m s
  | .sanitize m => Sys2Proof.Machine.execSanitize m s
  | .secureErase m => Sys2Proof.Machine.execSecureErase m s
  | .getSecurityState m => Sys2Proof.Machine.execGetSecurityState m s
  | .setPassphrase m => Sys2Proof.Machine.execSetPassphrase m s
  | .disablePassphrase m => Sys2Proof.Machine.execDisablePassphrase m s
  | .unlock m => Sys2Proof.Machine.execUnlock m s
  | .freezeSecurityState m => Sys2Proof.Machine.execFreezeSecurityState m s
  | .passphraseSecureErase m => Sys2Proof.Machine.execPassphraseSecureErase m s
  | .getDynamicCapacityConfiguration m => Sys2Proof.Machine.execGetDynamicCapacityConfiguration m s
  | .getDynamicCapacityExtentList m => Sys2Proof.Machine.execGetDynamicCapacityExtentList m s
  | .addDynamicCapacityResponse m => Sys2Proof.Machine.execAddDynamicCapacityResponse m s
  | .releaseDynamicCapacity m => Sys2Proof.Machine.execReleaseDynamicCapacity m s
  | .getDcdInfo m => Sys2Proof.Machine.execGetDcdInfo m s
  | .getHostDcRegionConfiguration m => Sys2Proof.Machine.execGetHostDcRegionConfiguration m s
  | .setDcRegionConfiguration m => Sys2Proof.Machine.execSetDcRegionConfiguration m s
  | .getDcRegionExtentLists m => Sys2Proof.Machine.execGetDcRegionExtentLists m s
  | .initiateDynamicCapacityAdd m => Sys2Proof.Machine.execInitiateDynamicCapacityAdd m s
  | .initiateDynamicCapacityRelease m => Sys2Proof.Machine.execInitiateDynamicCapacityRelease m s
  | .getTileStatus m => Sys2Proof.Machine.execGetTileStatus m s
  | .loadConfiguration m => Sys2Proof.Machine.execLoadConfiguration m s
  | .commitConfiguration m => Sys2Proof.Machine.execCommitConfiguration m s
  | .commitCopyReadback t bankB ok => Sys2Proof.Machine.execCommitCopyReadback t bankB ok s
  | .readConfiguration m => Sys2Proof.Machine.execReadConfiguration m s
  | .setPowerState m => Sys2Proof.Machine.execSetPowerState m s
  | .getPowerState m => Sys2Proof.Machine.execGetPowerState m s
  | .readEventWindow m => Sys2Proof.Machine.execReadEventWindow m s
  | .readBlackBox m => Sys2Proof.Machine.execReadBlackBox m s
  | .setRegionAckPolicy m => Sys2Proof.Machine.execSetRegionAckPolicy m s
  | .getHoldUpReport m => Sys2Proof.Machine.execGetHoldUpReport m s
  | .performanceSnapshot m => Sys2Proof.Machine.execPerformanceSnapshot m s
  | .readPerformanceCounters m => Sys2Proof.Machine.execReadPerformanceCounters m s
  | .configureRequestTagging m => Sys2Proof.Machine.execConfigureRequestTagging m s
  | .meshDiscover m => Sys2Proof.Machine.execMeshDiscover m s
  | .getMeshTopology m => Sys2Proof.Machine.execGetMeshTopology m s
  | .setMirrorGroup m => Sys2Proof.Machine.execSetMirrorGroup m s
  | .readParameterStore m => Sys2Proof.Machine.execReadParameterStore m s
  | .writeParameterStore m => Sys2Proof.Machine.execWriteParameterStore m s
  | .parameterStorePassword m => Sys2Proof.Machine.execParameterStorePassword m s
  | .setReadoutProtection m => Sys2Proof.Machine.execSetReadoutProtection m s
  | .rdpEraseDone => Sys2Proof.Machine.execRdpEraseDone s
  | .cachePartition m => Sys2Proof.Machine.execCachePartition m s
  | .cacheWayPower m => Sys2Proof.Machine.execCacheWayPower m s
  | .patrolControl m => Sys2Proof.Machine.execPatrolControl m s
  | .railPolicy m => Sys2Proof.Machine.execRailPolicy m s
  | .readVendorRegister m => Sys2Proof.Machine.execReadVendorRegister m s
  | .writeVendorRegister m => Sys2Proof.Machine.execWriteVendorRegister m s
  | .hdcRdLatMaxClear m => Sys2Proof.Machine.execHdcRdLatMaxClear m s
  | .mshAckClear m => Sys2Proof.Machine.execMshAckClear m s
  | .evrCtrlClearDrops m => Sys2Proof.Machine.execEvrCtrlClearDrops m s
  | .evrWinCursorWrite m => Sys2Proof.Machine.execEvrWinCursorWrite m s
  | .pmcCtrlOvfMsixWrite m => Sys2Proof.Machine.execPmcCtrlOvfMsixWrite m s
  | .prmProtectBpWrite m => Sys2Proof.Machine.execPrmProtectBpWrite m s
  | .backgroundOpComplete noise => Sys2Proof.Machine.execBackgroundOpComplete noise s
  | .stagWatchdogExpiry t => Sys2Proof.Machine.execStagWatchdogExpiry t s
  | .duikerRecoverableFault t => Sys2Proof.Machine.execDuikerRecoverableFault t s
  | .warmResetStaged t => Sys2Proof.Machine.execWarmResetStaged t s
  | .warmResetDrainEnd t drained => Sys2Proof.Machine.execWarmResetDrainEnd t drained s
  | .flashEraseDone t bankB => Sys2Proof.Machine.execFlashEraseDone t bankB s
  | .flashPageProgramDone t bankB => Sys2Proof.Machine.execFlashPageProgramDone t bankB s
  | .prmPageWriteDone => Sys2Proof.Machine.execPrmPageWriteDone s
  | .sidebandEepromWrite offset count data => Sys2Proof.Machine.execSidebandEepromWrite offset count data s
  | .sidebandEepromRead offset count => Sys2Proof.Machine.execSidebandEepromRead offset count s
  | .sidebandThermalReadout => Sys2Proof.Machine.execSidebandThermalReadout s
  | .sidebandStatusReadout => Sys2Proof.Machine.execSidebandStatusReadout s
  | .mctpRequest opcode input => Sys2Proof.Machine.execMctpRequest opcode input s
  | .i3cSetdasa static dynamic => Sys2Proof.Machine.execI3cSetdasa static dynamic s
  | .i3cSetaasa => Sys2Proof.Machine.execI3cSetaasa s
  | .i3cRstdaa => Sys2Proof.Machine.execI3cRstdaa s
  | .smbusClockLowTimeout => Sys2Proof.Machine.execSmbusClockLowTimeout s
  | .widarLinkTrained l speed width repaired => Sys2Proof.Machine.execWidarLinkTrained l speed width repaired s
  | .widarInit t p wire => Sys2Proof.Machine.execWidarInit t p wire s
  | .widarPayloadFlit l wire => Sys2Proof.Machine.execWidarPayloadFlit l wire s
  | .widarNullFlit l wire => Sys2Proof.Machine.execWidarNullFlit l wire s
  | .widarRetryReq l wire => Sys2Proof.Machine.execWidarRetryReq l wire s
  | .retryReqResendTimer l => Sys2Proof.Machine.execRetryReqResendTimer l s
  | .widarTxIdleTimer l => Sys2Proof.Machine.execWidarTxIdleTimer l s
  | .widarRxTimeout t p => Sys2Proof.Machine.execWidarRxTimeout t p s
  | .peerLinkRxTimeout p => Sys2Proof.Machine.execPeerLinkRxTimeout p s
  | .widarRetrainDone l ok wire => Sys2Proof.Machine.execWidarRetrainDone l ok wire s
  | .widarTrainRetryTimer l => Sys2Proof.Machine.execWidarTrainRetryTimer l s
  | .frameNumberExhausted l => Sys2Proof.Machine.execFrameNumberExhausted l s
  | .widarRd t msg => Sys2Proof.Machine.execWidarRd t msg s
  | .widarWr t msg => Sys2Proof.Machine.execWidarWr t msg s
  | .widarBar t msg => Sys2Proof.Machine.execWidarBar t msg s
  | .widarHeartbeat t msg => Sys2Proof.Machine.execWidarHeartbeat t msg s
  | .widarHeartbeatReply t msg => Sys2Proof.Machine.execWidarHeartbeatReply t msg s
  | .widarCmp t msg => Sys2Proof.Machine.execWidarCmp t msg s
  | .widarRdata t msg => Sys2Proof.Machine.execWidarRdata t msg s
  | .routeUpdate t pos => Sys2Proof.Machine.execRouteUpdate t pos s
  | .stagStore t addr data => Sys2Proof.Machine.execStagStore t addr data s
  | .stagFence t => Sys2Proof.Machine.execStagFence t s
  | .guestHeartbeatTimeout => Sys2Proof.Machine.execGuestHeartbeatTimeout s
  | .meshInit p wire => Sys2Proof.Machine.execMeshInit p wire s
  | .hello p msg => Sys2Proof.Machine.execHello p msg s
  | .discoveryEnd => Sys2Proof.Machine.execDiscoveryEnd s
  | .mwr p msg => Sys2Proof.Machine.execMwr p msg s
  | .rwr p msg => Sys2Proof.Machine.execRwr p msg s
  | .mrd p msg => Sys2Proof.Machine.execMrd p msg s
  | .mbar p msg => Sys2Proof.Machine.execMbar p msg s
  | .mext p msg => Sys2Proof.Machine.execMext p msg s
  | .mpair p msg => Sys2Proof.Machine.execMpair p msg s
  | .mhb p msg => Sys2Proof.Machine.execMhb p msg s
  | .mbye p msg => Sys2Proof.Machine.execMbye p msg s
  | .mcmp p msg ns => Sys2Proof.Machine.execMcmp p msg ns s
  | .mdata p msg => Sys2Proof.Machine.execMdata p msg s
  | .meshHeartbeatTimer => Sys2Proof.Machine.execMeshHeartbeatTimer s
  | .peerSilenceCheck => Sys2Proof.Machine.execPeerSilenceCheck s
  | .meshForwardExpiry p msg => Sys2Proof.Machine.execMeshForwardExpiry p msg s
  | .mwrRouteHoldEnd line => Sys2Proof.Machine.execMwrRouteHoldEnd line s
  | .pairContactTimeout => Sys2Proof.Machine.execPairContactTimeout s
  | .resyncWalkStep t => Sys2Proof.Machine.execResyncWalkStep t s
  | .powerFailDetect vin => Sys2Proof.Machine.execPowerFailDetect vin s
  | .inputReturn => Sys2Proof.Machine.execInputReturn s
  | .flushTileDataEnd t => Sys2Proof.Machine.execFlushTileDataEnd t s
  | .flushWatchdog => Sys2Proof.Machine.execFlushWatchdog s
  | .vholdCollapse => Sys2Proof.Machine.execVholdCollapse s
  | .brownoutHoldEnd => Sys2Proof.Machine.execBrownoutHoldEnd s
  | .holdupMeasurementStart => Sys2Proof.Machine.execHoldupMeasurementStart s
  | .holdupSinkEnd us limit => Sys2Proof.Machine.execHoldupSinkEnd us limit s
  | .holdupMeasurementComplete slow vholdMv => Sys2Proof.Machine.execHoldupMeasurementComplete slow vholdMv s
  | .plevelChange => Sys2Proof.Machine.execPlevelChange s
  | .plevelVcoreSettled => Sys2Proof.Machine.execPlevelVcoreSettled s
  | .sleepEntryDrained => Sys2Proof.Machine.execSleepEntryDrained s
  | .resumeEnd us => Sys2Proof.Machine.execResumeEnd us s
  | .pwrPadRelease t => Sys2Proof.Machine.execPwrPadRelease t s
  | .pmbAlert => Sys2Proof.Machine.execPmbAlert s
  | .thermalTrip t sensor => Sys2Proof.Machine.execThermalTrip t sensor s
  | .tripStaged => Sys2Proof.Machine.execTripStaged s
  | .pllLockLoss => Sys2Proof.Machine.execPllLockLoss s
  | .pllHoldoverTimeout => Sys2Proof.Machine.execPllHoldoverTimeout s
  | .pllRelock => Sys2Proof.Machine.execPllRelock s
  | .clockDomainIdleGate t domain => Sys2Proof.Machine.execClockDomainIdleGate t domain s
  | .secondsTick => Sys2Proof.Machine.execSecondsTick s
  | .housekeepingStrobe vin vhold vaon vcore edges => Sys2Proof.Machine.execHousekeepingStrobe vin vhold vaon vcore edges s
  | .sensorResultHold t readings => Sys2Proof.Machine.execSensorResultHold t readings s
  | .housekeepingDecide => Sys2Proof.Machine.execHousekeepingDecide s
  | .delayRecalibration t => Sys2Proof.Machine.execDelayRecalibration t s
  | .eventEntry t => Sys2Proof.Machine.execEventEntry t s
  | .eventFlushStart => Sys2Proof.Machine.execEventFlushStart s
  | .eventFlushDone => Sys2Proof.Machine.execEventFlushDone s
  | .jtagAccess tap kind addr => Sys2Proof.Machine.execJtagAccess tap kind addr s
  | .tileRejoinTimeout t => Sys2Proof.Machine.execTileRejoinTimeout t s
  | .dieNotReadyTimeout t c pos => Sys2Proof.Machine.execDieNotReadyTimeout t c pos s
  | .readTempHoldExpiry t c pos => Sys2Proof.Machine.execReadTempHoldExpiry t c pos s

end Sys2Proof.Machine
end

