-- ==== Sys2Proof/Safety.lean ====
section
/-! DEFINITION. What a run of the part may be trusted to keep: the groups of the state that a command leaves alone, the
canonical form of the byte memories, and the bounds of the queues and logs. -/

namespace Sys2Proof.Machine

/-- The command or event `c` completes in state `s`, with `t` as the next state. -/
def Runs (c : Instr) (s t : State) : Prop := exec c s = .next t

/-- The groups of the state: one per field of State, and the five byte memories, which are parts of the groups nv (parameter
store, label storage area), fab (Stag TCM, Velvet) and tiles (scratch ways). -/
inductive Group where
  | pending | fv | fuses | nv | media | staged | aon | sys | boot | cfg
  | prm | evr | bbx | pmc | sec | seq | hld | flush | pwr | clk
  | thm | tiles | heads | loads | nextReq | fab | guest | mesh | svc | poison
  | prmData | lsa | tcm | velvet | scratch
deriving DecidableEq, Repr

/-- Group `g` holds the same in `s` and in `t`. -/
def Group.same (s t : State) : Group → Prop
  | .pending => t.pending = s.pending
  | .fv => t.fv = s.fv
  | .fuses => t.fuses = s.fuses
  | .nv => t.nv = s.nv
  | .media => t.media = s.media
  | .staged => t.staged = s.staged
  | .aon => t.aon = s.aon
  | .sys => t.sys = s.sys
  | .boot => t.boot = s.boot
  | .cfg => t.cfg = s.cfg
  | .prm => t.prm = s.prm
  | .evr => t.evr = s.evr
  | .bbx => t.bbx = s.bbx
  | .pmc => t.pmc = s.pmc
  | .sec => t.sec = s.sec
  | .seq => t.seq = s.seq
  | .hld => t.hld = s.hld
  | .flush => t.flush = s.flush
  | .pwr => t.pwr = s.pwr
  | .clk => t.clk = s.clk
  | .thm => t.thm = s.thm
  | .tiles => t.tiles = s.tiles
  | .heads => t.heads = s.heads
  | .loads => t.loads = s.loads
  | .nextReq => t.nextReq = s.nextReq
  | .fab => t.fab = s.fab
  | .guest => t.guest = s.guest
  | .mesh => t.mesh = s.mesh
  | .svc => t.svc = s.svc
  | .poison => t.poison = s.poison
  | .prmData => ∀ i : TileId, t.nv[i].prm = s.nv[i].prm
  | .lsa => ∀ i : TileId, t.nv[i].lsa = s.nv[i].lsa
  | .tcm => ∀ i : TileId, t.fab[i].tcm = s.fab[i].tcm
  | .velvet => ∀ i : TileId, t.fab[i].velvet = s.fab[i].velvet
  | .scratch => ∀ i : TileId, t.tiles[i].d.scratch = s.tiles[i].d.scratch

/-- From `s` to `t` nothing outside the groups `gs` changes. -/
def Keeps (gs : List Group) (s t : State) : Prop := ∀ g : Group, gs.contains g = false → g.same s t

/-- The byte memories of a tile's non-volatile stores are in canonical form: parameter store (unlisted bytes as
manufactured) and label storage area (unlisted bytes erased). -/
def TileNv.MemOk (v : TileNv) : Prop :=
  Memory.wf Factory.prm v.prm = true ∧ Memory.wf (fun _ => 0xFF) v.lsa = true

/-- The byte memories of a tile's fabric interface are in canonical form: Stag TCM and Velvet. -/
def Fabric.MemOk (f : Fabric) : Prop := Memory.wf (fun _ => 0) f.tcm = true ∧ Memory.wf (fun _ => 0) f.velvet = true

/-- The scratch ways of a tile are in canonical form. -/
def Tile.MemOk (t : Tile) : Prop := Memory.wf (fun _ => 0) t.d.scratch = true

/-- Every byte memory of the part is in canonical form. -/
def State.MemOk (s : State) : Prop :=
  (∀ t : TileId, s.nv[t].MemOk) ∧ (∀ t : TileId, s.fab[t].MemOk) ∧ ∀ t : TileId, s.tiles[t].MemOk

/-- No event queue holds more than 32 records (R631). -/
def Evr.QueuesOk (e : Evr) : Prop := ∀ t : TileId, e.queues[t].length ≤ 32

/-- No CXL event log of a head holds more records than R326 gives it. -/
def Head.LogsOk (h : Head) : Prop := ∀ k : Fin 5, h.logs[k].recs.length ≤ logCap k

/-- The event queues and the CXL event logs are within their bounds. -/
def State.BoundsOk (s : State) : Prop := s.evr.QueuesOk ∧ ∀ h : TileId, s.heads[h].LogsOk

/-! ### Reading one byte of a byte memory -/

/-- Byte `a` of a tile's parameter store. -/
def State.prmByte (s : State) (t : TileId) (a : Nat) : Byte := Sparse.getF Factory.prm s.nv[t].prm a
/-- Byte `a` of a tile's label storage area. -/
def State.lsaByte (s : State) (t : TileId) (a : Nat) : Byte := Sparse.getF (fun _ => 0xFF) s.nv[t].lsa a
/-- Byte `a` of a tile's Stag TCM. -/
def State.tcmByte (s : State) (t : TileId) (a : Nat) : Byte := Sparse.getF (fun _ => 0) s.fab[t].tcm a
/-- Cell `a` of a tile's Velvet. -/
def State.velvetCell (s : State) (t : TileId) (a : Nat) : Byte := Sparse.getF (fun _ => 0) s.fab[t].velvet a
/-- Byte `a` of a tile's scratch ways. -/
def State.scratchByte (s : State) (t : TileId) (a : Nat) : Byte := Sparse.getF (fun _ => 0) s.tiles[t].d.scratch a

/-- What byte `k` reads as once `bs` is stored from address `a` on, where it read as `old` before. -/
def afterStore (old : Byte) (a : Nat) (bs : List Byte) (k : Nat) : Byte :=
  if a ≤ k ∧ k < a + bs.length then bs.getD (k - a) 0 else old

/-- A command of opcode `op` waits at mailbox `m` with the input `inp` of at most 65,536 bytes, and passes the checks of R342 on the
mailbox, the device state and the loader. -/
def State.Served (s : State) (m : Iface) (op : Nat) (inp : List Byte) (mgmt bg : Bool) (r : StateRule) : Prop :=
  s.taken m op = some inp ∧ s.cmdCheck m op mgmt bg r = none ∧ inp.length ≤ 65536

/-- Every group but some. -/
def groupsBut (gs : List Group) : List Group :=
  ([.pending, .fv, .fuses, .nv, .media, .staged, .aon, .sys, .boot, .cfg, .prm, .evr, .bbx, .pmc, .sec, .seq, .hld, .flush, .pwr, .clk,
    .thm, .tiles, .heads, .loads, .nextReq, .fab, .guest, .mesh, .svc, .poison, .prmData, .lsa, .tcm, .velvet, .scratch] :
    List Group).filter (!gs.contains ·)

/-- The groups that a command may write. No other group changes in its step; what it changes within a group is its own meaning's. -/
def writes : Instr → List Group
  | .vaonGood .. => groupsBut [.pending, .fuses, .nv, .prmData, .lsa, .velvet]
  | .vaonLoss .. => groupsBut [.pending, .fuses]
  | .xtalStartTimeout .. | .fixedRailPgTimeout .. | .fixedRailRestartTimer .. => [.seq, .clk]
  | .rootPllLock .. | .pllLockLoss .. | .clockDomainIdleGate .. => [.clk]
  | .packageResetRelease .. => [.sys, .boot]
  | .pkgRstNFall .. | .recoveryRestartTimer .. | .tileHeartbeatTimeout .. | .tileFatalReport .. | .leadReportAbsent ..
  | .loneLossFlushEnd .. | .sramScrubVisit .. | .rdpEraseDone .. | .stagWatchdogExpiry .. | .duikerRecoverableFault ..
  | .flushTileDataEnd .. | .flushWatchdog .. | .vholdCollapse .. | .brownoutHoldEnd .. | .tileRejoinTimeout .. =>
    groupsBut [.pending, .fuses, .velvet]
  | .pkgRstNRise .. => [.aon, .seq]
  | .tileSelftestDone .. => [.sys]
  | .selftestWindowClose .. => [.sys, .boot, .prm, .heads, .fab, .mesh]
  | .optionAreaRead .. => [.boot, .cfg, .evr, .clk, .tiles, .heads]
  | .firmwareSlotChoice .. =>
    groupsBut [.pending, .fv, .fuses, .media, .staged, .cfg, .flush, .pwr, .thm, .loads, .nextReq, .guest, .poison, .lsa, .tcm, .velvet, .scratch]
  | .tileFirmwareVerify .. => [.nv, .sys, .evr, .tiles, .heads]
  | .tileFirmwareRewriteDone .. => [.nv, .sys, .tiles, .lsa]
  | .mailboxReady .. => [.nv, .aon, .sys, .boot, .cfg, .prm, .evr, .bbx, .sec, .seq, .hld, .clk, .tiles, .heads, .prmData]
  | .recordJudge .. => [.nv, .aon, .sys, .boot, .cfg, .evr, .sec, .seq, .hld, .tiles, .heads, .mesh, .svc, .prmData]
  | .railPowerGood .. => [.evr, .seq, .heads]
  | .railRampTimeout .. =>
    [.fv, .nv, .media, .staged, .sys, .evr, .bbx, .pmc, .seq, .clk, .tiles, .heads, .loads, .nextReq, .fab, .mesh, .poison]
  | .railRunningFault .. | .pmbAlert .. =>
    groupsBut [.pending, .fuses, .aon, .cfg, .prm, .sec, .thm, .guest, .prmData, .lsa, .tcm, .velvet, .scratch]
  | .railRetryTimer .. | .boardRstStretchEnd .. => [.seq]
  | .mediaRailLowerStep .. => [.seq, .flush, .clk]
  | .medrstStretchEnd .. => [.boot, .seq, .tiles]
  | .dieTinitEnd .. => [.fv, .nv, .sys, .boot, .cfg, .evr, .pmc, .seq, .clk, .tiles, .heads, .fab, .mesh, .poison, .prmData]
  | .unitRecordCheck .. => [.nv, .sys, .boot, .cfg, .evr, .seq, .tiles, .heads, .prmData]
  | .interruptedEraseCompletion .. =>
    [.fv, .nv, .media, .staged, .sys, .boot, .cfg, .evr, .sec, .tiles, .heads, .svc, .poison, .prmData, .lsa]
  | .staticExtentCreate .. => [.boot, .tiles, .svc]
  | .replayStart .. =>
    [.fv, .media, .staged, .sys, .boot, .evr, .bbx, .pmc, .clk, .tiles, .heads, .loads, .nextReq, .fab, .mesh, .svc, .poison]
  | .replayEnd .. => [.fv, .nv, .sys, .boot, .cfg, .evr, .pmc, .clk, .tiles, .heads, .loads, .nextReq, .fab, .mesh, .svc, .poison, .prmData]
  | .leadHeartbeatTimer .. | .widarHeartbeatReply .. => [.sys, .pmc, .fab, .guest, .mesh]
  | .rescueFlushDone .. => groupsBut [.pending, .fuses, .aon, .cfg, .prm, .sec, .seq, .thm, .guest, .prmData, .lsa, .tcm, .velvet, .scratch]
  | .memrd .. | .memspecrd .. | .postedHoldRelease .. | .wayWaitRelease .. | .storeAcknowledge .. | .stagedLadderRungDone ..
  | .directoryBucketRebuilt .. | .placementWordReloaded .. | .widarRd .. | .mrd .. =>
    [.fv, .sys, .evr, .pmc, .clk, .tiles, .heads, .loads, .nextReq, .fab, .mesh, .poison]
  | .meminv .. | .memclnevct .. => [.fv, .sys, .pmc, .clk, .heads]
  | .memwr .. | .memwrptl .. | .bucketSlotFreed .. | .injectPoison .. | .clearPoison .. | .mwr .. | .rwr .. | .mdata .. =>
    [.fv, .sys, .evr, .pmc, .clk, .tiles, .heads, .loads, .nextReq, .fab, .mesh, .svc, .poison]
  | .forbiddenMemMessage .. | .hdmDecoderCommit .. | .d3hotTransition .. | .ideIntegrityFailure .. | .cxlIdeKm .. | .doeDiscovery ..
  | .functionLevelReset .. | .cxlReset .. => [.heads]
  | .stripeCloseTimer .. | .foldClaim .. => [.clk, .tiles]
  | .stripeProgramEnd .. =>
    [.fv, .media, .staged, .sys, .evr, .bbx, .pmc, .seq, .clk, .tiles, .heads, .loads, .nextReq, .fab, .mesh, .svc, .poison]
  | .loadResponseEgress .. | .loadDeadlineExpiry .. => [.fv, .pmc, .heads, .loads]
  | .gpfFlushDone .. => [.sys, .clk, .tiles, .heads]
  | .stagingStallTimeout .. => [.sys, .evr, .pmc, .seq, .clk, .tiles, .heads, .fab, .mesh]
  | .foldReadDone .. | .gaitIssue .. => [.fv, .sys, .evr, .pmc, .seq, .clk, .tiles, .heads, .fab, .mesh, .poison]
  | .foldCarryVerified .. => [.evr, .clk, .tiles, .heads]
  | .foldProgramEnd .. | .gapMoveVerify .. => [.fv, .media, .staged, .sys, .evr, .pmc, .seq, .clk, .tiles, .heads, .fab, .mesh, .poison]
  | .foldReadbackDone .. => [.fv, .media, .staged, .sys, .evr, .pmc, .clk, .tiles, .heads, .loads, .nextReq, .fab, .mesh, .svc, .poison]
  | .gapMoveStart .. => [.media, .staged, .pmc, .clk, .tiles]
  | .unitRecordWrite .. | .yalertAssert .. => [.media, .staged, .clk, .tiles]
  | .rowReclaimDone .. | .addDynamicCapacityResponse .. | .initiateDynamicCapacityAdd .. => [.pmc, .clk, .tiles, .heads, .fab, .mesh, .svc]
  | .extentReleaseComplete .. | .mext .. => [.media, .staged, .pmc, .clk, .tiles, .fab, .mesh, .svc, .poison]
  | .ageSweepStep .. | .queueRoomFreed .. | .delayRecalibration .. | .readTempHoldExpiry .. => [.tiles]
  | .ageCatchupStep .. => [.sys, .clk, .tiles]
  | .recoverySweepVisit .. | .gaitEnd .. | .gaitWait .. | .gaitWaitExpiry .. | .gaitVchk .. | .gaitSetc .. | .gaitDecj .. | .gaitJump .. =>
    [.pmc, .tiles]
  | .foregroundReadArrival .. | .ladderRungDone .. | .patrolVisitDone .. =>
    [.fv, .sys, .evr, .pmc, .seq, .clk, .tiles, .heads, .loads, .nextReq, .fab, .mesh, .poison]
  | .spareRebuildStep .. => [.fv, .media, .staged, .sys, .cfg, .evr, .pmc, .seq, .clk, .tiles, .heads, .fab, .mesh, .poison]
  | .workDispatch .. => [.fv, .media, .pmc, .tiles]
  | .gaitFetch .. => [.fv, .pmc, .tiles]
  | .fetchBurstReceived .. | .statusPollResult .. =>
    [.fv, .media, .staged, .sys, .evr, .pmc, .seq, .clk, .tiles, .heads, .fab, .mesh, .poison]
  | .scrambleCounterExhausted .. => [.media, .staged, .seq, .clk, .tiles]
  | .patrolVisitStart .. => [.evr, .pmc, .clk, .tiles, .heads]
  | .patrolCursorSave .. => [.sys, .cfg, .prm, .tiles]
  | .headLinkUp .. | .headRefclkLoss .. => [.sys, .evr, .clk, .heads]
  | .headLinkDown .. | .headTrainRetry .. | .conventionalReset .. => [.sys, .evr, .heads]
  | .configRequest .. | .spdmRequest .. | .cdatTableAccess .. => [.fv, .heads]
  | .gpfPhase1 .. => []
  | .gpfPhase2 .. => [.clk, .tiles, .heads]
  | .dcOfferTimeout .. | .dcReleaseHostTimeout .. => [.svc]
  | .mailboxDoorbell .. | .unsupportedCommand .. | .identify .. | .getResponseMessageLimit .. | .setResponseMessageLimit ..
  | .requestAbortBackgroundOperation .. | .clearEventRecords .. | .getEventInterruptPolicy .. | .setEventInterruptPolicy ..
  | .getMctpEventInterruptPolicy .. | .setMctpEventInterruptPolicy .. | .getFwInfo .. | .getTimestamp .. | .setTimestamp ..
  | .getSupportedLogs .. | .getLog .. | .getSupportedFeatures .. | .getPartitionInfo .. | .getLsa .. | .getAlertConfiguration ..
  | .setAlertConfiguration .. | .getShutdownState .. | .setShutdownState .. | .getPoisonList .. | .getScanMediaCapabilities ..
  | .getSecurityState .. | .getDynamicCapacityConfiguration .. | .getDynamicCapacityExtentList .. | .releaseDynamicCapacity ..
  | .getDcdInfo .. | .getHostDcRegionConfiguration .. | .getDcRegionExtentLists .. | .initiateDynamicCapacityRelease ..
  | .getTileStatus .. | .getPowerState .. | .readEventWindow .. | .readBlackBox .. | .readPerformanceCounters .. | .getMeshTopology ..
  | .readParameterStore .. | .readVendorRegister .. => [.heads, .svc]
  | .backgroundOperationStatus .. | .getEventRecords .. | .identifyMemoryDevice .. | .getHealthInfo .. | .readConfiguration .. =>
    [.fv, .heads, .svc]
  | .transferFw .. => [.nv, .sys, .evr, .tiles, .heads, .svc]
  | .activateFw .. => [.sys, .prm, .evr, .tiles, .heads, .svc]
  | .setLsa .. => [.nv, .sys, .tiles, .heads, .svc]
  | .scanMedia .. | .getScanMediaResults .. => [.heads, .svc, .poison]
  | .sanitize .. | .secureErase .. => [.nv, .sys, .prm, .sec, .tiles, .heads, .svc]
  | .setPassphrase .. => [.fv, .nv, .sys, .prm, .evr, .sec, .tiles, .heads, .svc]
  | .disablePassphrase .. | .passphraseSecureErase .. => [.nv, .sys, .prm, .evr, .sec, .tiles, .heads, .svc]
  | .unlock .. => [.evr, .sec, .heads, .svc]
  | .freezeSecurityState .. => [.sec, .heads, .svc]
  | .setDcRegionConfiguration .. | .commitConfiguration .. | .setRegionAckPolicy .. | .patrolControl .. =>
    [.nv, .sys, .cfg, .tiles, .heads, .svc]
  | .loadConfiguration .. => [.cfg, .heads, .svc]
  | .commitCopyReadback .. => [.nv, .sys, .boot, .cfg, .evr, .tiles, .heads, .svc]
  | .setPowerState .. => [.sys, .evr, .pmc, .seq, .pwr, .clk, .tiles, .heads, .fab, .svc]
  | .getHoldUpReport .. => [.hld, .heads, .svc]
  | .performanceSnapshot .. | .configureRequestTagging .. => [.fv, .pmc, .heads, .svc]
  | .meshDiscover .. => [.pmc, .clk, .heads, .fab, .mesh, .svc]
  | .setMirrorGroup .. => [.nv, .media, .staged, .sys, .cfg, .evr, .pmc, .clk, .tiles, .heads, .fab, .mesh, .svc, .poison]
  | .writeParameterStore .. | .prmProtectBpWrite .. => [.sys, .prm, .tiles, .heads, .svc]
  | .parameterStorePassword .. => [.fv, .sys, .prm, .tiles, .heads, .svc]
  | .setReadoutProtection .. => [.fuses, .nv, .sys, .cfg, .prm, .evr, .tiles, .heads, .svc]
  | .cachePartition .. | .cacheWayPower .. =>
    [.fv, .nv, .sys, .cfg, .evr, .pmc, .clk, .tiles, .heads, .loads, .nextReq, .fab, .mesh, .svc, .poison, .scratch]
  | .railPolicy .. => [.nv, .sys, .cfg, .seq, .tiles, .heads, .svc]
  | .writeVendorRegister .. | .hdcRdLatMaxClear .. | .mshAckClear .. | .evrCtrlClearDrops .. | .evrWinCursorWrite ..
  | .pmcCtrlOvfMsixWrite .. => [.evr, .pmc, .seq, .tiles, .heads, .fab, .mesh, .svc]
  | .backgroundOpComplete .. =>
    groupsBut [.pending, .fuses, .aon, .boot, .cfg, .prm, .bbx, .hld, .flush, .pwr, .thm, .guest, .tcm, .velvet, .scratch]
  | .warmResetStaged .. => [.boot]
  | .warmResetDrainEnd .. =>
    [.fv, .media, .staged, .sys, .boot, .evr, .pmc, .clk, .tiles, .heads, .loads, .nextReq, .fab, .mesh, .poison, .scratch]
  | .flashEraseDone .. => [.nv, .tiles, .heads, .svc, .lsa]
  | .flashPageProgramDone .. => [.nv, .evr, .tiles, .heads, .svc, .lsa]
  | .prmPageWriteDone .. => [.nv, .sys, .prm, .evr, .sec, .tiles, .heads, .svc, .prmData]
  | .sidebandEepromWrite .. => [.sys, .prm, .clk, .tiles, .svc]
  | .sidebandEepromRead .. | .sidebandThermalReadout .. | .sidebandStatusReadout .. | .i3cSetdasa .. | .i3cSetaasa .. | .i3cRstdaa ..
  | .smbusClockLowTimeout .. => [.clk, .svc]
  | .mctpRequest .. => [.clk, .heads, .svc]
  | .widarLinkTrained .. => [.fv, .fab, .mesh]
  | .widarInit .. => [.sys, .evr, .pmc, .heads, .fab, .guest, .mesh]
  | .widarPayloadFlit .. => [.fv, .sys, .pmc, .clk, .fab, .mesh]
  | .widarNullFlit .. | .widarRetryReq .. => [.fv, .pmc, .fab, .mesh]
  | .retryReqResendTimer .. | .widarRxTimeout .. | .peerLinkRxTimeout .. | .widarTrainRetryTimer .. => [.fab, .mesh]
  | .widarTxIdleTimer .. | .widarBar .. | .widarHeartbeat .. => [.pmc, .fab, .mesh]
  | .widarRetrainDone .. => [.fv, .nv, .sys, .evr, .bbx, .pmc, .clk, .tiles, .heads, .loads, .fab, .guest, .mesh]
  | .frameNumberExhausted .. => [.evr, .heads, .fab, .mesh]
  | .widarWr .. =>
    groupsBut [.pending, .fuses, .media, .staged, .aon, .boot, .cfg, .prm, .bbx, .sec, .hld, .flush, .pwr, .thm, .guest, .prmData, .lsa]
  | .widarCmp .. | .widarRdata .. | .routeUpdate .. | .stagStore .. | .stagFence .. =>
    [.nv, .evr, .bbx, .pmc, .clk, .tiles, .heads, .fab, .mesh]
  | .guestHeartbeatTimeout .. => [.nv, .sys, .evr, .bbx, .pmc, .clk, .tiles, .heads, .loads, .fab, .guest, .mesh]
  | .meshInit .. => [.sys, .evr, .pmc, .clk, .heads, .fab, .mesh]
  | .hello .. | .discoveryEnd .. => [.evr, .pmc, .clk, .heads, .fab, .mesh]
  | .mbar .. | .mhb .. | .meshHeartbeatTimer .. | .meshForwardExpiry .. => [.pmc, .clk, .fab, .mesh]
  | .mpair .. | .mwrRouteHoldEnd .. => [.sys, .evr, .pmc, .clk, .tiles, .heads, .fab, .mesh]
  | .mbye .. | .peerSilenceCheck .. | .pairContactTimeout .. =>
    [.fv, .nv, .sys, .evr, .bbx, .pmc, .clk, .tiles, .heads, .loads, .nextReq, .fab, .mesh, .svc, .poison]
  | .mcmp .. => [.nv, .sys, .evr, .bbx, .pmc, .clk, .tiles, .heads, .fab, .mesh, .svc, .poison]
  | .resyncWalkStep .. => [.fv, .pmc, .clk, .fab, .mesh]
  | .powerFailDetect .. => [.nv, .aon, .sys, .boot, .evr, .bbx, .pmc, .seq, .hld, .flush, .pwr, .clk, .tiles, .heads, .fab, .mesh, .svc]
  | .inputReturn .. => [.aon, .evr, .seq, .flush, .heads]
  | .holdupMeasurementStart .. => [.hld]
  | .holdupSinkEnd .. => [.fv, .hld]
  | .holdupMeasurementComplete .. =>
    [.fv, .sys, .cfg, .prm, .evr, .pmc, .hld, .clk, .tiles, .heads, .loads, .nextReq, .fab, .mesh, .svc, .poison]
  | .plevelChange .. | .plevelVcoreSettled .. => [.evr, .pwr, .heads]
  | .sleepEntryDrained .. => [.fv, .nv, .sys, .evr, .pmc, .seq, .pwr, .clk, .tiles, .heads, .fab, .guest, .mesh, .velvet, .scratch]
  | .resumeEnd .. => [.fv, .sys, .evr, .pmc, .seq, .pwr, .clk, .tiles, .heads, .loads, .nextReq, .fab, .mesh, .svc, .poison]
  | .pwrPadRelease .. => [.pwr]
  | .thermalTrip .. => [.sys, .pwr, .clk, .thm, .tiles]
  | .tripStaged .. => [.sys, .evr, .pmc, .seq, .clk, .thm, .tiles, .heads, .fab, .mesh]
  | .pllHoldoverTimeout .. | .pllRelock .. => [.evr, .clk, .heads]
  | .secondsTick .. => [.aon, .bbx]
  | .housekeepingStrobe .. => [.fv, .aon, .pmc, .clk, .thm, .tiles]
  | .sensorResultHold .. => [.evr, .tiles, .heads]
  | .housekeepingDecide .. => groupsBut [.pending, .fuses, .media, .staged, .sec, .seq, .flush, .pwr, .guest, .lsa, .tcm, .velvet, .scratch]
  | .eventEntry .. => [.nv, .evr, .bbx, .clk, .tiles]
  | .eventFlushStart .. => [.fv, .nv, .sys, .evr, .tiles]
  | .eventFlushDone .. => [.nv, .evr, .tiles, .heads]
  | .jtagAccess .. => [.fv, .sys, .svc]
  | .dieNotReadyTimeout .. => [.sys, .evr, .pmc, .seq, .clk, .tiles, .heads, .fab, .mesh, .poison]

/-! ### The mailbox commands as the tables of R353, R354 and R380 give them -/

/-- A mailbox command: its mailbox, its opcode, whether R380 marks it as a management command, whether it would run in the background
(R349), and its row of the table of R380, counted from the top. -/
structure CommandInfo where
  m : Iface
  op : Nat
  mgmt : Bool
  bg : Bool
  row : Nat

/-- The table of R380: what a command of a row meets in a device state. In SLEEP_S3 Set Power State, Get Power State and Get Tile Status
execute. -/
def legality (op row : Nat) (d : DevState) : Legal :=
  let of (mediaInit hold replay active sleep failed : Legal) : Legal :=
    match d with
    | .boot => .b | .flushing => .b | .mediaInit => mediaInit | .configHold => hold | .replay => replay
    | .active => active | .degraded => active | .sleepS1 => sleep | .sleepS2 => sleep
    | .sleepS3 => if op = 0xC020 ∨ op = 0xC021 ∨ op = 0xC001 then .y else .b
    | .failed => failed
  match row with
  | 4 => of .y .y .y .y .y .i
  | 5 => of .b .y .b .y .y .i
  | 6 => of .b .i .b .y .y .y
  | 7 => of .b .i .b .y .i .i
  | 8 => of .b .i .b .y .i .i
  | 9 => of .b .y .b .y .i .i
  | 10 => of .b .b .b .y .b .b
  | 12 => of .b .y .b .y .i .y
  | 13 => of .b .b .b .y .y .i
  | 14 => of .b .i .b .y .i .i
  | 15 => of .b .i .b .y .y .y
  | 16 => of .b .y .b .y .y .i
  | 17 => of .b .y .b .y .i .y
  | 18 => of .b .y .b .y .i .i
  | _ => of .y .y .y .y .y .y

/-- The mailbox commands but Write Vendor Register, whose registers have rows of their own in the command table. -/
def commandOf : Instr → Option CommandInfo
  | .identify m => some ⟨m, 0x0001, false, false, 1⟩
  | .backgroundOperationStatus m => some ⟨m, 0x0002, false, false, 1⟩
  | .getResponseMessageLimit m => some ⟨m, 0x0003, false, false, 1⟩
  | .setResponseMessageLimit m => some ⟨m, 0x0004, false, false, 1⟩
  | .requestAbortBackgroundOperation m => some ⟨m, 0x0005, false, false, 1⟩
  | .getFwInfo m => some ⟨m, 0x0200, false, false, 1⟩
  | .getTimestamp m => some ⟨m, 0x0300, false, false, 1⟩
  | .setTimestamp m => some ⟨m, 0x0301, false, false, 1⟩
  | .getSupportedLogs m => some ⟨m, 0x0400, false, false, 1⟩
  | .getLog m => some ⟨m, 0x0401, false, false, 1⟩
  | .getSupportedFeatures m => some ⟨m, 0x0500, false, false, 1⟩
  | .getEventRecords m => some ⟨m, 0x0100, false, false, 1⟩
  | .clearEventRecords m => some ⟨m, 0x0101, false, false, 1⟩
  | .getEventInterruptPolicy m => some ⟨m, 0x0102, false, false, 1⟩
  | .setEventInterruptPolicy m => some ⟨m, 0x0103, false, false, 1⟩
  | .getMctpEventInterruptPolicy m => some ⟨m, 0x0104, false, false, 1⟩
  | .setMctpEventInterruptPolicy m => some ⟨m, 0x0105, false, false, 1⟩
  | .transferFw m _ => some ⟨m, 0x0201, true, false, 2⟩
  | .activateFw m => some ⟨m, 0x0202, true, false, 2⟩
  | .identifyMemoryDevice m => some ⟨m, 0x4000, false, false, 3⟩
  | .getPartitionInfo m => some ⟨m, 0x4100, false, false, 3⟩
  | .getHealthInfo m => some ⟨m, 0x4200, false, false, 3⟩
  | .getAlertConfiguration m => some ⟨m, 0x4201, false, false, 3⟩
  | .getShutdownState m => some ⟨m, 0x4203, false, false, 3⟩
  | .getLsa m => some ⟨m, 0x4102, false, false, 3⟩
  | .getSecurityState m => some ⟨m, 0x4500, false, false, 3⟩
  | .setAlertConfiguration m => some ⟨m, 0x4202, false, false, 4⟩
  | .setShutdownState m => some ⟨m, 0x4204, true, false, 5⟩
  | .setLsa m => some ⟨m, 0x4103, true, false, 5⟩
  | .getPoisonList m => some ⟨m, 0x4300, false, false, 6⟩
  | .getScanMediaResults m => some ⟨m, 0x4305, false, false, 6⟩
  | .injectPoison m => some ⟨m, 0x4301, false, false, 7⟩
  | .clearPoison m => some ⟨m, 0x4302, false, false, 7⟩
  | .getScanMediaCapabilities m => some ⟨m, 0x4303, false, false, 7⟩
  | .scanMedia m => some ⟨m, 0x4304, false, true, 7⟩
  | .sanitize m => some ⟨m, 0x4400, true, true, 8⟩
  | .secureErase m => some ⟨m, 0x4401, true, true, 8⟩
  | .passphraseSecureErase m => some ⟨m, 0x4505, true, true, 8⟩
  | .setPassphrase m => some ⟨m, 0x4501, true, false, 9⟩
  | .disablePassphrase m => some ⟨m, 0x4502, true, false, 9⟩
  | .unlock m => some ⟨m, 0x4503, true, false, 9⟩
  | .freezeSecurityState m => some ⟨m, 0x4504, true, false, 9⟩
  | .getDynamicCapacityConfiguration m => some ⟨m, 0x4800, false, false, 10⟩
  | .getDynamicCapacityExtentList m => some ⟨m, 0x4801, false, false, 10⟩
  | .addDynamicCapacityResponse m => some ⟨m, 0x4802, false, false, 10⟩
  | .releaseDynamicCapacity m => some ⟨m, 0x4803, false, false, 10⟩
  | .getDcdInfo m => some ⟨m, 0x5600, true, false, 10⟩
  | .getHostDcRegionConfiguration m => some ⟨m, 0x5601, true, false, 10⟩
  | .setDcRegionConfiguration m => some ⟨m, 0x5602, true, false, 10⟩
  | .getDcRegionExtentLists m => some ⟨m, 0x5603, true, false, 10⟩
  | .initiateDynamicCapacityAdd m => some ⟨m, 0x5604, true, false, 10⟩
  | .initiateDynamicCapacityRelease m => some ⟨m, 0x5605, true, false, 10⟩
  | .getTileStatus m => some ⟨m, 0xC001, false, false, 11⟩
  | .readConfiguration m => some ⟨m, 0xC012, false, false, 11⟩
  | .getPowerState m => some ⟨m, 0xC021, false, false, 11⟩
  | .readEventWindow m => some ⟨m, 0xC030, false, false, 11⟩
  | .readBlackBox m => some ⟨m, 0xC031, false, false, 11⟩
  | .getHoldUpReport m => some ⟨m, 0xC041, false, false, 11⟩
  | .getMeshTopology m => some ⟨m, 0xC061, false, false, 11⟩
  | .readVendorRegister m => some ⟨m, 0xC0C0, false, false, 11⟩
  | .readParameterStore m => some ⟨m, 0xC070, false, false, 11⟩
  | .loadConfiguration m => some ⟨m, 0xC010, true, false, 12⟩
  | .commitConfiguration m => some ⟨m, 0xC011, true, false, 12⟩
  | .setPowerState m => some ⟨m, 0xC020, true, false, 13⟩
  | .setRegionAckPolicy m => some ⟨m, 0xC040, true, false, 14⟩
  | .meshDiscover m => some ⟨m, 0xC060, true, true, 14⟩
  | .setMirrorGroup m => some ⟨m, 0xC062, true, false, 14⟩
  | .cachePartition m => some ⟨m, 0xC090, true, false, 14⟩
  | .cacheWayPower m => some ⟨m, 0xC091, true, false, 14⟩
  | .patrolControl m => some ⟨m, 0xC0A0, true, false, 14⟩
  | .configureRequestTagging m => some ⟨m, 0xC052, true, false, 14⟩
  | .performanceSnapshot m => some ⟨m, 0xC050, false, false, 15⟩
  | .readPerformanceCounters m => some ⟨m, 0xC051, false, false, 15⟩
  | .writeParameterStore m => some ⟨m, 0xC071, true, false, 16⟩
  | .parameterStorePassword m => some ⟨m, 0xC072, true, false, 16⟩
  | .setReadoutProtection m => some ⟨m, 0xC080, true, false, 17⟩
  | .railPolicy m => some ⟨m, 0xC0B0, true, false, 18⟩
  | _ => none

end Sys2Proof.Machine
end

