-- ==== Sys2Proof/Certificates/Slice0/Obligations.lean ====
section
/-! DEFINITION. The statements for the provers: the step and its frame, the invariants, the byte memories, the map of addresses, reset,
events and mailboxes, and, family by family, where each command and event completes and in which state. -/

open Sys2Proof Sys2Proof.Machine

/-- The command at the front of the queue is executed with the queue's rest (the spec's events and commands arrive one at a time: R341,
R342). On an empty queue the part idles: the queue, and idling on an empty one, are DESIGN CHOICEs of the model (log 1), since every effect
of time has a row of its own. -/
def Obligations.StepTakesFront : Prop :=
  (∀ (c : Instr) (q : List Instr) (s : State), step { s with pending := c :: q } = exec c { s with pending := q }) ∧
  ∀ s : State, s.pending = [] → step s = .next s

/-- Every command and event of the table completes in every state: none faults, none is refused. An event whose cause is absent leaves
the state as it is, and a mailbox command that is judged against completes with its return code (R342, R343). -/
def Obligations.EveryCommandCompletes : Prop := ∀ (c : Instr) (s : State), ∃ t, Runs c s t

/-- The frame of every command: outside the groups of `writes c` nothing changes, neither a register, a queue or a store, nor any byte of
the five byte memories. The queue of waiting commands and the fuses are outside every set: no command changes them. -/
def Obligations.CommandsWriteOnly : Prop := ∀ (c : Instr) (s t : State), Runs c s t →
  Keeps (writes c) s t ∧ t.pending = s.pending ∧ t.fuses = s.fuses

/-- Every step keeps the byte memories in canonical form, whatever is at the front of the queue. -/
def Obligations.StepKeepsMemory : Prop := ∀ s t : State, s.MemOk → step s = .next t → t.MemOk

/-- Every step keeps the bounds that R631 gives the event queues (32 records a tile) and R326 the CXL event logs of a head. -/
def Obligations.StepKeepsBounds : Prop := ∀ s t : State, s.BoundsOk → step s = .next t → t.BoundsOk

/-- The two invariants hold at reset: every byte memory is in canonical form, and no event queue and no log holds a record. -/
def Obligations.ResetMeetsInvariants : Prop := State.reset.MemOk ∧ State.reset.BoundsOk ∧
  (∀ t : TileId, State.reset.evr.queues[t] = []) ∧ ∀ (h : TileId) (k : Fin 5), State.reset.heads[h].logs[k].recs = []

/-- The laws of a byte memory: a store keeps the canonical form, every stored byte reads back, and every other byte reads as before. The
five byte memories of a tile are of this kind: parameter store, label storage area, Stag TCM, Velvet and scratch ways. -/
def Obligations.ByteMemoryLaws : Prop := ∀ (d : Nat → Byte) (m : List Host.Cell) (a : Nat) (bs : List Byte), Memory.wf d m = true →
  Memory.wf d (Memory.writeBytes d m a bs) = true ∧ Memory.readBytes d (Memory.writeBytes d m a bs) a bs.length = bs ∧
  ∀ k : Nat, Sparse.getF d (Memory.writeBytes d m a bs) k = afterStore (Sparse.getF d m k) a bs k

/-- A page write of the parameter store (R430, R431): when the oldest page write ends, its bytes stand at its address in the lead tile's
store, and for a page that R431 marks Standby in the store of every tile in service; every other byte of every store, and every byte of
the other byte memories, reads as before, and the write leaves the queue (the end of a key
set's first copy, tag 5, may queue the other copy: R680). With no page write under way nothing changes. -/
def Obligations.ParameterPageWrites : Prop := ∀ s : State, s.MemOk →
  (s.prm.queue = [] → Runs .prmPageWriteDone s s) ∧
  (∀ (w : PageWrite) (rest : List PageWrite), s.prm.queue = w :: rest →
    ∃ t, Runs .prmPageWriteDone s t ∧ (w.tag ≠ 5 → t.prm.queue = rest) ∧
      (∀ (x : TileId) (k : Nat), t.prmByte x k =
        if x = s.lead ∨ (standbyPage (w.addr / 64) = true ∧ s.inSvc x = true) then afterStore (s.prmByte x k) w.addr w.bytes k
        else s.prmByte x k) ∧
      ∀ (x : TileId) (k : Nat), t.lsaByte x k = s.lsaByte x k ∧ t.tcmByte x k = s.tcmByte x k ∧
        t.velvetCell x k = s.velvetCell x k ∧ t.scratchByte x k = s.scratchByte x k)

/-- Label storage sectors (R409, R414, R428): the end of an erase leaves every byte of the sector at 0xFF and every other byte of every
label storage area as it was; the end of the last page program leaves the operation's bytes in the sector, and every other byte as it
was. Sector 516 + n of bank A holds bytes 4096 × n to 4096 × n + 4095. -/
def Obligations.LabelSectorWrites : Prop := ∀ (s : State) (t : TileId) (op : FlashOp) (bs : List Byte), s.MemOk →
  s.tiles[t].cfl.ops[(0 : Fin 2)] = some op → op.use = .lsa bs → bs.length = 4096 → 516 ≤ op.sector →
  (op.erasing = true → ∃ u, Runs (.flashEraseDone t false) s u ∧ ∀ (x : TileId) (k : Nat), u.lsaByte x k =
    if x = t ∧ 4096 * (op.sector - 516) ≤ k ∧ k < 4096 * (op.sector - 515) then 0xFF else s.lsaByte x k) ∧
  (op.erasing = false → op.pages ≤ 1 → ∃ u, Runs (.flashPageProgramDone t false) s u ∧ ∀ (x : TileId) (k : Nat), u.lsaByte x k =
    if x = t then afterStore (s.lsaByte x k) (4096 * (op.sector - 516)) bs k else s.lsaByte x k) ∧
  (op.erasing = false → 1 < op.pages → ∃ u, Runs (.flashPageProgramDone t false) s u ∧
    ∀ (x : TileId) (k : Nat), u.lsaByte x k = s.lsaByte x k)

/-- A Widar write that is performed in the Stag TCM, Velvet or cache window (R470 to R476): the addressed bytes of the tile's memory hold
the data, and every other byte of every byte memory reads as before. `u` is the state once the message is taken. -/
def Obligations.WidarWindowWrites : Prop := ∀ (s u : State) (t : TileId) (msg : Msg) (p : Nat) (a : Nat), s.MemOk →
  msg.opcode = 2 → s.wTake t msg = some (p, u) → u.wJudge t msg = none →
  (u.window t msg.addr = .tcm a → ∃ v, Runs (.widarWr t msg) s v ∧ (∀ (x : TileId) (k : Nat), v.tcmByte x k =
      (if x = t then afterStore (s.tcmByte x k) a (bytesAt msg.data 0 msg.len.toNat) k else s.tcmByte x k)) ∧
    Keeps (groupsBut [.prmData, .lsa, .velvet, .scratch]) s v) ∧
  (u.window t msg.addr = .velvet a → ∃ v, Runs (.widarWr t msg) s v ∧ (∀ (x : TileId) (k : Nat), v.velvetCell x k =
      (if x = t then afterStore (s.velvetCell x k) a (bytesAt msg.data 0 msg.len.toNat) k else s.velvetCell x k)) ∧
    Keeps (groupsBut [.prmData, .lsa, .tcm, .scratch]) s v) ∧
  (u.window t msg.addr = .cache a → ∃ v, Runs (.widarWr t msg) s v ∧ (∀ (x : TileId) (k : Nat), v.scratchByte x k =
      (if x = t then afterStore (s.scratchByte x k) a (bytesAt msg.data 0 msg.len.toNat) k else s.scratchByte x k)) ∧
    Keeps (groupsBut [.prmData, .lsa, .tcm, .velvet]) s v)

/-- The home of every granule, tier 3 (R113 over the procedure of R112): for every record whose fields pass the checks of R418, every
scatter key and every state of rotation and remap, (1) the granules of block b are those of page index b; (2) within a block every unit of
every listed tile receives exactly one granule; (3) two granules below the rows of the part have different (tile, unit, page slot) when
no two remap entries of a unit name the same pool slot. U granules make a block; line 64 × g is the first line of granule g. -/
def Obligations.HomesAreBijective : Prop := ∀ (r : List Byte) (key : Nat), recFieldsOk r = true →
  let v := recC r * 16
  let u := recT r * v
  (∀ b g : Nat, b * u ≤ g → g < (b + 1) * u → (homeOf r key (64 * g)).pidx = b) ∧
  (∀ b t n : Nat, t ∈ recTiles r → n < v → ∃ g : Nat, (b * u ≤ g ∧ g < (b + 1) * u ∧
      (homeOf r key (64 * g)).tile = toTile t ∧ (homeOf r key (64 * g)).unit = n) ∧
    ∀ g' : Nat, b * u ≤ g' → g' < (b + 1) * u → (homeOf r key (64 * g')).tile = toTile t → (homeOf r key (64 * g')).unit = n →
      g' = g) ∧
  (∀ (p : TileId → Placement) (g g' : Nat), g < 20376 * 255 * u → g' < 20376 * 255 * u →
    (∀ t : TileId, ∀ e ∈ (p t).remap, ∀ e' ∈ (p t).remap, e.unit = e'.unit → e.pool = e'.pool → e.slot = e'.slot) →
    let h := homeOf r key (64 * g)
    let h' := homeOf r key (64 * g')
    h.tile = h'.tile → h.unit = h'.unit → homeSlot (p h.tile) h = homeSlot (p h'.tile) h' → g = g')

/-- The rotation gap (R112 step 4, R117): whatever number of moves a unit has completed, the 255 pages of a ring lie in distinct slots
of the ring's 256 and none lies in the gap; one more completed move of the ring takes the page in the source slot (254 − x, or 255 when
x = 255) to the gap, leaves every other page where it is, and the source slot becomes the gap. -/
def Obligations.GapMoveShiftsOnePage : Prop := ∀ m m' ring jj : Nat, ring < 20376 → jj < 255 →
  let x := ringMoves m ring % 256
  let src := if x < 255 then 254 - x else 255
  (ringSlotOf m ring jj < 256 ∧ ringSlotOf m ring jj ≠ gapSlot m ring) ∧
  (∀ j : Nat, j < 255 → ringSlotOf m ring j = ringSlotOf m ring jj → j = jj) ∧
  (ringMoves m' ring = ringMoves m ring + 1 →
    ringSlotOf m' ring jj = (if ringSlotOf m ring jj = src then gapSlot m ring else ringSlotOf m ring jj) ∧ gapSlot m' ring = src)

/-- Page lines and media addresses (R114, R115): in every page slot each logical die holds exactly ten of the 80 page lines, one at each
line position 0 to 9, data lines below position 8; and two stored lines with different mode, tile, channel, die, partition, slot or
position have different media addresses, all of 40 bits. -/
def Obligations.LinesHaveDistinctPlaces : Prop :=
  (∀ slot d pos : Nat, d < 8 → pos < 10 →
    ∃ l : Nat, (l < 80 ∧ lineDie slot l = d ∧ l / 8 = pos) ∧ ∀ l' : Nat, l' < 80 → lineDie slot l' = d → l' / 8 = pos → l' = l) ∧
  (∀ mode tile chan die part slot pos : Nat, mode < 2 → tile < 8 → chan < 4 → die < 8 → part < 16 → slot < 2 ^ 23 → pos < 16 →
    mediaAddress mode tile chan die part slot pos < 2 ^ 40 ∧
    ∀ mode' tile' chan' die' part' slot' pos' : Nat, mode' < 2 → tile' < 8 → chan' < 4 → die' < 8 → part' < 16 → slot' < 2 ^ 23 →
      pos' < 16 → mediaAddress mode' tile' chan' die' part' slot' pos' = mediaAddress mode tile chan die part slot pos →
      mode' = mode ∧ tile' = tile ∧ chan' = chan ∧ die' = die ∧ part' = part ∧ slot' = slot ∧ pos' = pos)

/-- What a lookup compares is enough (R147, R166): a cache tag of unit and PIDX[22:8] in a set, and a directory entry of U, LINE and
PIDX_HI in a bucket, each name one line of the tile. The set is one of 16,384 and the bucket one of 131,072. -/
def Obligations.LookupsNameOneLine : Prop := ∀ h h' : Home,
  h.unit < 64 → h.line < 64 → h.pidx < 2 ^ 23 → h'.unit < 64 → h'.line < 64 → h'.pidx < 2 ^ 23 →
  (cacheSet h < 16384 ∧ (cacheSet h = cacheSet h' → h.unit = h'.unit → h.pidx / 256 = h'.pidx / 256 →
    h.pidx = h'.pidx ∧ h.line = h'.line)) ∧
  (dirBucket h < 131072 ∧ (dirBucket h = dirBucket h' → h.unit = h'.unit → h.line = h'.line → h.pidx / 2 ^ 17 = h'.pidx / 2 ^ 17 →
    h.pidx = h'.pidx))

/-- The age bucket (R87): 0 below 4,096 s, x for ages from 2^(11+x) s up to 2^(12+x) s, and 15 from 2^26 s on: what the loop of the rule
computes from an age of 32 bits. -/
def Obligations.AgeBuckets : Prop := ∀ age : Nat, age < 2 ^ 32 →
  (bucketOf age = 0 ↔ age < 4096) ∧
  (∀ x : Nat, 1 ≤ x → x < 15 → (bucketOf age = x ↔ 2 ^ (11 + x) ≤ age ∧ age < 2 ^ (12 + x))) ∧
  (bucketOf age = 15 ↔ 2 ^ 26 ≤ age)

/-- Stamps keep the time of their program (R204, R206, R207): a stamp set at a program stays FINE until 112 ticks have passed and names
its tick while fewer than 128 have; the sweep's step leaves it until then, and afterwards makes it COARSE for the same unit of 524,288 s;
a COARSE stamp names its unit while fewer than 124 have passed, and then becomes ANCIENT. Ages follow from the named tick or unit. -/
def Obligations.StampsKeepTheirTime : Prop := ∀ t clk : Nat, t ≤ clk → clk < 2 ^ 32 →
  let fine := stampFor t t
  let coarse := 0x80 + t / 2 ^ 19 % 126
  (clk / 4096 - t / 4096 < 128 →
    tickOf clk fine = t / 4096 ∧ ageOf clk clk fine = some ((clk / 4096 - t / 4096) * 4096 + 2048) ∧
    stampStep clk clk fine = if clk / 4096 - t / 4096 < 112 then fine else coarse) ∧
  (clk / 2 ^ 19 - t / 2 ^ 19 < 126 →
    coarseOf clk coarse = t / 2 ^ 19 ∧ ageOf clk clk coarse = some ((clk / 2 ^ 19 - t / 2 ^ 19) * 524288 + 262144) ∧
    stampStep clk clk coarse = if clk / 2 ^ 19 - t / 2 ^ 19 < 124 then coarse else 0xFE) ∧
  stampStep clk clk 0xFE = 0xFE ∧ stampStep clk clk 0xFF = 0xFF ∧ ageOf clk clk 0xFE = some 0x04000000 ∧ ageOf clk clk 0xFF = none

/-- A package reset (R382, R401 and the reset values of R209, R372 and R631): the part is in BOOT with the cause of the reset; media but
for programs cut short, config flash, parameter store, label storage and black box are kept; every tile (cache lines, staging directory,
placement SRAM, scratch ways, queues, stamps), every head (configuration space, decoders, IDE, logs, timestamp, counters, mailboxes),
the device state, the configuration, the extents, the loaded image, the parameter store unlock and its tries return to their reset values. -/
def Obligations.PackageResetClears : Prop := ∀ (s : State) (c : ResetCause) (b : Bool),
  let t := s.packageReset c b
  (t.boot.cause = c ∧ t.boot.phase = 1 ∧ t.sys = State.reset.sys) ∧
  (t.nv = s.nv ∧ t.fuses = s.fuses ∧ t.bbx.media = s.bbx.media ∧ t.evr.velvet = s.evr.velvet ∧ t.aon.seconds = s.aon.seconds ∧
    (∀ x : TileId, t.fab[x].velvet = s.fab[x].velvet ∧ t.media[x].dies = s.media[x].dies)) ∧
  (∀ x : TileId, t.tiles[x] = {} ∧ t.heads[x] = {} ∧ t.fab[x].tcm = [] ∧
    (∀ i : Nat, stampAt t.tiles[x].d i = 0xFF) ∧ t.evr.queues[x] = []) ∧
  (t.cfg = State.reset.cfg ∧ t.svc = {} ∧ t.prm.unlocked = false ∧ t.prm.tries = 5 ∧ t.prm.queue = [] ∧ t.evr.held = [] ∧
    t.loads = [] ∧ t.pmc = {} ∧ t.hld = {} ∧ t.pwr = {} ∧ t.thm = {} ∧ t.mesh = {} ∧ t.flush = none) ∧
  (t.seq.medrst = 0xFFFFFFFF ∧ t.seq.en = s.seq.en &&& 0xF ∧ t.seq.pg = s.seq.pg &&& 0xF)

/-- The part at reset: power is absent and it is in BOOT with cause POWER_ON (R382, R404); no self-test has reported and no tile is in
service; MEDRST_N and BOARD_RST_N are asserted (R550); stamps are UNKNOWN with hint bucket 8 (R209); passwords have all their tries (R372,
R676); the factory record is the one copy of each tile (R409) and its identifying fields check (R424); the Boots ladder reads 0 in its last slot (R437, R438); no
command waits. -/
def Obligations.ResetState : Prop :=
  (State.reset.pending = [] ∧ State.reset.sys.state = .boot ∧ State.reset.boot.cause = .powerOn ∧ State.reset.aon.vaon = false) ∧
  (State.reset.sys.inService = 0 ∧ State.reset.sys.selftestPass = 0 ∧ State.reset.sys.lead = none ∧ State.reset.sys.mbReady = false) ∧
  (State.reset.seq.medrst = 0xFFFFFFFF ∧ State.reset.seq.boardRst = true ∧ State.reset.seq.en = 0 ∧ State.reset.flush = none) ∧
  (∀ (t : TileId) (i : Nat), stampAt State.reset.tiles[t].d i = 0xFF ∧ Sparse.get (8 : BitVec 4) State.reset.tiles[t].d.hints i = 8) ∧
  (State.reset.prm.tries = 5 ∧ State.reset.sec.userTries = 10 ∧ State.reset.sec.masterTries = 10 ∧ State.reset.prm.unlocked = false) ∧
  (∀ t : TileId, State.reset.nv[t].copies[(0 : Fin 2)] = Factory.record ∧ State.reset.nv[t].copies[(1 : Fin 2)] = [] ∧
    recIdOk Factory.record = true) ∧
  State.reset.ladder 6 = (0, some 15)

/-- A change of device state (R51): entering the state that holds changes nothing; otherwise PREV_STATE and the count of changes follow,
and one record is raised that names the old state and, for DEGRADED (0x9002, ERROR) the cause, for FAILED (0x9003, FATAL) the FAIL_CAUSE,
for any other state (0x9001, INFO) the new state. -/
def Obligations.DeviceStateChanges : Prop := ∀ (s : State) (d : DevState) (arg : Nat),
  (s.sys.state = d → s.setDev d arg = s) ∧
  (s.sys.state ≠ d → d ≠ .flushing → s.flush = none → s.evr.queues[s.lead].length < 32 → arg < 256 →
    let t := s.setDev d arg
    t.sys = { s.sys with state := d, prev := s.sys.state, changes := s.sys.changes + 1 } ∧
    ∃ e : EventRec, t.evr = { s.evr with queues := s.evr.queues.set s.lead (s.evr.queues[s.lead] ++ [e]) } ∧
      e.args.toNat % 256 = s.sys.state.code ∧ e.boot = BitVec.ofNat 16 s.boots ∧
      (match d with
        | .degraded => e.code = 0x9002 ∧ e.sev = .error ∧ e.args.toNat / 256 = arg
        | .failed => e.code = 0x9003 ∧ e.sev = .fatal ∧ e.args.toNat / 256 = arg
        | _ => e.code = 0x9001 ∧ e.sev = .info ∧ e.args.toNat / 256 = d.code)) ∧
  (s.sys.state ≠ .flushing → d = .flushing → ∃ e : EventRec,
    (s.setDev d arg).evr = { s.evr with velvet := s.evr.velvet ++ [e] } ∧ e.code = 0x9001 ∧ e.args.toNat / 256 = 6)

/-- Raising a record (R574, R631, R632): in FLUSHING and while a flush runs it is held in Velvet; otherwise it joins the queue of its tile,
the lead's when its source is not a tile in service; a queue that holds 32 records drops it, and the drop counter of its severity takes one
more, saturating at 0xFFFF. No other queue and no other part of the state changes but the CXL event logs of the heads. -/
def Obligations.EventsAreQueued : Prop := ∀ (s : State) (e : EventRec),
  let r := { e with boot := BitVec.ofNat 16 s.boots }
  let q := s.evTile (e.source.toNat % 16)
  (s.sys.state = .flushing ∨ s.flush.isSome = true → (s.raise e).evr = { s.evr with velvet := s.evr.velvet ++ [r] }) ∧
  (s.sys.state ≠ .flushing → s.flush = none → s.evr.queues[q].length < 32 →
    (s.raise e).evr = { s.evr with queues := s.evr.queues.set q (s.evr.queues[q] ++ [r]) }) ∧
  (s.sys.state ≠ .flushing → s.flush = none → 32 ≤ s.evr.queues[q].length →
    (s.raise e).evr = { s.evr with drops := s.evr.drops.set e.sev.idx (satAdd s.evr.drops[e.sev.idx] 1) }) ∧
  Keeps [.evr, .heads] s (s.raise e)

/-- Entering a record in the recorder (R631, R632, R637): whenever the held records stand in ascending SEQ below the next one and are at
most 16,384, so do they after; a record beyond the limit or at SEQ 0xFFFF_FFFF_FFFF is dropped and counted; with room it takes the next
SEQ at the end; with 16,384 held it overwrites the held record of lowest SEQ among those of its severity or below that are not FATAL, or is
dropped and counted when there is none; and a FATAL record is never overwritten. -/
def Obligations.RecorderEntersInOrder : Prop := ∀ (e : Evr) (r : EventRec),
  e.held.Pairwise (fun a b => a.r.seq < b.r.seq) → (∀ h ∈ e.held, h.r.seq < e.nextSeq) → e.held.length ≤ 16384 →
  let t := e.assign r
  let n : HeldRec := { r := { r with seq := e.nextSeq } }
  (t.held.Pairwise (fun a b => a.r.seq < b.r.seq) ∧ (∀ h ∈ t.held, h.r.seq < t.nextSeq) ∧ t.held.length ≤ 16384) ∧
  (e.nextSeq > e.limit ∨ e.nextSeq ≥ 2 ^ 48 - 1 → t = e.drop r.sev) ∧
  (e.nextSeq ≤ e.limit → e.nextSeq < 2 ^ 48 - 1 →
    (e.held.length < 16384 → t.held = e.held ++ [n] ∧ t.nextSeq = e.nextSeq + 1 ∧ t.drops = e.drops) ∧
    (e.held.length = 16384 → (∃ h ∈ e.held, h.r.sev ≠ .fatal ∧ h.r.sev.code ≤ r.sev.code) →
      ∃ h ∈ e.held, h.r.sev ≠ .fatal ∧ h.r.sev.code ≤ r.sev.code ∧ t.held = e.held.erase h ++ [n] ∧ t.drops = e.drops ∧
        ∀ x ∈ e.held, x.r.sev ≠ .fatal → x.r.sev.code ≤ r.sev.code → h.r.seq ≤ x.r.seq) ∧
    (e.held.length = 16384 → (∀ h ∈ e.held, h.r.sev = .fatal ∨ r.sev.code < h.r.sev.code) → t = e.drop r.sev)) ∧
  (∀ h ∈ e.held, h.r.sev = .fatal → h ∈ t.held)

/-- Completion of a command (R341, R343, R344, R400): return code, extended status and output are posted, the doorbell clears and the
head's vector 0 is signalled; after a reset of the head the completion is discarded; every other mailbox and every other head is as before. -/
def Obligations.MailboxCompletions : Prop := ∀ (s : State) (h : TileId) (sec : Bool) (code : Ret) (ext : Nat) (out : List Byte),
  let m := Iface.head h sec
  let t := s.mbFinish m code ext out
  ((t.mbox m).doorbell = false ∧ (t.mbox m).cmd = none ∧ (t.mbox m).dropped = false) ∧
  ((s.mbox m).dropped = false → (t.mbox m).status = BitVec.ofNat 16 code.code ∧ (t.mbox m).ext = BitVec.ofNat 16 ext ∧
    (t.mbox m).output = out ∧
    t.heads[h].msix = if (s.mbox m).irq then bitOn s.heads[h].msix 0 else s.heads[h].msix) ∧
  ((s.mbox m).dropped = true → (t.mbox m).status = (s.mbox m).status ∧ (t.mbox m).ext = (s.mbox m).ext ∧
    (t.mbox m).output = (s.mbox m).output ∧ t.heads[h].msix = s.heads[h].msix) ∧
  t.mbox (.head h (!sec)) = s.mbox (.head h (!sec)) ∧ (∀ x : TileId, x ≠ h → t.heads[x] = s.heads[x]) ∧
  Keeps [.heads, .svc] s t ∧ t.svc.mctp = s.svc.mctp

/-- Commands are judged before anything else (R308, R340, R342, R380): a mailbox command that the lead Stag takes returns Busy with 0x0116
in FLUSHING; a management command on another head returns Unsupported with NOT_MGMT_HEAD (0x0120) before its state is judged; a background
command on a secondary mailbox returns Unsupported Mailbox or CCI; and a command that its row of R380 does not let execute returns Busy or
Invalid Input with IN_STATE (0x0110 plus the state). A command that does not wait at a mailbox changes nothing. `s.cfg.commit = none`: no
commit is under way, for which some commands wait; the two commands of the MCTP policy exist on the sideband endpoint only. -/
def Obligations.CommandsAreJudgedFirst : Prop := ∀ (c : Instr) (i : CommandInfo) (s : State), commandOf c = some i → s.cfg.commit = none →
  ((i.op = 0x0104 ∨ i.op = 0x0105) → i.m = .mctp) →
  (s.taken i.m i.op = none → s.svc.waiting = none → Runs c s s) ∧
  (∀ inp : List Byte, s.taken i.m i.op = some inp →
    (s.sys.state = .flushing → Runs c s (s.mbFinish i.m .busy 0x116)) ∧
    (s.sys.state ≠ .flushing → s.svc.rdpPending = false →
      (i.mgmt = true → s.isMgmt i.m = false → Runs c s (s.mbFinish i.m .unsupported 0x120)) ∧
      ((i.mgmt = true → s.isMgmt i.m = true) →
        (i.bg = true → Iface.isSecondary i.m = true → Runs c s (s.mbFinish i.m .wrongMailbox 0)) ∧
        ((i.bg = true → Iface.isSecondary i.m = false) → s.boot.recovery = false →
          (legality i.op i.row s.sys.state = .b → Runs c s (s.mbFinish i.m .busy (0x110 + s.sys.state.code))) ∧
          (legality i.op i.row s.sys.state = .i → Runs c s (s.mbFinish i.m .invalidInput (0x110 + s.sys.state.code)))))))

/-- Temperature bands (R605): with no band in force a reading takes the band whose boundaries enclose it; a reading at or above the next
boundary moves the band up to the band it lies in; a reading 2 °C or more below the band's lower boundary moves it down, across every
boundary that it lies more than 2 °C below; otherwise the band stays. Boundaries are 10, 30, 50, 70 and 85 °C, readings in 1/16 °C. -/
def Obligations.TemperatureBands : Prop := ∀ r : BitVec 16,
  let bound (k : Nat) : Int := [160, 480, 800, 1120, 1360].getD (k - 1) 0
  (∀ b : Nat, b ≤ 5 → (bandStep none r = BitVec.ofNat 3 b ↔ (b = 0 ∨ bound b ≤ r.toInt) ∧ (b = 5 ∨ r.toInt < bound (b + 1)))) ∧
  (∀ c : BitVec 3, c.toNat ≤ 5 →
    (c.toNat < 5 → bound (c.toNat + 1) ≤ r.toInt → bandStep (some c) r = bandStep none r) ∧
    (0 < c.toNat → r.toInt < bound c.toNat - 32 → (bandStep (some c) r).toNat < c.toNat ∧
      ((bandStep (some c) r).toNat = 0 ∨ bound (bandStep (some c) r).toNat - 32 ≤ r.toInt) ∧
      r.toInt < bound ((bandStep (some c) r).toNat + 1) - 32) ∧
    ((c.toNat = 5 ∨ r.toInt < bound (c.toNat + 1)) → (c.toNat = 0 ∨ bound c.toNat - 32 ≤ r.toInt) → bandStep (some c) r = c))

/-- The measured budget fits the energy it was derived from (R553): it is a whole number of 256 lines, at most 130,816, and when it is not
0 the flush of that budget in each of the n tiles, with the margin of 1.25, and the reserve of 36 mJ for each tile lie within the usable
energy. Usable energy is 0 up to 7,000 mV; 25,000 µF at 12,000 mV give 1,187,500 µJ. -/
def Obligations.BudgetFitsEnergy : Prop :=
  (∀ u n : Nat, 0 < n → n ≤ 8 → let b := measuredBudget u n
    b % 256 = 0 ∧ b ≤ 130816 ∧ (0 < b → n * (20000 + b * 16 / 10) * 5 / 4 + 36000 * n ≤ u)) ∧
  (∀ u u' n : Nat, u ≤ u' → measuredBudget u n ≤ measuredBudget u' n) ∧
  (∀ cap mv : Nat, mv ≤ 7000 → usableUj cap mv = 0) ∧ usableUj 25000 12000 = 1187500

/-- Ladders and twins (R432, R437, R438): an advance of a ladder to a value above the current one is what it reads next, at the slot after
the one that held the current value; whatever an interrupted advance leaves in the slot it was writing, the value read does not decrease; a
twin page that has been written reads the new content, with a GEN one above, whichever copies were valid; and when the write is interrupted
and its copy does not check, the page reads what it read before. -/
def Obligations.LaddersAndTwins : Prop :=
  (∀ bs : List Byte, bs.length = 128 →
    let r := ladderRead bs
    let k := (r.2.getD 15 + 1) % 16
    (∀ new : Nat, r.1 < new → new < 2 ^ 48 → ladderRead (putBytes bs (8 * k) (ladderImage k new)) = (new, some k)) ∧
    (∀ torn : List Byte, torn.length = 8 → r.1 ≤ (ladderRead (putBytes bs (8 * k) torn)).1)) ∧
  (∀ page content : List Byte, page.length = 64 → content.length = 26 →
    (twinGen page + 1 < 2 ^ 32 →
      twinRead (putBytes page (32 * twinTarget page) (twinImage page content)) = (some content, false) ∧
      twinGen (putBytes page (32 * twinTarget page) (twinImage page content)) = twinGen page + 1) ∧
    (∀ torn : List Byte, torn.length = 32 → twinValid torn = false →
      (twinRead (putBytes page (32 * twinTarget page) torn)).1 = (twinRead page).1))

/-- Sequence numbers and the replay buffer (R460): s is newer than a when it lies 1 to 512 steps ahead, modulo 1,024, so two numbers are
newer than each other only when they lie 512 apart; a transmitter never holds more than 256 unacknowledged PAYLOAD flits and sends none
without a flit credit; and an ACK_SEQ that names a held flit acknowledges it and every flit before it, and no other. -/
def Obligations.LinkSequenceNumbers : Prop :=
  (∀ s a : BitVec 10, newer s a = true ↔ ∃ d : Nat, 1 ≤ d ∧ d ≤ 512 ∧ s = a + BitVec.ofNat 10 d) ∧
  (∀ s a : BitVec 10, newer s a = true → newer a s = true → s = a + 512) ∧
  (∀ k : Link, k.unacked.length ≤ 256 → k.sendOne.unacked.length ≤ 256) ∧
  (∀ k : Link, k.flitCredits = 0 → k.sendOne = k) ∧
  (∀ (s : State) (h : PortId), (s.link h).unacked.length ≤ 256 → ((s.pump h).link h).unacked.length ≤ 256) ∧
  (∀ (s : State) (h : PortId), (s.link h).flitCredits = 0 → s.pump h = s) ∧
  (∀ k : Link, (k.unacked.map (·.1)).Nodup → ∀ (f : Flit) (i : Nat) (hi : i < k.unacked.length), f.ackV = true →
    f.ackSeq = k.unacked[i].1 → newer f.ackSeq k.peerAck = true → (k.takeHeader f).unacked = k.unacked.drop (i + 1))

/-- Request tagging (R649): while tagging runs, an admitted request of a head in HEADS is tagged when the low LOG2N bits of the head's LFSR
are 0, and the LFSR takes one step of the rule; a head outside HEADS, and every head while tagging is off, keeps its LFSR and tags nothing.
A nonzero LFSR stays nonzero. -/
def Obligations.RequestTagging : Prop := ∀ (s : State) (h : TileId),
  (s.pmc.tagging = true → s.pmc.heads.getLsbD h = true →
    ((s.tagStep h).1 = true ↔ s.pmc.lfsr[h].toNat % 2 ^ s.pmc.log2n.toNat = 0) ∧
    (s.tagStep h).2.2.pmc = { s.pmc with lfsr := s.pmc.lfsr.set h (lfsrStep s.pmc.lfsr[h]) }) ∧
  (s.pmc.tagging = false ∨ s.pmc.heads.getLsbD h = false → (s.tagStep h).1 = false ∧ (s.tagStep h).2.2 = s) ∧
  ∀ x : BitVec 32, x ≠ 0 → lfsrStep x ≠ 0

/-- DevLoad (R315): a response carries the load of the staging area that governs its line, in the owner tile, as it leaves: Light Load below
50 %, Optimal Load to 74 %, Moderate Overload to 94 %, Severe Overload from 95 %; a load or store that is not admitted is answered with
Light Load. -/
def Obligations.ResponsesCarryLoad : Prop := ∀ (s : State) (h : TileId),
  (∀ n : Nat, let occ := s.occupancy (s.home n).tile (s.areaOf (s.regionOf n))
    (occ < 50 → s.devLoadOf n = 0) ∧ (50 ≤ occ → occ < 75 → s.devLoadOf n = 1) ∧ (75 ≤ occ → occ < 95 → s.devLoadOf n = 2) ∧
    (95 ≤ occ → s.devLoadOf n = 3)) ∧
  (∀ (dl : BitVec 2) (d : Option Line), (s.sendData h dl d).heads[h].lastDevLoad = dl ∧ (s.sendCmp h dl).heads[h].lastDevLoad = dl ∧
    (s.sendData h dl d).heads[h].lastData = some d ∧ (s.sendCmp h dl).heads[h].cmps = s.heads[h].cmps + 1) ∧
  (∀ (a : BitVec 64) (d : Line) (p : Bool) (t : State), (s.ungate h 7).judge h a = .missed →
    (Runs (.memrd h a) s t → t.heads[h].lastDevLoad = 0 ∧ t.heads[h].lastData = some none) ∧
    (Runs (.memwr h a d p) s t → t.heads[h].lastDevLoad = 0 ∧ t.heads[h].cmps = s.heads[h].cmps + 1 ∧ t.tiles = s.tiles))

/-- Register access (R15, R377, R379): blocks that no statement assigns read as zero, the event recorder, black box, counter, parameter and
security blocks read as zero outside the lead tile; a write to a register that software may not write is discarded; and writing ones to
SEQ_FAULT clears exactly the bits written, and nothing else changes. -/
def Obligations.RegisterAccess : Prop := ∀ (s : State) (t : TileId) (off : Nat) (v : BitVec 32),
  (∀ b : Nat, b = 0 ∨ 0x16 < b → s.readReg t b off = 0) ∧
  (∀ b ∈ ([0x10, 0x11, 0x12, 0x14, 0x15] : List Nat), s.sys.lead ≠ some t → s.readReg t b off = 0) ∧
  (∀ b ∈ ([0x00, 0x02, 0x03, 0x04, 0x05, 0x06, 0x08, 0x0B, 0x0D, 0x0E, 0x0F, 0x11, 0x14, 0x15, 0x16] : List Nat),
    s.writeReg t b off v = s) ∧
  (∀ b : Nat, 0x16 < b → s.writeReg t b off v = s) ∧
  (off ≠ 0x104 → s.writeReg t 0x01 off v = s) ∧ (off ≠ 0x004 → s.writeReg t 0x0C off v = s) ∧
  (∀ k : Nat, k < 16 → (s.writeReg t 0x0C 0x004 v).seq.fault.getLsbD k = (s.seq.fault.getLsbD k && !v.getLsbD k)) ∧
  { (s.writeReg t 0x0C 0x004 v) with seq := { (s.writeReg t 0x0C 0x004 v).seq with fault := s.seq.fault } } = s

/-- Power-up and the fixed rails complete as R382 to R384, R541, R550, R590 and R704 say: VAON starts the supervisor, the crystal and
a POWER_ON package reset; a crystal or a fixed rail that fails disables all four fixed rails for 100 ms; the reset is released when the
rails are good, PKG_RST_N is high and the PLL is locked; PKG_RST_N's fall cuts the stores short and resets the package. -/
def Obligations.PowerUpEventsComplete : Prop := ∀ s : State,
  (s.aon.vaon = false →
    Runs .vaonGood s ({ s with aon := { s.aon with vaon := true }, clk := { s.clk with xtal := true } }.packageReset .powerOn).startFixed) ∧
  (s.aon.vaon = true → Runs .vaonLoss s s.powerOff) ∧
  (s.aon.vaon = true → s.boot.released = false →
    Runs .xtalStartTimeout s { s with
      seq := { s.seq with en := s.seq.en &&& 0xFFF0, pg := s.seq.pg &&& 0xFFF0, fixedWait := true }
      clk := { s.clk with locked := false, xtal := false } }) ∧
  (∀ q : Fin 4, s.seq.en.getLsbD q = true → s.seq.pg.getLsbD q = false → s.boot.released = false →
    Runs (.fixedRailPgTimeout q) s { s with
      seq := { s.seq with en := s.seq.en &&& 0xFFF0, pg := s.seq.pg &&& 0xFFF0, fixedWait := true }
      clk := { s.clk with locked := false } }) ∧
  (s.seq.fixedWait = true → s.aon.vaon = true → s.inputPresent = true → s.aon.pkgRstN = true → s.seq.en &&& 0xF = 0 →
    Runs .fixedRailRestartTimer s { s with
      seq := { s.seq with fixedWait := false, en := bitOn s.seq.en 0 }, clk := { s.clk with xtal := true } }) ∧
  (s.clk.xtal = true → s.seq.pg &&& 0xF = 0xF → s.clk.holdover = false →
    Runs .rootPllLock s { s with clk := { s.clk with locked := true } }) ∧
  (s.boot.released = false → s.aon.vaon = true → s.seq.pg &&& 0xF = 0xF → s.aon.pkgRstN = true → s.clk.locked = true →
    Runs .packageResetRelease s { s with
      boot := { s.boot with released := true, phase := 1 }, sys := { s.sys with windowOpen := true } }) ∧
  (s.boot.released = true → Runs .boardRstStretchEnd s { s with seq := { s.seq with boardRst := false } }) ∧
  (s.aon.vaon = true → s.flush = none → s.boot.released = true →
    Runs .pkgRstNFall s ({ s with aon := { s.aon with pkgRstN := false } }.cutStores.packageReset .pkgResetPin)) ∧
  (∀ f : FlushRun, s.aon.vaon = true → s.flush = some f →
    Runs .pkgRstNFall s { s with aon := { s.aon with pkgRstN := false }, flush := some { f with pkgRst := true } }) ∧
  Runs .pkgRstNRise s { s with aon := { s.aon with pkgRstN := true } }.startFixed

/-- The bring-up of phases 1 to 3 completes as R26 to R33, R385 to R389 and R408 say: the self-test reports and the window's close, the
option area, the lead's choice of a firmware slot, the verification and rewrite of each tile's copy, and the mailbox. -/
def Obligations.BringUpEventsComplete : Prop := ∀ (s : State) (l : TileId),
  (∀ t : TileId, s.sys.windowOpen = true → (fittedMask s.fuses.variant).getLsbD t = true →
    Runs (.tileSelftestDone t true) s { s with sys := { s.sys with
      passLines := bitOn s.sys.passLines t, reported := s.sys.reported.set t s.fuses.serials[t] } }) ∧
  (s.sys.windowOpen = true → s.sys.passLines = 0 →
    Runs .selftestWindowClose s (State.portsOff { s with
      sys := { s.sys with windowOpen := false, selftestPass := 0, inService := 0, lead := none, noLead := true }
      heads := vmap s.heads fun _ x => { x with idle := true } })) ∧
  (∀ (pass : BitVec 8) (x : TileId), s.sys.windowOpen = true →
    (∀ t : TileId, pass.getLsbD t = (s.sys.passLines.getLsbD t && decide (some s.sys.reported[t] = s.refSerial))) →
    pass.getLsbD x = true → (∀ t : TileId, t < x → pass.getLsbD t = false) →
    ∃ t, Runs .selftestWindowClose s t ∧ t.boot = { s.boot with phase := 2 } ∧
      t.sys = { s.sys with windowOpen := false, selftestPass := pass, inService := pass, lead := some x, noLead := false } ∧
      (∀ h : TileId, t.heads[h] = { s.heads[h] with idle := !pass.getLsbD h }) ∧
      ∀ (h : TileId) (p : Fin 4), pass.getLsbD h = false → (s.fuses.variant = .yd4871g → h ≠ 7) →
        t.fab[h].ports[p].up = false ∧ t.fab[h].ports[p].trained = false) ∧
  (s.sys.lead = some l → s.boot.optRead = false → s.boot.phase = 2 → sectorDefined s.nv[s.lead] (sectorKey 0 1024) = true →
    (∀ i ∈ ([0, 1, 2, 3] : List Nat), optOk s.nv[s.lead].opt i = true) →
    ∃ t, Runs .optionAreaRead s t ∧ t.boot.optRead = true ∧ t.boot.holdReason = 0 ∧ t.evr = s.evr
      ∧ t.cfg.optWords = #v[(s.nv[s.lead].opt.getD 0 0).truncate 16, (s.nv[s.lead].opt.getD 1 0).truncate 16,
          (s.nv[s.lead].opt.getD 2 0).truncate 16, (s.nv[s.lead].opt.getD 3 0).truncate 16]) ∧
  (s.sys.lead = some l → s.boot.optRead = true → s.boot.slotChosen = false → s.svc.rdpPending = false →
    s.bootSelect.getD 0 1 = 1 → s.bootSelect.getD 1 0 = 0 → s.bootSelect.getD 3 0 ≠ 0xA5 → s.slotOk l 1 = true →
    Runs .firmwareSlotChoice s ({ s with boot := { s.boot with
      phase := 3, slotChosen := true, slot := 1, trial := false } }.startFw l 1)) ∧
  (∀ t : TileId, s.boot.slotChosen = true → s.boot.recovery = false → s.inSvc t = true → t ≠ s.lead →
    s.sys.fwRunning.getLsbD t = false → s.flashBusy isRewrite = false →
    s.slotOk t s.boot.slot.toNat = true →
    Runs (.tileFirmwareVerify t) s (s.startFw t s.boot.slot.toNat)) ∧
  (∀ (t : TileId) (op : FlashOp), s.boot.slot = 1 → s.tiles[t].cfl.ops[(0 : Fin 2)] = some op →
    op.use = .firmware 1 ((s.slotImage s.lead 1).getD []) → s.sys.fwRunning.getLsbD t = false → s.boot.recovery = false →
    Runs (.tileFirmwareRewriteDone t) s (((s.finishOp t 0 op).flashNext t 0).startFw t 1)) ∧
  (s.svc.recoveryRestart = true → s.svc.waiting = none →
    Runs .recoveryRestartTimer s (s.finishStores.packageReset .recoveryRestart)) ∧
  (s.sys.state = .boot → s.sys.mbReady = false → s.boot.slotChosen = true → s.boot.recovery = false →
    (∀ t ∈ s.svcTiles, s.sys.fwRunning.getLsbD t = true) →
    (s.phase3.boot.holdReason ≠ 1 →
      Runs .mailboxReady s ({ s.phase3 with boot := { s.phase3.boot with phase := 4 } }.setDev .mediaInit)) ∧
    (s.phase3.boot.holdReason = 1 → Runs .mailboxReady s (s.phase3.configHold 1).confirmTrial))

/-- The bring-up from phase 4 to service completes as R389 to R393, R110, R133, R424 and R550 say: the record in force, MEDRST_N and the
channels, the unit records, the pending erase, the static extent, and replay. -/
def Obligations.MediaInitEventsComplete : Prop := ∀ s : State,
  (∀ (r : List Byte) (u : State), s.sys.state = .mediaInit → s.boot.phase = 4 →
    s.scanJournals.cflRecords.judgeCopies = (.ok r, u) →
    (u.readKeys r).recordFails r = none →
    ∃ t, Runs .recordJudge s t ∧ t.boot.phase = 5 ∧ t.cfg.record = r ∧ t.hld.due = true) ∧
  (∀ (t : TileId) (c : ChanId), s.sys.state = .mediaInit → s.boot.phase = 5 → s.seq.lowering = false →
    s.pwr.padLatched.getLsbD t = false → s.tiles[t].ch[c].inReset = true → s.initChans t c = true →
    ∃ u, Runs (.medrstStretchEnd t c) s u ∧ u.seq.medrst = bitOff s.seq.medrst (chanBit t c) ∧ u.boot.phase = 6
      ∧ u.tiles[t].ch[c].inReset = false ∧ u.tiles[t].ch[c].tinit = true) ∧
  (∀ (t : TileId) (c : ChanId) (l : List (Nat × Nat)) (f : List (Nat × BitVec 6)), s.tiles[t].ch[c].tinit = true →
    s.tiles[t].ch[c].inReset = false → (s.initChannel t c l f).sys.state = .mediaInit →
    Runs (.dieTinitEnd t c ⟨l, f⟩) s (((s.initChannel t c l f).modCh t c fun k => { k with expected := 0 }).judgeChannel t c)) ∧
  (s.sys.state = .mediaInit → s.boot.phase = 7 → s.chansUp = true → s.seq.raising = false →
    (s.boot.relayout = true ∨ ∀ x ∈ s.liveUnits, s.unitDiffers x.1 x.2 = false) →
    Runs .unitRecordCheck s { s with boot := { s.boot with phase := 8 } }) ∧
  (s.sys.state = .mediaInit → s.boot.phase = 8 → s.supplyOk 25000 s.svcTiles.length = true →
    ∃ t, Runs .interruptedEraseCompletion s t ∧ t.boot = { s.boot with phase := 9 } ∧ t.sys = s.sys ∧ t.seq = s.seq) ∧
  (s.sys.state = .mediaInit → s.boot.phase = 9 → recRegLen s.cfg.record 8 = 0 →
    let u := { s with svc := { s.svc with extents := [] } }.resizeArea
    Runs .staticExtentCreate s { u with boot := { u.boot with phase := 10 } }) ∧
  (s.sys.state = .mediaInit → s.boot.phase = 9 → 2 ^ 21 ≤ recRegLen s.cfg.record 8 → s.mesh.takenOver = false →
    let u := { s with svc := { s.svc with extents := [] } }.addEntry 0 (recRegLen s.cfg.record 8 / 2 ^ 21) 8
      (recRegHeads s.cfg.record 8) true
    Runs .staticExtentCreate s { u with boot := { u.boot with phase := 10 } }) ∧
  (s.sys.state = .mediaInit → s.boot.phase = 10 →
    ∃ t, Runs .replayStart s t ∧ t.sys.state = .replay ∧ t.sys.prev = .mediaInit ∧ t.boot = { s.boot with phase := 11 }) ∧
  (∀ a b : Nat, s.sys.state = .replay → s.boot.trial = false →
    ∃ t, Runs (.replayEnd a b) s t ∧ t.boot.phase = 12 ∧ t.boot.replayMs.toNat = min a 2047 ∧ t.boot.activeMs.toNat = min b 65535)

/-- The media rails complete as R544 to R548, R550 and R704 say: a good rail enables those that wait for it, a rail that does not come up
holds its group off, a running fault takes its reaction, a retry re-enables the rail, and the rails are lowered in dependency order. -/
def Obligations.RailEventsComplete : Prop := ∀ s : State,
  (∀ q : Fin 16, q.val < 3 → s.seq.en.getLsbD q = true → s.seq.pg.getLsbD q = false →
    Runs (.railPowerGood q) s { s with seq := { s.seq with
      pg := bitOn s.seq.pg q, ignored := bitOff s.seq.ignored q, en := bitOn s.seq.en (q.val + 1) } }) ∧
  (∀ q : Fin 16, 4 ≤ q.val → s.seq.en.getLsbD q = true → s.seq.pg.getLsbD q = false → s.seq.retryRail ≠ some q.val →
    let u := { s with seq := { s.seq with pg := bitOn s.seq.pg q, ignored := bitOff s.seq.ignored q } }.enableRails
    Runs (.railPowerGood q) s u.stillRaising) ∧
  (∀ q : Fin 16, 4 ≤ q.val → s.seq.en.getLsbD q = true → s.seq.pg.getLsbD q = false → s.seq.ignored.getLsbD q = false →
    s.flush = none → s.seq.retryRail = none →
    ∃ t, Runs (.railRampTimeout q) s t ∧ t = (({ s with seq := { s.seq with
      en := bitOff s.seq.en q, fault := bitOn s.seq.fault q, lastRail := BitVec.ofNat 4 q } }.raise
        (mkEv 0x5010 .error 15 0 [(1, q)])).railRecord q 0 (recRailReact s.cfg.record q)).holdGroupOff q) ∧
  (∀ q : Fin 16, s.boot.released = true → s.seq.en.getLsbD q = true → s.seq.pg.getLsbD q = true →
    Runs (.railRunningFault q) s (s.railFault q)) ∧
  (∀ q : Fin 16, s.boot.released = false → s.seq.en.getLsbD q = true → s.seq.pg.getLsbD q = true →
    Runs (.railRunningFault q) s { s with
      seq := { s.seq with en := s.seq.en &&& 0xFFF0, pg := s.seq.pg &&& 0xFFF0, fixedWait := true }
      clk := { s.clk with locked := false } }) ∧
  (s.boot.released = true → s.seq.en.getLsbD 0 = true → Runs .pmbAlert s (s.railFault 0)) ∧
  (∀ q : Nat, s.seq.retryRail = some q → s.seq.en.getLsbD q = false → s.seq.retries ≠ 3 → s.flush = none →
    Runs .railRetryTimer s { s with seq := { s.seq with
      retries := s.seq.retries + 1, wanted := s.seq.wanted ||| groupMask s.cfg.record q, raising := true } }.enableRails) ∧
  (s.seq.lowering = true → s.flush = none →
    Runs .mediaRailLowerStep s { s with seq := { s.seq with
      en := s.seq.en &&& ~~~railMask s.lowerNow, pg := s.seq.pg &&& ~~~railMask s.lowerNow
      ignored := s.seq.ignored &&& ~~~railMask s.lowerNow
      lowering := s.toLower.any fun q => !s.lowerNow.contains q } })

/-- Power fail, flush and hold-up complete as R552 to R562, R382 and R712 say: the indication starts a flush, input may return, a tile's
DATA_END and the watchdog end the flush work, the part powers off or resets, and the hold-up measurement runs its three steps. -/
def Obligations.FlushEventsComplete : Prop := ∀ s : State,
  (∀ vin : Bool, s.aon.vaon = true → s.boot.released = true → s.flush = none → s.sys.state ≠ .failed →
    Runs (.powerFailDetect vin) s ({ s with aon := { s.aon with
      inputOk := false, vinLow := s.aon.vinLow || vin, pwrfailN := s.aon.pwrfailN && vin } }.startFlush (if vin then 1 else 0))) ∧
  (∀ f : FlushRun, s.flush = some f → f.returned = false →
    ∃ t, Runs .inputReturn s t ∧ t.aon.inputOk = true ∧ t.aon.vinLow = false ∧ t.aon.pwrfailN = true ∧ t.aon.flushReturned = true
      ∧ t.flush = some { f with returned := true }) ∧
  (∀ (t : TileId) (f : FlushRun), s.flush = some f → f.workEnded = false → s.inSvc t = true → f.dataEnd.getLsbD t = false →
    s.flushClean t = true → (s.sys.loneLost = true ∨ ∃ x ∈ s.svcTiles, (bitOn f.dataEnd t).getLsbD x = false) →
    ∃ u, Runs (.flushTileDataEnd t) s u ∧ u.flush = some { f with dataEnd := bitOn f.dataEnd t }) ∧
  (∀ f : FlushRun, s.flush = some f → s.sys.loneLost = false → Runs .flushWatchdog s (s.endFlushWork true)) ∧
  (∀ f : FlushRun, s.flush = some f → f.workEnded = true → s.aon.vaon = true → s.inputPresent = false →
    Runs .vholdCollapse s (s.finishStores.packageReset .powerOn).fixedOff) ∧
  (∀ f : FlushRun, s.flush = some f → f.brownHold = true → f.pkgRst = false → s.inputPresent = true →
    Runs .brownoutHoldEnd s (s.finishStores.packageReset .brownoutReturn f.railReset).startFixed) ∧
  (s.hld.due = true → s.hld.measuring = false → s.flush = none → s.sys.state.isSleep = false → s.pwr.transition = 0 →
    Runs .holdupMeasurementStart s { s with hld := { s.hld with
      measuring := true, chargeOff := true, sinking := true, due := false, vrest := s.aon.vholdMv } }) ∧
  (∀ us : BitVec 32, s.hld.sinking = true →
    ∃ t, Runs (.holdupSinkEnd us false) s t ∧ t.hld.sinking = false ∧ t.hld.chargeOff = false ∧ t.hld.sinkUs = us
      ∧ t.hld.cap.toNat = us.toNat / 2) ∧
  (∀ us : BitVec 32, s.hld.sinking = true →
    ∃ t, Runs (.holdupSinkEnd us true) s t ∧ t.hld.sinking = false ∧ t.hld.sinkUs = 200000 ∧ t.hld.cap = 100000) ∧
  (∀ v : BitVec 16, s.hld.measuring = true → s.hld.sinking = false → s.hld.vrest.toNat ≤ v.toNat + 50 →
    ∃ t, Runs (.holdupMeasurementComplete false v) s t ∧ t.hld.measuring = false ∧ t.hld.cap = s.hld.cap
      ∧ t.hld.measured = measuredBudget (usableUj s.hld.cap.toNat s.hld.vrest.toNat) s.svcTiles.length
      ∧ t.hld.usable = usableUj s.hld.cap.toNat v.toNat ∧ t.hld.lastAt = s.aon.seconds)

/-- Performance levels, sleep and clocks complete as R565 to R573, R590 to R596 and R607 say. -/
def Obligations.PowerClockEventsComplete : Prop := ∀ s : State,
  (s.pwr.changing = false → s.pwr.sleep = 0 → s.pwr.transition = 0 → s.thm.trip = false → s.wantedLevel.toNat < s.pwr.effective.toNat →
    Runs .plevelChange s { s with pwr := { s.pwr with
      changing := true, target := s.wantedLevel, vcoreMv := vcoreOf s.wantedLevel } }) ∧
  (s.pwr.changing = false → s.pwr.sleep = 0 → s.pwr.transition = 0 → s.thm.trip = false → s.pwr.effective.toNat < s.wantedLevel.toNat →
    ∃ t, Runs .plevelChange s t ∧ t.pwr = { s.pwr.setLevel s.wantedLevel with vcoreMv := vcoreOf s.wantedLevel }) ∧
  (s.pwr.changing = true → s.seq.pg.getLsbD 0 = true →
    ∃ t, Runs .plevelVcoreSettled s t ∧ t.pwr = s.pwr.setLevel s.pwr.target) ∧
  (s.pwr.transition = 1 → s.flush = none → s.sleepDrain.drained = true → s.sleepDrain.mesh.paired = false →
    s.sleepDrain.pwr.transTarget = 1 →
    let d := s.sleepDrain
    let v := { d with pwr := { d.pwr with held := d.sys.state, sleep := 1, transition := 0, ctrlDone := false } }.setDev .sleepS1
    Runs .sleepEntryDrained s (forAll v.svcTiles (fun t s => s.tileSleeps t 1) v).reversal) ∧
  (∀ us : BitVec 32, s.pwr.transition = 2 → s.resumed = true → s.pwr.queued = 0 → s.sys.wakeNeeded = false →
    ∃ t, Runs (.resumeEnd us) s t ∧ t.boot = s.boot ∧ t.cfg = s.cfg ∧
      t.pwr = { s.pwr.setLevel s.wantedLevel with
        transition := 0, sleep := 0, lastResumeUs := us, vcoreMv := vcoreOf s.wantedLevel
        s3Exits := if s.sys.state = .sleepS3 then satAdd s.pwr.s3Exits 1 else s.pwr.s3Exits }) ∧
  (∀ t : TileId, s.pwr.padLatched.getLsbD t = true → s.pwr.transition = 2 →
    (∀ c : ChanId, ∀ q ∈ chanRails s.cfg.record t c, s.seq.pg.getLsbD q = true) →
    Runs (.pwrPadRelease t) s { s with pwr := { s.pwr with padLatched := bitOff s.pwr.padLatched t } }) ∧
  (s.clk.locked = true → Runs .pllLockLoss s { s with clk := { s.clk with
    locked := false, holdover := true, holdoverLong := false, relocks := satAdd s.clk.relocks 1 } }) ∧
  (s.clk.holdover = true → s.clk.holdoverLong = false →
    Runs .pllHoldoverTimeout s ({ s with clk := { s.clk with holdoverLong := true } }.raise (mkEv 0x6040 .error 15 0))) ∧
  (s.clk.holdover = true → s.clk.holdoverLong = false →
    Runs .pllRelock s { s with clk := { s.clk with locked := true, holdover := false, holdoverLong := false } }) ∧
  (s.clk.holdover = true → s.clk.holdoverLong = true →
    Runs .pllRelock s ({ s with clk := { s.clk with locked := true, holdover := false, holdoverLong := false } }.raise
      (mkEv 0x6041 .info 15 0))) ∧
  (∀ (t : TileId) (k : Fin 37), s.inSvc t = true → k.val < 30 →
    Runs (.clockDomainIdleGate t k) s { s with clk := { s.clk with gate := vmod s.clk.gate t (bitOn · k) } }) ∧
  (∀ (t : TileId) (k : Fin 37), 31 ≤ k.val →
    Runs (.clockDomainIdleGate t k) s { s with clk := { s.clk with pkgGate := bitOn s.clk.pkgGate (k.val - 31) } }) ∧
  (s.aon.vaon = true →
    Runs .secondsTick s { s with aon := { s.aon with seconds := s.aon.seconds + 1 }, bbx := { s.bbx with second := 0 } }) ∧
  (∀ t : TileId, s.inSvc t = true →
    Runs (.delayRecalibration t) s (s.modTherm t fun x => { x with recal := x.recal + 1 }))

/-- Housekeeping and temperature complete as R598 to R611 say: a round starts and counts, the readings of a tile are held, the round is
decided and its report reaches the supervisor, and a thermal trip stops admission and ends in FAILED with cause 0x4. -/
def Obligations.HousekeepingEventsComplete : Prop := ∀ s : State,
  (∀ (vin vhold vaon vcore : BitVec 16) (e : BitVec 64), s.aon.vaon = true →
    ∃ t, Runs (.housekeepingStrobe vin vhold vaon vcore e) s t ∧ t.aon = { s.aon with vinMv := vin, vholdMv := vhold }
      ∧ t.thm = { s.thm with vcoreMv := vcore, vaonMv := vaon }) ∧
  (∀ (t : TileId) (r : Vector (Option (BitVec 16)) 12), s.aon.vaon = true → s.sys.state ≠ .sleepS3 →
    ∃ u, Runs (.sensorResultHold t r) s u ∧
      ∀ k : Fin 12, goodReading r[k] = true → u.tiles[t].thm.sensor[k] = r[k].getD 0 ∧ u.tiles[t].thm.bad.getLsbD k = false) ∧
  (∀ l : TileId, s.aon.vaon = true → s.sys.lead = some l →
    ∃ t, Runs .housekeepingDecide s t ∧ t.flush = s.flush ∧ t.guest = s.guest ∧ t.fuses = s.fuses ∧
      (∀ x : TileId, t.sys.lead = some x → t.inSvc x = true → t.sys.loneLost = false →
        t.clk.noReport = 0 ∧ t.clk.report = some (t.sys.state, t.sys.inService, t.sys.rescueLead))) ∧
  (∀ (t : TileId) (k : Fin 12), s.thm.trip = false → s.tiles[t].thm.excluded.getLsbD k = false → s.aon.vaon = true →
    s.flush = none → s.sys.state ≠ .failed →
    ∃ u, Runs (.thermalTrip t k) s u ∧ u.thm = { s.thm with trip := true, tripAt := some (t, k) } ∧ u.pwr.vcoreMv = 700
      ∧ u.sys.admitStop = true) ∧
  (∀ (t : TileId) (k : Fin 12), s.thm.tripAt = some (t, k) → s.flush = none → (∀ x ∈ s.svcTiles, s.flushClean x = true) →
    Runs .tripStaged s (({ s with thm := { s.thm with tripAt := none } }.raise (mkEv 0x6010 .fatal t 0 [(1, k.val)])).fail .thermalTrip))

/-- Heartbeats, lost tiles and warm resets complete as R35 to R37, R398, R399, R485, R573 and R712 say: the lead's heartbeats are
counted, a tile that misses three or reports FATAL leaves service, its rescue flush ends in the degrade cause, the loss of the lone lead
ends in FAILED, and a warm reset stages, drains and starts anew. That the lead's own silence is TILE_HEARTBEAT_TIMEOUT itself is the
model's choice (log 91). -/
def Obligations.TileLossEventsComplete : Prop := ∀ s : State,
  (∀ l : TileId, s.sys.lead = some l → s.sys.fwRunning.getLsbD l = true → s.linksSleep = false → s.sys.loneLost = false →
    ∃ u, Runs .leadHeartbeatTimer s u ∧ u.boot = s.boot ∧ u.tiles = s.tiles ∧
      ∀ t ∈ s.svcTiles, t ≠ l → u.sys.awaiting.getLsbD t = true ∧
        u.sys.missed[t] = if s.sys.awaiting.getLsbD t then s.sys.missed[t] + 1 else 0) ∧
  (∀ t : TileId, 3 ≤ s.sys.missed[t] → Runs (.tileHeartbeatTimeout t) s (s.tileLost t false)) ∧
  (∀ t : TileId, s.sys.lead = some t → s.sys.fwRunning.getLsbD t = true → s.linksSleep = false → (∃ x ∈ s.svcTiles, x ≠ t) →
    Runs (.tileHeartbeatTimeout t) s (s.tileLost t false)) ∧
  (∀ t : TileId, Runs (.tileFatalReport t) s (s.internalFatal t)) ∧
  (∀ t : TileId, s.pwr.transition = 2 → s.pwr.ctrlDone = true → s.sys.lead ≠ some t → (s.routeTo s.lead t.val).1 = 7 →
    Runs (.tileRejoinTimeout t) s (s.tileLost t false)) ∧
  (∀ (t : TileId) (ts : List TileId) (n : List Nat), s.sys.rescueOf = t :: ts → s.flush = none → s.sys.wakeNeeded = false →
    let r := s.rescueFlush t n
    let u := r.2.rescueLost t r.1.1 r.1.2
    let v := { u with sys := { u.sys with rescueOf := ts } }.addCause .tileLost
    ((v.sys.leadLoss = false ∨ ts ≠ []) → Runs (.rescueFlushDone n) s v) ∧
    (v.sys.leadLoss = true → ts = [] → Runs (.rescueFlushDone n) s ((v.leadLostRecord t r.1.1.length).startFlush 3))) ∧
  (∀ t : TileId, s.sys.lead = some t → 10 ≤ s.clk.noReport → s.svcTiles = [t] → s.sys.loneLost = false →
    Runs .leadReportAbsent s (s.loneLost t false)) ∧
  (∀ (t : TileId) (f : FlushRun), s.aon.loneLoss = some t → s.sys.loneLost = true → s.flush = some f → f.workEnded = false → f.pkgRst = false →
    s.inputPresent = true →
    ∃ u, Runs (.loneLossFlushEnd false) s u ∧ u.flush = none ∧ u.sys.state = .failed ∧ u.sys.failCause = .leadTileLost
      ∧ u.aon.loneSaved = f.dataEnd.getLsbD t) ∧
  (∀ t : TileId, s.sys.state.isSleep = false → s.sys.lead ≠ some t →
    Runs (.stagWatchdogExpiry t) s (s.warmReset t)) ∧
  (∀ t : TileId, s.sys.state.isSleep = false → s.sys.lead = some t →
    Runs (.stagWatchdogExpiry t) s (s.internalFatal t)) ∧
  (∀ t : TileId, s.inSvc t = true → s.sys.state.isSleep = false → s.flush = none → s.boot.warmStep[t] = 0 → s.boot.warmAt[t] = none →
    ∃ u, Runs (.duikerRecoverableFault t) s u ∧ u.boot = { s.boot with
        warmResets := satAdd s.boot.warmResets 1, warmAt := s.boot.warmAt.set t (some s.aon.seconds)
        warmStep := s.boot.warmStep.set t 2 } ∧ u.sys = s.sys) ∧
  (∀ t : TileId, s.boot.warmStep[t] = 2 → s.tiles[t].eng.ctxs = [] → (∀ l ∈ s.tiles[t].d.cache, (l.postedDirty && l.inFlight) = false) →
    Runs (.warmResetStaged t) s { s with boot := { s.boot with warmStep := s.boot.warmStep.set t 3 } }) ∧
  (∀ (t : TileId) (n : Nat), s.boot.warmStep[t] = 3 →
    ∃ u, Runs (.warmResetDrainEnd t n) s u ∧ u.boot.warmStep[t] = 0 ∧ u.nv = s.nv ∧ u.cfg = s.cfg)

/-- The CXL heads complete their events as R306, R310 to R313, R317, R318, R321, R328 to R331, R333, R334, R400, R401, R593 and R684 say. -/
def Obligations.HeadEventsComplete : Prop := ∀ (s : State) (h : TileId),
  (∀ (sp w : BitVec 4) (f l : Bool), s.headTrains h = true → 3 ≤ sp.toNat → sp.toNat ≤ 6 → (w = 4 ∨ w = 8) → (f = true ∨ sp.toNat < 6) →
    (f = true ∨ l = false) →
    Runs (.headLinkUp h sp w f l) s (({ s with clk := { s.clk with refclk := bitOn s.clk.refclk h } }.modHead h fun x =>
      { x with speed := sp, width := w, flit256 := f, lopt := l }).headDown)) ∧
  (s.heads[h].speed ≠ 0 → Runs (.headLinkDown h) s (s.linkDown h)) ∧
  Runs (.headTrainRetry h) s s.headDown ∧
  (s.heads[h].speed ≠ 0 →
    Runs (.headRefclkLoss h) s ({ s with clk := { s.clk with refclk := bitOff s.clk.refclk h } }.linkDown h)) ∧
  (∀ (w : Bool) (o : Nat) (v : BitVec 32), s.heads[h].speed ≠ 0 → s.sys.mbReady = false →
    Runs (.configRequest h w ⟨.config, o⟩ v) s (s.modHead h fun x => { x with cfgRetry := true })) ∧
  (∀ (o : Nat) (v : BitVec 32), s.heads[h].speed ≠ 0 → s.sys.mbReady = true →
    Runs (.configRequest h true ⟨.config, o⟩ v) s (s.modHead h fun x => { x with
      cfgRetry := false, config := tabPut x.config (o / 4) v }.sendPending)) ∧
  (∀ v w : BitVec 32, s.heads[h].speed ≠ 0 → s.sys.mbReady = true → ∀ o : Nat, s.configWord h (o / 4 * 4) = some w →
    Runs (.configRequest h false ⟨.config, o⟩ v) s (s.modHead h fun x => { x with cfgRetry := false, cfgData := w })) ∧
  (∀ (b : HostSpace) (o : Nat) (v : BitVec 32), b ≠ .config → s.heads[h].speed ≠ 0 → s.sys.mbReady = true → s.heads[h].barOn = true →
    Runs (.configRequest h true ⟨b, o⟩ v) s (s.modHead h fun x => x.barWrite b (o / 4 * 4) v)) ∧
  (∀ (o : Nat) (v w : BitVec 32), s.heads[h].speed ≠ 0 → s.sys.mbReady = true → s.heads[h].barOn = true →
    s.bar0Word h (o / 4 * 4) = (BitVec.allOnes 32, w) →
    Runs (.configRequest h false ⟨.bar0, o⟩ v) s (s.modHead h fun x => { x with cfgRetry := false, cfgData := w })) ∧
  (∀ (o : Nat) (v w : BitVec 32), s.heads[h].speed ≠ 0 → s.sys.mbReady = true → s.heads[h].barOn = true →
    s.heads[h].bar2Word (o / 4 * 4) = (BitVec.allOnes 32, w) →
    Runs (.configRequest h false ⟨.bar2, o⟩ v) s (s.modHead h fun x => { x with cfgRetry := false, cfgData := w })) ∧
  (∀ e : Bool, s.heads[h].speed ≠ 0 → s.sys.mbReady = true →
    Runs (.d3hotTransition h e) s (s.modHead h fun x => { x with d3hot := e })) ∧
  (∀ (n : Fin 4) (d : Decoder) (b z k : BitVec 64), s.heads[h].speed ≠ 0 → s.sys.mbReady = true →
    (s.heads[h].decoders[n].committed = false ∨ s.heads[h].decoders[n].lock = false) →
    d.base = b.toNat → d.size = z.toNat → d.skip = k.toNat → d.committed = true → d.err = false →
    decoderOk (s.heads[h].decoders.toList.take n.val) d s.capacity = true →
    (∀ x ∈ s.heads[h].decoders.toList.drop (n.val + 1), x.committed = false) →
    Runs (.hdmDecoderCommit h n b z k d.ways d.gran d.lock) s (s.modHead h fun x => { x with decoders := x.decoders.set n d })) ∧
  (∀ o : Offer, (s.svc.offers.find? fun o => o.head = h) = some o →
    Runs (.dcOfferTimeout h) s { s with svc := { s.svc with
      offers := s.svc.offers.erase o, dcReports := s.svc.dcReports ++ [(h, true)] } }) ∧
  (∀ r : Release, (s.svc.releases.find? fun r => r.head = h && r.awaitHost) = some r →
    Runs (.dcReleaseHostTimeout h) s { s with svc := { s.svc with
      releases := s.svc.releases.erase r, dcReports := s.svc.dcReports ++ [(h, false)] } }) ∧
  (∀ m : Bool, (if m then s.heads[h].ideMem else s.heads[h].ideIo) = true →
    Runs (.ideIntegrityFailure h m) s (s.modHead h fun x => { x with
      ideIo := false, ideMem := false, ideFailed := true, aerErrors := satAdd x.aerErrors 1 })) ∧
  (∀ i m : Bool, s.heads[h].speed ≠ 0 → s.sys.mbReady = true → s.heads[h].spdm = true →
    Runs (.cxlIdeKm h i m) s (s.modHead h fun x => { x with
      ideIo := x.ideIo || i, ideMem := x.ideMem || m, ideFailed := x.ideFailed && !m })) ∧
  (s.heads[h].speed ≠ 0 → s.sys.mbReady = true →
    Runs (.doeDiscovery h 3) s (s.modHead h fun x => { x with doe := [0x98, 0x1E, 0x02, 0x00] })) ∧
  (∀ i : BitVec 8, s.heads[h].speed ≠ 0 → s.sys.mbReady = true → i.toNat < 3 →
    Runs (.doeDiscovery h i) s (s.modHead h fun x => { x with doe := [0x01, 0x00, i, i + 1] })) ∧
  (s.heads[h].speed ≠ 0 → s.sys.mbReady = true →
    ∃ u, Runs (.spdmRequest h 0xE0) s u ∧ ∃ l, u.heads[h].doe = [0x12, 0x60] ++ s.measurements ++ l) ∧
  (∀ n : Nat, s.heads[h].speed ≠ 0 → s.sys.mbReady = true → 1 ≤ n → n ≤ (s.reportedRegions.flatMap s.cdatRegion).length →
    ∃ u, Runs (.cdatTableAccess h n) s u ∧ u.heads[h].cdatChanged = false ∧
      (u.heads[h].doe).drop 4 = (s.reportedRegions.flatMap s.cdatRegion).getD (n - 1) []) ∧
  (s.inSvc h = true → Runs (.conventionalReset h) s (s.linkDown h)) ∧
  (s.heads[h].speed ≠ 0 → s.sys.mbReady = true → Runs (.functionLevelReset h) s (s.modHead h Head.functionReset)) ∧
  (s.heads[h].speed ≠ 0 → s.sys.mbReady = true →
    Runs (.cxlReset h) s (s.modHead h fun x => { x.functionReset with
      decoders := .replicate 4 {}, ideMem := false, ideFailed := false, trackers := .replicate 16 {}, gpfWait := 0, gpfNext := 0 }))

/-- CXL.mem loads, hints and the requests that leave their line unchanged complete as R314 to R316 say: a load that passes is served by
its owner, one that is not admitted, whose owner cannot be reached, or that meets a locked part is answered poisoned, MemInv and MemClnEvct complete with Cmp. -/
def Obligations.CxlMemLoadsComplete : Prop := ∀ (s : State) (h : TileId) (a : BitVec 64),
  (∀ n : Nat, (s.ungate h 7).judge h a = .passed n →
    let r := ((s.ungate h 7).count h 1 1).tagStep h
    r.2.2.ownerUp (r.2.2.home n).tile = true → r.2.2.forwards h (r.2.2.home n).tile = true →
    Runs (.memrd h a) s (r.2.2.newLoad
      { id := 0, head := h, owner := (r.2.2.home n).tile, line := n, src := .none, tagged := r.1, t0 := r.2.1 })) ∧
  (∀ n : Nat, (s.ungate h 7).judge h a = .passed n →
    let r := ((s.ungate h 7).count h 1 1).tagStep h
    r.1 = false → (r.2.2.ownerUp (r.2.2.home n).tile = false ∨ r.2.2.forwards h (r.2.2.home n).tile = false) →
    Runs (.memrd h a) s (r.2.2.sendPoison h (r.2.2.devLoadOf n))) ∧
  ((s.ungate h 7).judge h a = .missed → Runs (.memrd h a) s (((s.ungate h 7).admitMiss h a 0).sendPoison h 0)) ∧
  (∀ n : Nat, (s.ungate h 7).judge h a = .locked n →
    let u := ((s.ungate h 7).count h 1 1).noteLocked
    Runs (.memrd h a) s (u.sendPoison h ((s.ungate h 7).devLoadOf n))) ∧
  (∀ n : Nat, (s.ungate h 7).judge h a = .passed n → s.pmc.tagging = false →
    ∃ t, Runs (.memspecrd h a) s t ∧ t.media = s.media ∧ t.staged = s.staged ∧ t.nv = s.nv) ∧
  (∀ n : Nat, ((s.ungate h 7).judge h a = .passed n ∨ (s.ungate h 7).judge h a = .notServed n) → s.pmc.tagging = false →
    Runs (.meminv h a) s ((s.ungate h 7).sendCmp h ((s.ungate h 7).devLoadOf n)) ∧
    Runs (.memclnevct h a) s ((s.ungate h 7).sendCmp h ((s.ungate h 7).devLoadOf n)))

/-- CXL.mem stores complete as R44, R155, R254, R314 and R316 say: a store that passes is handed to its owner, the trackers see it, one
with no byte enabled only completes, and a forbidden message is counted. -/
def Obligations.CxlMemStoresComplete : Prop := ∀ (s : State) (h : TileId) (a : BitVec 64) (d : Line),
  (∀ (n : Nat) (p : Bool), (s.ungate h 7).judge h a = .passed n →
    let r := ((s.ungate h 7).count h 1 2).tagStep h
    let k := trackStore r.2.2.heads[h] n
    let u := r.2.2.modHead h fun x => (trackStore x n).2
    u.ownerStores n = true → u.forwards h (u.home n).tile = true →
    Runs (.memwr h a d p) s (u.newStore (u.home n).tile
      { id := 0, head := h, line := n, data := d, mask := BitVec.allOnes 64, stream := k.1, region := u.regionOf n, poison := p,
        ptl := false, tagged := r.1, t0 := r.2.1 })) ∧
  (∀ (n : Nat) (m : BitVec 64) (p : Bool), (s.ungate h 7).judge h a = .passed n → m ≠ 0 →
    let r := ((s.ungate h 7).count h 1 2).tagStep h
    let u := r.2.2.modHead h fun x => trackPartial x n
    u.ownerStores n = true → u.forwards h (u.home n).tile = true →
    Runs (.memwrptl h a d m p) s (u.newStore (u.home n).tile
      { id := 0, head := h, line := n, data := d, mask := m, stream := false, region := u.regionOf n, poison := p,
        ptl := true, tagged := r.1, t0 := r.2.1 })) ∧
  (∀ (n : Nat) (p : Bool), (s.ungate h 7).judge h a = .passed n →
    let r := ((s.ungate h 7).count h 1 2).tagStep h
    r.1 = false → Runs (.memwrptl h a d 0 p) s (r.2.2.sendCmp h (r.2.2.devLoadOf n))) ∧
  (∀ p : Bool, (s.ungate h 7).judge h a = .missed →
    Runs (.memwr h a d p) s (((s.ungate h 7).admitMiss h a 1).sendCmp h 0)) ∧
  (∀ (n : Nat) (p : Bool), (s.ungate h 7).judge h a = .locked n →
    Runs (.memwr h a d p) s ((((s.ungate h 7).modHead h fun x => (trackStore x n).2).count h 1 2).noteLocked.sendCmp h
      ((s.ungate h 7).devLoadOf n))) ∧
  (s.heads[h].speed ≠ 0 → Runs (.forbiddenMemMessage h) s (s.modHead h fun x => { x with aerErrors := satAdd x.aerErrors 1 }))

/-- Responses and the Global Persistent Flush complete as R38, R42, R182, R218, R220, R313 and R323 say. -/
def Obligations.ResponsesComplete : Prop := ∀ (s : State) (h : TileId),
  (∀ (t : TileId) (r : StoreReq), allTiles.findSome? (fun (t : TileId) =>
      (s.tiles[t].d.stores.find? fun x => x.id = r.id && x.head = h && x.wid.isNone && x.peer.isNone && !x.internal).map (t, ·)) =
        some (t, r) →
    (r.discarded = true ∨ (r.phase = 4 ∧ r.peerDone = true)) → r.tagged = false →
    let u := s.storeAcked t r
    Runs (.storeAcknowledge h r.id) s ((if u.heads[h].sends then u.sendCmp h (s.devLoadOf r.line)
      else u.modHead h fun x => { x with dropped := x.dropped + 1 }).wakeLoads t)) ∧
  (∀ (r : LoadReq) (v : Line) (p : Bool) (ns : Nat),
    (s.loads.find? fun x => x.id = r.id && x.head = h && x.wid.isNone && x.peer.isNone && x.forStore.isNone) = some r →
    r.result = some (v, p) → r.expired = false → r.tagged = false → ns ≤ 900 → s.heads[h].sends = true →
    let u : State := { s with loads := s.loads.filter (·.id ≠ r.id) }
    Runs (.loadResponseEgress h r.id ns) s ((u.sendData h (u.devLoadOf r.line) (if p then none else some v)).modHead h fun x =>
      { x with latMax := BitVec.ofNat 14 (min 16383 (max x.latMax.toNat ns)) })) ∧
  (∀ (r : LoadReq) (ns : Nat),
    (s.loads.find? fun x => x.id = r.id && x.head = h && x.wid.isNone && x.peer.isNone && x.forStore.isNone) = some r →
    r.result.isSome = true → r.expired = true →
    ∃ u, Runs (.loadResponseEgress h r.id ns) s u ∧ u.loads = s.loads.filter (·.id ≠ r.id)
      ∧ u.heads[h].dropped = s.heads[h].dropped + 1) ∧
  (∀ (r : LoadReq) (k : Nat),
    (s.loads.find? fun x => x.id = r.id && x.head = h && x.wid.isNone && x.peer.isNone && x.forStore.isNone
      && !x.internal && !x.hint && !x.expired) = some r →
    r.tagged = false → s.heads[h].sends = true →
    ∃ u, Runs (.loadDeadlineExpiry h r.id k) s u ∧ u.heads[h].lastData = some none
      ∧ u.heads[h].rdDeadline = satAdd s.heads[h].rdDeadline 1) ∧
  Runs (.gpfPhase1 h) s s ∧
  (s.heads[h].speed ≠ 0 → s.sys.state.isServing = false →
    ∃ u, Runs (.gpfPhase2 h) s u ∧ u.heads[h].gpfCount = s.heads[h].gpfCount + 1 ∧ u.heads[h].gpfLast = 0 ∧ u.tiles = s.tiles) ∧
  (s.heads[h].speed ≠ 0 → s.sys.state.isServing = true → s.gpfRuns = false →
    ∃ u, Runs (.gpfPhase2 h) s u ∧ u.heads[h].gpfWait = s.heads[h].gpfWait + 1 ∧ u.heads[h].gpfCount = s.heads[h].gpfCount + 1) ∧
  (∀ us : Vector Nat 8, s.gpfRuns = true → s.gpfDone = true → s.heads[h].gpfWait ≠ 0 → (∀ k : TileId, s.heads[k].gpfNext = 0) →
    s.pwr.transition = 0 →
    ∃ u, Runs (.gpfFlushDone us) s u ∧ u.heads[h].gpfLast = BitVec.ofNat 16 (min us[h] 65535) ∧ u.heads[h].gpfWait = 0)

/-- The decode ladder, the age stamps and the rebuild into a spare complete as R207 to R209, R211, R237 to R239, R245 and R246 say: a read
that decodes gives its line, one that no rung could serve is uncorrectable, stamps step, and a rebuild goes piece by piece. -/
def Obligations.ReadEventsComplete : Prop := ∀ (s : State) (t : TileId),
  (∀ (r : LoadReq) (unit slot : Nat) (noise : Noise),
    (s.loads.find? fun x => x.id = r.id && x.owner = t && x.result.isNone && !x.mirrorWait) = some r →
    r.src = .home unit slot → workLeft s.tiles[t].eng (.load r.id) = false → r.rung = 0 →
    let x := readLine false (noiseOf noise (s.home r.line).line)
    x.ok = true →
    Runs (.ladderRungDone t r.id noise) s
      (((s.noteRead t (toChan (unit / 16)) x).learnStamp t unit slot r.bucket).homeGave t r unit slot x)) ∧
  (∀ (r : LoadReq) (unit slot : Nat) (noise : Noise),
    (s.loads.find? fun x => x.id = r.id && x.owner = t && x.result.isNone && !x.mirrorWait) = some r →
    r.src = .home unit slot → workLeft s.tiles[t].eng (.load r.id) = false → r.rung = 5 →
    Runs (.ladderRungDone t r.id noise) s (if withinCode r.reads 8 then s.pageGave t r unit slot r.reads
      else s.ladderFailed t r unit (s.home r.line).pidx (lineDie slot (s.home r.line).line) 5)) ∧
  (∀ (r : LoadReq) (unit slot : Nat) (noise : Noise),
    (s.loads.find? fun x => x.id = r.id && x.owner = t && x.result.isNone && !x.mirrorWait) = some r →
    r.src = .home unit slot → workLeft s.tiles[t].eng (.load r.id) = false → r.rung = 0 →
    let x := readLine false (noiseOf noise (s.home r.line).line)
    let u := s.noteRead t (toChan (unit / 16)) x
    x.ok = false → foldServes u.tiles[t].d unit (u.home r.line).pidx = none →
    Runs (.ladderRungDone t r.id noise) s
      ((u.modLoad r.id fun x => { x with rung := x.rung + 1 }).readItem t r.id unit slot ((s.home r.line).line / 8)
        (repeatBucket r.bucket 1) false 0 (lineDie slot (s.home r.line).line))) ∧
  (∀ (r : LoadReq) (unit ring ss sp si : Nat) (noise : Noise),
    (s.loads.find? fun x => x.id = r.id && x.owner = t && x.result.isNone && !x.mirrorWait) = some r →
    r.src = .staged unit ring ss sp si → workLeft s.tiles[t].eng (.load r.id) = false → r.rung = 2 →
    let dead := s.deadIndexes t unit (256 * ring + ss) sp r.dead
    let u := forAll ((List.range 8).filter fun k => k ≠ si && !dead.contains k) (fun k s =>
      s.noteRead t (toChan (unit / 16)) (readLine (decide (k = 7)) (noiseOf noise k))) s
    stripeGives dead noise si = false →
    Runs (.stagedLadderRungDone t r.id noise) s
      (u.ladderFailed t r (s.home r.line).unit (s.home r.line).pidx ((256 * ring + ss + sp + si) % 8) 3)) ∧
  (∀ (r : LoadReq) (unit ring ss sp si : Nat) (noise : Noise) (y : Stripe) (e : StripeEntry),
    (s.loads.find? fun x => x.id = r.id && x.owner = t && x.result.isNone && !x.mirrorWait) = some r →
    r.src = .staged unit ring ss sp si → workLeft s.tiles[t].eng (.load r.id) = false → r.rung = 0 →
    (s.staged[t].stripes.reverse.find? fun x => x.unit = unit ∧ x.ring = ring ∧ x.t = 5 * ss + sp) = some y →
    y.entries[si]? = some e →
    let x := readLine false (noiseOf noise si)
    x.ok = true → metaWrong x = false →
    let v := ((s.noteRead t (toChan (unit / 16)) x).learnStamp t unit (256 * ring + ss) r.bucket).asRead e.val x
    Runs (.stagedLadderRungDone t r.id noise) s (v.2.ladderGave r v.1)) ∧
  (∀ i : Nat, s.sys.state ≠ .sleepS1 → s.sys.state ≠ .sleepS2 → i < 5242880 →
    Runs (.ageSweepStep t i) s (s.modD t fun d =>
      { setStamp d i (stampStep s.clock (stampRef d s.clock i) (stampAt d i)) with sweepAt := (i + 1) % 5242880 })) ∧
  (s.sys.state ≠ .sleepS1 → s.sys.state ≠ .sleepS2 → s.tiles[t].d.catchP < 5242880 → s.pwr.transition = 0 →
    Runs (.ageCatchupStep t) s (s.modD t fun d =>
      { setStamp d d.catchP (stampStep s.clock d.eClk.toNat (stampAt d d.catchP)) with catchP := d.catchP + 1 })) ∧
  (∀ (i k : Nat) (tries : List (List Nat)), s.tiles[t].d.recovery = true →
    ringWritten s.tiles[t].pl (i / 4 / 20480) (i / 4 % 20480) = true → stampAt s.tiles[t].d i = 0xFF →
    s.tiles[t].d.swept.contains i = false → s.chanOut t (toChan (i / 4 / 20480 / 16)) = false →
    fgReadWaits s.tiles[t].eng (toChan (i / 4 / 20480 / 16)) (i / 4 / 20480) = false →
    let rs := (List.range 16).map fun k => readLine false (tries.getD k [])
    rs.findIdx? (·.ok) = some k →
    let u := (s.noteReads t (toChan (i / 4 / 20480 / 16)) (k + 1) 0 (rs.take (k + 1))).learnStamp t (i / 4 / 20480)
      (64 * (i % 327680) % 5242880) (repeatBucket (Sparse.get (8 : BitVec 4) s.tiles[t].d.hints (i / 4 / 20480)).toNat k)
    Runs (.recoverySweepVisit t i tries) s (u.modD t fun d => { d with recovery := unknownLeft u.tiles[t].pl d })) ∧
  (∀ (c : ChanId) (l : PageNoise), s.tiles[t].it.rebuild[c].active = true → s.chanOut t c = false →
    rebuildNext s.tiles[t] c = none → s.tiles[t].it.rebuild[c].stage < 3 →
    Runs (.spareRebuildStep t c l) s (s.modRebuild t c fun r => { r with stage := r.stage + 1, rings := 0, piece := 0 })) ∧
  (∀ (c : ChanId) (l : PageNoise), s.tiles[t].it.rebuild[c].active = true → s.chanOut t c = false →
    rebuildNext s.tiles[t] c = none → 3 ≤ s.tiles[t].it.rebuild[c].stage →
    Runs (.spareRebuildStep t c l) s (s.rebuildDone t c)) ∧
  (∀ (c : ChanId) (l : PageNoise) (u ring : Nat), s.tiles[t].it.rebuild[c].active = true → s.chanOut t c = false →
    rebuildNext s.tiles[t] c = some (u, ring) → s.rebuildPiece t c u ring = none →
    Runs (.spareRebuildStep t c l) s (s.rebuildRing t c u ring)) ∧
  (∀ (c : ChanId) (l : PageNoise) (u ring k : Nat), s.tiles[t].it.rebuild[c].active = true → s.chanOut t c = false →
    rebuildNext s.tiles[t] c = some (u, ring) → s.rebuildPiece t c u ring = some k → s.tiles[t].d.folds = [] →
    s.tiles[t].it.rebuild[c].busy = false →
    Runs (.spareRebuildStep t c l) s (s.rebuildBegin t c u ring k)) ∧
  (∀ (c : ChanId) (l : PageNoise) (u ring k : Nat), s.tiles[t].it.rebuild[c].active = true → s.chanOut t c = false →
    rebuildNext s.tiles[t] c = some (u, ring) → s.rebuildPiece t c u ring = some k → s.tiles[t].d.folds = [] →
    s.tiles[t].it.rebuild[c].busy = true → progResult s.tiles[t].eng (.rebuild c.val) = some 0 →
    workLeft s.tiles[t].eng (.rebuild c.val) = false →
    let x := s.endContexts t (.rebuild c.val)
    let y := if s.tiles[t].it.rebuild[c].stage = 0
      then (x.rebuildStripe t u ring k s.tiles[t].it.rebuild[c].ldie.toNat l.1).count t 7 2
      else (x.rebuildPage t u (256 * ring + k) l).count t 7 3
    Runs (.spareRebuildStep t c l) s (y.modRebuild t c fun r => { r with busy := false, started := false, piece := k + 1 }))

/-- The staging log, folds, gap moves and unit records complete as R116 to R119, R123, R127, R149, R152, R160, R161, R168 and R171 say. -/
def Obligations.StagingEventsComplete : Prop := ∀ (s : State) (t : TileId),
  (∀ x : Stripe, (s.tiles[t].d.closed.find? fun y => y.seq = x.seq && y.program) = some x →
    progResult s.tiles[t].eng (.stripe x.seq) = some 0 →
    Runs (.stripeProgramEnd t x.seq ()) s ((s.endContexts t (.stripe x.seq)).stripeVerified t x)) ∧
  (∀ (x : Stripe) (f : BitVec 8), (s.tiles[t].d.closed.find? fun y => y.seq = x.seq && y.program) = some x → f ≠ 0 →
    progResult s.tiles[t].eng (.stripe x.seq) = some f →
    Runs (.stripeProgramEnd t x.seq ()) s ((s.endContexts t (.stripe x.seq)).stripeAbandoned t x f)) ∧
  (∀ a : Fin 5, Runs (.stripeCloseTimer t a) s (s.closeStripe t a)) ∧
  (∀ w : Nat × DirEntry, s.tiles[t].d.waiting = [w] → s.dirRoom t w.2 = true →
    let u := (s.modD t fun d => { d with waiting := d.waiting.filter (· ≠ w) }).dirInsert t w.2
    Runs (.bucketSlotFreed t) s
      (((if copyPending u.tiles[t].d w.2.line then u else u.lineVerified t w.2.line).endExcluded t).wake t)) ∧
  Runs (.postedHoldRelease t) s
    (forAll ((s.tiles[t].d.stores.filter fun r => r.phase = 1).map (·.id)) (fun i s => s.tryStore t i) s) ∧
  Runs (.wayWaitRelease t) s
    (forAll ((s.tiles[t].d.stores.filter fun r => r.phase = 0).map (·.id)) (fun i s => s.tryStore t i) s) ∧
  (∀ a : Fin 5, s.areaHolds t a = true → s.inSvc t = true → s.tiles[t].d.lastFold[a] = false →
    Runs (.stagingStallTimeout t a) s (s.fail .stagingStalled)) ∧
  (∀ a : Fin 5, (s.areaHolds t a = false ∨ s.tiles[t].d.lastFold[a] = true) →
    Runs (.stagingStallTimeout t a) s (s.modD t fun d => { d with lastFold := d.lastFold.set a false })) ∧
  (∀ u p : Nat, s.mayFold t u p = true →
    ∃ v, Runs (.foldClaim t u p) s v ∧ v.tiles[t].d.folds = s.tiles[t].d.folds ++
      [{ unit := u, pidx := p, step := 1, foldSeq := horizon s.tiles[t].d
         claimed := (s.pageEntries t u p).map fun e => { e with fold := true }
         refresh := s.tiles[t].d.refresh.contains (u, p) || s.tiles[t].d.refreshLow.contains (u, p)
         opens := !ringWritten s.tiles[t].pl u (s.pageHome t u p).ring }]) ∧
  (∀ (u p : Nat) (f : Fold) (g : List (Nat × Noise)) (b : PageNoise), s.foldOf t u p = some f → f.step = 1 → f.opens = true →
    workLeft s.tiles[t].eng (.fold u p) = false →
    let r := (List.range 64).foldl (fun (x : List (Nat × StoredLine) × State) l =>
      let y := x.2.foldLine t f (s.slotOf (s.pageHome t u p)) (pageLine s.cfg.record t u p) g [] l
      (x.1 ++ [(l, y.1)], y.2)) ([], s)
    Runs (.foldReadDone t u p (g, b)) s (r.2.modFold t u p fun f => { f with step := 5, buf := r.1, carries := [] })) ∧
  (∀ (u p : Nat) (f : Fold), s.foldOf t u p = some f → f.step = 5 → f.carries = [] → s.tiles[t].d.remapNext.contains (u, p) = false →
    Runs (.foldCarryVerified t u p) s (s.foldProgram t u p)) ∧
  (∀ (u p : Nat) (f : Fold), s.foldOf t u p = some f → f.step = 6 → f.opens = false → f.parked = false → f.started = true →
    progResult s.tiles[t].eng (.fold u p) = some 0 →
    let v := (s.endContexts t (.fold u p)).count t 7 3
    Runs (.foldProgramEnd t u p ()) s ((v.putPage t u (v.foldSlot t f)
      { defined := true, keys := v.sec.engine, foldSeq := f.foldSeq, lines := f.buf }).foldProgrammed t f)) ∧
  (∀ (u p : Nat) (f : Fold), s.foldOf t u p = some f → f.step = 6 → f.opens = true → f.opened + 1 < 255 → f.parked = false →
    f.started = true → progResult s.tiles[t].eng (.fold u p) = some 0 →
    let v := (s.endContexts t (.fold u p)).count t 7 3
    v.foldTarget t f ≠ (v.pageHome t u p).jj →
    Runs (.foldProgramEnd t u p ()) s (((((v.putPage t u (v.foldSlot t f) { defined := true, keys := v.sec.engine }).counted t u 1).stampNow
      t u (v.foldSlot t f)).modFold t u p fun f => { f with opened := f.opened + 1, tries := 0 }).foldProgram t u p)) ∧
  (∀ (u p : Nat) (f : Fold) (b : BitVec 8), s.foldOf t u p = some f → f.step = 6 → f.parked = false → f.started = true → b ≠ 0 →
    progResult s.tiles[t].eng (.fold u p) = some b →
    let v := (s.endContexts t (.fold u p)).count t 7 3
    Runs (.foldProgramEnd t u p ()) s
      (((v.cutPage t u (v.foldSlot t f)).noteProgram t u (v.foldSlot t f) b).foldRepeat t f)) ∧
  (∀ (u p : Nat) (f : Fold) (noise : Noise), s.foldOf t u p = some f → f.step = 7 → f.opens = false →
    workLeft s.tiles[t].eng (.fold u p) = false →
    let slot := s.slotOf (s.pageHome t u p)
    let dead := s.deadLines t u slot
    let rs := readPage dead noise
    let v := s.noteReads t (toChan (u / 16)) 0 (s.readDies t u (slot / 256) []).length ((rs.filter fun r => !dead.contains r.1).map (·.2))
    let w := ((v.counted t u 1).stampNow t u slot).modFold t u p fun f => { f with step := 8 }
    readbackOk dead rs = true →
    Runs (.foldReadbackDone t u p noise) s (if w.foldDurable t f then w.foldRelease t f else w)) ∧
  (∀ (u p : Nat) (f : Fold) (noise : Noise), s.foldOf t u p = some f → f.step = 7 → workLeft s.tiles[t].eng (.fold u p) = false →
    let slot := s.slotOf (s.pageHome t u p)
    let dead := s.deadLines t u slot
    let rs := readPage dead noise
    let v := s.noteReads t (toChan (u / 16)) 0 (s.readDies t u (slot / 256) []).length ((rs.filter fun r => !dead.contains r.1).map (·.2))
    readbackOk dead rs = false → Runs (.foldReadbackDone t u p noise) s (v.foldRepeat t f)) ∧
  (∀ u : Nat, s.background = true → Sparse.get 0 s.tiles[t].pl.due u ≠ 0 → s.tiles[t].pl.moving.contains u = false →
    movePending s.tiles[t].d u = false → s.chanOut t (toChan (u / 16)) = false → s.tiles[t].d.folds = [] →
    ringWritten s.tiles[t].pl u (Sparse.get 0 s.tiles[t].pl.moves u % 20376) = false →
    Runs (.gapMoveStart t u) s (s.moveDone t u)) ∧
  (∀ u : Nat, s.background = true → Sparse.get 0 s.tiles[t].pl.due u ≠ 0 → s.tiles[t].pl.moving.contains u = false →
    movePending s.tiles[t].d u = false → s.chanOut t (toChan (u / 16)) = false → s.tiles[t].d.folds = [] → s.tiles[t].d.lent = [] →
    ringWritten s.tiles[t].pl u (Sparse.get 0 s.tiles[t].pl.moves u % 20376) = true →
    ∃ v, Runs (.gapMoveStart t u) s v ∧ v.tiles[t].pl.moving = s.tiles[t].pl.moving ++ [u]) ∧
  (∀ (u : Nat) (noise : PageNoise), s.tiles[t].pl.copying.contains u = true → progResult s.tiles[t].eng (.gapMove u) = some 0 →
    ∃ v, Runs (.gapMoveVerify t u noise) s v ∧
      Sparse.get 0 v.tiles[t].pl.moves u = Sparse.get 0 s.tiles[t].pl.moves u + 1) ∧
  (∀ (u : Nat) (noise : PageNoise) (b : BitVec 8), s.tiles[t].pl.copying.contains u = true → b ≠ 0 →
    progResult s.tiles[t].eng (.gapMove u) = some b →
    ∃ v, Runs (.gapMoveVerify t u noise) s v ∧
      Sparse.get 0 v.tiles[t].pl.moves u = Sparse.get 0 s.tiles[t].pl.moves u ∧ v.tiles[t].pl.copying.contains u = false) ∧
  (∀ u : Nat, 1024 ≤ Sparse.get 0 s.tiles[t].pl.recCount u →
    Runs (.unitRecordWrite t u) s ((s.writeUnitRec t u).freeSegments t))

/-- The Duiker engines complete the Gait steps as R274, R276 to R280 and R285 to R288 say: work is dispatched to a free context, each
step of a program has its effect on the context and on the dies, and END frees the context. -/
def Obligations.GaitEventsComplete : Prop := ∀ (s : State) (t : TileId) (k : Fin 64) (j : Fin 4),
  (∀ (w : WorkItem) (h : Nat), (ctxOf s.tiles[t].eng k j).isNone = true → s.inSvc t = true → s.tiles[t].eng.stopDispatch = false →
    s.dispatchItem t (k.val / 16) j = some (w, h) → (∀ q, w.use ≠ .stripe q) → h = k.val / 16 →
    Runs (.workDispatch t k j) s ((s.modEng t fun e => { e with
      queues := vmap e.queues fun _ q => q.filter (·.id ≠ w.id)
      ctxs := e.ctxs ++ [{ duiker := k, ctx := j, item := w
                           pslot := slotOfRole s.tiles[t].eng w.role s.tiles[t].ch[toChan w.chan].band.toNat }] }).count t 5 0)) ∧
  Runs (.queueRoomFreed t) s (s.modEng t fun e =>
    e.full.foldl (fun e w =>
      if e.queues[queueIdx w.herd w.cls].length < w.cls.depth then
        { e with queues := vmod e.queues (queueIdx w.herd w.cls) (· ++ [w]) }
      else { e with full := e.full ++ [w] }) { e with full := [] }) ∧
  (∀ (w : WorkItem) (h : Nat), (ctxOf s.tiles[t].eng k j).isNone = true → s.inSvc t = true → s.tiles[t].eng.stopDispatch = false →
    s.dispatchItem t (k.val / 16) j = some (w, h) →
    ∃ u, Runs (.workDispatch t k j) s u ∧ (ctxOf u.tiles[t].eng k j).isSome = true) ∧
  (∀ (x : Context) (w : BitVec 32) (r : BitVec 16) (ca dq : Noise), ctxStep s.tiles[t].eng k j 1 = some (x, w) → stepA w ≤ 1 →
    x.item.cls = .fgRead →
    Runs (.gaitIssue t k j ⟨r, ca, dq⟩) s (s.putCtx t x fun _ =>
      { x with cmd := stepA w, arg := stepB w, pc := x.pc + 1, issued := [], counts := [], sent := [] })) ∧
  (∀ (x : Context) (w : BitVec 32) (r : BitVec 16) (ca dq : Noise), ctxStep s.tiles[t].eng k j 1 = some (x, w) → stepA w ≤ 4 →
    (2 ≤ stepA w ∨ x.item.cls ≠ .fgRead) →
    let pos := if stepB w / 16 % 2 = 1 then itemPos s.tiles[t] x.item else (itemPos s.tiles[t] x.item).take 1
    s.issueHeld t { x with cmd := stepA w, arg := stepB w } pos = false →
    let y := { x with
      cmd := stepA w, arg := stepB w, pc := x.pc + 1, issued := if fetches (stepA w) then pos.map (·.val) else [], counts := [],
      sent := [], progStarted := x.progStarted || decide (stepA w = 4) }
    let v := s.putCtx t x fun _ => y
    Runs (.gaitIssue t k j ⟨r, ca, dq⟩) s (forAll pos (fun p s => s.issue t y p (noiseOf ca p) (noiseOf dq p))
      (if stepA w = 4 && !x.progStarted then v.programStarts t x.item else v))) ∧
  (∀ (x : Context) (w : BitVec 32) (r : BitVec 16) (ca dq : Noise), ctxStep s.tiles[t].eng k j 1 = some (x, w) → stepA w = 5 →
    let pos := if stepB w / 16 % 2 = 1 then itemPos s.tiles[t] x.item else (itemPos s.tiles[t] x.item).take 1
    s.issueHeld t { x with cmd := 5, arg := stepB w } pos = false →
    let y := { x with
      cmd := 5, arg := stepB w, st := .fetch, issued := pos.map (·.val)
      sent := (pos.filter fun (p : Fin 9) => s.tiles[t].ch[toChan x.item.chan].hears .status (noiseOf ca p.val)).map
        fun (p : Fin 9) => (p.val, statusPayload s.tiles[t].ch[toChan x.item.chan].dies[p]) }
    Runs (.gaitIssue t k j ⟨r, ca, dq⟩) s (forAll pos (fun p s => s.issue t y p (noiseOf ca p) []) (s.putCtx t x fun _ => y))) ∧
  (∀ (x : Context) (w : BitVec 32) (r : BitVec 16) (ca dq : Noise) (p : Fin 9) (ps : List (Fin 9)),
    ctxStep s.tiles[t].eng k j 1 = some (x, w) → (stepA w = 6 ∨ stepA w = 7) →
    (if stepB w / 16 % 2 = 1 then itemPos s.tiles[t] x.item else (itemPos s.tiles[t] x.item).take 1) = p :: ps →
    let y := { x with cmd := stepA w, arg := stepB w }
    s.issueHeld t y (p :: ps) = false →
    Runs (.gaitIssue t k j ⟨r, ca, dq⟩) s ((s.setCtx t x y).readOut t y p r (noiseOf ca p) (noiseOf dq p))) ∧
  (∀ (x : Context) (w : BitVec 32), ctxStep s.tiles[t].eng k j 2 = some (x, w) →
    Runs (.gaitWait t k j) s (s.putCtx t x fun x => { x with st := .wait })) ∧
  (∀ x : Context, ctxOf s.tiles[t].eng k j = some x → x.st = .wait → x.suspended = [] →
    Runs (.gaitWaitExpiry t k j) s
      ((s.putCtx t x (fun x => { x with st := .ready, pc := x.pc + 1 }) 0).pulsesEnd t x.item)) ∧
  (∀ (x : Context) (w : BitVec 32), ctxStep s.tiles[t].eng k j 3 = some (x, w) → x.issued ≠ [] → x.suspended = [] →
    (x.item.cls = .fgRead ∨ fgAtScheduler s.tiles[t].eng (toChan x.item.chan) = false) →
    let y := { x with st := .fetch, released := x.item.isRead, sent := [] }
    let v := ((s.putCtx t x fun _ => y).pulsesEnd t x.item).fetchEach t y x.issued
    Runs (.gaitFetch t k j) s (if x.item.isRead
      then forAll x.issued (fun p s => s.resume t (toChan x.item.chan) (toDie p) x.item.part) v else v)) ∧
  (∀ (x : Context) (w : BitVec 32), ctxStep s.tiles[t].eng k j 4 = some (x, w) →
    let exceeding := ((x.counts.filter fun n => n.2 > stepB w % 256).map (·.1)).eraseDups
    Runs (.gaitVchk t k j) s (s.putCtx t x fun x =>
      { x with pc := if exceeding = [] then stepTarget w else x.pc + 1, exceeding := exceeding })) ∧
  (∀ (x : Context) (w : BitVec 32), ctxStep s.tiles[t].eng k j 5 = some (x, w) → stepA w = 0 →
    Runs (.gaitSetc t k j) s (s.putCtx t x fun x => { x with pc := x.pc + 1, k0 := stepB w % 16 })) ∧
  (∀ (x : Context) (w : BitVec 32), ctxStep s.tiles[t].eng k j 5 = some (x, w) → stepA w ≠ 0 →
    Runs (.gaitSetc t k j) s (s.putCtx t x fun x => { x with pc := x.pc + 1, k1 := stepB w % 16 })) ∧
  (∀ (x : Context) (w : BitVec 32), ctxStep s.tiles[t].eng k j 6 = some (x, w) → stepA w = 0 →
    Runs (.gaitDecj t k j) s (s.putCtx t x fun x =>
      { x with pc := if x.k0 - 1 ≠ 0 then stepTarget w else x.pc + 1, k0 := x.k0 - 1 })) ∧
  (∀ (x : Context) (w : BitVec 32), ctxStep s.tiles[t].eng k j 6 = some (x, w) → stepA w ≠ 0 →
    Runs (.gaitDecj t k j) s (s.putCtx t x fun x =>
      { x with pc := if x.k1 - 1 ≠ 0 then stepTarget w else x.pc + 1, k1 := x.k1 - 1 })) ∧
  (∀ (x : Context) (w : BitVec 32), ctxStep s.tiles[t].eng k j 7 = some (x, w) →
    Runs (.gaitJump t k j) s (s.putCtx t x fun x => { x with pc := stepTarget w })) ∧
  (∀ (x : Context) (w : BitVec 32), ctxStep s.tiles[t].eng k j 0 = some (x, w) →
    Runs (.gaitEnd t k j) s ((s.endProgram t x (if stepB w % 256 = 0 then []
      else if x.exceeding = [] then (itemPos s.tiles[t] x.item).map (·.val) else x.exceeding)).count t 5 6))

/-- The media channels complete as R73 to R76, R79, R81, R82, R97, R213, R242, R287, R294 and R295 say: bursts are taken or repeated once,
a foreground read is issued or suspends a program, an alert polls the dies, and holds and resets take effect. -/
def Obligations.ChannelEventsComplete : Prop := ∀ (s : State) (t : TileId) (c : ChanId) (p : Fin 9),
  (∀ (k : Fin 64) (j : Fin 4) (x : Context) (dq : List Nat) (l : List (BitVec 8)),
    (s.tiles[t].eng.ctxs.find? fun x => x.duiker = k.val && x.ctx = j.val && x.st = .fetch && fetches x.cmd && x.issued.contains p.val
      && !x.reverify.contains p.val) = some x →
    burstFails (tabGet x.sent p.val) dq = false → x.issued.filter (· ≠ p.val) = [] → x.item.isRead = true →
    Runs (.fetchBurstReceived t k j p dq l) s ((s.burst t (toChan x.item.chan) p).endCtx t x)) ∧
  (∀ (k : Fin 64) (j : Fin 4) (x : Context) (dq : List Nat) (l : List (BitVec 8)),
    (s.tiles[t].eng.ctxs.find? fun x => x.duiker = k.val && x.ctx = j.val && x.st = .fetch && fetches x.cmd && x.issued.contains p.val
      && !x.reverify.contains p.val) = some x →
    burstFails (tabGet x.sent p.val) dq = true → x.retried.contains p.val = false →
    (x.item.isRead = false ∨ x.item.cls = .fgRead ∨ fgReadWaits s.tiles[t].eng x.item.chan x.item.part = false) →
    let u := if (tabGet x.sent p.val).isSome then s.burst t (toChan x.item.chan) p else s
    Runs (.fetchBurstReceived t k j p dq l) s ((u.noteBurst t (toChan x.item.chan)).commandAgain t x p)) ∧
  (∀ (k : Fin 64) (j : Fin 4) (x : Context) (dq : List Nat) (l : List (BitVec 8)),
    (s.tiles[t].eng.ctxs.find? fun x => x.duiker = k.val && x.ctx = j.val && x.st = .fetch && fetches x.cmd && x.issued.contains p.val
      && !x.reverify.contains p.val) = some x →
    burstFails (tabGet x.sent p.val) dq = true → x.retried.contains p.val = true →
    let u := if (tabGet x.sent p.val).isSome then s.burst t (toChan x.item.chan) p else s
    Runs (.fetchBurstReceived t k j p dq l) s
      ((((u.noteBurst t (toChan x.item.chan)).cutProgram t x).endProgram t x [p.val]).noteCrc t (toChan x.item.chan) p x.item.id)) ∧
  (∀ (d : Fin 8) (q : Fin 16) (l m ca : List Nat) (a b : Bool) (x : Context) (ps : List (Fin 9)),
    (s.tiles[t].eng.ctxs.find? fun x => atScheduler x c.val && x.item.part = q.val && x.item.targets.contains d.val) = some x →
    itemPos s.tiles[t] x.item = p :: ps → s.tiles[t].ch[c].dies[p].parts[q].st ≠ .programming →
    Runs (.foregroundReadArrival t c d q (⟨l, a⟩, ⟨m, b⟩) ca) s (s.issueRead t x p ca)) ∧
  (∀ (d : Fin 8) (q : Fin 16) (l m ca : List Nat) (a b : Bool) (x : Context) (ps : List (Fin 9)),
    (s.tiles[t].eng.ctxs.find? fun x => atScheduler x c.val && x.item.part = q.val && x.item.targets.contains d.val) = some x →
    itemPos s.tiles[t] x.item = p :: ps → s.tiles[t].ch[c].dies[p].parts[q].st = .programming →
    (s.suspendSent t c p q l a).1 = true →
    let u := ((s.suspendSent t c p q l a).2.modCh t c fun k => { k with suspendCount := k.suspendCount + 1 }).count t 5 3
    u.tiles[t].ch[c].dies[p].parts[q].st = .suspended →
    Runs (.foregroundReadArrival t c d q (⟨l, a⟩, ⟨m, b⟩) ca) s ((u.modEng t fun e => { e with
      ctxs := lmod e.ctxs (fun y => y.item.isProgram && y.item.chan = c.val && y.item.part = q.val
          && (itemPos u.tiles[t] y.item).contains p) fun y =>
        { y with suspended := y.suspended ++ [p.val]
                 reverify := if y.cmd = 2 && y.st ≠ .fetch && y.issued.contains p.val then y.reverify ++ [p.val]
                             else y.reverify } }).issueRead t x p ca)) ∧
  (∀ (d : Fin 8) (q : Fin 16) (l m ca : List Nat) (x : Context) (ps : List (Fin 9)),
    (s.tiles[t].eng.ctxs.find? fun x => atScheduler x c.val && x.item.part = q.val && x.item.targets.contains d.val) = some x →
    itemPos s.tiles[t] x.item = p :: ps → s.tiles[t].ch[c].dies[p].parts[q].st = .programming →
    Runs (.foregroundReadArrival t c d q (⟨l, false⟩, ⟨m, false⟩) ca) s
      ((((((s.send t c p (.suspend q) [] l).send t c p (.suspend q) [] m).modCh t c fun k => { k with
        suspendCount := k.suspendCount + 2, sackSingle := satAdd k.sackSingle 1, errFlags := bitOn k.errFlags 4 }).count t 5 3 2).suspendMissed
        t c p x d))) ∧
  (∀ q : Fin 16, s.tiles[t].ch[c].dies[p].parts[q].st = .programming → s.tiles[t].ch[c].hears (.suspend q) [] = true →
    (s.suspendSent t c p q [] true).1 = true
      ∧ (s.suspendSent t c p q [] true).2.tiles[t].ch[c].dies[p].parts[q].st = .suspended) ∧
  (∀ a : Option (Fin 9 × Fin 16),
    let u := match a with
      | some (p, part) => s.abandon t c p part
      | none => s
    Runs (.yalertAssert t ⟨c, a⟩) s (if u.tiles[t].ch[c].alert then forAll (bitsOf u.tiles[t].ch[c].present) (fun p s =>
      s.enqueue t { id := 0, role := 4, cls := .fgWrite, herd := c.val, chan := c.val, targets := [p], use := .statusPoll }) u
      else u)) ∧
  (∀ (x : Context) (b : List Byte) (dq ca : List Nat) (us : Nat),
    (s.tiles[t].eng.ctxs.find? fun x => x.cmd = 5 && x.st = .fetch && x.item.chan = c.val && x.issued.contains p.val) = some x →
    tabGet x.sent p.val = some b → burstBad b.length dq = false → (b.getD 4 0).getLsbD 3 = false →
    Runs (.statusPollResult t c p dq us ca ()) s (((s.burst t c p).setCtx t x
      { x with st := .ready, pc := x.pc + 1, issued := [], sent := [] }).noteFlags t c (b.getD 4 0))) ∧
  (∀ (x : Context) (b : List Byte) (dq ca : List Nat) (us : Nat),
    (s.tiles[t].eng.ctxs.find? fun x => x.cmd = 5 && x.st = .fetch && x.item.chan = c.val && x.issued.contains p.val) = some x →
    tabGet x.sent p.val = some b → burstBad b.length dq = true → x.retried.contains p.val = false →
    let u := (s.burst t c p).noteBurst t c
    let y := { x with
      retried := x.retried ++ [p.val]
      sent := if u.tiles[t].ch[c].hears .status ca then [(p.val, statusPayload u.tiles[t].ch[c].dies[p])] else [] }
    Runs (.statusPollResult t c p dq us ca ()) s ((u.setCtx t x y).issue t y p ca [])) ∧
  Runs (.scrambleCounterExhausted t c) s ((s.resetChannel t c).modCh t c fun k => { k with errFlags := bitOn k.errFlags 5 }) ∧
  Runs (.readTempHoldExpiry t c p) s (s.modEng t fun e => { e with tempHold := e.tempHold.filter (· ≠ (c.val, p.val)) }) ∧
  (s.tiles[t].ch[c].present.getLsbD p = true → Runs (.dieNotReadyTimeout t c p) s (s.failDie t c p 5))

/-- The patrol, the scrubbed SRAM words and the extents complete as R94, R132, R136, R225 to R228, R249, R250, R252 and R253 say. -/
def Obligations.PatrolAndExtentEventsComplete : Prop := ∀ (s : State) (t : TileId),
  (∀ u k : Nat, s.tiles[t].it.enable = true → s.background = true → u < s.unitsPerTile → s.chanOut t (toChan (u / 16)) = false →
    s.tiles[t].it.visits = [] →
    waits s.tiles[t].eng (fun w => w.cls = .fold && w.unit = u && s.tiles[t].d.pressure[areaFin w.area]) = false →
    nextVisit s.tiles[t] u (Sparse.get 0 s.tiles[t].it.cursors u).toNat = some k →
    ∃ v, Runs (.patrolVisitStart t u) s v ∧ v.tiles[t].it.visits = [{ unit := u, slot := k }] ∧ v.tiles[t].it.active = true) ∧
  (∀ (u k : Nat) (x : Visit) (page : PageNoise) (stripes : List (Nat × Noise)),
    (s.tiles[t].it.visits.find? fun v => v.unit = u) = some x → workLeft s.tiles[t].eng (.patrolVisit u) = false → x.slot < 256 * 20479 →
    let v := (s.modIt t fun i =>
      let vs := i.visits.filter fun x => x.unit ≠ u
      { i with visits := vs, active := vs ≠ [], cursors := Sparse.set 0 i.cursors u (BitVec.ofNat 32 (x.slot + 1)) }).count t 8 0
    let slot := remapped v.tiles[t].pl.remap u x.slot
    let dead := v.deadLines t u slot
    let first := readPage dead page.1
    let r := v.pageRead t u slot page
    let w := (r.2.pageVisited t u x.slot
      (pageChecks first || (dead ≠ [] && (erased first).all (dead.contains ·) && withinCode first 0)) r.1).checkLate t u
    nextVisit w.tiles[t] u (x.slot + 1) = some k → Runs (.patrolVisitDone t u (page, stripes)) s w) ∧
  (∀ (u k ring : Nat) (x : Visit) (page : PageNoise) (stripes : List (Nat × Noise)),
    (s.tiles[t].it.visits.find? fun v => v.unit = u) = some x → workLeft s.tiles[t].eng (.patrolVisit u) = false → x.slot = 2 ^ 23 + ring →
    let v := (s.modIt t fun i =>
      let vs := i.visits.filter fun x => x.unit ≠ u
      { i with visits := vs, active := vs ≠ [], cursors := Sparse.set 0 i.cursors u (BitVec.ofNat 32 (x.slot + 1)) }).count t 8 0
    let w := (v.segmentVisited t u ring stripes).checkLate t u
    nextVisit w.tiles[t] u (x.slot + 1) = some k → Runs (.patrolVisitDone t u (page, stripes)) s w) ∧
  (s.flush = none → Runs .patrolCursorSave s s.saveCursors) ∧
  (∀ b : Nat, Runs (.directoryBucketRebuilt t b) s
    ((s.modIt t fun i => { i with rebuildDirs := i.rebuildDirs.filter (· ≠ b) }).wakeLoads t)) ∧
  (∀ u : Nat, Runs (.placementWordReloaded t u) s
    ((s.modPl t fun p => { p with unloaded := p.unloaded.filter (· ≠ u) }).wakeLoads t)) ∧
  (∀ (w : SramWord) (r q : SramAccess), s.inSvc t = true → s.sys.state.isServing = true → s.sramValid t w = true →
    Runs (.sramScrubVisit t ⟨w, r, q, false⟩) s ((s.modIt t fun i => { i with scrubDue := false }).sramVisit t w r q)) ∧
  (∀ (w : SramWord) (r q : SramAccess), s.inSvc t = true → s.sys.state.isSleep = false → s.sramValid t w = true →
    Runs (.sramScrubVisit t ⟨w, r, q, true⟩) s (s.sramVisit t w r q)) ∧
  (∀ (w : SramWord) (r q : SramAccess), s.inSvc t = true → s.sys.state.isSleep = false → s.sramValid t w = true → w ≠ .cacheTag →
    sramRead w r = .corrected →
    Runs (.sramScrubVisit t ⟨w, r, q, true⟩) s (s.modIt t fun i => { i with corrected := satAdd i.corrected 1 })) ∧
  (∀ (b : Nat) (e : Extent), (s.svc.extents.find? fun e => e.base = b && e.releasing) = some e → s.rangeBusy e.base e.blocks = false →
    e.cleared = false →
    let u := ((s.discardRange e.base e.blocks).clearRings e.base e.blocks).zeroPages e.base e.blocks
    u.clearPending = false → u.zeroPending e.base e.blocks = false → u.mesh.paired = false → u.mesh.relIn = [] →
    ∃ v, Runs (.extentReleaseComplete b) s v ∧ v.svc.extents = u.svc.extents.filter fun x => !(x.base = b && x.releasing)) ∧
  (∀ row : Nat, (∀ t ∈ s.svcTiles, ∀ g ∈ s.tiles[t].d.segs, g.area = 0 → g.ring ≠ ringOfRow s.scatterKey row) →
    Runs (.rowReclaimDone row) s s.addProceed.replicaProceed)

/-- Config flash, the parameter store, the event recorder and the commit complete as R410, R414, R416, R422, R430, R436, R631, R632
and R635 to R640 say. -/
def Obligations.StorageEventsComplete : Prop := ∀ (s : State) (t : TileId) (b : Bool),
  (∀ op : FlashOp, s.tiles[t].cfl.ops[(if b then 1 else 0 : Fin 2)] = some op → op.erasing = true → op.pages ≠ 0 →
    ∃ u, Runs (.flashEraseDone t b) s u
      ∧ u.tiles[t].cfl.ops[(if b then 1 else 0 : Fin 2)] = some { op with erasing := false, suspended := false }
      ∧ tabGet u.nv[t].tags (sectorKey (if b then 1 else 0 : Fin 2) op.sector) =
        some (sectorTag (erasesOf s.nv[t] (sectorKey (if b then 1 else 0 : Fin 2) op.sector) + 1))) ∧
  (∀ op : FlashOp, s.tiles[t].cfl.ops[(if b then 1 else 0 : Fin 2)] = some op → op.erasing = false → 1 < op.pages →
    op.use ≠ .eventFlush →
    Runs (.flashPageProgramDone t b) s (s.modCfl t fun c =>
      { c with ops := c.ops.set (if b then 1 else 0 : Fin 2) (some { op with pages := op.pages - 1 }) })) ∧
  (∀ op : FlashOp, s.tiles[t].cfl.ops[(if b then 1 else 0 : Fin 2)] = some op → op.erasing = false → op.pages ≤ 1 →
    op.use ≠ .eventFlush →
    Runs (.flashPageProgramDone t b) s
      (((s.modNv t (opContent (if b then 1 else 0) op)).flashNext t (if b then 1 else 0)).flashCommand)) ∧
  (∀ (r : EventRec) (l : List EventRec), s.sys.mbReady = true → s.evr.queues[t] = r :: l → r.sev ≠ .fatal →
    Runs (.eventEntry t) s { s with evr := { s.evr with queues := s.evr.queues.set t l }.assign r }) ∧
  (s.evr.flushDue = true → s.evr.flushRunning = false → s.flush = none →
    let p := s.evr.held.filter fun h => !h.flushed
    p ≠ [] → s.supplyOk (100 * ((p.length + 7) / 8 + 1)) 1 = true →
    ∃ u, Runs .eventFlushStart s u ∧ u.evr = { s.evr with
      flushRunning := true, flushDue := false, batch := p.map (·.r), batchTop := s.evr.nextSeq - 1, written := 0 }) ∧
  (s.evr.flushRunning = true → s.evr.batch = [] → s.flush = none →
    Runs .eventFlushDone s (s.flushMarker 0)) ∧
  (∀ (w : PageWrite) (l : List PageWrite), s.prm.queue = w :: l → (∃ x ∈ l, x.tag = w.tag) →
    Runs .prmPageWriteDone s { s.prmWrite w.addr w.bytes with prm := { s.prm with queue := l } }) ∧
  (∀ (w : PageWrite) (l : List PageWrite), s.prm.queue = w :: l → (∀ x ∈ l, x.tag ≠ w.tag) → w.tag = 1 →
    Runs .prmPageWriteDone s ({ s.prmWrite w.addr w.bytes with prm := { s.prm with queue := l } }.waitDone .prm)) ∧
  (∀ (r : CommitRun) (x : Nat), s.cfg.commit = some r →
    let k := 2 * t.val + (if b then 1 else 0)
    (r.todo.filter fun x => x / 2 = t.val) = [k, x] → x ≠ k → s.tiles[t].cfl.ops[(if b then 1 else 0 : Fin 2)] = none →
    s.tiles[t].cfl.spare[(if b then 1 else 0 : Fin 2)] = [] →
    ∃ u, Runs (.commitCopyReadback t b true) s u ∧ u.cfg.commit = some { r with todo := r.todo.filter (· ≠ k) })

/-- The standard commands that describe the part, its logs, limits, alerts and timestamps complete as R326, R327, R341, R346, R349, R353
and R428 say. -/
def Obligations.StandardCommandsComplete : Prop := ∀ (s : State) (m : Iface) (i : List Byte),
  (∀ (h : TileId) (sec : Bool) (op : BitVec 16), s.heads[h].speed ≠ 0 → s.heads[h].d3hot = false → s.sys.mbReady = true → s.inSvc h = true →
    (s.mbox (.head h sec)).doorbell = false →
    Runs (.mailboxDoorbell (.head h sec) op i) s (s.modMb (.head h sec) fun b =>
      { b with doorbell := true, cmd := some { opcode := op, input := i } })) ∧
  (∀ c : MbCmd, s.svc.waiting = none → s.sys.lead ≠ none → s.nextMb = some m → (s.mbox m).cmd = some c → s.supports m c.opcode.toNat = false →
    s.sys.state ≠ .flushing → s.svc.rdpPending = false →
    Runs (.unsupportedCommand m) s (s.mbFinish m .unsupported)) ∧
  (s.Served m 0x0001 i false false .identify → i.length = 0 →
    ∃ o : List Byte, Runs (.identify m) s (s.reply m o) ∧ o.length = 18 ∧
      bytesAt o 0 4 = leBytes 2 Config.vendorId.toNat ++ leBytes 2 (deviceId s.fuses.variant)) ∧
  (s.Served m 0x0002 i false false .identify → i.length = 0 →
    let u := s.draw.2.modMb m fun x =>
      { x with bgPercent := if x.bgActive then BitVec.ofNat 7 (max x.bgPercent.toNat (s.draw.1 % 100)) else x.bgPercent }
    let b := u.mbox m
    Runs (.backgroundOperationStatus m) s (u.reply m (lay [(1, b2n b.bgActive + 2 * b.bgPercent.toNat), (1, 0),
      (2, b.bgOpcode.toNat), (2, b.bgStatus.toNat), (2, b.bgExt.toNat)]))) ∧
  (s.Served m 0x0003 i false false .identify → i.length = 0 →
    Runs (.getResponseMessageLimit m) s (s.reply m [BitVec.ofNat 8 (log2Limit (s.mbox m).limit)])) ∧
  (s.Served m 0x0004 i false false .identify → i.length = 1 → 8 ≤ fieldAt i 0 1 →
    Runs (.setResponseMessageLimit m) s ((s.modMb m fun b => { b with limit := 2 ^ min (fieldAt i 0 1) 16 }).mbFinish m .success 0
      [BitVec.ofNat 8 (min (fieldAt i 0 1) 16)])) ∧
  (∀ b : Background, s.Served m 0x0005 i false false .identify → i.length = 0 → s.svc.bg = some b →
    (b.opcode = 0x4304 ∨ b.opcode = 0xC060) →
    Runs (.requestAbortBackgroundOperation m) s
      ({ s with svc := { s.svc with bg := some { b with abortReq := true } } }.mbFinish m .success)) ∧
  (s.Served m 0x0100 i false false .identify → i.length = 1 → fieldAt i 0 1 ≤ 4 →
    let l := s.heads[s.headOf m].logs[toLog (fieldAt i 0 1)]
    let n := min l.recs.length (((s.mbox m).limit - 32) / 128)
    let r := s.logsBytes (toLog (fieldAt i 0 1)) (l.recs.take n)
    Runs (.getEventRecords m) s (r.2.mbFinish m .success 0 (lay [(1, b2n (l.overflow ≠ 0) + 2 * b2n (decide (n < l.recs.length))), (1, 0),
      (2, l.overflow.toNat), (8, l.firstOver.toNat), (8, l.lastOver.toNat), (2, n), (10, 0)] ++ r.1))) ∧
  (s.Served m 0x0101 i false false .identify → i.length = 6 + 2 * fieldAt i 2 1 → fieldAt i 2 1 ≠ 0xFF → fieldAt i 0 1 ≤ 4 →
    fieldAt i 1 1 % 2 = 0 →
    let h := s.headOf m
    let k := toLog (fieldAt i 0 1)
    ((List.range (fieldAt i 2 1)).map fun j => BitVec.ofNat 16 (fieldAt i (6 + 2 * j) 2)) =
      (s.heads[h].logs[k].recs.take (fieldAt i 2 1)).map (·.handle) →
    Runs (.clearEventRecords m) s ((s.modHead h fun x => { x with logs := x.logs.set k { x.logs[k] with
      recs := s.heads[h].logs[k].recs.drop (fieldAt i 2 1), overflow := 0, firstOver := 0, lastOver := 0 } }).mbFinish m .success)) ∧
  (s.Served m 0x0101 i false false .identify → i.length = 6 + 2 * fieldAt i 2 1 → fieldAt i 2 1 ≠ 0xFF → fieldAt i 0 1 ≤ 4 →
    fieldAt i 1 1 % 2 = 1 →
    let h := s.headOf m
    let k := toLog (fieldAt i 0 1)
    s.heads[h].logs[k].overflow ≠ 0 →
    Runs (.clearEventRecords m) s ((s.modHead h fun x => { x with logs := x.logs.set k { x.logs[k] with
      recs := [], overflow := 0, firstOver := 0, lastOver := 0 } }).mbFinish m .success)) ∧
  (s.Served m 0x0102 i false false .identify → i.length = 0 →
    Runs (.getEventInterruptPolicy m) s (s.reply m ((List.finRange 5).map fun k =>
      BitVec.ofNat 8 (b2n s.heads[s.headOf m].logs[k].msix + 16 * (k.val + 1))))) ∧
  (s.Served m 0x0103 i false false .identify → i.length = 5 → (∀ b ∈ i, b.toNat % 4 ≤ 1) →
    Runs (.setEventInterruptPolicy m) s ((s.modHead (s.headOf m) fun x => { x with
      logs := vmap x.logs fun k l => { l with msix := decide (fieldAt i k.val 1 % 4 = 1) } }).mbFinish m .success)) ∧
  (s.Served .mctp 0x0104 i false false .identify → i.length = 0 →
    Runs (.getMctpEventInterruptPolicy .mctp) s (s.reply .mctp [s.svc.mctpPolicy, 0])) ∧
  (s.Served .mctp 0x0105 i false false .identify → i.length = 2 →
    Runs (.setMctpEventInterruptPolicy .mctp) s
      ({ s with svc := { s.svc with mctpPolicy := BitVec.ofNat 8 (fieldAt i 0 1) } }.mbFinish .mctp .success)) ∧
  (s.Served m 0x0300 i false false .identify → i.length = 0 →
    Runs (.getTimestamp m) s (s.reply m (leBytes 8 s.heads[s.headOf m].stamp.toNat))) ∧
  (s.Served m 0x0301 i false false .identify → i.length = 8 →
    Runs (.setTimestamp m) s ((s.modHead (s.headOf m) fun x => { x with stamp := BitVec.ofNat 64 (fieldAt i 0 8) }).mbFinish m .success)) ∧
  (s.Served m 0x0400 i false false .identify → i.length = 0 →
    Runs (.getSupportedLogs m) s (s.reply m (lay [(2, 1), (6, 0)] ++ celUuid ++ leBytes 4 (4 * opcodes.length)))) ∧
  (s.Served m 0x0401 i false false .identify → i.length = 24 → fieldAt i 20 4 ≠ 2 ^ 32 - 1 →
    fieldAt i 16 4 + fieldAt i 20 4 ≤ 4 * opcodes.length → i.take 16 = celUuid →
    Runs (.getLog m) s (s.reply m (bytesAt celBytes (fieldAt i 16 4) (fieldAt i 20 4)))) ∧
  (s.Served m 0x0500 i false false .identify → i.length = 8 → fieldAt i 0 4 ≠ 2 ^ 32 - 1 →
    Runs (.getSupportedFeatures m) s (s.reply m (List.replicate 8 0)))

/-- The commands on the memory device, its label storage area, health, alerts and shutdown state complete as R319, R346, R353 and R428
say. -/
def Obligations.DeviceCommandsComplete : Prop := ∀ (s : State) (m : Iface) (i : List Byte),
  (s.Served m 0x4000 i false false .identify → i.length = 0 →
    ∃ o : List Byte, Runs (.identifyMemoryDevice m) s (s.draw.2.reply m o) ∧
      (∀ x, s.runningFw s.lead = some x → o.take 16 = x.revision) ∧ bytesAt o 16 32 = lay [(8, s.capacity / 2 ^ 28), (8, 0), (8, recRegLen s.cfg.record 8 / 2 ^ 28), (8, 0)]) ∧
  (s.Served m 0x4100 i false false .identify → i.length = 0 →
    Runs (.getPartitionInfo m) s (s.reply m (lay [(8, 0), (8, recRegLen s.cfg.record 8 / 2 ^ 28), (8, 0), (8, 0)]))) ∧
  (s.Served m 0x4102 i false false .identify → i.length = 8 → fieldAt i 4 4 ≠ 2 ^ 32 - 1 → fieldAt i 0 4 + fieldAt i 4 4 ≤ 65536 →
    Runs (.getLsa m) s (s.reply m (Memory.readBytes (fun _ => 0xFF) s.nv[s.lead].lsa (fieldAt i 0 4) (fieldAt i 4 4)))) ∧
  (s.Served m 0x4103 i true false .setShutdown → 8 < i.length → fieldAt i 0 4 + (i.length - 8) ≤ 65536 →
    let off := fieldAt i 0 4
    let ks := (List.range 16).filter fun k => decide (4096 * k < off + (i.length - 8) ∧ off < 4096 * (k + 1))
    s.supplyOk (11900 * ks.length) 1 = true →
    ∃ t, Runs (.setLsa m) s t ∧ t.svc = { s.svc with waiting := some (m, .flash) }) ∧
  (s.Served m 0x4200 i false false .identify → i.length = 0 →
    ∃ o : List Byte, Runs (.getHealthInfo m) s (s.draw.2.reply m o) ∧
      o.length = 18 ∧ fieldAt o 0 1 < 16 ∧ bytesAt o 3 7 = lay [(1, s.lifeUsed), (2, (BitVec.ofInt 16 (s.thm.ctrlMax.toInt / 16)).toNat), (4, (s.ladder 8).1)]) ∧
  (s.Served m 0x4201 i false false .identify → i.length = 0 →
    let x := s.heads[s.headOf m]
    let a (k : Nat) : Nat := (x.alerts.getD k 0).toNat
    Runs (.getAlertConfiguration m) s (s.reply m (lay [(1, x.alertEn.toNat), (1, 0x17), (1, (Config.alertLimit 0).toNat), (1, a 0),
      (2, (Config.alertLimit 1).toNat), (2, (Config.alertLimit 2).toNat), (2, a 1), (2, a 2), (2, a 3), (2, a 4)]))) ∧
  (s.Served m 0x4202 i false false .setAlert → i.length = 12 →
    let v := BitVec.ofNat 8 (fieldAt i 0 1) &&& 0x17
    let n : List Nat := [fieldAt i 2 1, fieldAt i 4 2, fieldAt i 6 2, fieldAt i 8 2, fieldAt i 10 2, 0]
    Runs (.setAlertConfiguration m) s ((s.modHead (s.headOf m) fun x => { x with
      alertEn := (x.alertEn &&& ~~~ v) ||| (BitVec.ofNat 8 (fieldAt i 1 1) &&& v)
      alerts := x.alerts.zipIdx.map fun e => if v.getLsbD e.2 then BitVec.ofNat 16 (n.getD e.2 0) else e.1 }).mbFinish m .success)) ∧
  (s.Served m 0x4203 i false false .identify → i.length = 0 →
    Runs (.getShutdownState m) s (s.reply m [s.heads[s.headOf m].shutdown])) ∧
  (s.Served m 0x4204 i true false .setShutdown → i.length = 1 → fieldAt i 0 1 ≤ 1 →
    Runs (.setShutdownState m) s
      ((s.modHead (s.headOf m) fun x => { x with shutdown := BitVec.ofNat 8 (fieldAt i 0 1) }).mbFinish m .success))

/-- The Dynamic Capacity commands of the host and of the fabric manager complete as R129 to R132, R319 to R322, R346, R353, R476 and
R512 say. -/
def Obligations.CapacityCommandsComplete : Prop := ∀ (s : State) (m : Iface) (i : List Byte),
  (s.Served m 0x4800 i false false .capacity → i.length = 2 → fieldAt i 0 1 ≠ 0xFF → fieldAt i 0 1 + fieldAt i 1 1 ≤ 8 →
    ∃ o : List Byte, Runs (.getDynamicCapacityConfiguration m) s (s.reply m o) ∧ o.length = 8 + 40 * fieldAt i 0 1 + 16) ∧
  (s.Served m 0x4801 i false false .capacity → i.length = 8 → fieldAt i 0 4 ≠ 2 ^ 32 - 1 → fieldAt i 0 4 + fieldAt i 4 4 ≤ 16384 →
    let l := s.grantedTo (s.headOf m)
    let x := (l.drop (fieldAt i 4 4)).take (fieldAt i 0 4)
    Runs (.getDynamicCapacityExtentList m) s (s.reply m
      (lay [(4, x.length), (4, l.length), (4, s.svc.dcGen.toNat), (4, 0)] ++ x.flatMap extentBytes))) ∧
  (∀ (o : Offer) (b k : Nat), s.Served m 0x4802 i false false .capacity → i.length = 32 → fieldAt i 0 4 = 1 →
    payloadExtents i 8 24 1 = [(b, k, true)] → (s.svc.offers.find? fun o => o.head = s.headOf m) = some o → (b, k) ∈ o.exts →
    let u := (s.answerOffer o [(b, k)] (fieldAt i 4 1 % 2 = 1)).acceptExtent (b, k)
    Runs (.addDynamicCapacityResponse m) s
      { u with svc := { u.svc with waiting := some (m, .add (s.headOf m) [(b, k)]), waitOut := [] } }.addProceed) ∧
  (∀ u : State, s.Served m 0x4803 i false false .capacity → 8 ≤ i.length → fieldAt i 0 4 ≠ 2 ^ 32 - 1 → i.length = 8 + 24 * fieldAt i 0 4 →
    s.releaseRanges (s.headOf m) (payloadExtents i 8 24 (fieldAt i 0 4)) = .ok u →
    Runs (.releaseDynamicCapacity m) s
      ((u.releasesEnd (s.headOf m) (payloadExtents i 8 24 (fieldAt i 0 4))).mbFinish m .success)) ∧
  (s.Served m 0x5600 i true false .capacity → i.length = 0 →
    ∃ o : List Byte, Runs (.getDcdInfo m) s (s.reply m o) ∧ bytesAt o 1 1 = [8]) ∧
  (∀ h : TileId, s.Served m 0x5601 i true false .capacity → i.length = 4 → fieldAt i 2 1 ≠ 0xFF → fieldAt i 2 1 + fieldAt i 3 1 ≤ 8 →
    s.fmHead (fieldAt i 0 2) = some h →
    ∃ o : List Byte, Runs (.getHostDcRegionConfiguration m) s (s.reply m o)
      ∧ bytesAt o 0 4 = lay [(2, h.val), (1, 8), (1, fieldAt i 2 1)]) ∧
  (∀ c : Nat, s.cfg.commit = none → s.Served m 0x5602 i true false .capacity → i.length = 16 →
    let k := fieldAt i 0 1
    k ≤ 7 → s.regionLen k ≠ 0 → ((List.range 4).find? fun c => 2 ^ (21 + 3 * c) = fieldAt i 4 8) = some c →
    s.svc.extents = [] → s.svc.offers = [] → recRegLen s.cfg.record k % fieldAt i 4 8 = 0 → recRegBase s.cfg.record k % fieldAt i 4 8 = 0 →
    Runs (.setDcRegionConfiguration m) s (s.dcrChange m (fun r => putBytes r (88 + 16 * k)
      [BitVec.ofNat 8 c, BitVec.ofNat 8 (recRegFlags r k % 2 + 2 * (fieldAt i 12 1 / 8 % 2))]) id)) ∧
  (∀ h : TileId, s.Served m 0x5603 i true false .capacity → i.length = 12 → fieldAt i 4 4 ≠ 2 ^ 32 - 1 →
    fieldAt i 4 4 + fieldAt i 8 4 ≤ 16384 → s.fmHead (fieldAt i 0 2) = some h →
    let x := ((s.grantedTo h).drop (fieldAt i 8 4)).take (fieldAt i 4 4)
    Runs (.getDcRegionExtentLists m) s (s.reply m (lay [(2, h.val), (2, 0), (4, fieldAt i 8 4), (4, x.length),
      (4, (s.grantedTo h).length), (4, s.svc.dcGen.toNat), (4, 0)] ++ x.flatMap extentBytes))) ∧
  (∀ h : TileId, s.Served m 0x5604 i true false .capacity → 32 ≤ i.length → fieldAt i 28 4 ≠ 2 ^ 32 - 1 →
    i.length = 32 + 40 * fieldAt i 28 4 → s.fmHead (fieldAt i 0 2) = some h → fieldAt i 2 1 % 16 = 2 → 1 ≤ fieldAt i 28 4 →
    fieldAt i 28 4 ≤ 1024 →
    let e := payloadExtents i 32 40 (fieldAt i 28 4)
    s.checkAdds h [] e = none → s.isGuest h = false → (s.svc.offers.filter fun o => o.head = h).length < 16 →
    let x : List (Nat × Nat) := e.map fun e => (e.1, e.2.1)
    Runs (.initiateDynamicCapacityAdd m) s
      (({ s with svc := { s.svc with offers := s.svc.offers ++ [Offer.mk h x] } }.dcRecords h 0 x).mbFinish m .success)) ∧
  (∀ (h : TileId) (u : State), s.Served m 0x5605 i true false .capacity → 32 ≤ i.length → fieldAt i 28 4 ≠ 2 ^ 32 - 1 →
    i.length = 32 + 40 * fieldAt i 28 4 → s.fmHead (fieldAt i 0 2) = some h → fieldAt i 2 1 % 16 = 1 → 1 ≤ fieldAt i 28 4 →
    let e := payloadExtents i 32 40 (fieldAt i 28 4)
    let x : List (Nat × Nat) := e.map fun e => (e.1, e.2.1)
    s.releaseRanges h e = .ok u →
    ((fieldAt i 2 1 / 16 % 2 = 1 ∨ s.isGuest h = true) →
      Runs (.initiateDynamicCapacityRelease m) s (((u.releasesEnd h e).dcRecords h 2 x).mbFinish m .success)) ∧
    (fieldAt i 2 1 / 16 % 2 = 0 → s.isGuest h = false →
      Runs (.initiateDynamicCapacityRelease m) s (({ s with svc := { s.svc with
        releases := s.svc.releases ++ x.map fun (e : Nat × Nat) => Release.mk h e.1 e.2 true } }.dcRecords h 1 x).mbFinish m .success)))

/-- The poison, scan and firmware commands complete as R255 to R258, R309, R346, R349, R353, R386, R387, R412 and R682 say. -/
def Obligations.PoisonAndFirmwareCommandsComplete : Prop := ∀ (s : State) (m : Iface) (i : List Byte),
  (s.Served m 0x4300 i false false .poisonList → i.length = 16 → s.rangeOk i = true → inEntries (s.reach m) (fieldAt i 0 8 / 64) = true →
    fieldAt i 8 8 ≠ 0 →
    let l := s.visible m s.poison.list (fieldAt i 0 8 / 64) (fieldAt i 8 8)
    let x := l.take (((s.mbox m).limit - 32) / 16)
    Runs (.getPoisonList m) s (s.mbFinish m .success 0 (lay [(1, b2n (decide (x.length < l.length)) + 2 * b2n s.poison.overflow), (9, 0),
      (2, x.length), (20, 0)] ++ x.flatMap poisonRec))) ∧
  (s.Served m 0x4301 i false false .injectPoison → i.length = 8 → inEntries (s.reach m) (fieldAt i 0 8 / 64) = true →
    s.poison.injected < 256 → Runs (.injectPoison m) s (s.commandStore m (fieldAt i 0 8 / 64) 0 true)) ∧
  (s.Served m 0x4302 i false false .injectPoison → i.length = 72 → inEntries (s.reach m) (fieldAt i 0 8 / 64) = true →
    Runs (.clearPoison m) s (s.commandStore m (fieldAt i 0 8 / 64) (bytesLine (bytesAt i 8 64)) false)) ∧
  (s.Served m 0x4303 i false false .injectPoison → i.length = 16 → s.rangeOk i = true →
    coversRange (s.reach m) (fieldAt i 0 8 / 64) (fieldAt i 8 8) = true →
    let q := 2000000 * recT s.cfg.record
    Runs (.getScanMediaCapabilities m) s (s.reply m (leBytes 4 ((64 * fieldAt i 8 8 + q - 1) / q)))) ∧
  (s.Served m 0x4304 i false true .injectPoison → i.length = 17 → s.rangeOk i = true →
    coversRange (s.reach m) (fieldAt i 0 8 / 64) (fieldAt i 8 8) = true → s.svc.bg = none →
    Runs (.scanMedia m) s
      ({ s with poison := { s.poison with scan := [], scanMore := false, scanRest := (0, 0) } }.startBackground m 0x4304 i)) ∧
  (s.Served m 0x4305 i false false .poisonList → i.length = 0 → s.poison.scan = [] →
    Runs (.getScanMediaResults m) s (s.mbFinish m .success 0 (lay [(8, 64 * s.poison.scanRest.1), (8, s.poison.scanRest.2),
      (1, b2n s.poison.scanMore), (1, 0), (2, 0), (12, 0)]))) ∧
  (s.Served m 0x0200 i false false .identify → i.length = 0 →
    ∃ o : List Byte, Runs (.getFwInfo m) s (s.reply m o)
      ∧ bytesAt o 0 3 = [2, BitVec.ofNat 8 (s.activeSlot + 8 * (s.pendingSlot % 4)), 0]) ∧
  (s.Served m 0x0201 i true false .identify → 128 < i.length → i.length % 128 = 0 → fieldAt i 4 4 = 0 →
    i.length - 128 ≤ 2 ^ 21 → fieldAt i 0 1 ≤ 1 → (fieldAt i 1 1 = 1 ∨ fieldAt i 1 1 = 2) → fieldAt i 1 1 ≠ s.activeSlot →
    s.svc.fwXfer = none →
    Runs (.transferFw m ()) s (s.takePart m (fieldAt i 1 1) 0 (i.drop 128) (fieldAt i 0 1 = 0))) ∧
  (∀ (w : FwImage) (sl : Nat), s.Served m 0x0201 i true false .identify → 128 < i.length → i.length % 128 = 0 →
    fieldAt i 4 4 ≠ 2 ^ 32 - 1 → 128 * fieldAt i 4 4 + (i.length - 128) ≤ 2 ^ 21 → (fieldAt i 0 1 = 2 ∨ fieldAt i 0 1 = 3) →
    s.svc.fwXfer = some (sl, w) → w.length = 128 * fieldAt i 4 4 →
    Runs (.transferFw m ()) s (s.takePart m sl w.length (w ++ i.drop 128) (fieldAt i 0 1 = 3))) ∧
  (∀ f : FwImage, s.Served m 0x0202 i true false .identify → i.length = 2 → fieldAt i 0 1 = 1 → (fieldAt i 1 1 = 1 ∨ fieldAt i 1 1 = 2) →
    s.svc.fwXfer = none → s.slotImage s.lead (fieldAt i 1 1) = some f → s.fwCheck f = none → s.supplyOk 50 s.svcTiles.length = true →
    let u := s.twinEnqueue 1 1 (putBytes s.bootSelect 1 [BitVec.ofNat 8 (fieldAt i 1 1), 0])
    Runs (.activateFw m) s { u with svc := { u.svc with
      waiting := some (m, .prm), waitOut := [], recoveryRestart := u.svc.recoveryRestart || u.boot.recovery } })

/-- The security commands complete as R373, R676 to R680, R687, R688 and R708 say: the state is reported, a passphrase is judged and
stored, a wrong one costs a try, unlock and freeze take effect, an erase starts and ends, and readout protection rises and falls. -/
def Obligations.SecurityCommandsComplete : Prop := ∀ (s : State) (m : Iface) (i : List Byte),
  (s.Served m 0x4500 i false false .identify → i.length = 0 →
    let k := s.keySet
    Runs (.getSecurityState m) s (s.reply m (leBytes 4 (b2n k.userPw.isSome + 2 * b2n k.masterPw.isSome + 4 * b2n s.sec.locked
      + 8 * b2n s.sec.frozen + 16 * b2n (decide (s.sec.userTries = 0)) + 32 * b2n (decide (s.sec.masterTries = 0)))))) ∧
  (s.Served m 0x4501 i true false .setPassphrase → i.length = 96 → fieldAt i 0 1 ≤ 1 → s.erasing = false → s.sec.frozen = false →
    let user := decide (fieldAt i 0 1 = 1)
    s.tries user ≠ 0 → (s.keySet.pw user = none ∨ ∃ v, s.keySet.pw user = some v ∧ pwMatches v (bytesAt i 32 32) = true) →
    let salt := BitVec.ofNat 128 s.draw.1
    Runs (.setPassphrase m) s (s.draw.2.storeKeySet m (s.draw.2.keySet.setPw user (some (salt, pwTag salt (bytesAt i 64 32)))))) ∧
  (∀ v : BitVec 128 × BitVec 256, s.Served m 0x4501 i true false .setPassphrase → i.length = 96 → fieldAt i 0 1 ≤ 1 → s.erasing = false →
    s.sec.frozen = false →
    let user := decide (fieldAt i 0 1 = 1)
    s.tries user ≠ 0 → s.keySet.pw user = some v → pwMatches v (bytesAt i 32 32) = false →
    Runs (.setPassphrase m) s (s.wrongPw m user)) ∧
  (∀ v : BitVec 128 × BitVec 256, s.Served m 0x4502 i true false .setPassphrase → i.length = 64 → fieldAt i 0 1 ≤ 1 → s.erasing = false →
    s.sec.frozen = false →
    let user := decide (fieldAt i 0 1 = 1)
    s.tries user ≠ 0 → s.keySet.pw user = some v → pwMatches v (bytesAt i 32 32) = true →
    Runs (.disablePassphrase m) s (s.storeKeySet m (s.keySet.setPw user none))) ∧
  (∀ v : BitVec 128 × BitVec 256, s.Served m 0x4503 i true false .setPassphrase → i.length = 32 → s.erasing = false → s.sec.frozen = false →
    s.sec.userTries ≠ 0 → s.keySet.userPw = some v → pwMatches v (bytesAt i 0 32) = true →
    Runs (.unlock m) s
      (({ s with sec := { s.sec with locked := false } }.raise (mkEv 0x8001 .info s.lead 0)).mbFinish m .success)) ∧
  (s.Served m 0x4504 i true false .setPassphrase → i.length = 0 →
    Runs (.freezeSecurityState m) s ({ s with sec := { s.sec with frozen := true } }.mbFinish m .success)) ∧
  (s.Served m 0x4400 i true true .injectPoison → i.length = 0 → s.svc.bg = none → s.sec.locked = false →
    Runs (.sanitize m) s (s.startErase m 0x4400 1 i)) ∧
  (s.Served m 0x4401 i true true .injectPoison → i.length = 0 → s.svc.bg = none → s.sec.locked = false →
    Runs (.secureErase m) s (s.startErase m 0x4401 2 i)) ∧
  (∀ v : BitVec 128 × BitVec 256, s.Served m 0x4505 i true true .injectPoison → i.length = 64 → fieldAt i 0 1 ≤ 1 → s.svc.bg = none →
    s.erasing = false → s.sec.frozen = false →
    let user := decide (fieldAt i 0 1 = 1)
    s.tries user ≠ 0 → s.keySet.pw user = some v → pwMatches v (bytesAt i 32 32) = true →
    Runs (.passphraseSecureErase m) s (s.startErase m 0x4505 3 i)) ∧
  (∀ (b : Background) (l : List (Nat × PageNoise)), s.svc.bg = some b → b.opcode = 0x4304 →
    Runs (.backgroundOpComplete l) s ((s.scanDone b.input l).endBackground b (if b.abortReq then .aborted else .success) 0)) ∧
  (∀ (b : Background) (l : List (Nat × PageNoise)), s.svc.bg = some b → b.opcode ≠ 0x4304 → b.opcode ≠ 0xC060 → s.sec.eraseStep = 4 →
    s.sec.keyWrite = none → s.supplyOk (2 * keySetUs + 100) s.svcTiles.length = true →
    Runs (.backgroundOpComplete l) s (s.eraseRest.endBackground b .success 0)) ∧
  (s.Served m 0xC080 i true false .loadConfig → i.length = 8 → fieldAt i 0 1 = s.rdp → s.rdp ≤ 2 →
    Runs (.setReadoutProtection m) s (s.mbFinish m .success)) ∧
  (s.Served m 0xC080 i true false .loadConfig → i.length = 8 → s.rdp < fieldAt i 0 1 → fieldAt i 0 1 ≤ 2 →
    fieldAt i 2 2 = (if fieldAt i 0 1 = 2 then 0x4C32 else 0) →
    Runs (.setReadoutProtection m) s (s.raiseRdp m (fieldAt i 0 1))) ∧
  (s.Served m 0xC080 i true false .loadConfig → i.length = 8 → s.rdp = 1 → fieldAt i 0 1 = 0 → s.sys.state.isServing = false →
    fieldAt i 2 2 = 0x4C30 → Runs (.setReadoutProtection m) s (s.markRdp.mbFinish m .success)) ∧
  (s.svc.rdpPending = true → ∃ t : State, Runs .rdpEraseDone s (t.packageReset .recoveryRestart)
    ∧ t.nv[s.lead].opt = [optEntry 1, optEntry (rdpWord 0), optEntry 0x6250, optEntry 0]) ∧
  (∀ (tap : Fin 9) (a : Nat), s.aon.vaon = true → (tap.val = 0 ∨ (fittedMask s.fuses.variant).getLsbD (tap.val - 1) = true) → s.rdp ≤ 1 →
    let r := leBytes 4 (Config.jep106.toNat + 4096 * s.tapPart tap + 2 ^ 28 * Config.idVersion.toNat)
    Runs (.jtagAccess tap .idcode a) s { s with svc := { s.svc with jtag := some r } })

/-- The vendor commands on configuration, power, events, black box, policy, hold-up, counters and tagging complete as R355 to R367, R420 to
R422, R542, R633, R644 and R647 to R652 say. -/
def Obligations.VendorCommandsComplete : Prop := ∀ (s : State) (m : Iface) (i : List Byte),
  (s.Served m 0xC001 i false false .tileStatus → i.length = 0 → Runs (.getTileStatus m) s (s.reply m s.tileStatus)) ∧
  (s.Served m 0xC010 i true false .loadConfig → i.length = 4096 → recCrcOk i = true → recFormatOk i = true → s.highSeq < recSeq i →
    recSeq i ≤ 0xFFFFFFFE → s.recInconsistent i = false →
    Runs (.loadConfiguration m) s ({ s with cfg := { s.cfg with loaded := some i } }.mbFinish m .success)) ∧
  (∀ img : List Byte, s.cfg.commit = none → s.Served m 0xC011 i true false .loadConfig → i.length = 8 → s.cfg.loaded = some img →
    fieldAt i 4 4 = recSeq img → s.recInconsistent img = false → s.supplyOk commitUs s.commitTiles.length = true →
    let u := s.startCommit img true (fieldAt i 0 1 % 2 = 1) 0
    Runs (.commitConfiguration m) s { u with svc := { u.svc with waiting := some (m, .commit), waitOut := [] } }) ∧
  (s.Served m 0xC012 i false false .identify → i.length = 8 → fieldAt i 4 2 ≠ 0xFFFF → fieldAt i 2 2 + fieldAt i 4 2 ≤ 4096 →
    fieldAt i 2 2 ≤ 4095 → fieldAt i 0 1 = 0 → s.cfg.chosen ≠ [] →
    Runs (.readConfiguration m) s (s.reply m (bytesAt s.cfg.chosen (fieldAt i 2 2) (fieldAt i 4 2)))) ∧
  (s.Served m 0xC012 i false false .identify → i.length = 8 → fieldAt i 4 2 ≠ 0xFFFF → fieldAt i 2 2 + fieldAt i 4 2 ≤ 4096 →
    fieldAt i 2 2 ≤ 4095 → fieldAt i 0 1 = 1 →
    Runs (.readConfiguration m) s ((s.copyBytes 0).2.reply m (bytesAt (s.copyBytes 0).1 (fieldAt i 2 2) (fieldAt i 4 2)))) ∧
  (∀ img : List Byte, s.Served m 0xC012 i false false .identify → i.length = 8 → fieldAt i 4 2 ≠ 0xFFFF →
    fieldAt i 2 2 + fieldAt i 4 2 ≤ 4096 → fieldAt i 2 2 ≤ 4095 → fieldAt i 0 1 = 3 → s.cfg.loaded = some img →
    Runs (.readConfiguration m) s (s.reply m (bytesAt img (fieldAt i 2 2) (fieldAt i 4 2)))) ∧
  (s.Served m 0xC020 i true false .setPower → i.length = 4 → fieldAt i 0 1 ≤ 3 → fieldAt i 1 1 ≤ 3 →
    Runs (.setPowerState m) s
      ((s.setPower (BitVec.ofNat 2 (fieldAt i 0 1)) (BitVec.ofNat 2 (fieldAt i 1 1))).mbFinish m .success)) ∧
  (s.Served m 0xC021 i false false .tileStatus → i.length = 0 →
    let p := s.pwr
    Runs (.getPowerState m) s (s.reply m (lay [(1, p.sleep.toNat), (1, p.requested.toNat),
      (1, if p.transition ≠ 0 then p.transition.toNat else if p.changing then 3 else 0), (1, p.queued.toNat),
      (1, if s.thm.active then s.thm.imposed.toNat else 0xFF), (3, 0), (4, p.lastResumeUs.toNat), (4, 0)]))) ∧
  (s.Served m 0xC030 i false false .identify → i.length = 16 → 1 ≤ fieldAt i 8 1 → fieldAt i 8 1 ≤ 8 → fieldAt i 9 1 ≤ 3 →
    let r := ((s.evr.held.map HeldRec.r).filter fun (r : EventRec) =>
      decide (fieldAt i 0 6 ≤ r.seq ∧ fieldAt i 9 1 ≤ r.sev.code)).take (fieldAt i 8 1)
    Runs (.readEventWindow m) s (s.reply m (lay [(8, s.evr.oldest), (8, s.evr.newest),
      (8, (r.getLast?.map fun (x : EventRec) => x.seq + 1).getD (fieldAt i 0 6))]
      ++ (s.evr.drops.toList.flatMap fun d => leBytes 2 d.toNat) ++ lay [(1, r.length), (7, 0)] ++ r.flatMap evBytes))) ∧
  (s.Served m 0xC031 i false false .identify → i.length = 8 → fieldAt i 2 1 ≤ 64 → fieldAt i 0 2 + fieldAt i 2 1 ≤ 1024 →
    fieldAt i 0 2 ≤ 1023 → fieldAt i 3 1 = 0 → s.bbx.buffer = none →
    Runs (.readBlackBox m) s (s.reply m (s.bbSlots 0 (fieldAt i 0 2) (fieldAt i 2 1)))) ∧
  (s.cfg.commit = none → s.Served m 0xC040 i true false .injectPoison → i.length = 4 →
    (fieldAt i 0 1 = 8 ∨ (fieldAt i 0 1 < 8 ∧ recRegLen s.cfg.record (fieldAt i 0 1) ≠ 0)) → fieldAt i 1 1 ≤ 1 →
    let r := fieldAt i 0 1
    let strict := decide (fieldAt i 1 1 = 1)
    Runs (.setRegionAckPolicy m) s (s.dcrChange m
      (fun img => putBytes img (89 + 16 * r) [BitVec.ofNat 8 (recRegFlags img r / 2 * 2 + b2n strict)])
      fun s => { s with
        svc := { s.svc with policies := s.svc.policies.mapIdx fun k x => if k = r then strict else x }
        heads := s.heads.map fun (x : Head) => { x with cdatChanged := true } })) ∧
  (s.Served m 0xC041 i false false .identify → i.length = 4 →
    ∃ (u : State) (o : List Byte), Runs (.getHoldUpReport m) s (u.reply m o) ∧ o.length = 80 ∧
      u.hld = { s.hld with due := s.hld.due || decide (fieldAt i 0 1 % 2 = 1) }) ∧
  (∀ c : Nat, s.Served m 0xC050 i false false .poisonList → i.length = 4 → c = fieldAt i 0 1 → c ≤ 3 →
    let p := { s.draw.2.pmc with edge := s.draw.2.pmc.edge + BitVec.ofNat 64 s.draw.1 }
    let q := if c = 0 then { p with snap := p.ctr } else if c = 1 then { p with frozen := true }
      else if c = 2 then { p with frozen := false } else { p with ovf := [] }
    Runs (.performanceSnapshot m) s ({ s.draw.2 with pmc := q }.mbFinish m .success 0 (lay [(8, p.edge.toNat), (8, 0)]))) ∧
  (∀ t : TileId, s.Served m 0xC051 i false false .poisonList → i.length = 8 → fieldAt i 3 1 ≤ 8 → fieldAt i 4 1 ≤ 1 →
    s.regTile (fieldAt i 0 1) (fieldAt i 1 1) = .ok t → blockKnown (fieldAt i 1 1) = true →
    fieldAt i 2 1 + fieldAt i 3 1 ≤ ctrCount (fieldAt i 1 1) →
    ∃ o : List Byte, Runs (.readPerformanceCounters m) s (s.reply m o) ∧ o.length = 8 * fieldAt i 3 1) ∧
  (s.Served m 0xC052 i true false .injectPoison → i.length = 8 → fieldAt i 0 1 = 0 → 8 ≤ fieldAt i 1 1 → fieldAt i 1 1 ≤ 20 →
    fieldAt i 2 1 ≤ 1 → fieldAt i 4 4 = 0 → fieldAt i 6 2 = 0 →
    ∃ u : State, Runs (.configureRequestTagging m) s (u.mbFinish m .success) ∧ u.pmc.tagging = true ∧ u.pmc.samples = [] ∧
      u.pmc.log2n = BitVec.ofNat 5 (fieldAt i 1 1) ∧ u.pmc.heads = BitVec.ofNat 8 (fieldAt i 3 1)) ∧
  (s.Served m 0xC052 i true false .injectPoison → i.length = 8 → fieldAt i 0 1 = 1 → fieldAt i 1 3 = 0 → fieldAt i 4 2 ≤ 4095 →
    fieldAt i 6 2 ≤ 1024 → fieldAt i 4 2 + fieldAt i 6 2 ≤ 4096 →
    Runs (.configureRequestTagging m) s
      (s.reply m (((s.pmc.samples.drop (fieldAt i 4 2)).take (fieldAt i 6 2)).flatMap sampleBytes))) ∧
  (s.Served m 0xC052 i true false .injectPoison → i.length = 8 → fieldAt i 0 1 = 3 → fieldAt i 1 3 = 0 → fieldAt i 4 4 = 0 →
    fieldAt i 6 2 = 0 →
    Runs (.configureRequestTagging m) s ({ s with pmc := { s.pmc with tagging := false } }.mbFinish m .success))

/-- The vendor commands on the mesh, the parameter store, the cache ways, the patrol, the rails and the vendor registers complete as R153,
R154, R221, R368 to R372, R374 to R379, R435, R526, R535, R634, R661 and R668 say. -/
def Obligations.VendorControlCommandsComplete : Prop := ∀ (s : State) (m : Iface) (i : List Byte),
  (s.Served m 0xC060 i true true .injectPoison → i.length = 4 → s.svc.bg = none →
    Runs (.meshDiscover m) s ({ s with mesh := { s.mesh with
      dropTable := s.mesh.dropTable || decide (fieldAt i 0 1 % 2 = 1) } }.startDiscovery.startBackground m 0xC060 i)) ∧
  (s.Served m 0xC061 i false false .identify → i.length = 0 →
    ∃ o : List Byte, Runs (.getMeshTopology m) s (s.reply m o) ∧ o.length = 80) ∧
  (s.cfg.commit = none → s.Served m 0xC062 i true false .injectPoison → i.length = 8 → fieldAt i 0 1 = 0 →
    let peer := BitVec.ofNat 6 (fieldAt i 1 1)
    s.mesh.present.getLsbD peer.toNat = true → s.mesh.state = 0 → s.mesh.peerPair = none →
    let k := { s.mesh with
      paired := true, peer := peer, regions := BitVec.ofNat 9 (fieldAt i 2 2), takeoverHeads := BitVec.ofNat 8 (fieldAt i 4 1)
      pairGen := s.mesh.pairGen + 1, contact := false, peerDead := false, resyncStep := 0, alone := false }
    Runs (.setMirrorGroup m) s (s.dcrChange m (mirrorField k) fun s => { s with mesh := k }.setPair 1)) ∧
  (s.cfg.commit = none → s.Served m 0xC062 i true false .injectPoison → i.length = 8 → fieldAt i 0 1 = 1 →
    Runs (.setMirrorGroup m) s
      (s.dcrChange m (mirrorField { s.mesh with paired := false, regions := 0, replica := 0 }) State.dissolvePair)) ∧
  (s.Served m 0xC070 i false false .identify → i.length = 8 → fieldAt i 2 2 ≠ 0xFFFF → fieldAt i 0 2 + fieldAt i 2 2 ≤ 65536 →
    (s.sys.rescueLead = false ∨ s.sys.state ≠ .failed) →
    Runs (.readParameterStore m) s (s.reply m ((s.prmBytes s.lead (fieldAt i 0 2) (fieldAt i 2 2)).zipIdx.map fun b =>
      if zeroPage ((fieldAt i 0 2 + b.2) / 64) then 0 else b.1))) ∧
  (s.Served m 0xC071 i true false .setShutdown → i.length = 8 + fieldAt i 2 2 → fieldAt i 2 2 ≠ 0xFFFF →
    fieldAt i 0 2 + fieldAt i 2 2 ≤ 65536 → 16384 ≤ fieldAt i 0 2 → (s.prmPwSet = false ∨ s.prm.unlocked = true) → fieldAt i 2 2 ≠ 0 →
    s.supplyOk (50 * (fieldAt i 2 2 / 64 + 2)) 1 = true →
    let u := s.prmEnqueue 1 (fieldAt i 0 2) (i.drop 8)
    Runs (.writeParameterStore m) s { u with svc := { u.svc with waiting := some (m, .prm), waitOut := [] } }) ∧
  (s.Served m 0xC072 i true false .setShutdown → i.length = 68 → fieldAt i 0 1 = 0 → s.prm.tries ≠ 0 →
    (s.prmPwSet = false ∨ s.prmPwOk (bytesAt i 4 32) = true) →
    Runs (.parameterStorePassword m) s ({ s with prm := { s.prm with unlocked := s.prmPwSet } }.mbFinish m .success 0
      (prmPwOut s.prmPwSet s.prmPwSet s.prm.tries.toNat))) ∧
  (s.Served m 0xC072 i true false .setShutdown → i.length = 68 → fieldAt i 0 1 = 0 → s.prm.tries ≠ 0 →
    s.prmPwSet = true → s.prmPwOk (bytesAt i 4 32) = false →
    Runs (.parameterStorePassword m) s
      ({ s with prm := { s.prm with tries := s.prm.tries - 1 } }.mbFinish m .passphrase 0x132)) ∧
  (s.svc.waiting = none → s.cfg.commit = none → s.Served m 0xC090 i true false .injectPoison → i.length = 4 → fieldAt i 1 1 ≤ 8 →
    fieldAt i 0 1 = 1 → s.inSvc 0 = true → 4 + fieldAt i 1 1 + 2 * s.tiles[(0 : TileId)].d.offPairs.toNat ≤ 16 →
    s.supplyOk commitUs s.commitTiles.length = true →
    ∃ u, Runs (.cachePartition m) s u ∧ u.cfg = s.cfg ∧
      u.svc = { s.svc with
        waiting := some (m, .staged (s.cacheField 1 fun d => (fieldAt i 1 1, d.offPairs.toNat))), waitOut := [] }) ∧
  (s.svc.waiting = none → s.cfg.commit = none → s.Served m 0xC091 i true false .injectPoison → i.length = 4 → fieldAt i 1 1 ≤ 6 →
    fieldAt i 0 1 = 1 → s.inSvc 0 = true → 4 + s.tiles[(0 : TileId)].d.scratchWays.toNat + 2 * fieldAt i 1 1 ≤ 16 →
    s.supplyOk commitUs s.commitTiles.length = true →
    ∃ u, Runs (.cacheWayPower m) s u ∧ u.cfg = s.cfg ∧
      u.svc = { s.svc with
        waiting := some (m, .staged (s.cacheField 1 fun d => (d.scratchWays.toNat, fieldAt i 1 1))), waitOut := [] }) ∧
  (∀ cache : List Byte, s.svc.waiting = some (m, .staged cache) → (s.mbox m).cmd.map (fun (c : MbCmd) => c.opcode.toNat) = some 0xC090 →
    s.leavingClean = true → s.cfg.commit = none → Runs (.cachePartition m) s (s.convertDone m cache)) ∧
  (s.cfg.commit = none → s.Served m 0xC0A0 i true false .injectPoison → i.length = 12 → fieldAt i 0 1 ≤ 1 → s.sys.state = .active →
    s.supplyOk commitUs s.commitTiles.length = true →
    ∃ u : State, Runs (.patrolControl m) s (u.dcrCommit m fun r => putBytes r 44 [BitVec.ofNat 8 (fieldAt i 0 1)]) ∧
      ∀ t : TileId, u.tiles[t].it = { s.tiles[t].it with enable := decide (fieldAt i 0 1 = 1) }) ∧
  (s.cfg.commit = none → s.Served m 0xC0B0 i true false .setPassphrase → i.length = 4 → s.sys.state ≠ .configHold →
    4 ≤ fieldAt i 0 1 → fieldAt i 0 1 ≤ 15 → recRailUsed s.cfg.record (fieldAt i 0 1) = true → fieldAt i 1 1 ≤ 3 →
    let f (r : List Byte) : List Byte := putBytes r (257 + 16 * fieldAt i 0 1) [BitVec.ofNat 8 (fieldAt i 1 1)]
    Runs (.railPolicy m) s (s.dcrChange m f (fun s => { s with seq := { s.seq with
        react := s.seq.react.mapIdx fun k x => if k = fieldAt i 0 1 then BitVec.ofNat 2 (fieldAt i 1 1) else x } })
      (recReactions (f s.cfg.record)))) ∧
  (∀ t : TileId, s.Served m 0xC0C0 i false false .identify → i.length = 8 → fieldAt i 4 2 ≠ 0xFFFF →
    fieldAt i 2 2 + 4 * fieldAt i 4 2 ≤ 4096 → s.regCheck i = .ok t →
    Runs (.readVendorRegister m) s (s.reply m ((List.range (fieldAt i 4 2)).flatMap fun k =>
      leBytes 4 (s.readReg t (fieldAt i 1 1) (fieldAt i 2 2 + 4 * k)).toNat))) ∧
  (∀ t : TileId, s.Served m 0xC0C1 i true false .setPassphrase → i.length = 8 → s.regCheck i = .ok t →
    let w := (s.writeReg t (fieldAt i 1 1) (fieldAt i 2 2) (BitVec.ofNat 32 (fieldAt i 4 4))).mbFinish m .success
    (ownWrites.contains (fieldAt i 1 1, fieldAt i 2 2) = false → Runs (.writeVendorRegister m) s w) ∧
    ((fieldAt i 1 1, fieldAt i 2 2) = (0x01, 0x104) → Runs (.hdcRdLatMaxClear m) s w) ∧
    ((fieldAt i 1 1, fieldAt i 2 2) = (0x0A, 0x014) → Runs (.mshAckClear m) s w) ∧
    ((fieldAt i 1 1, fieldAt i 2 2) = (0x10, 0x020) → Runs (.evrCtrlClearDrops m) s w) ∧
    ((fieldAt i 1 1, fieldAt i 2 2) = (0x10, 0x024) → Runs (.evrWinCursorWrite m) s w) ∧
    ((fieldAt i 1 1, fieldAt i 2 2) = (0x12, 0x000) → Runs (.pmcCtrlOvfMsixWrite m) s w) ∧
    ((fieldAt i 1 1, fieldAt i 2 2) = (0x14, 0x004) → s.sys.lead = some t → s.supplyOk 50 1 = true →
      let bp := BitVec.ofNat 2 (fieldAt i 4 1)
      let u := { s with prm := { s.prm with bp := bp } }.twinEnqueue 1 2 (bp.setWidth 8 :: List.replicate 25 0)
      Runs (.prmProtectBpWrite m) s { u with svc := { u.svc with waiting := some (m, .prm), waitOut := [] } }))

/-- The sideband completes as R348, R407, R434, R435, R440, R603, R604 and R707 say. -/
def Obligations.SidebandEventsComplete : Prop := ∀ s : State, s.sbUp = true →
  (∀ (w : BitVec 16) (n : BitVec 8) (d : List Byte), s.sbBusy = false → w.toNat < 2048 → 1 ≤ n.toNat → n.toNat ≤ 64 →
    n.toNat ≤ d.length → w.toNat - w.toNat % 64 < protectedFrom s.prm.bp → s.supplyOk 50 1 = true →
    Runs (.sidebandEepromWrite w n d) s ((s.prmEnqueue 2 (64 * (992 + w.toNat / 64))
      (pageWrap (s.pageAfter (992 + w.toNat / 64)) (w.toNat % 64) (d.take n.toNat))).sbEnd true)) ∧
  (∀ (w : BitVec 16) (n : BitVec 8), s.sbBusy = false → w.toNat < 2048 → n.toNat ≠ 255 →
    Runs (.sidebandEepromRead w n) s (s.sbEnd true ((List.range n.toNat).map fun k =>
      (s.prmBytes s.lead 0xF800 2048).getD ((w.toNat + k) % 2048) 0))) ∧
  (∃ o : List Byte, Runs .sidebandThermalReadout s (s.sbEnd true o) ∧ o.length = 8 ∧ bytesAt o 0 4 =
    lay [(2, s.thm.ctrlMax.toNat), (2, s.thm.mediaMax.toNat)]) ∧
  Runs .sidebandStatusReadout s (s.sbEnd true s.statusReadout) ∧
  (∀ (op : BitVec 16) (i : List Byte), s.sys.lead ≠ none → s.sys.mbReady = true → s.sys.loneLost = false → s.svc.mctp.doorbell = false →
    Runs (.mctpRequest op i) s ((s.sbEnd true).modMb .mctp fun b =>
      { b with doorbell := true, cmd := some { opcode := op, input := i } })) ∧
  (∀ d : BitVec 7, Runs (.i3cSetdasa s.mctpAddr d) s
    ({ s with svc := { s.svc with i3cAddr := some d, i3cMode := true } }.sbEnd true)) ∧
  Runs .i3cSetaasa s ({ s with svc := { s.svc with i3cAddr := some s.mctpAddr, i3cMode := true } }.sbEnd true) ∧
  Runs .i3cRstdaa s ({ s with svc := { s.svc with i3cAddr := none, i3cMode := false } }.sbEnd true) ∧
  (s.svc.i3cMode = false → Runs .smbusClockLowTimeout s (s.sbEnd false))

/-- The links of both fabrics complete as R454, R457 to R466, R485, R487, R498 to R501, R504, R527 and R528 say: training, the INIT of
either kind, PAYLOAD, NULL and RETRY_REQ flits as the bytes on the wire, the timers, the retrain, and what follows where a link or the
guest is lost. -/
def Obligations.LinkEventsComplete : Prop := ∀ (s : State) (l : PortId) (wire : List Byte),
  (∀ (v w : BitVec 2) (r : BitVec 4), s.boot.released = true → s.portEnabled l = true → s.linksSleep = false → (s.link l).up = false →
    (s.link l).retraining = false → (v = 1 ∨ v = 2) → (w = 1 ∨ w = 2) →
    let i := s.ownInit l (BitVec.ofNat 64 s.draw.1)
    let u := (s.modLink l fun k => { k with trained := true, speed := v, width := w, repaired := r }).draw.2
    Runs (.widarLinkTrained l v w r) s (u.modLink l fun k => { k with
      initSent := true, txKey := i.key, txFrame := 0, sent := initBytes i })) ∧
  (∀ (t : TileId) (p : Fin 4) (i : InitFlit), readInit wire = some i →
    (s.link (.widar t p)).trained = true → (s.link (.widar t p)).up = false →
    s.initRefused t p i = false → s.initDisagrees t p i = false →
    let u := (s.linkUp (.widar t p) i).linkUpEvents (.widar t p) []
    let v := { u with guest := { u.guest with links := u.guestLinks } }
    (neighbour s.fuses.variant t.val p.val ≠ some 7 → Runs (.widarInit t p wire) s v.applyRoutes) ∧
    (s.fuses.variant = .yd4871g → neighbour s.fuses.variant t.val p.val = some 7 →
      Runs (.widarInit t p wire) s (v.guestAdmit i).applyRoutes)) ∧
  (∀ (t : TileId) (p : Fin 4) (i : InitFlit), readInit wire = some i →
    (s.link (.widar t p)).trained = true → (s.link (.widar t p)).up = false →
    s.initRefused t p i = true → Runs (.widarInit t p wire) s (s.raise (mkEv 0x3013 .error t.val (p.val + 1)))) ∧
  (readInit wire = none → (∀ (t : TileId) (p : Fin 4), Runs (.widarInit t p wire) s s) ∧ (∀ p : Fin 4, Runs (.meshInit p wire) s s)) ∧
  (∀ (p : Fin 4) (i : InitFlit), readInit wire = some i → (s.link (.peer p)).trained = true → (s.link (.peer p)).up = false →
    (i.role = 2 → i.serialCrc ≠ s.serialCrc (peerTile s.fuses.variant p) → i.position.toNat % 64 ≠ s.pkgId → initRangeOk i = true →
      i.flags = 0 →
      let u := s.modLink (.peer p) fun k => { k with peer := i.position.setWidth 6 }
      Runs (.meshInit p wire) s (((u.linkUp (.peer p) i).linkUpEvents (.peer p) [(1, i.position.toNat % 64)]).startDiscovery)) ∧
    (i.role ≠ 2 ∨ i.serialCrc = s.serialCrc (peerTile s.fuses.variant p) ∨ i.position.toNat % 64 = s.pkgId ∨ initRangeOk i = false ∨
      i.flags ≠ 0 → Runs (.meshInit p wire) s (s.meshRefuse p i))) ∧
  ((s.link l).up = true → (s.link l).retraining = false → (s.link l).receive l wire = none →
    let u := (s.modLink l fun k => { k with rxFrame := k.rxFrame + 1 }).badFlit l
    Runs (.widarPayloadFlit l wire) s u ∧ Runs (.widarNullFlit l wire) s u ∧ Runs (.widarRetryReq l wire) s u) ∧
  (∀ (t : TileId) (p : Fin 4) (f : Flit), (s.link (.widar t p)).up = true → (s.link (.widar t p)).retraining = false →
    (s.link (.widar t p)).receive (.widar t p) wire = some f → f.type = 1 →
    let h := s.linkHome (.widar t p)
    let u := (s.modLink (.widar t p) fun k => { k with rxFrame := k.rxFrame + 1 }).modLink h fun k =>
      { k.takeHeader f with fcrdDue := k.fcrdDue + 1, nullDue := true }
    (f.seq ≠ (u.link h).expect → Runs (.widarPayloadFlit (.widar t p) wire) s (u.sendReturns h)) ∧
    (f.seq = (u.link h).expect →
      let v := u.modLink h fun k => { k with expect := k.expect + 1, heard := true, ackDue := true, discarding := false, retryTries := 0 }
      Runs (.widarPayloadFlit (.widar t p) wire) s (((v.count t 9 1).msgsIn t p 0 f.msgs).sendReturns h))) ∧
  (∀ (p : Fin 4) (f : Flit), (s.link (.peer p)).up = true → (s.link (.peer p)).retraining = false →
    (s.link (.peer p)).receive (.peer p) wire = some f → f.type = 1 →
    let h := s.linkHome (.peer p)
    let u := (s.modLink (.peer p) fun k => { k with rxFrame := k.rxFrame + 1 }).modLink h fun k =>
      { k.takeHeader f with fcrdDue := k.fcrdDue + 1, nullDue := true }
    f.seq = (u.link h).expect →
    let v := u.modLink h fun k => { k with expect := k.expect + 1, heard := true, ackDue := true, discarding := false, retryTries := 0 }
    Runs (.widarPayloadFlit (.peer p) wire) s (((v.ungatePkg p.val).mmsgsIn p 0 f.mmsgs).sendReturns h)) ∧
  (∀ f : Flit, (s.link l).up = true → (s.link l).retraining = false → (s.link l).receive l wire = some f → f.type = 0 →
    let u := (s.modLink l fun k => { k with rxFrame := k.rxFrame + 1 }).modLink (s.linkHome l) fun k => k.takeHeader f
    Runs (.widarNullFlit l wire) s (u.pump (s.linkHome l))) ∧
  (∀ (p : Fin 4) (f : Flit), (s.link (.peer p)).up = true → (s.link (.peer p)).retraining = false →
    (s.link (.peer p)).receive (.peer p) wire = some f → f.type = 2 →
    let h := s.linkHome (.peer p)
    let u := (s.modLink (.peer p) fun k => { k with rxFrame := k.rxFrame + 1 }).modLink h fun k => k.takeHeader f
    (((u.link h).unacked.any fun x => x.1 = f.seq) = false →
      Runs (.widarRetryReq (.peer p) wire) s (u.modLink (.peer p) fun k => { k with flags := bitOn k.flags 1 })) ∧
    (((u.link h).unacked.any fun x => x.1 = f.seq) = true →
      let again := (u.link h).unacked.dropWhile fun x => x.1 ≠ f.seq
      let v := u.modLink (.peer p) fun k => { k with replays := satAdd k.replays 1, roundReplays := k.roundReplays + 1 }
      let w := v.modLink h fun k => { k with flitCredits := k.flitCredits - again.length }
      Runs (.widarRetryReq (.peer p) wire) s ((w.replay h again).pump h))) ∧
  ((s.link l).up = true → (s.link l).retraining = false → (s.link (s.linkHome l)).discarding = true →
    (s.link (s.linkHome l)).retryTries < 4 → Runs (.retryReqResendTimer l) s (s.sendRetry (s.linkHome l))) ∧
  ((s.link l).up = true → (s.link l).retraining = false → (s.link (s.linkHome l)).discarding = true →
    4 ≤ (s.link (s.linkHome l)).retryTries →
    Runs (.retryReqResendTimer l) s ((s.modLink (s.linkHome l) fun k => { k with retryTries := 0 }).retrain l)) ∧
  (∀ p : Fin 4, (s.link (.peer p)).up = true → (s.link (.peer p)).retraining = false →
    Runs (.widarTxIdleTimer (.peer p)) s (s.startFlit (s.linkHome (.peer p)) (.peer p) 0 0)) ∧
  (∀ (t : TileId) (p : Fin 4), (s.link (.widar t p)).up = true → (s.link (.widar t p)).retraining = false →
    Runs (.widarTxIdleTimer (.widar t p)) s ((s.startFlit (s.linkHome (.widar t p)) (.widar t p) 0 0).count t 9 2) ∧
    Runs (.widarRxTimeout t p) s ((s.modLink (.widar t p) fun k => { k with flags := bitOn k.flags 5 }).retrain (.widar t p))) ∧
  (∀ p : Fin 4, (s.link (.peer p)).up = true → (s.link (.peer p)).retraining = false →
    Runs (.peerLinkRxTimeout p) s ((s.modLink (.peer p) fun k => { k with flags := bitOn k.flags 5 }).retrain (.peer p))) ∧
  ((s.link l).retraining = true →
    Runs (.widarRetrainDone l false wire) s (s.linkOut l) ∧
    (readInit wire = none → Runs (.widarRetrainDone l true wire) s (s.linkOut l)) ∧
    (∀ i : InitFlit, readInit wire = some i → s.retrainRefused l i = true →
      Runs (.widarRetrainDone l true wire) s (s.refuseRetrain l i)) ∧
    (∀ i : InitFlit, readInit wire = some i → s.retrainRefused l i = false →
      let v := s.retrained l i
      (3 < (v.link l).recent.length → Runs (.widarRetrainDone l true wire) s (v.linkOut l)) ∧
      ((v.link l).recent.length ≤ 3 → Runs (.widarRetrainDone l true wire) s
        (v.resumeLink (v.linkHome l) i.flitBuf.toNat (i.expectSeq.setWidth 10))))) ∧
  ((s.link l).outOfService = true → (s.link l).up = false →
    Runs (.widarTrainRetryTimer l) s (s.modLink l fun k => { k with trained := false, initSent := false })) ∧
  (∀ (t : TileId) (p : Fin 4), (s.link (.widar t p)).up = true → (s.link (.widar t p)).retraining = false →
    Runs (.frameNumberExhausted (.widar t p)) s (((s.modLink (.widar t p) fun k =>
      { k with flags := bitOn k.flags 4 }).retrain (.widar t p)).raise (mkEv 0x3060 .warn t.val (p.val + 1)))) ∧
  (∀ (t : TileId) (q : BitVec 3), s.inSvc t = true → (s.routeTo t q.toNat).1 ≠ 7 → s.fab[t].dead.getLsbD q.toNat = false →
    (∀ p : Fin 4, s.linkOk t p = true) →
    Runs (.routeUpdate t q) s (s.modFab t fun x => { x with
      route := Vector.ofFn fun (d : Fin 8) => (s.routeTo t d.val).1
      alt := (List.range 8).foldl (fun m d => bitSet m d (s.routeTo t d).2) 0 })) ∧
  (s.guest.admitted = true → (3 ≤ s.guest.missed.toNat ∨ s.guestLinks = 0) → Runs .guestHeartbeatTimeout s s.guestLost)

/-- Widar messages complete at their destination as R35, R469 to R483 say: a request that passes its checks reads or writes its window
or is served by the owner tile, one that does not is answered with its status, and heartbeats, responses, stores and fences act. -/
def Obligations.WidarMessagesComplete : Prop := ∀ (s : State) (t : TileId) (m : Msg),
  (∀ (p : Nat) (u : State) (a : Nat), m.opcode = 1 → s.wTake t m = some (p, u) → u.wJudge t m = none → u.window t m.addr = .dpa a →
    Runs (.widarRd t m) s (u.newLoad { id := 0, head := (u.home (a / 64)).tile, owner := (u.home (a / 64)).tile, line := a / 64,
                                       src := .none, wid := some m })) ∧
  (∀ (p : Nat) (u : State) (a : Nat), m.opcode = 1 → s.wTake t m = some (p, u) → u.wJudge t m = none → u.window t m.addr = .tcm a →
    Runs (.widarRd t m) s (u.wReply t m 0 ((List.range m.len.toNat).map fun i => Sparse.get (0 : Byte) u.fab[t].tcm (a + i)))) ∧
  (∀ (p : Nat) (u : State) (b o : Nat), m.opcode = 1 → s.wTake t m = some (p, u) → u.wJudge t m = none →
    u.window t m.addr = .regs b o → Runs (.widarRd t m) s (u.wReply t m 0 (leBytes 4 (u.readReg t b o).toNat))) ∧
  (∀ (p c : Nat) (u : State), s.wTake t m = some (p, u) → u.wJudge t m = some c → c ≠ 0 →
    (m.opcode = 1 → Runs (.widarRd t m) s (u.wReject t (rxPort p) m c)) ∧
    (m.opcode = 2 → Runs (.widarWr t m) s (u.wReject t (rxPort p) m c))) ∧
  (∀ (p : Nat) (u : State) (a : Nat), m.opcode = 2 → s.wTake t m = some (p, u) → u.wJudge t m = none → u.window t m.addr = .dpa a →
    let x := partLine (a % 64) (bytesAt m.data 0 m.len.toNat)
    Runs (.widarWr t m) s (u.newStore (u.home (a / 64)).tile
      { id := 0, head := (u.home (a / 64)).tile, line := a / 64, data := x.1, mask := x.2, region := u.regionOf (a / 64)
        poison := m.poison, ptl := decide (m.len ≠ 64), wid := some (m.src, m.tag) })) ∧
  (∀ (p : Nat) (u : State) (a : Nat), m.opcode = 2 → s.wTake t m = some (p, u) → u.wJudge t m = none → u.window t m.addr = .tcm a →
    Runs (.widarWr t m) s ((u.modFab t fun f => { f with
      tcm := Memory.writeBytes (fun _ => 0) f.tcm a (bytesAt m.data 0 m.len.toNat) }).wReply t m 0)) ∧
  (∀ (p : Nat) (u : State), m.opcode = 4 → s.wTake t m = some (p, u) → m.len = 0 → m.dslots.toNat ≤ 4 →
    ∃ v : State, Runs (.widarBar t m) s v.answerWidarBars ∧ ∃ n : List Nat, v.fab[t].barsIn = u.fab[t].barsIn ++ [(m.src, m.tag, n)]) ∧
  (∀ (p : Nat) (u : State), m.opcode = 5 → m.addr.toNat % 256 = 1 → s.wTake t m = some (p, u) → m.len = 0 → m.dslots.toNat ≤ 4 →
    u.sys.fwRunning.getLsbD t = true →
    Runs (.widarHeartbeat t m) s (u.wsend t { opcode := 5, src := BitVec.ofNat 3 t.val, dst := m.src, addr := 2 }).2) ∧
  (∀ (p : Nat) (u : State), m.opcode = 5 → m.addr.toNat % 256 = 2 → s.wTake t m = some (p, u) → m.len = 0 → m.dslots.toNat ≤ 4 →
    u.sys.lead = some t →
    let q := toTile m.src.toNat
    (u.srcGuest m = false → Runs (.widarHeartbeatReply t m) s { u with sys := { u.sys with
      missed := u.sys.missed.set q 0, awaiting := bitOff u.sys.awaiting q } }) ∧
    (u.srcGuest m = true → Runs (.widarHeartbeatReply t m) s { u with guest := { u.guest with missed := 0, awaiting := false } })) ∧
  (∀ (p : Nat) (u : State) (o : Outst), m.opcode = 8 → s.wTake t m = some (p, u) →
    (u.fab[t].outst.find? fun o => o.tag = m.tag ∧ o.dst = m.src ∧ !o.guest ∧ o.opcode ≠ 1) = some o →
    Runs (.widarCmp t m) s (u.wDone t o m.status.toNat m.early)) ∧
  (∀ (p : Nat) (u : State) (o : Outst), m.opcode = 9 → s.wTake t m = some (p, u) →
    (u.fab[t].outst.find? fun o => o.tag = m.tag ∧ o.dst = m.src ∧ !o.guest ∧ o.opcode = 1) = some o →
    Runs (.widarRdata t m) s (u.wDone t o m.status.toNat m.early)) ∧
  (∀ (a : BitVec 52) (d : List Byte), s.sys.fwRunning.getLsbD t = true → s.inSvc t = true → s.fab[t].fence = false →
    s.fab[t].barriers = [] → s.fab[t].storeBuf.length < 8 → 1 ≤ d.length → a.toNat % 64 + d.length ≤ 64 →
    Runs (.stagStore t a d) s ((s.modFab t fun f => { f with storeBuf := f.storeBuf ++ [(a, d)] }).issueStores t)) ∧
  (s.sys.fwRunning.getLsbD t = true → s.inSvc t = true → s.fab[t].fence = false → s.fab[t].barriers = [] →
    Runs (.stagFence t) s ((s.modFab t fun f => { f with fence := true }).issueStores t))

/-- Mesh messages complete at this package as R502 to R504 and R507 to R524 say: mirror and resync writes, repair reads, barriers, extents,
the pair exchange, heartbeats and departures, and their completions. -/
def Obligations.MeshMessagesComplete : Prop := ∀ (s : State) (p : Fin 4) (m : MMsg) (u : State), s.meshArrive p m = (true, u) →
  (u.mirrorCheck m 4 = none →
    Runs (.mwr p m) s ((u.count 15 10 1).mirrorWrite m (m.strict || !u.sys.postedCert) false)) ∧
  (∀ c : Nat, u.mirrorCheck m 4 = some c → Runs (.mwr p m) s (u.meshReject p m c) ∧ Runs (.rwr p m) s (u.meshReject p m c)) ∧
  (u.mirrorCheck m 4 = none →
    let v : State := { u with mesh := { u.mesh with performed := u.mesh.performed ++ [(m.src, m.addr)] } }
    Runs (.rwr p m) s ((v.meshReply m.src m.tag 0 true).mirrorWrite m true true)) ∧
  (u.mirrorCheck m 0 = none →
    let n := m.addr.toNat / 64
    Runs (.mrd p m) s (u.newLoad { id := 0, head := (u.home n).tile, owner := (u.home n).tile, line := n, src := .none,
                                   peer := some (m.tag, m.src) })) ∧
  (m.dslots = 0 → m.addr.toNat % 64 = 0 → Runs (.mbar p m) s
    { u with mesh := { u.mesh with barsIn := u.mesh.barsIn ++ [(m.src, m.tag)] } }.answerBars) ∧
  (m.aux = 3 → m.dslots = 0 → m.addr.toNat % 64 = 0 →
    Runs (.mext p m) s ((forAll (u.svc.extents.filter fun e => u.mesh.replica.getLsbD e.region && e.heads = 0)
      (fun e s => s.dropReplica e) u).meshReply m.src m.tag 0)) ∧
  (∀ e : Extent, m.aux = 2 → m.dslots = 1 → m.addr.toNat % 64 = 0 → e ∈ u.svc.extents → e.base = fieldAt m.data 0 4 → e.blocks = fieldAt m.data 4 4 →
    fieldAt m.data 9 1 / 8 % 2 = 0 → u.mesh.replica.getLsbD (fieldAt m.data 9 1 % 8) = true →
    let es := lmod u.svc.extents (fun x => x.base = e.base && x.blocks = e.blocks) fun x => { x with releasing := true }
    Runs (.mext p m) s { u with
      svc := { u.svc with extents := es }
      mesh := { u.mesh with relIn := u.mesh.relIn ++ [(m.src, m.tag, e.base)] } }) ∧
  (m.dslots = 1 → m.addr.toNat % 64 = 0 →
    let v := u.meshReply m.src m.tag 0
    let w : State := { v with mesh := { v.mesh with peerPair := some (m.src, m.data) } }
    (w.mesh.paired = false ∨ m.src ≠ w.mesh.peer ∨ w.mesh.conflict = true) → Runs (.mpair p m) s w) ∧
  (m.dslots = 1 → m.addr.toNat % 64 = 0 →
    let v := u.meshReply m.src m.tag 0
    let w : State := { v with mesh := { v.mesh with peerPair := some (m.src, m.data) } }
    w.mesh.paired = true → m.src = w.mesh.peer → w.mesh.conflict = false → w.pairPasses m.src m.data = true → w.mesh.contact = true →
    (w.pairRoles m.data).mesh.state = 2 → Runs (.mpair p m) s (w.pairRoles m.data)) ∧
  (m.aux = 0 → Runs (.mhb p m) s (u.meshSend { opcode := 0x28, dst := m.src, aux := 1 }).2) ∧
  (m.aux ≠ 0 → Runs (.mhb p m) s u) ∧
  (u.mesh.paired = true → m.src = u.mesh.peer → m.aux ≠ 2 → m.aux ≠ 5 → u.sys.state.isServing = true →
    Runs (.mbye p m) s (u.peerDead 1)) ∧
  (u.mesh.paired = true → m.src = u.mesh.peer → m.aux = 2 →
    let v := u.degradePair
    Runs (.mbye p m) s { v with mesh := { v.mesh with contact := false, extWaits := [] } }.addProceed) ∧
  (∀ (w : MirrorWait) (ns : Nat), (u.mesh.waits.find? (·.tag = m.tag)) = some w → ns ≤ 710 →
    let v : State := { u with mesh := { u.mesh with
      waits := u.mesh.waits.filter (· ≠ w), ackMax := BitVec.ofNat 14 (max u.mesh.ackMax.toNat (min ns 16383)) } }
    (m.status = 0 → Runs (.mcmp p m ns) s ((v.modStore w.owner w.storeId fun r => { r with peerDone := true }).answerPeers w.owner)) ∧
    (m.status ≠ 0 → Runs (.mcmp p m ns) s v.degradePair)) ∧
  (∀ (w : BitVec 12 × Nat) (r : LoadReq), (u.mesh.repairs.find? (·.1 = m.tag)) = some w → (u.loads.find? (·.id = w.2)) = some r →
    m.status = 0 →
    let v := (({ u with mesh := { u.mesh with repairs := u.mesh.repairs.filter (· ≠ w) } }.modLoad r.id fun r =>
      { r with mirrorWait := false }).loadDone r.id (bytesLine m.data) false)
    let h := u.home r.line
    Runs (.mdata p m) s ((v.newStore h.tile
      { id := 0, head := h.tile, line := r.line, data := bytesLine m.data, mask := BitVec.allOnes 64, region := v.regionOf r.line,
        strict := true, noMirror := true, internal := true }).raise (mkEv 0x4050 .info h.tile 0 [] (64 * r.line))))

/-- Discovery, the mesh timers and the resync walk complete as R504, R509, R517, R518, R520 and R524 say. -/
def Obligations.MeshTimersComplete : Prop := ∀ s : State,
  (∀ (p : Fin 4) (m : MMsg), (s.meshTake p m).meshTalks = true → m.src.toNat = (s.meshTake p m).pkgId →
    let u := s.meshTake p m
    m.addr.toNat % 2 ^ 32 ≠ (crc32c (leBytes 8 u.fuses.serials[u.lead].toNat)).toNat → u.mesh.conflict = false →
    Runs (.hello p m) s ({ u with mesh := { u.mesh with conflict := true } }.raise (mkEv 0x4021 .error 15 (p.val + 1)))) ∧
  (∀ (p : Fin 4) (m : MMsg), (s.meshTake p m).meshTalks = true → m.src.toNat ≠ (s.meshTake p m).pkgId →
    (s.meshTake p m).mesh.epochs = [] → (s.meshTake p m).mesh.discovering = true →
    ∃ u, Runs (.hello p m) s u ∧ u.mesh.epochs = [(m.src.toNat, m.aux)] ∧ u.mesh.discovering = true) ∧
  (s.mesh.discovering = true → ∃ u : State, Runs .discoveryEnd s u.sendHeld.holdMwrs ∧ u.mesh.discovering = false) ∧
  (s.mesh.paired = true → s.meshTalks = true → s.mesh.conflict = false → s.mesh.dropTable = false →
    ∃ u, Runs .meshHeartbeatTimer s u ∧
      u.mesh.missed = if 50 ≤ s.mesh.silentUs then satAdd s.mesh.missed 1 else s.mesh.missed) ∧
  (s.mesh.paired = true → s.mesh.contact = true → s.mesh.silentUs + 10 < 250 →
    Runs .peerSilenceCheck s { s with mesh := { s.mesh with silentUs := s.mesh.silentUs + 10 } }) ∧
  (s.mesh.paired = true → s.mesh.contact = true → 250 ≤ s.mesh.silentUs + 10 → s.sys.state.isServing = true →
    Runs .peerSilenceCheck s ({ s with mesh := { s.mesh with silentUs := s.mesh.silentUs + 10 } }.peerDead 0)) ∧
  (∀ (p : Fin 4) (m : MMsg), s.mesh.ports[p].mwaiting.contains m = true → m.src.toNat ≠ s.pkgId →
    Runs (.meshForwardExpiry p m) s
      ((s.modLink (.peer p) fun k => { k with mwaiting := k.mwaiting.erase m }).meshForward { m with hops := 0 })) ∧
  (∀ n : Nat, s.mesh.holdLines.contains n = true →
    Runs (.mwrRouteHoldEnd n) s (forAll (s.mesh.waits.filter (·.line = n))
      (fun w s => s.sendMwr w.owner w.storeId w.line w.data w.poison w.strict)
      { s with mesh := { s.mesh with
        holdLines := s.mesh.holdLines.filter (· ≠ n), waits := s.mesh.waits.filter (·.line ≠ n) } })) ∧
  (s.mesh.paired = true → s.mesh.contact = false → s.sys.state.isServing = true →
    let u := s.peerDead 2 false
    Runs .pairContactTimeout s { u with mesh := { u.mesh with heldRegions := 0 } }) ∧
  (∀ (t : TileId) (w : Walk), (s.mesh.walks.find? fun w => w.tile = t && w.phase = 0) = some w → s.svc.extents = [] →
    Runs (.resyncWalkStep t) s (s.walkBarrier t true)) ∧
  (∀ (t : TileId) (w : Walk) (n : Nat), (s.mesh.walks.find? fun w => w.tile = t && w.phase = 0) = some w → w.since + 1 < 256 →
    ((sortBy (fun (a b : Extent) => decide (a.base ≤ b.base)) s.primaryExtents).findSome? fun e =>
      ((List.range (32768 * e.blocks)).map (· + 32768 * e.base)).find? fun n => decide (n ≥ w.next) && s.walks t n) = some n →
    let r := s.newest n
    let g := r.2.2.meshTag
    let u : State := { g.2 with mesh := { g.2.mesh with rwrs := g.2.mesh.rwrs ++ [(g.1, t, n)] } }
    let v := ((u.meshSend { opcode := 0x23, dslots := 4, poison := r.2.1, tag := g.1, dst := u.mesh.peer,
                            addr := BitVec.ofNat 44 (64 * n), data := lineBytes r.1 }).2).count 15 10 2
    let x := v.modWalk t fun w => { w with next := n + 1, since := w.since + 1 }
    ∃ q : BitVec 7, Runs (.resyncWalkStep t) s { x with mesh := { x.mesh with resyncPercent := q } })
end

