-- ==== Sys2Proof/Laws/Memory.lean ====
section
/-! SUPPORT. The laws of sparse tables and byte memories: what a read gives after a write, and that every write keeps the
canonical form. -/

namespace Sys2Proof.Machine

variable {α : Type}

theorem Sparse.getF_lt (d : Nat → α) [DecidableEq α] {m : List (Nat × α)} {k j : Nat} (h : Sparse.wfFrom d j m = true)
    (hk : k < j) : Sparse.getF d m k = d k := by
  cases m with
  | nil => rfl
  | cons e r =>
    obtain ⟨i, v⟩ := e
    simp only [Sparse.wfFrom, Bool.and_eq_true, decide_eq_true_eq] at h
    have h1 : i ≠ k := by omega
    have h2 : k < i := by omega
    simp [Sparse.getF, h1, h2]

theorem Sparse.wfFrom_mono (d : Nat → α) [DecidableEq α] {m : List (Nat × α)} {i j : Nat} (h : Sparse.wfFrom d j m = true)
    (hij : i ≤ j) : Sparse.wfFrom d i m = true := by
  cases m with
  | nil => rfl
  | cons e r =>
    obtain ⟨k, v⟩ := e
    simp only [Sparse.wfFrom, Bool.and_eq_true, decide_eq_true_eq] at h ⊢
    exact ⟨⟨by omega, h.1.2⟩, h.2⟩

theorem Sparse.wfFrom_setF (d : Nat → α) [DecidableEq α] {m : List (Nat × α)} {j k : Nat} {v : α}
    (h : Sparse.wfFrom d j m = true) (hk : j ≤ k) : Sparse.wfFrom d j (Sparse.setF d m k v) = true := by
  induction m generalizing j with
  | nil =>
    unfold Sparse.setF
    split
    · rfl
    · rename_i hv; simp [Sparse.wfFrom, hk, hv]
  | cons e r ih =>
    obtain ⟨i, w⟩ := e
    simp only [Sparse.wfFrom, Bool.and_eq_true, decide_eq_true_eq] at h
    unfold Sparse.setF
    split
    · split
      · simp [Sparse.wfFrom, h]
      · rename_i hlt hv
        have : i + 1 ≤ i + 1 := Nat.le_refl _
        simp [Sparse.wfFrom, hk, hv, h.1.2, h.2]; omega
    · split
      · rename_i h1 h2
        split
        · exact Sparse.wfFrom_mono d h.2 (by omega)
        · rename_i hv; subst h2; simp [Sparse.wfFrom, hk, hv, h.2]
      · rename_i h1 h2
        have := ih h.2 (by omega)
        simp [Sparse.wfFrom, h.1.1, h.1.2, this]

/-- A write keeps the canonical form. -/
theorem Sparse.wf_setF (d : Nat → α) [DecidableEq α] {m : List (Nat × α)} {k : Nat} {v : α} (h : Sparse.wf d m = true) :
    Sparse.wf d (Sparse.setF d m k v) = true := Sparse.wfFrom_setF d h (Nat.zero_le _)

/-- A read after a write to the same key gives the value written. -/
theorem Sparse.getF_setF_same (d : Nat → α) [DecidableEq α] {m : List (Nat × α)} {k j : Nat} {v : α}
    (h : Sparse.wfFrom d j m = true) : Sparse.getF d (Sparse.setF d m k v) k = v := by
  induction m generalizing j with
  | nil =>
    unfold Sparse.setF
    split
    · rename_i hv; simp [Sparse.getF, hv]
    · simp [Sparse.getF]
  | cons e r ih =>
    obtain ⟨i, w⟩ := e
    simp only [Sparse.wfFrom, Bool.and_eq_true, decide_eq_true_eq] at h
    unfold Sparse.setF
    split
    · rename_i hlt
      split
      · rename_i hv
        have : i ≠ k := by omega
        simp [Sparse.getF, this, hlt, hv]
      · simp [Sparse.getF]
    · split
      · rename_i h1 h2
        split
        · rename_i hv; subst h2; rw [Sparse.getF_lt d h.2 (by omega), hv]
        · simp [Sparse.getF]
      · rename_i h1 h2
        have hi : i ≠ k := fun e => h2 e.symm
        simp [Sparse.getF, hi, h1, ih h.2]

/-- A write leaves every other key alone. -/
theorem Sparse.getF_setF_ne (d : Nat → α) [DecidableEq α] {m : List (Nat × α)} {k k' j : Nat} {v : α}
    (h : Sparse.wfFrom d j m = true) (hk : k' ≠ k) : Sparse.getF d (Sparse.setF d m k v) k' = Sparse.getF d m k' := by
  induction m generalizing j with
  | nil =>
    have hk2 : k ≠ k' := hk.symm
    unfold Sparse.setF
    split <;> simp [Sparse.getF, hk2]
  | cons e r ih =>
    obtain ⟨i, w⟩ := e
    simp only [Sparse.wfFrom, Bool.and_eq_true, decide_eq_true_eq] at h
    have hk2 : k ≠ k' := hk.symm
    unfold Sparse.setF
    split
    · rename_i hlt
      split
      · rfl
      · by_cases h1 : k' < k
        · have h2 : k' < i := by omega
          have h3 : i ≠ k' := by omega
          simp [Sparse.getF, hk2, h1, h2, h3]
        · simp [Sparse.getF, hk2, h1]
    · split
      · rename_i h1 h2
        subst h2
        split
        · by_cases h3 : k' < k
          · rw [Sparse.getF_lt d h.2 (by omega)]; simp [Sparse.getF, hk2, h3]
          · simp [Sparse.getF, hk2, h3]
        · simp [Sparse.getF, hk2]
      · by_cases h3 : i = k'
        · simp [Sparse.getF, h3]
        · by_cases h4 : k' < i
          · simp [Sparse.getF, h3, h4]
          · simp [Sparse.getF, h3, h4, ih h.2]

/-- Keeping some entries of a canonical table keeps it canonical. -/
theorem Sparse.wfFrom_keep (d : Nat → α) [DecidableEq α] {m : List (Nat × α)} {j : Nat} (p : Nat × α → Bool)
    (h : Sparse.wfFrom d j m = true) : Sparse.wfFrom d j (m.filter p) = true := by
  induction m generalizing j with
  | nil => rfl
  | cons e r ih =>
    obtain ⟨i, w⟩ := e
    simp only [Sparse.wfFrom, Bool.and_eq_true, decide_eq_true_eq] at h
    rw [List.filter_cons]
    split
    · simp [Sparse.wfFrom, h.1.1, h.1.2, ih h.2]
    · exact Sparse.wfFrom_mono d (ih h.2) (by omega)

/-- Writing bytes keeps a memory canonical. -/
theorem Memory.wf_writeBytes (d : Nat → BitVec 8) {m : List Host.Cell} {bs : List (BitVec 8)} {a : Nat}
    (h : Memory.wf d m = true) : Memory.wf d (Memory.writeBytes d m a bs) = true := by
  induction bs generalizing m a with
  | nil => exact h
  | cons b r ih => exact ih (Sparse.wf_setF d h)

/-- A byte outside the written range reads as before. -/
theorem Memory.getF_writeBytes_ne (d : Nat → BitVec 8) {m : List Host.Cell} {bs : List (BitVec 8)} {a k : Nat}
    (h : Memory.wf d m = true) (hk : k < a ∨ a + bs.length ≤ k) :
    Sparse.getF d (Memory.writeBytes d m a bs) k = Sparse.getF d m k := by
  induction bs generalizing m a with
  | nil => rfl
  | cons b r ih =>
    simp only [List.length_cons] at hk
    unfold Memory.writeBytes
    rw [ih (Sparse.wf_setF d h) (by omega), Sparse.getF_setF_ne d h (by omega)]

/-- Byte `i` of a written range reads as the byte written. -/
theorem Memory.getF_writeBytes (d : Nat → BitVec 8) {m : List Host.Cell} {bs : List (BitVec 8)} {a i : Nat}
    (h : Memory.wf d m = true) (hi : i < bs.length) :
    Sparse.getF d (Memory.writeBytes d m a bs) (a + i) = bs[i] := by
  induction bs generalizing m a i with
  | nil => simp at hi
  | cons b r ih =>
    unfold Memory.writeBytes
    cases i with
    | zero =>
      rw [Memory.getF_writeBytes_ne d (Sparse.wf_setF d h) (by omega)]
      exact Sparse.getF_setF_same d h
    | succ i =>
      have := ih (m := Sparse.setF d m a b) (a := a + 1) (i := i) (Sparse.wf_setF d h) (by simpa using hi)
      simpa [Nat.add_assoc, Nat.add_comm 1 i] using this

/-- Reading back what was written. -/
theorem Memory.readBytes_writeBytes (d : Nat → BitVec 8) {m : List Host.Cell} {bs : List (BitVec 8)} {a : Nat}
    (h : Memory.wf d m = true) : Memory.readBytes d (Memory.writeBytes d m a bs) a bs.length = bs := by
  have gen : ∀ (n : Nat) (m' : List Host.Cell) (a : Nat) (l : List (BitVec 8)), l.length = n →
      (∀ i (hi : i < l.length), Sparse.getF d m' (a + i) = l[i]) → Memory.readBytes d m' a n = l := by
    intro n
    induction n with
    | zero => intro m' a l hl _; rw [List.length_eq_zero_iff.mp hl]; rfl
    | succ n ih =>
      intro m' a l hl hg
      cases l with
      | nil => simp at hl
      | cons b r =>
        unfold Memory.readBytes
        have h0 := hg 0 (by simp)
        simp at h0
        rw [h0, ih m' (a + 1) r (by simpa using hl)]
        intro i hi
        have := hg (i + 1) (by simpa using hi)
        simpa [Nat.add_assoc, Nat.add_comm 1 i] using this
  exact gen _ _ _ _ rfl fun i hi => Memory.getF_writeBytes d h hi

end Sys2Proof.Machine
end

