-- ==== Sys2Proof/Laws/Frame.lean ====
section
/-! SUPPORT. How changes compose: one relation that says which groups of the state an operation leaves alone and that it
keeps the canonical memories and the bounds, with the rules by which the lemma of a definition follows from those of the
operations it calls. -/

namespace Sys2Proof.Machine

/-- From `s` to `t` only the groups `gs` change, and the canonical memories and the bounds are kept. -/
structure Changes (gs : List Group) (s t : State) : Prop where
  keeps : Keeps gs s t
  mem : s.MemOk → t.MemOk
  bounds : s.BoundsOk → t.BoundsOk

variable {gs : List Group} {s t : State}

theorem Changes.refl : Changes gs s s := ⟨fun g _ => by cases g <;> first | rfl | exact fun _ => rfl, id, id⟩

theorem Keeps.trans {fs : List Group} {u : State} (h : Keeps gs s t) (h' : Keeps fs t u)
    (hs : fs.all gs.contains = true) : Keeps gs s u := by
  intro g hg
  have h2 : fs.contains g = false := by
    cases hc : fs.contains g with
    | false => rfl
    | true =>
      have hm : g ∈ fs := by simpa using hc
      rw [List.all_eq_true.mp hs g hm] at hg; cases hg
  have a := h g hg
  have b := h' g h2
  cases g <;> first | exact b.trans a | exact fun i => (b i).trans (a i)

/-- An operation whose changes are known, after changes within `gs`. -/
theorem Changes.step {fs : List Group} {u : State} (h' : Changes fs t u) (h : Changes gs s t)
    (hs : fs.all gs.contains = true := by rfl) : Changes gs s u :=
  ⟨h.keeps.trans h'.keeps hs, fun x => h'.mem (h.mem x), fun x => h'.bounds (h.bounds x)⟩

theorem Changes.ite {c : Prop} [Decidable c] {u : State} (h : Changes gs s t) (h' : Changes gs s u) :
    Changes gs s (if c then t else u) := by
  split <;> assumption

/-- A local value of a definition: its own changes come first, and what follows needs only these. -/
theorem Changes.via {x u : State} (h : Changes gs s x) (k : Changes gs s x → Changes gs s u) : Changes gs s u := k h

theorem Changes.ofPair {α : Type} {p : α × State} {a : α} (e : p = (a, t)) (h : Changes gs s p.2) : Changes gs s t := by
  subst e; exact h

theorem Changes.ofTriple {α β : Type} {p : α × β × State} {a : α} {b : β} (e : p = (a, b, t)) (h : Changes gs s p.2.2) :
    Changes gs s t := by
  subst e; exact h

theorem Changes.forAll {α : Type} {l : List α} {f : α → State → State} (h : Changes gs s t)
    (hf : ∀ x u, Changes gs s u → Changes gs s (f x u)) : Changes gs s (forAll l f t) := by
  unfold Sys2Proof.Machine.forAll
  induction l generalizing t with
  | nil => exact h
  | cons x r ih => exact ih (hf x _ h)

theorem Changes.foldl {α : Type} {l : List α} {f : State → α → State} (h : Changes gs s t)
    (hf : ∀ x u, Changes gs s u → Changes gs s (f u x)) : Changes gs s (l.foldl f t) := by
  induction l generalizing t with
  | nil => exact h
  | cons x r ih => exact ih (hf x _ h)

/-- A fold whose accumulator carries the state beside a result. -/
theorem Changes.foldlPair {α β : Type} {l : List α} {f : β × State → α → β × State} {p : β × State} (h : Changes gs s p.2)
    (hf : ∀ q x, Changes gs s q.2 → Changes gs s (f q x).2) : Changes gs s (l.foldl f p).2 := by
  induction l generalizing p with
  | nil => exact h
  | cons x r ih => exact ih (hf p x h)

/-! ### Vectors -/

theorem vset_all {α : Type} {n : Nat} {v : Vector α n} {i : Fin n} {y : α} {P : α → Prop} (h : ∀ j : Fin n, P v[j])
    (hy : P v[i] → P y) : ∀ j : Fin n, P (v.set i y)[j] := by
  intro j
  have := h j
  by_cases e : i = j
  · subst e; simpa using hy (h i)
  · have : (i : Nat) ≠ j := fun c => e (Fin.ext c)
    simpa [Vector.getElem_set, this] using h j

theorem vmod_all {α : Type} {n : Nat} {v : Vector α n} {i : Fin n} {f : α → α} {P : α → Prop} (h : ∀ j : Fin n, P v[j])
    (hf : ∀ x, P x → P (f x)) : ∀ j : Fin n, P (vmod v i f)[j] := vset_all h (hf _)

theorem vmap_all {α : Type} {n : Nat} {v : Vector α n} {f : Fin n → α → α} {P : α → Prop} (h : ∀ j : Fin n, P v[j])
    (hf : ∀ i x, P x → P (f i x)) : ∀ j : Fin n, P (vmap v f)[j] := by
  intro j
  simpa [vmap] using hf j _ (h j)

theorem replicate_all {α : Type} {n : Nat} {x : α} {P : α → Prop} (h : P x) : ∀ j : Fin n, P (Vector.replicate n x)[j] := by
  intro j; simpa using h

/-- A relation of the elements of two vectors that holds of equal elements survives a change of one element. -/
theorem vset_rel {α : Type} {n : Nat} {v : Vector α n} {i : Fin n} {y : α} {R : α → α → Prop} (hr : ∀ x, R x x)
    (hy : R v[i] y) : ∀ j : Fin n, R v[j] (v.set i y)[j] := by
  intro j
  by_cases e : i = j
  · subst e; simpa using hy
  · have : (i : Nat) ≠ j := fun c => e (Fin.ext c)
    simpa [Vector.getElem_set, this] using hr v[j]

theorem vmap_rel {α : Type} {n : Nat} {v : Vector α n} {f : Fin n → α → α} {R : α → α → Prop} (hf : ∀ i x, R x (f i x)) :
    ∀ j : Fin n, R v[j] (vmap v f)[j] := by
  intro j
  simpa [vmap] using hf j v[j]

theorem map_rel {α : Type} {n : Nat} {v : Vector α n} {f : α → α} {R : α → α → Prop} (hf : ∀ x, R x (f x)) :
    ∀ j : Fin n, R v[j] (v.map f)[j] := by
  intro j
  simpa using hf v[j]

/-! ### What a changed element keeps -/

/-- The non-volatile stores of a tile change within `gs`: the bytes of a memory outside it are as before, and the canonical
form is kept. -/
def TileNv.Step (gs : List Group) (x y : TileNv) : Prop :=
  (gs.contains .prmData = false → y.prm = x.prm) ∧ (gs.contains .lsa = false → y.lsa = x.lsa) ∧ (x.MemOk → y.MemOk)
/-- The fabric interface of a tile changes within `gs`. -/
def Fabric.Step (gs : List Group) (x y : Fabric) : Prop :=
  (gs.contains .tcm = false → y.tcm = x.tcm) ∧ (gs.contains .velvet = false → y.velvet = x.velvet) ∧ (x.MemOk → y.MemOk)
/-- A tile changes within `gs`. -/
def Tile.Step (gs : List Group) (x y : Tile) : Prop :=
  (gs.contains .scratch = false → y.d.scratch = x.d.scratch) ∧ (x.MemOk → y.MemOk)

theorem TileNv.Step.of {x y : TileNv} (e : y.prm = x.prm ∧ y.lsa = x.lsa) : TileNv.Step gs x y :=
  ⟨fun _ => e.1, fun _ => e.2, fun h => by unfold TileNv.MemOk; rw [e.1, e.2]; exact h⟩
theorem Fabric.Step.of {x y : Fabric} (e : y.tcm = x.tcm ∧ y.velvet = x.velvet) : Fabric.Step gs x y :=
  ⟨fun _ => e.1, fun _ => e.2, fun h => by unfold Fabric.MemOk; rw [e.1, e.2]; exact h⟩
theorem Tile.Step.of {x y : Tile} (e : y.d.scratch = x.d.scratch) : Tile.Step gs x y :=
  ⟨fun _ => e, fun h => by unfold Tile.MemOk; rw [e]; exact h⟩
theorem TileNv.Step.refl {x : TileNv} : TileNv.Step gs x x := .of ⟨rfl, rfl⟩
theorem Fabric.Step.refl {x : Fabric} : Fabric.Step gs x x := .of ⟨rfl, rfl⟩
theorem Tile.Step.refl {x : Tile} : Tile.Step gs x x := .of rfl

def Nvs (gs : List Group) (v w : Vector TileNv 8) : Prop := ∀ i : TileId, TileNv.Step gs v[i] w[i]
def Fabs (gs : List Group) (v w : Vector Fabric 8) : Prop := ∀ i : TileId, Fabric.Step gs v[i] w[i]
def Tiles (gs : List Group) (v w : Vector Tile 8) : Prop := ∀ i : TileId, Tile.Step gs v[i] w[i]
theorem Nvs.refl {v : Vector TileNv 8} : Nvs gs v v := fun _ => .refl
theorem Fabs.refl {v : Vector Fabric 8} : Fabs gs v v := fun _ => .refl
theorem Tiles.refl {v : Vector Tile 8} : Tiles gs v v := fun _ => .refl

/-- The groups that are fields of State. -/
def Group.plain : Group → Bool
  | .prmData | .lsa | .tcm | .velvet | .scratch => false
  | _ => true

/-! ### Record updates -/

/-- A record update: what is outside `gs` is as before, and so are the memories and bounds. The conditions are found by
their own tactics, so that a use names only the state before. -/
theorem Changes.upd {u : State} (h : Changes gs s t)
    (e : ∀ g : Group, g.plain = true → gs.contains g = false → g.same t u := by
      intro g hp hg
      cases g <;> first | exact Bool.noConfusion (show true = false from hg) | exact rfl | exact Bool.noConfusion (show false = true from hp))
    (hn : Nvs gs t.nv u.nv := by with_reducible exact Nvs.refl)
    (hf : Fabs gs t.fab u.fab := by with_reducible exact Fabs.refl)
    (ht : Tiles gs t.tiles u.tiles := by with_reducible exact Tiles.refl)
    (he : t.evr.QueuesOk → u.evr.QueuesOk := by with_reducible exact fun h => h)
    (hh : (∀ i : TileId, t.heads[i].LogsOk) → ∀ i : TileId, u.heads[i].LogsOk := by with_reducible exact fun h => h) :
    Changes gs s u := by
  refine Changes.step (fs := gs) ⟨?_, fun x => ?_, fun x => ⟨he x.1, hh x.2⟩⟩ h (by simp)
  · intro g hg
    cases hp : g.plain with
    | true => exact e g hp hg
    | false =>
      cases g <;> first
        | exact Bool.noConfusion (show true = false from hp)
        | exact fun i => (hn i).1 hg
        | exact fun i => (hn i).2.1 hg
        | exact fun i => (hf i).1 hg
        | exact fun i => (hf i).2.1 hg
        | exact fun i => (ht i).1 hg
  · exact ⟨fun i => (hn i).2.2 (x.1 i), fun i => (hf i).2.2 (x.2.1 i), fun i => (ht i).2 (x.2.2 i)⟩

theorem Head.LogsOk.of (x y : Head) (e : y.logs = x.logs) (h : x.LogsOk) : y.LogsOk := by
  intro k; rw [e]; exact h k
theorem Evr.QueuesOk.of {x y : Evr} (h : x.QueuesOk) (e : y.queues = x.queues := by rfl) : y.QueuesOk := by
  unfold Evr.QueuesOk; rw [e]; exact h

theorem TileNv.MemOk.writeLsa {x : TileNv} {a : Nat} {bs : List Byte} (h : x.MemOk) :
    TileNv.MemOk { x with lsa := Memory.writeBytes (fun _ => 0xFF) x.lsa a bs } := ⟨h.1, Memory.wf_writeBytes _ h.2⟩
theorem Fabric.MemOk.writeVelvet {x : Fabric} {a : Nat} {bs : List Byte} (h : x.MemOk) :
    Fabric.MemOk { x with velvet := Memory.writeBytes (fun _ => 0) x.velvet a bs } := ⟨h.1, Memory.wf_writeBytes _ h.2⟩

theorem heads_vmap {v : Vector Head 8} {f : TileId → Head → Head} (h : ∀ i : TileId, v[i].LogsOk)
    (hf : ∀ i x, (f i x).logs = x.logs := by intros; with_reducible rfl) : ∀ i : TileId, (vmap v f)[i].LogsOk :=
  vmap_all h fun i x => Head.LogsOk.of _ _ (hf i x)
theorem heads_vmod {v : Vector Head 8} {j : TileId} {f : Head → Head} (h : ∀ i : TileId, v[i].LogsOk)
    (hf : ∀ x, (f x).logs = x.logs := by intros; with_reducible rfl) : ∀ i : TileId, (vmod v j f)[i].LogsOk :=
  vmod_all h fun x => Head.LogsOk.of _ _ (hf x)
theorem heads_vset {v : Vector Head 8} {j : TileId} {y : Head} (h : ∀ i : TileId, v[i].LogsOk)
    (hf : (y).logs = v[j].logs := by rfl) :
    ∀ i : TileId, (v.set j y)[i].LogsOk :=
  vset_all (P := Head.LogsOk) h fun x => Head.LogsOk.of _ _ hf x

theorem nv_vmap {v : Vector TileNv 8} {f : TileId → TileNv → TileNv}
    (hf : ∀ i x, (f i x).prm = x.prm ∧ (f i x).lsa = x.lsa := by intros; with_reducible exact ⟨rfl, rfl⟩) : Nvs gs v (vmap v f) :=
  vmap_rel fun i x => .of (hf i x)
theorem nv_vmod {v : Vector TileNv 8} {j : TileId} {f : TileNv → TileNv}
    (hf : ∀ x, (f x).prm = x.prm ∧ (f x).lsa = x.lsa := by intros; with_reducible exact ⟨rfl, rfl⟩) : Nvs gs v (vmod v j f) :=
  vset_rel (fun _ => .refl) (.of (hf _))
theorem nv_vset {v : Vector TileNv 8} {j : TileId} {y : TileNv}
    (hf : y.prm = v[j].prm ∧ y.lsa = v[j].lsa := by exact ⟨rfl, rfl⟩) : Nvs gs v (v.set j y) :=
  vset_rel (fun _ => .refl) (.of hf)
theorem nv_map {v : Vector TileNv 8} {f : TileNv → TileNv}
    (hf : ∀ x, (f x).prm = x.prm ∧ (f x).lsa = x.lsa := by intros; with_reducible exact ⟨rfl, rfl⟩) : Nvs gs v (v.map f) :=
  map_rel fun x => .of (hf x)

theorem fab_vmap {v : Vector Fabric 8} {f : TileId → Fabric → Fabric}
    (hf : ∀ i x, (f i x).tcm = x.tcm ∧ (f i x).velvet = x.velvet := by intros; with_reducible exact ⟨rfl, rfl⟩) : Fabs gs v (vmap v f) :=
  vmap_rel fun i x => .of (hf i x)
theorem fab_vmod {v : Vector Fabric 8} {j : TileId} {f : Fabric → Fabric}
    (hf : ∀ x, (f x).tcm = x.tcm ∧ (f x).velvet = x.velvet := by intros; with_reducible exact ⟨rfl, rfl⟩) : Fabs gs v (vmod v j f) :=
  vset_rel (fun _ => .refl) (.of (hf _))
theorem fab_vset {v : Vector Fabric 8} {j : TileId} {y : Fabric}
    (hf : y.tcm = v[j].tcm ∧ y.velvet = v[j].velvet := by exact ⟨rfl, rfl⟩) : Fabs gs v (v.set j y) :=
  vset_rel (fun _ => .refl) (.of hf)
theorem fab_map {v : Vector Fabric 8} {f : Fabric → Fabric}
    (hf : ∀ x, (f x).tcm = x.tcm ∧ (f x).velvet = x.velvet := by intros; with_reducible exact ⟨rfl, rfl⟩) : Fabs gs v (v.map f) :=
  map_rel fun x => .of (hf x)

theorem tiles_vmap {v : Vector Tile 8} {f : TileId → Tile → Tile}
    (hf : ∀ i x, (f i x).d.scratch = x.d.scratch := by intros; with_reducible exact rfl) : Tiles gs v (vmap v f) :=
  vmap_rel fun i x => .of (hf i x)
theorem tiles_vmod {v : Vector Tile 8} {j : TileId} {f : Tile → Tile}
    (hf : ∀ x, (f x).d.scratch = x.d.scratch := by intros; with_reducible exact rfl) : Tiles gs v (vmod v j f) :=
  vset_rel (fun _ => .refl) (.of (hf _))
theorem tiles_vset {v : Vector Tile 8} {j : TileId} {y : Tile}
    (hf : y.d.scratch = v[j].d.scratch := by exact rfl) : Tiles gs v (v.set j y) :=
  vset_rel (fun _ => .refl) (.of hf)
theorem tiles_map {v : Vector Tile 8} {f : Tile → Tile}
    (hf : ∀ x, (f x).d.scratch = x.d.scratch := by intros; with_reducible exact rfl) : Tiles gs v (v.map f) :=
  map_rel fun x => .of (hf x)

theorem heads_map {v : Vector Head 8} {f : Head → Head} (h : ∀ i : TileId, v[i].LogsOk)
    (hf : ∀ x, (f x).logs = x.logs := by intros; with_reducible rfl) : ∀ i : TileId, (v.map f)[i].LogsOk := by
  intro i
  simpa using Head.LogsOk.of _ _ (hf v[i]) (h i)

theorem Evr.QueuesOk.nil {e : Evr} (h : e.queues = Vector.replicate 8 [] := by rfl) : e.QueuesOk := by
  unfold Evr.QueuesOk
  rw [h]
  exact replicate_all (P := fun l : List EventRec => l.length ≤ 32) (Nat.zero_le _)
theorem Evr.QueuesOk.set {e : Evr} {t : TileId} {l : List EventRec} (h : e.QueuesOk) (hl : l.length ≤ 32) :
    ∀ j : TileId, (e.queues.set t l)[j].length ≤ 32 :=
  vset_all (v := e.queues) (P := fun l : List EventRec => l.length ≤ 32) h fun _ => hl
theorem Head.LogsOk.fresh : ({} : Head).LogsOk := by
  intro k
  have : ∀ j : Fin 5, (Vector.replicate 5 ({} : EventLog))[j].recs.length ≤ 0 :=
    replicate_all (P := fun l : EventLog => l.recs.length ≤ 0) (Nat.le_refl _)
  exact Nat.le_trans (this k) (Nat.zero_le _)
theorem Head.conventional_logs (x : Head) : x.conventional.logs = x.logs := rfl

theorem reset_tiles {v : Vector Tile 8} {x : Tile} (hg : gs.contains .scratch = true := by rfl) (hx : x.MemOk := by rfl) :
    Tiles gs v (Vector.replicate 8 x) := fun i =>
  ⟨fun h => by rw [hg] at h; (cases h), fun _ => by simpa using hx⟩
theorem reset_fabs {v : Vector Fabric 8} (hg : gs.contains .tcm = true := by rfl) :
    Fabs gs v (Vector.ofFn fun i => { velvet := v[i].velvet }) := fun i =>
  ⟨fun h => by rw [hg] at h; (cases h), fun _ => by simp, fun h => by simpa using ⟨rfl, h.2⟩⟩
theorem off_fabs {v : Vector Fabric 8} {x : Fabric} (hg : gs.contains .tcm = true := by rfl) (hg' : gs.contains .velvet = true := by rfl)
    (hx : x.MemOk := by exact ⟨rfl, rfl⟩) : Fabs gs v (Vector.replicate 8 x) := fun i =>
  ⟨fun h => by rw [hg] at h; (cases h), fun h => by rw [hg'] at h; (cases h), fun _ => by simpa using hx⟩

/-! ### The operations that change one part -/

theorem Changes.modTile' {i : TileId} {f : Tile → Tile} (h : Changes gs s t)
    (hf : ∀ x : Tile, x.MemOk → (f x).MemOk)
    (hs : ∀ x : Tile, gs.contains .scratch = false → (f x).d.scratch = x.d.scratch := by
      intro x hc; first | exact Bool.noConfusion (show true = false from hc) | exact rfl)
    (hg : gs.contains .tiles = true := by rfl) : Changes gs s (t.modTile i f) :=
  h.upd (e := fun g hp hc => by
      cases g <;> first | exact rfl | (rw [hg] at hc; cases hc) | exact Bool.noConfusion (show false = true from hp))
    (hn := .refl) (hf := .refl) (ht := vset_rel (fun _ => .refl) ⟨hs _, hf _⟩) (he := fun h => h) (hh := fun h => h)

theorem Changes.modTile {i : TileId} {f : Tile → Tile} (h : Changes gs s t)
    (hf : ∀ x : Tile, (f x).d.scratch = x.d.scratch := by intros; with_reducible rfl) (hg : gs.contains .tiles = true := by rfl) :
    Changes gs s (t.modTile i f) := h.modTile' (fun x => (Tile.Step.of (gs := gs) (hf x)).2) (fun x _ => hf x) hg

theorem Changes.modHead' {i : TileId} {f : Head → Head} (h : Changes gs s t)
    (hf : ∀ x : Head, x.LogsOk → (f x).LogsOk)
    (hg : gs.contains .heads = true := by rfl) : Changes gs s (t.modHead i f) :=
  h.upd (e := fun g hp hc => by
      cases g <;> first | exact rfl | (rw [hg] at hc; cases hc) | exact Bool.noConfusion (show false = true from hp))
    (hn := .refl) (hf := .refl) (ht := .refl) (he := fun h => h) (hh := fun h => vmod_all h hf)

theorem Changes.modHead {i : TileId} {f : Head → Head} (h : Changes gs s t)
    (hf : ∀ x : Head, (f x).logs = x.logs := by intros; with_reducible rfl) (hg : gs.contains .heads = true := by rfl) :
    Changes gs s (t.modHead i f) := h.modHead' (fun x => Head.LogsOk.of _ _ (hf x)) hg

/-- A head replaced by one that depends on what it held. -/
theorem Changes.setHead {i : TileId} {f : Head → Head} (h : Changes gs s t)
    (hf : t.heads[i].LogsOk → (f t.heads[i]).LogsOk)
    (hg : gs.contains .heads = true := by rfl) : Changes gs s (t.modHead i f) :=
  h.upd (e := fun g hp hc => by
      cases g <;> first | exact rfl | (rw [hg] at hc; cases hc) | exact Bool.noConfusion (show false = true from hp))
    (hn := .refl) (hf := .refl) (ht := .refl) (he := fun h => h) (hh := fun h => vset_all (P := Head.LogsOk) h hf)

/-- A new event recorder with the queues of the old one. -/
theorem Changes.setEvr {e : Evr} (h : Changes gs s t) (hq : e.queues = t.evr.queues := by rfl)
    (hg : gs.contains .evr = true := by rfl) : Changes gs s { t with evr := e } :=
  h.upd (e := fun g hp hc => by
      cases g <;> first | exact rfl | (rw [hg] at hc; cases hc) | exact Bool.noConfusion (show false = true from hp))
    (hn := .refl) (hf := .refl) (ht := .refl) (he := fun h => h.of hq) (hh := fun h => h)

theorem Changes.modNv' {i : TileId} {f : TileNv → TileNv} (h : Changes gs s t)
    (hf : ∀ x : TileNv, x.MemOk → (f x).MemOk)
    (hp : ∀ x : TileNv, gs.contains .prmData = false → (f x).prm = x.prm := by
      intro x hc; first | exact Bool.noConfusion (show true = false from hc) | exact rfl)
    (hl : ∀ x : TileNv, gs.contains .lsa = false → (f x).lsa = x.lsa := by
      intro x hc; first | exact Bool.noConfusion (show true = false from hc) | exact rfl)
    (hg : gs.contains .nv = true := by rfl) : Changes gs s (t.modNv i f) :=
  h.upd (e := fun g hp hc => by
      cases g <;> first | exact rfl | (rw [hg] at hc; cases hc) | exact Bool.noConfusion (show false = true from hp))
    (hn := vset_rel (fun _ => .refl) ⟨hp _, hl _, hf _⟩) (hf := .refl) (ht := .refl) (he := fun h => h) (hh := fun h => h)

theorem Changes.modNv {i : TileId} {f : TileNv → TileNv} (h : Changes gs s t)
    (hf : ∀ x : TileNv, (f x).prm = x.prm ∧ (f x).lsa = x.lsa := by intros; with_reducible exact ⟨rfl, rfl⟩) (hg : gs.contains .nv = true := by rfl) :
    Changes gs s (t.modNv i f) := h.modNv' (fun x => (TileNv.Step.of (gs := gs) (hf x)).2.2) (fun x _ => (hf x).1) (fun x _ => (hf x).2) hg

theorem Changes.modFab' {i : TileId} {f : Fabric → Fabric} (h : Changes gs s t)
    (hf : ∀ x : Fabric, x.MemOk → (f x).MemOk)
    (hp : ∀ x : Fabric, gs.contains .tcm = false → (f x).tcm = x.tcm := by
      intro x hc; first | exact Bool.noConfusion (show true = false from hc) | exact rfl)
    (hl : ∀ x : Fabric, gs.contains .velvet = false → (f x).velvet = x.velvet := by
      intro x hc; first | exact Bool.noConfusion (show true = false from hc) | exact rfl)
    (hg : gs.contains .fab = true := by rfl) : Changes gs s (t.modFab i f) :=
  h.upd (e := fun g hp hc => by
      cases g <;> first | exact rfl | (rw [hg] at hc; cases hc) | exact Bool.noConfusion (show false = true from hp))
    (hn := .refl) (hf := vset_rel (fun _ => .refl) ⟨hp _, hl _, hf _⟩) (ht := .refl) (he := fun h => h) (hh := fun h => h)

theorem Changes.modFab {i : TileId} {f : Fabric → Fabric} (h : Changes gs s t)
    (hf : ∀ x : Fabric, (f x).tcm = x.tcm ∧ (f x).velvet = x.velvet := by intros; with_reducible exact ⟨rfl, rfl⟩) (hg : gs.contains .fab = true := by rfl) :
    Changes gs s (t.modFab i f) := h.modFab' (fun x => (Fabric.Step.of (gs := gs) (hf x)).2.2) (fun x _ => (hf x).1) (fun x _ => (hf x).2) hg

theorem Changes.modMedia {i : TileId} {f : Media → Media} (h : Changes gs s t)
    (hg : gs.contains .media = true := by rfl) : Changes gs s (t.modMedia i f) :=
  h.upd (e := fun g hp hc => by
      cases g <;> first | exact rfl | (rw [hg] at hc; cases hc) | exact Bool.noConfusion (show false = true from hp))
    (hn := .refl) (hf := .refl) (ht := .refl) (he := fun h => h) (hh := fun h => h)

theorem Changes.modStaged {i : TileId} {f : StagedMedia → StagedMedia} (h : Changes gs s t)
    (hg : gs.contains .staged = true := by rfl) : Changes gs s (t.modStaged i f) :=
  h.upd (e := fun g hp hc => by
      cases g <;> first | exact rfl | (rw [hg] at hc; cases hc) | exact Bool.noConfusion (show false = true from hp))
    (hn := .refl) (hf := .refl) (ht := .refl) (he := fun h => h) (hh := fun h => h)

theorem Changes.modPl {i : TileId} {f : Placement → Placement} (h : Changes gs s t) (hg : gs.contains .tiles = true := by rfl) :
    Changes gs s (t.modPl i f) := h.modTile (fun _ => rfl) hg

theorem Changes.modEng {i : TileId} {f : Engine → Engine} (h : Changes gs s t) (hg : gs.contains .tiles = true := by rfl) :
    Changes gs s (t.modEng i f) := h.modTile (fun _ => rfl) hg

theorem Changes.modIt {i : TileId} {f : Integrity → Integrity} (h : Changes gs s t) (hg : gs.contains .tiles = true := by rfl) :
    Changes gs s (t.modIt i f) := h.modTile (fun _ => rfl) hg

theorem Changes.modTherm {i : TileId} {f : TileThm → TileThm} (h : Changes gs s t) (hg : gs.contains .tiles = true := by rfl) :
    Changes gs s (t.modTherm i f) := h.modTile (fun _ => rfl) hg

theorem Changes.modCfl {i : TileId} {f : Cfl → Cfl} (h : Changes gs s t) (hg : gs.contains .tiles = true := by rfl) :
    Changes gs s (t.modCfl i f) := h.modTile (fun _ => rfl) hg

theorem Changes.modCh {i : TileId} {c : ChanId} {f : Chan → Chan} (h : Changes gs s t)
    (hg : gs.contains .tiles = true := by rfl) : Changes gs s (t.modCh i c f) := h.modTile (fun _ => rfl) hg

theorem Changes.modDie {i : TileId} {c : ChanId} {p : Fin 9} {f : Die → Die} (h : Changes gs s t)
    (hg : gs.contains .tiles = true := by rfl) : Changes gs s (t.modDie i c p f) := h.modCh hg

theorem Changes.modD' {i : TileId} {f : TileData → TileData} (h : Changes gs s t)
    (hf : ∀ x : TileData, Memory.wf (fun _ => 0) x.scratch = true → Memory.wf (fun _ => 0) (f x).scratch = true)
    (hs : ∀ x : TileData, gs.contains .scratch = false → (f x).scratch = x.scratch := by
      intro x hc; first | exact Bool.noConfusion (show true = false from hc) | exact rfl)
    (hg : gs.contains .tiles = true := by rfl) : Changes gs s (t.modD i f) :=
  h.modTile' (fun x => hf x.d) (fun x => hs x.d) hg

theorem Changes.modD {i : TileId} {f : TileData → TileData} (h : Changes gs s t)
    (hf : ∀ x : TileData, (f x).scratch = x.scratch := by intros; with_reducible rfl) (hg : gs.contains .tiles = true := by rfl) :
    Changes gs s (t.modD i f) :=
  h.modTile (fun x => hf x.d) hg

theorem Changes.snd {α : Type} {a : α} (h : Changes gs s t) : Changes gs s (Prod.snd (a, t)) := h

/-- An outcome that is a next state reached by changes within `gs`. -/
def Ends (gs : List Group) (s : State) (o : Host.Outcome State Fault Refusal) : Prop :=
  ∃ t, o = .next t ∧ Changes gs s t

theorem Ends.next (h : Changes gs s t) : Ends gs s (.next t) := ⟨t, rfl, h⟩

theorem Ends.step {fs : List Group} {o : Host.Outcome State Fault Refusal} (h' : Ends fs t o) (h : Changes gs s t)
    (hs : fs.all gs.contains = true := by rfl) : Ends gs s o := by
  obtain ⟨u, e, hu⟩ := h'
  exact ⟨u, e, hu.step h hs⟩

theorem Ends.via {x : State} {o : Host.Outcome State Fault Refusal} (h : Changes gs s x)
    (k : Changes gs s x → Ends gs s o) : Ends gs s o := k h

theorem Ends.ite {c : Prop} [Decidable c] {o p : Host.Outcome State Fault Refusal} (h : Ends gs s o) (h' : Ends gs s p) :
    Ends gs s (if c then o else p) := by
  split <;> assumption

end Sys2Proof.Machine
end

