-- ==== Sys2Proof/Laws/Changes1.lean ====
section
/-! SUPPORT. Part 1 of the lemmas, one for each operation and each command's meaning, that say which groups of the state it can
change and that it keeps the canonical memories and the bounds. -/

namespace Sys2Proof.Machine

set_option Elab.async false

theorem State.flashStart_changes {s : State} {a1 : TileId} {a2 : Fin 2} {a3 : FlashOp} :
    Changes [.nv, .tiles] s (State.flashStart s a1 a2 a3) := by
  unfold State.flashStart
  split
  · exact .modCfl .refl
  · extract_lets +onlyGivenNames x1
    refine .via (x := x1) ?_ fun h1 => ?_
    · subst x1
      exact .modCfl .refl
    refine .ite ?_ ?_
    · exact .modNv h1
    · exact h1

theorem State.bbRotate_changes {s : State} {a1 : Nat} :
    Changes [.nv, .tiles] s (State.bbRotate s a1) := by
  unfold State.bbRotate
  extract_lets +onlyGivenNames x1 x2 x3
  refine .via (x := x3) ?_ fun h3 => ?_
  · subst x3
    exact .modNv .refl
  exact .step State.flashStart_changes h3

theorem Head.LogsOk.push {x : Head} {k : Fin 5} {l : EventLog} (h : x.LogsOk) (hl : l.recs.length ≤ logCap k) :
    ∀ j : Fin 5, (x.logs.set k l)[j].recs.length ≤ logCap j := by
  intro j
  by_cases e : k = j
  · subst e; simpa using hl
  · have : (k : Nat) ≠ j := fun c => e (Fin.ext c)
    simpa [Vector.getElem_set, this] using h j

theorem State.logPush_changes {s : State} {a1 : TileId} {a2 : Fin 5} {a3 : LogRec} :
    Changes [.heads] s (State.logPush s a1 a2 a3) := by
  unfold State.logPush
  refine .modHead' .refl fun x h => ?_
  dsimp only
  split
  · rename_i hc
    have hp : ∀ j : Fin 5, (x.logs.set a2 { x.logs[a2] with
        recs := x.logs[a2].recs ++ [{ a3 with handle := x.logs[a2].nextHandle, stamp := x.stamp }],
        nextHandle := if x.logs[a2].nextHandle = 0xFFFF then 1 else x.logs[a2].nextHandle + 1 })[j].recs.length ≤ logCap j := by
      refine h.push (k := a2) ?_
      simp only [List.length_append, List.length_cons, List.length_nil]
      omega
    split <;> exact hp
  · exact h.push (k := a2) (h a2)

theorem State.logAll_changes {s : State} {a1 : Fin 5} {a2 : LogRec} :
    Changes [.heads] s (State.logAll s a1 a2) := by
  unfold State.logAll
  refine .forAll ?_ fun a1 x1 h1 => ?_
  · exact .refl
  · exact .step State.logPush_changes h1

theorem State.hostLog_changes {s : State} {a1 : EventRec} :
    Changes [.heads] s (State.hostLog s a1) := by
  unfold State.hostLog
  extract_lets +onlyGivenNames x1
  split
  · refine .ite ?_ ?_
    · exact .step State.logAll_changes .refl
    · exact .refl
  · exact .step State.logAll_changes .refl
  · exact .step State.logAll_changes .refl
  · exact .step State.logAll_changes .refl
  · exact .step State.logAll_changes .refl
  · refine .forAll ?_ fun a2 x2 h2 => ?_
    · exact .refl
    · exact .step State.logPush_changes h2
  · exact .step State.logAll_changes .refl
  · exact .refl

theorem State.raise_changes {s : State} {a1 : EventRec} :
    Changes [.evr, .heads] s (State.raise s a1) := by
  unfold State.raise
  extract_lets +onlyGivenNames y1 x2
  refine .via (x := x2) ?_ fun h2 => ?_
  · subst x2
    exact .step State.hostLog_changes .refl
  refine .ite ?_ ?_
  · refine .upd (t := x2) ?_ (he := fun h => h)
    exact h2
  · extract_lets +onlyGivenNames y3
    split
    · rename_i hc
      refine .upd (t := x2) ?_ (he := fun h => h.set (by simp only [List.length_append, List.length_cons, List.length_nil]; omega))
      exact h2
    · refine .upd (t := x2) ?_ (he := fun h => h.of)
      exact h2

theorem State.setDev_changes {s : State} {a1 : DevState} {a2 : Nat} :
    Changes [.sys, .evr, .heads] s (State.setDev s a1 a2) := by
  unfold State.setDev
  refine .ite ?_ ?_
  · exact .refl
  · extract_lets +onlyGivenNames x1 x2 x3
    refine .via (x := x3) ?_ fun h3 => ?_
    · subst x3
      exact .upd (t := s) .refl
    split
    · exact .step State.raise_changes h3
    · exact .step State.raise_changes h3
    · exact .step State.raise_changes h3

theorem State.supplyRefused_changes {s : State} :
    Changes [.sys, .tiles] s (State.supplyRefused s) := by
  unfold State.supplyRefused
  extract_lets +onlyGivenNames x1
  refine .via (x := x1) ?_ fun h1 => ?_
  · subst x1
    exact .modCfl .refl
  exact .upd (t := x1) h1

theorem State.prmPut_changes {s : State} {a1 : TileId} {a2 : Nat} {a3 : List Byte} :
    Changes [.nv, .prmData] s (State.prmPut s a1 a2 a3) := by
  unfold State.prmPut
  exact .modNv' .refl fun x h => ⟨Memory.wf_writeBytes _ h.1, h.2⟩

theorem State.prmWrite_changes {s : State} {a1 : Nat} {a2 : List Byte} :
    Changes [.nv, .prmData] s (State.prmWrite s a1 a2) := by
  unfold State.prmWrite
  extract_lets +onlyGivenNames x1
  refine .via (x := x1) ?_ fun h1 => ?_
  · subst x1
    exact .step State.prmPut_changes .refl
  refine .ite ?_ ?_
  · refine .forAll ?_ fun a2 x2 h2 => ?_
    · exact h1
    · exact .step State.prmPut_changes h2
  · exact h1

theorem State.twinWrite_changes {s : State} {a1 : Nat} {a2 : List Byte} :
    Changes [.nv, .prmData] s (State.twinWrite s a1 a2) := by
  unfold State.twinWrite
  extract_lets +onlyGivenNames x1
  exact .step State.prmWrite_changes .refl

theorem State.ladderAdvance_changes {s : State} {a1 : Nat} {a2 : Nat} :
    Changes [.nv, .prmData] s (State.ladderAdvance s a1 a2) := by
  unfold State.ladderAdvance
  extract_lets +onlyGivenNames x1
  exact .step State.prmWrite_changes .refl

theorem State.confirmTrial_changes {s : State} :
    Changes [.nv, .sys, .boot, .cfg, .tiles, .prmData] s (State.confirmTrial s) := by
  unfold State.confirmTrial
  refine .ite ?_ ?_
  · exact .refl
  · refine .ite ?_ ?_
    · extract_lets +onlyGivenNames x1
      refine .via (x := x1) ?_ fun h1 => ?_
      · subst x1
        exact .step State.supplyRefused_changes .refl
      exact .upd (t := x1) h1
    · extract_lets +onlyGivenNames x2 x3
      refine .via (x := x3) ?_ fun h3 => ?_
      · subst x3
        exact .step State.twinWrite_changes .refl
      extract_lets +onlyGivenNames x4 x5
      refine .via (x := x5) ?_ fun h5 => ?_
      · subst x5
        refine .ite ?_ ?_
        · exact .step State.ladderAdvance_changes h3
        · exact h3
      exact .upd (t := x5) h5

theorem State.count_changes {s : State} {a1 : Nat} {a2 : Nat} {a3 : Nat} {a4 : Nat} :
    Changes [.pmc] s (State.count s a1 a2 a3 a4) := by
  unfold State.count
  refine .ite ?_ ?_
  · exact .refl
  · extract_lets +onlyGivenNames x1 x2 x3 x4
    refine .ite ?_ ?_
    · exact .upd (t := s) .refl
    · exact .upd (t := s) .refl

theorem State.ungate_changes {s : State} {a1 : TileId} {a2 : BitVec 31} :
    Changes [.clk] s (State.ungate s a1 a2) := by
  unfold State.ungate
  exact .upd (t := s) .refl

theorem State.enqueue_changes {s : State} {a1 : TileId} {a2 : WorkItem} :
    Changes [.clk, .tiles] s (State.enqueue s a1 a2) := by
  unfold State.enqueue
  exact .step State.ungate_changes (.modEng .refl)

theorem State.enqueueStripe_changes {s : State} {a1 : TileId} {a2 : BitVec 64} {a3 : Nat} :
    Changes [.clk, .tiles] s (State.enqueueStripe s a1 a2 a3) := by
  unfold State.enqueueStripe
  extract_lets +onlyGivenNames x1
  exact .step State.enqueue_changes .refl

theorem State.closeStripe_changes {s : State} {a1 : TileId} {a2 : Fin 5} :
    Changes [.clk, .tiles] s (State.closeStripe s a1 a2) := by
  unfold State.closeStripe
  extract_lets +onlyGivenNames x1
  split
  · exact .refl
  · extract_lets +onlyGivenNames x2 x3 x4
    refine .via (x := x4) ?_ fun h4 => ?_
    · subst x4
      exact .modD .refl
    exact .step State.enqueueStripe_changes h4

theorem State.append_changes {s : State} {a1 : TileId} {a2 : Fin 5} {a3 : StripeEntry} :
    Changes [.clk, .tiles] s (State.append s a1 a2 a3) := by
  unfold State.append
  extract_lets +onlyGivenNames x1 x2 x3
  refine .via (x := x3) ?_ fun h3 => ?_
  · subst x3
    refine .ite ?_ ?_
    · exact .step State.closeStripe_changes .refl
    · exact .refl
  extract_lets +onlyGivenNames x4
  refine .via (x := x4) ?_ fun h4 => ?_
  · subst x4
    exact .modD h3
  refine .ite ?_ ?_
  · exact .step State.closeStripe_changes h4
  · exact h4

theorem State.stageLine_changes {s : State} {a1 : TileId} {a2 : Nat} :
    Changes [.clk, .tiles] s (State.stageLine s a1 a2) := by
  unfold State.stageLine
  split
  · exact .refl
  · refine .ite ?_ ?_
    · exact .refl
    · refine .ite ?_ ?_
      · refine .ite ?_ ?_
        · refine .modD ?_ (hf := by intros; rfl)
          exact .refl
        · exact .refl
      · extract_lets +onlyGivenNames x1
        refine .via (x := x1) ?_ fun h1 => ?_
        · subst x1
          refine .modD' ?_ fun x h => by dsimp only; repeat' (first | exact h | rfl | split)
          exact .refl
        clear_value x1
        exact .step State.append_changes h1

theorem State.stageAll_changes {s : State} {a1 : TileId} {a2 : List Nat} :
    Changes [.clk, .tiles] s (State.stageAll s a1 a2) := by
  unfold State.stageAll
  refine .forAll ?_ fun a1 x1 h1 => ?_
  · exact .refl
  · exact .step State.stageLine_changes h1

theorem State.cleaner_changes {s : State} {a1 : TileId} :
    Changes [.pmc, .clk, .tiles] s (State.cleaner s a1) := by
  unfold State.cleaner
  extract_lets +onlyGivenNames x1 x2 x3 x4
  refine .via (x := x4) ?_ fun h4 => ?_
  · subst x4
    exact .modD .refl
  clear_value x4
  refine .ite ?_ ?_
  · extract_lets +onlyGivenNames x5 x6
    exact .step State.count_changes (.step State.stageAll_changes h4)
  · exact h4

theorem State.policyChanged_changes {s : State} {a1 : TileId} :
    Changes [.clk, .tiles] s (State.policyChanged s a1) := by
  unfold State.policyChanged
  extract_lets +onlyGivenNames x1 x2 x3 x4
  exact .step State.stageAll_changes (.modD .refl)

theorem State.stagePosted_changes {s : State} {a1 : TileId} :
    Changes [.clk, .tiles] s (State.stagePosted s a1) := by
  unfold State.stagePosted
  extract_lets +onlyGivenNames x1 x2 x3 x4 x5
  refine .via (x := x5) ?_ fun h5 => ?_
  · subst x5
    exact .modD .refl
  clear_value x5
  exact .step State.stageAll_changes h5

theorem State.unlistPoison_changes {s : State} {a1 : Nat} :
    Changes [.evr, .heads, .poison] s (State.unlistPoison s a1) := by
  unfold State.unlistPoison
  split
  · exact .refl
  · extract_lets +onlyGivenNames x1 x2 x3
    refine .ite ?_ ?_
    · exact .upd (t := s) .refl
    · exact .step State.raise_changes (.upd (t := s) .refl)

theorem State.storeAcked_changes {s : State} {a1 : TileId} {a2 : StoreReq} :
    Changes [.evr, .tiles, .heads, .poison] s (State.storeAcked s a1 a2) := by
  unfold State.storeAcked
  extract_lets +onlyGivenNames x1
  refine .via (x := x1) ?_ fun h1 => ?_
  · subst x1
    exact .modD .refl
  refine .ite ?_ ?_
  · exact .step State.unlistPoison_changes h1
  · exact h1

theorem State.modLink_changes {s : State} {a1 : PortId} {a2 : Link → Link} :
    Changes [.fab, .mesh] s (State.modLink s a1 a2) := by
  unfold State.modLink
  split
  · exact .modFab .refl
  · exact .upd (t := s) .refl

theorem State.startFlit_changes {s : State} {a1 : PortId} {a2 : PortId} {a3 : BitVec 2} {a4 : BitVec 10} {a5 : List Msg} {a6 : List MMsg} :
    Changes [.fab, .mesh] s (State.startFlit s a1 a2 a3 a4 a5 a6) := by
  unfold State.startFlit
  extract_lets +onlyGivenNames x1
  exact .step State.modLink_changes (.step State.modLink_changes .refl)

theorem State.sendOne_changes {s : State} {a1 : PortId} :
    Changes [.pmc, .fab, .mesh] s (State.sendOne s a1) := by
  unfold State.sendOne
  extract_lets +onlyGivenNames x1 x2
  split
  · refine .ite ?_ ?_
    · exact .refl
    · extract_lets +onlyGivenNames x3
      refine .via (x := x3) ?_ fun h3 => ?_
      · subst x3
        exact .step State.startFlit_changes (.step State.modLink_changes .refl)
      clear_value x3
      split
      · exact .step State.count_changes h3
      · exact h3
  · exact .refl

theorem State.pump_changes {s : State} {a1 : PortId} :
    Changes [.pmc, .fab, .mesh] s (State.pump s a1) := by
  unfold State.pump
  refine .forAll ?_ fun a1 x1 h1 => ?_
  · exact .refl
  · exact .step State.sendOne_changes h1

theorem State.ungatePkg_changes {s : State} {a1 : Nat} :
    Changes [.clk] s (State.ungatePkg s a1) := by
  unfold State.ungatePkg
  refine .upd (t := s) ?_
  exact .refl

theorem State.peerPut_changes {s : State} {a1 : Fin 4} {a2 : MMsg} :
    Changes [.pmc, .clk, .fab, .mesh] s (State.peerPut s a1 a2) := by
  unfold State.peerPut
  exact .step State.pump_changes (.step State.modLink_changes (.step State.ungatePkg_changes .refl))

theorem State.meshSend_changes {s : State} {a1 : MMsg} :
    Changes [.pmc, .clk, .fab, .mesh] s (State.meshSend s a1).2 := by
  unfold State.meshSend
  split
  · exact .snd .refl
  · split
    · exact .snd (.upd (t := s) .refl)
    · extract_lets +onlyGivenNames x1
      split
      · exact .snd (.upd (t := s) .refl)
      · split
        · exact .snd (.upd (t := s) .refl)
        · exact .snd (.step State.peerPut_changes .refl)

theorem State.meshReply_changes {s : State} {a1 : BitVec 6} {a2 : BitVec 12} {a3 : Nat} {a4 : Bool} :
    Changes [.pmc, .clk, .fab, .mesh] s (State.meshReply s a1 a2 a3 a4) := by
  unfold State.meshReply
  exact .step State.meshSend_changes .refl

theorem State.wsend_changes {s : State} {a1 : TileId} {a2 : Msg} :
    Changes [.pmc, .fab, .mesh] s (State.wsend s a1 a2).2 := by
  unfold State.wsend
  extract_lets +onlyGivenNames x1
  refine .via (x := x1) ?_ fun h1 => ?_
  · subst x1
    refine .ite ?_ ?_
    · exact .modFab .refl
    · exact .refl
  split
  · exact .snd (.modFab h1)
  · split
    · exact .snd h1
    · extract_lets +onlyGivenNames x2
      exact .snd (.step State.pump_changes (.step State.modLink_changes h1))

theorem State.modMb_changes {s : State} {a1 : Iface} {a2 : Mailbox → Mailbox} :
    Changes [.heads, .svc] s (State.modMb s a1 a2) := by
  unfold State.modMb
  split
  · exact .modHead .refl
  · exact .upd (t := s) .refl

theorem State.vector_changes {s : State} {a1 : TileId} {a2 : Nat} :
    Changes [.heads] s (State.vector s a1 a2) := by
  unfold State.vector
  refine .modHead ?_ (hf := by intros; rfl)
  exact .refl

theorem State.mbFinish_changes {s : State} {a1 : Iface} {a2 : Ret} {a3 : Nat} {a4 : List Byte} :
    Changes [.heads, .svc] s (State.mbFinish s a1 a2 a3 a4) := by
  unfold State.mbFinish
  extract_lets +onlyGivenNames x1 x2
  refine .via (x := x2) ?_ fun h2 => ?_
  · subst x2
    exact .step State.modMb_changes .refl
  clear_value x2
  extract_lets +onlyGivenNames x3 x4
  refine .via (x := x4) ?_ fun h4 => ?_
  · subst x4
    refine .ite ?_ ?_
    · refine .upd (t := x2) ?_
      exact h2
    · exact h2
  clear_value x4
  extract_lets +onlyGivenNames x5 x6
  refine .via (x := x6) ?_ fun h6 => ?_
  · subst x6
    refine .upd (t := x4) ?_
    exact h4
  clear_value x6
  split
  · refine .ite ?_ ?_
    · exact .step State.vector_changes h6
    · exact h6
  · exact h6

theorem State.answerWidarBars_changes {s : State} :
    Changes [.pmc, .fab, .mesh] s (State.answerWidarBars s) := by
  unfold State.answerWidarBars
  extract_lets +onlyGivenNames x1
  refine .forAll ?_ fun a2 x2 h2 => ?_
  · exact .refl
  · extract_lets +onlyGivenNames x3 x4
    refine .via (x := x4) ?_ fun h4 => ?_
    · subst x4
      exact .modFab h2
    refine .forAll ?_ fun a5 x5 h5 => ?_
    · exact h4
    · exact .step State.wsend_changes h5

theorem State.answerBars_changes {s : State} :
    Changes [.pmc, .clk, .fab, .mesh] s (State.answerBars s) := by
  unfold State.answerBars
  extract_lets +onlyGivenNames x1 x2
  refine .via (x := x2) ?_ fun h2 => ?_
  · subst x2
    refine .forAll ?_ fun a3 x3 h3 => ?_
    · exact .refl
    · exact .step State.meshReply_changes h3
  exact .upd (t := x2) h2

theorem State.answerPeers_changes {s : State} {a1 : TileId} :
    Changes [.evr, .pmc, .clk, .tiles, .heads, .fab, .mesh, .svc, .poison] s (State.answerPeers s a1) := by
  unfold State.answerPeers
  extract_lets +onlyGivenNames x1 x2 x3
  refine .via (x := x3) ?_ fun h3 => ?_
  · subst x3
    refine .forAll ?_ fun a4 x4 h4 => ?_
    · exact .refl
    · extract_lets +onlyGivenNames x5
      refine .via (x := x5) ?_ fun h5 => ?_
      · subst x5
        exact .step State.storeAcked_changes h4
      split
      · refine .ite ?_ ?_
        · exact .upd (t := x5) h5
        · exact .step State.meshReply_changes h5
      · exact .step State.wsend_changes h5
      · split
        · refine .ite ?_ ?_
          · refine .ite ?_ ?_
            · exact .step State.mbFinish_changes h5
            · exact .step State.mbFinish_changes h5
          · exact h5
        · exact h5
  extract_lets +onlyGivenNames x6
  refine .via (x := x6) ?_ fun h6 => ?_
  · subst x6
    refine .ite ?_ ?_
    · exact .step State.answerWidarBars_changes h3
    · exact h3
  refine .ite ?_ ?_
  · exact .step State.answerBars_changes h6
  · exact h6

theorem State.draw_changes {s : State} :
    Changes [.fv] s (State.draw s).2 := by
  unfold State.draw
  exact .snd (.upd (t := s) .refl)

theorem State.pick_changes {α : Type} {s : State} {a2 : List α} :
    Changes [.fv] s (State.pick s a2).2 := by
  unfold State.pick
  split
  · exact .snd .refl
  · exact .snd .refl
  · split
    · rename_i x1 e1
      refine .via (Changes.ofPair e1 ?_) fun h1 => ?_
      · exact .step State.draw_changes .refl
      exact .snd h1

theorem State.lately_changes {α : Type} {s : State} {a1 : α → Nat} {a2 : List α} :
    Changes [.fv] s (State.lately s a1 a2).2 := by
  unfold State.lately
  extract_lets +onlyGivenNames x1
  split
  · exact .snd .refl
  · split
    rename_i x2 e2
    refine .via (Changes.ofPair e2 ?_) fun h2 => ?_
    · exact .step State.draw_changes .refl
    exact .snd h2

theorem State.noteIn_changes {s : State} {a1 : List (Nat × Nat)} {a2 a3 : Nat} :
    Changes [.fv] s (State.noteIn s a1 a2 a3).2.2 := by
  unfold State.noteIn
  extract_lets +onlyGivenNames x1
  split
  rename_i x2 e2
  exact Changes.ofPair e2 (.step State.lately_changes .refl)

theorem State.pickWay_changes {s : State} {a1 : List Nat} :
    Changes [.fv] s (State.pickWay s a1).2 := by
  unfold State.pickWay
  exact .step State.pick_changes .refl

theorem State.useLine_changes {s : State} {a1 : Nat} :
    Changes [.tiles] s (State.useLine s a1) := by
  unfold State.useLine
  refine .modD .refl (hf := fun x => ?_)
  dsimp only
  split <;> rfl

theorem State.place_changes {s : State} {a1 : CLine} :
    Changes [.tiles] s (State.place s a1) := by
  unfold State.place
  extract_lets +onlyGivenNames x1
  exact .step State.useLine_changes (.modD .refl)

theorem State.fill_changes {s : State} {a1 : Nat} {a2 : Line} {a3 : Bool} :
    Changes [.fv, .tiles] s (State.fill s a1 a2 a3) := by
  unfold State.fill
  refine .ite ?_ ?_
  · exact .refl
  · extract_lets +onlyGivenNames x1
    split
    · rename_i x2 e2
      refine .via (Changes.ofPair e2 ?_) fun h2 => ?_
      · exact .step State.pickWay_changes .refl
      exact h2
    · rename_i x3 e3
      refine .via (Changes.ofPair e3 ?_) fun h3 => ?_
      · exact .step State.pickWay_changes .refl
      exact .step State.place_changes h3

theorem State.wReply_changes {s : State} {a1 : TileId} {a2 : Msg} {a3 : Nat} {a4 : List Byte} {a5 : Bool} :
    Changes [.pmc, .fab, .mesh] s (State.wReply s a1 a2 a3 a4 a5) := by
  unfold State.wReply
  extract_lets +onlyGivenNames x1 x2
  refine .via (x := x2) ?_ fun h2 => ?_
  · subst x2
    refine .ite ?_ ?_
    · exact .step State.count_changes .refl
    · exact .refl
  exact .step State.wsend_changes h2

theorem State.modLoad_changes {s : State} {a1 : Nat} {a2 : LoadReq → LoadReq} :
    Changes [.loads] s (State.modLoad s a1 a2) := by
  unfold State.modLoad
  exact .upd (t := s) .refl

theorem State.modStore_changes {s : State} {a1 : TileId} {a2 : Nat} {a3 : StoreReq → StoreReq} :
    Changes [.tiles] s (State.modStore s a1 a2 a3) := by
  unfold State.modStore
  exact .modD .refl

theorem State.listPoison_changes {s : State} {a1 : Nat} {a2 : PoisonSrc} :
    Changes [.evr, .heads, .poison] s (State.listPoison s a1 a2) := by
  unfold State.listPoison
  refine .ite ?_ ?_
  · exact .refl
  · split
    · extract_lets +onlyGivenNames x1
      exact .upd (t := s) .refl
    · refine .ite ?_ ?_
      · exact .upd (t := s) .refl
      · exact .step State.raise_changes (.upd (t := s) .refl)

theorem State.meshTag_changes {s : State} :
    Changes [.mesh] s (State.meshTag s).2 := by
  unfold State.meshTag
  exact .snd (.upd (t := s) .refl)

theorem State.addCause_changes {s : State} {a1 : DegradeCause} :
    Changes [.sys, .evr, .heads] s (State.addCause s a1) := by
  unfold State.addCause
  extract_lets +onlyGivenNames x1
  refine .via (x := x1) ?_ fun h1 => ?_
  · subst x1
    refine .ite ?_ ?_
    · exact .refl
    · exact .step State.logAll_changes .refl
  extract_lets +onlyGivenNames x2 x3
  refine .via (x := x3) ?_ fun h3 => ?_
  · subst x3
    exact .upd (t := x1) h1
  refine .ite ?_ ?_
  · exact .step State.setDev_changes h3
  · exact h3

theorem State.clearCause_changes {s : State} {a1 : DegradeCause} :
    Changes [.sys, .evr, .heads] s (State.clearCause s a1) := by
  unfold State.clearCause
  refine .ite ?_ ?_
  · exact .refl
  · extract_lets +onlyGivenNames x1 x2
    refine .via (x := x2) ?_ fun h2 => ?_
    · subst x2
      refine .upd (t := s) ?_
      exact .refl
    refine .ite ?_ ?_
    · exact .step State.setDev_changes h2
    · exact h2

theorem State.sendPair_changes {s : State} :
    Changes [.pmc, .clk, .fab, .mesh] s (State.sendPair s) := by
  unfold State.sendPair
  split
  · rename_i x1 e1
    refine .via (Changes.ofPair e1 ?_) fun h1 => ?_
    · exact .step State.meshTag_changes .refl
    exact .step State.meshSend_changes h1

theorem State.setPair_changes {s : State} {a1 : BitVec 3} :
    Changes [.sys, .evr, .pmc, .clk, .heads, .fab, .mesh] s (State.setPair s a1) := by
  unfold State.setPair
  refine .ite ?_ ?_
  · exact .refl
  · extract_lets +onlyGivenNames x1
    refine .via (x := x1) ?_ fun h1 => ?_
    · subst x1
      exact .step State.raise_changes .refl
    extract_lets +onlyGivenNames x2 x3
    refine .via (x := x3) ?_ fun h3 => ?_
    · subst x3
      exact .upd (t := x1) h1
    extract_lets +onlyGivenNames x4
    refine .via (x := x4) ?_ fun h4 => ?_
    · subst x4
      refine .ite ?_ ?_
      · exact .step State.clearCause_changes h3
      · exact h3
    refine .ite ?_ ?_
    · exact .step State.sendPair_changes h4
    · exact h4

theorem State.releaseMirrored_changes {s : State} :
    Changes [.tiles, .mesh] s (State.releaseMirrored s) := by
  unfold State.releaseMirrored
  refine .upd (t := s) ?_ (ht := by with_reducible exact tiles_vmap)
  exact .refl

theorem State.degradePair_changes {s : State} :
    Changes [.sys, .evr, .pmc, .clk, .tiles, .heads, .fab, .mesh] s (State.degradePair s) := by
  unfold State.degradePair
  refine .ite ?_ ?_
  · exact .refl
  · exact .step State.addCause_changes (.step State.setPair_changes (.step State.releaseMirrored_changes .refl))

theorem State.sendMwr_changes {s : State} {a1 : TileId} {a2 : Nat} {a3 : Nat} {a4 : Line} {a5 : Bool} {a6 : Bool} :
    Changes [.sys, .evr, .pmc, .clk, .tiles, .heads, .fab, .mesh] s (State.sendMwr s a1 a2 a3 a4 a5 a6) := by
  unfold State.sendMwr
  split
  · rename_i x1 e1
    refine .via (Changes.ofPair e1 ?_) fun h1 => ?_
    · exact .step State.meshTag_changes .refl
    extract_lets +onlyGivenNames x2 x3
    refine .ite ?_ ?_
    · exact .upd (t := x1) h1
    · split
      · extract_lets +onlyGivenNames x4 x5
        refine .via (x := x5) ?_ fun h5 => ?_
        · subst x5
          exact .upd (t := x1) h1
        exact .step State.count_changes (.step State.meshSend_changes h5)
      · exact .step State.degradePair_changes h1

theorem State.mirrorStore_changes {s : State} {a1 : TileId} {a2 : Nat} :
    Changes [.sys, .evr, .pmc, .clk, .tiles, .heads, .fab, .mesh] s (State.mirrorStore s a1 a2) := by
  unfold State.mirrorStore
  split
  · exact .refl
  · split
    · refine .ite ?_ ?_
      · exact .step State.sendMwr_changes (.step State.modStore_changes .refl)
      · exact .refl
    · exact .refl

theorem State.mergeStore_changes {s : State} {a1 : TileId} {a2 : StoreReq} :
    Changes [.sys, .evr, .pmc, .clk, .tiles, .heads, .fab, .mesh, .poison] s (State.mergeStore s a1 a2) := by
  unfold State.mergeStore
  extract_lets +onlyGivenNames x1 x2 x3
  refine .via (x := x3) ?_ fun h3 => ?_
  · subst x3
    refine .modD ?_ (hf := by intros; rfl)
    exact .step State.useLine_changes .refl
  clear_value x3
  extract_lets +onlyGivenNames x4 x5
  refine .via (x := x5) ?_ fun h5 => ?_
  · subst x5
    refine .ite ?_ ?_
    · refine .step State.listPoison_changes ?_
      refine .upd (t := x3) ?_
      exact h3
    · refine .ite ?_ ?_
      · refine .upd (t := x3) ?_
        exact h3
      · exact h3
  clear_value x5
  extract_lets +onlyGivenNames x6
  refine .via (x := x6) ?_ fun h6 => ?_
  · subst x6
    exact .step State.modStore_changes h5
  clear_value x6
  extract_lets +onlyGivenNames x7
  refine .via (x := x7) ?_ fun h7 => ?_
  · subst x7
    exact .step State.mirrorStore_changes h6
  clear_value x7
  refine .ite ?_ ?_
  · exact .step State.stageLine_changes h7
  · exact .step State.cleaner_changes h7

theorem State.tryStore_changes {s : State} {a1 : TileId} {a2 : Nat} :
    Changes [.fv, .sys, .evr, .pmc, .clk, .tiles, .heads, .loads, .nextReq, .fab, .mesh, .poison] s (State.tryStore s a1 a2) := by
  unfold State.tryStore
  extract_lets +onlyGivenNames x1
  split
  · exact .refl
  · extract_lets +onlyGivenNames x2 x3
    refine .ite ?_ ?_
    · exact .refl
    · refine .ite ?_ ?_
      · extract_lets +onlyGivenNames x4 x5
        refine .via (x := x5) ?_ fun h5 => ?_
        · subst x5
          refine .ite ?_ ?_
          · exact .refl
          · exact .modD .refl
        clear_value x5
        extract_lets +onlyGivenNames x6
        refine .via (x := x6) ?_ fun h6 => ?_
        · subst x6
          exact .step State.modStore_changes h5
        clear_value x6
        refine .ite ?_ ?_
        · exact .step State.count_changes h6
        · exact h6
      · split
        · refine .step State.mergeStore_changes ?_
          refine .ite ?_ ?_
          · exact .refl
          · exact .step State.count_changes .refl
        · extract_lets +onlyGivenNames x7
          refine .via (x := x7) ?_ fun h7 => ?_
          · subst x7
            refine .ite ?_ ?_
            · exact .refl
            · exact .step State.modStore_changes (.step State.count_changes .refl)
          clear_value x7
          refine .ite ?_ ?_
          · extract_lets +onlyGivenNames x8
            refine .via (x := x8) ?_ fun h8 => ?_
            · subst x8
              exact .step State.modStore_changes h7
            clear_value x8
            refine .upd (t := x8) ?_
            exact h8
          · extract_lets +onlyGivenNames x9 x10 x11 x12 x13
            split
            · rename_i x14 e14
              refine .via (Changes.ofPair e14 ?_) fun h14 => ?_
              · exact .step State.pickWay_changes h7
              extract_lets +onlyGivenNames x15
              refine .via (x := x15) ?_ fun h15 => ?_
              · subst x15
                exact .step State.place_changes h14
              clear_value x15
              extract_lets +onlyGivenNames x16
              refine .via (x := x16) ?_ fun h16 => ?_
              · subst x16
                refine .ite ?_ ?_
                · exact .step State.count_changes h15
                · exact h15
              clear_value x16
              extract_lets +onlyGivenNames x17 x18
              refine .via (x := x18) ?_ fun h18 => ?_
              · subst x18
                refine .modD ?_ (hf := by intros; rfl)
                exact h16
              clear_value x18
              extract_lets +onlyGivenNames x19 x20
              refine .via (x := x20) ?_ fun h20 => ?_
              · subst x20
                refine .ite ?_ ?_
                · refine .step State.listPoison_changes ?_
                  refine .upd (t := x18) ?_
                  exact h18
                · refine .upd (t := x18) ?_
                  exact h18
              clear_value x20
              extract_lets +onlyGivenNames x21
              refine .via (x := x21) ?_ fun h21 => ?_
              · subst x21
                exact .step State.modStore_changes h20
              clear_value x21
              extract_lets +onlyGivenNames x22
              refine .via (x := x22) ?_ fun h22 => ?_
              · subst x22
                exact .step State.mirrorStore_changes h21
              clear_value x22
              refine .ite ?_ ?_
              · exact .step State.stageLine_changes h22
              · exact .step State.cleaner_changes h22
            · rename_i x23 e23
              refine .via (Changes.ofPair e23 ?_) fun h23 => ?_
              · exact .step State.pickWay_changes h7
              extract_lets +onlyGivenNames x24 x25
              refine .via (x := x25) ?_ fun h25 => ?_
              · subst x25
                exact .step State.modStore_changes h23
              clear_value x25
              refine .ite ?_ ?_
              · exact h25
              · split
                · rename_i x26 e26
                  refine .via (Changes.ofPair e26 ?_) fun h26 => ?_
                  · split
                    · exact .snd h25
                    · exact .step State.pickWay_changes h25
                  split
                  · extract_lets +onlyGivenNames x27
                    refine .via (x := x27) ?_ fun h27 => ?_
                    · subst x27
                      exact .step State.modStore_changes h26
                    clear_value x27
                    exact .step State.count_changes (.step State.stageLine_changes h27)
                  · exact h26

theorem State.loadDone_changes {s : State} {a1 : Nat} {a2 : Line} {a3 : Bool} {a4 : Bool} :
    Changes [.fv, .sys, .evr, .pmc, .clk, .tiles, .heads, .loads, .nextReq, .fab, .mesh, .poison] s (State.loadDone s a1 a2 a3 a4) := by
  unfold State.loadDone
  split
  · exact .refl
  · refine .ite ?_ ?_
    · exact .upd (t := s) .refl
    · extract_lets +onlyGivenNames x1
      refine .via (x := x1) ?_ fun h1 => ?_
      · subst x1
        refine .ite ?_ ?_
        · exact .step State.fill_changes .refl
        · exact .refl
      refine .ite ?_ ?_
      · exact .upd (t := x1) h1
      · split
        · split
          · extract_lets +onlyGivenNames x2
            refine .via (x := x2) ?_ fun h2 => ?_
            · subst x2
              exact .upd (t := x1) h1
            extract_lets +onlyGivenNames x3
            exact .step State.meshSend_changes h2
          · split
            · extract_lets +onlyGivenNames x4
              refine .via (x := x4) ?_ fun h4 => ?_
              · subst x4
                exact .upd (t := x1) h1
              extract_lets +onlyGivenNames x5 x6
              exact .step State.answerWidarBars_changes (.step State.wReply_changes h4)
            · exact .step State.modLoad_changes h1
        · extract_lets +onlyGivenNames x7
          refine .via (x := x7) ?_ fun h7 => ?_
          · subst x7
            exact .upd (t := x1) h1
          extract_lets +onlyGivenNames x8
          split
          · exact .step State.tryStore_changes (.step State.modStore_changes h7)
          · exact .step State.tryStore_changes (.step State.modStore_changes h7)

theorem State.decrypt_changes {s : State} {a1 : StoredLine} :
    Changes [.fv] s (State.decrypt s a1).2 := by
  unfold State.decrypt
  split
  · exact .snd .refl
  · split
    · rename_i x1 e1
      refine .via (Changes.ofPair e1 ?_) fun h1 => ?_
      · exact .step State.draw_changes .refl
      exact .snd h1

theorem State.serveFold_changes {s : State} {a1 : Nat} {a2 : Nat} {a3 : Fold} :
    Changes [.fv, .sys, .evr, .pmc, .clk, .tiles, .heads, .loads, .nextReq, .fab, .mesh, .poison] s (State.serveFold s a1 a2 a3) := by
  unfold State.serveFold
  split
  · rename_i x1 e1
    refine .via (Changes.ofPair e1 ?_) fun h1 => ?_
    · exact .step State.decrypt_changes .refl
    exact .step State.loadDone_changes h1

theorem State.readItem_changes {s : State} {a1 : TileId} {a2 : Nat} {a3 : Nat} {a4 : Nat} {a5 : Nat} {a6 : Nat} {a7 : Bool} {a8 : Nat} {a9 : Nat} :
    Changes [.pmc, .clk, .tiles] s (State.readItem s a1 a2 a3 a4 a5 a6 a7 a8 a9) := by
  unfold State.readItem
  exact .step State.count_changes (.step State.enqueue_changes .refl)

theorem State.stripeRung_changes {s : State} {a1 : TileId} {a2 : Nat} {a3 : Nat} {a4 : Nat} {a5 : Nat} {a6 : Nat} {a7 : Nat} {a8 : List Nat} :
    Changes [.pmc, .clk, .tiles, .loads] s (State.stripeRung s a1 a2 a3 a4 a5 a6 a7 a8) := by
  unfold State.stripeRung
  extract_lets +onlyGivenNames x1
  refine .via (x := x1) ?_ fun h1 => ?_
  · subst x1
    exact .step State.modLoad_changes .refl
  refine .forAll ?_ fun a2 x2 h2 => ?_
  · exact h1
  · exact .step State.readItem_changes h2

theorem State.readShares_changes {s : State} {a1 : TileId} {a2 : Nat} {a3 : Nat} {a4 : Nat} {a5 : Nat} {a6 : List Nat} :
    Changes [.pmc, .clk, .tiles] s (State.readShares s a1 a2 a3 a4 a5 a6) := by
  unfold State.readShares
  refine .forAll ?_ fun a1 x1 h1 => ?_
  · exact .refl
  · exact .step State.readItem_changes h1

theorem State.pageRung_changes {s : State} {a1 : TileId} {a2 : Nat} {a3 : Nat} {a4 : Nat} {a5 : Nat} {a6 : List Nat} :
    Changes [.pmc, .clk, .tiles, .loads] s (State.pageRung s a1 a2 a3 a4 a5 a6) := by
  unfold State.pageRung
  extract_lets +onlyGivenNames x1
  refine .via (x := x1) ?_ fun h1 => ?_
  · subst x1
    exact .step State.modLoad_changes .refl
  extract_lets +onlyGivenNames x2
  refine .via (x := x2) ?_ fun h2 => ?_
  · subst x2
    exact .step State.count_changes (.modD h1)
  exact .step State.readShares_changes h2

theorem State.startLoad_changes {s : State} {a1 : Nat} :
    Changes [.fv, .sys, .evr, .pmc, .clk, .tiles, .heads, .loads, .nextReq, .fab, .mesh, .poison] s (State.startLoad s a1) := by
  unfold State.startLoad
  split
  · exact .refl
  · extract_lets +onlyGivenNames x1 x2 x3 x4
    refine .ite ?_ ?_
    · exact .refl
    · refine .ite ?_ ?_
      · exact .refl
      · refine .ite ?_ ?_
        · exact .step State.loadDone_changes .refl
        · extract_lets +onlyGivenNames x5 x6
          refine .via (x := x6) ?_ fun h6 => ?_
          · subst x6
            exact .step State.modLoad_changes .refl
          clear_value x6
          extract_lets +onlyGivenNames x7
          refine .via (x := x7) ?_ fun h7 => ?_
          · subst x7
            refine .ite ?_ ?_
            · exact h6
            · exact .step State.count_changes h6
          clear_value x7
          extract_lets +onlyGivenNames x8
          refine .via (x := x8) ?_ fun h8 => ?_
          · subst x8
            clear_value x5; split
            · refine .ite ?_ ?_
              · exact h7
              · exact .step State.count_changes h7
            · exact h7
          clear_value x8
          split
          · split
            · clear_value x5; split
              · exact .step State.loadDone_changes (.step State.useLine_changes h8)
              · exact .step State.loadDone_changes h8
              · exact .step State.serveFold_changes h8
              · extract_lets +onlyGivenNames x9 x10 x11 x12
                refine .via (x := x12) ?_ fun h12 => ?_
                · subst x12
                  exact .step State.modLoad_changes h8
                clear_value x12
                refine .ite ?_ ?_
                · exact .step State.loadDone_changes h12
                · refine .ite ?_ ?_
                  · exact .step State.readItem_changes h12
                  · exact .step State.stripeRung_changes h12
              · extract_lets +onlyGivenNames x13 x14 x15
                refine .via (x := x15) ?_ fun h15 => ?_
                · subst x15
                  exact .step State.modLoad_changes h8
                clear_value x15
                refine .ite ?_ ?_
                · exact .step State.loadDone_changes h15
                · refine .ite ?_ ?_
                  · exact .step State.readItem_changes h15
                  · exact .step State.pageRung_changes h15
              · exact h8
            · clear_value x5; split
              · exact .step State.loadDone_changes (.step State.useLine_changes h8)
              · exact .step State.loadDone_changes h8
              · exact h8
              · extract_lets +onlyGivenNames x16 x17 x18 x19
                refine .via (x := x19) ?_ fun h19 => ?_
                · subst x19
                  exact .step State.modLoad_changes h8
                clear_value x19
                refine .ite ?_ ?_
                · exact .step State.loadDone_changes h19
                · refine .ite ?_ ?_
                  · exact .step State.readItem_changes h19
                  · exact .step State.stripeRung_changes h19
              · extract_lets +onlyGivenNames x20 x21 x22
                refine .via (x := x22) ?_ fun h22 => ?_
                · subst x22
                  exact .step State.modLoad_changes h8
                clear_value x22
                refine .ite ?_ ?_
                · exact .step State.loadDone_changes h22
                · refine .ite ?_ ?_
                  · exact .step State.readItem_changes h22
                  · exact .step State.pageRung_changes h22
              · exact h8
          · split
            · clear_value x5; split
              · exact h8
              · exact .step State.loadDone_changes h8
              · exact .step State.serveFold_changes h8
              · extract_lets +onlyGivenNames x23 x24 x25 x26
                refine .via (x := x26) ?_ fun h26 => ?_
                · subst x26
                  exact .step State.modLoad_changes h8
                clear_value x26
                refine .ite ?_ ?_
                · exact .step State.loadDone_changes h26
                · refine .ite ?_ ?_
                  · exact .step State.readItem_changes h26
                  · exact .step State.stripeRung_changes h26
              · extract_lets +onlyGivenNames x27 x28 x29
                refine .via (x := x29) ?_ fun h29 => ?_
                · subst x29
                  exact .step State.modLoad_changes h8
                clear_value x29
                refine .ite ?_ ?_
                · exact .step State.loadDone_changes h29
                · refine .ite ?_ ?_
                  · exact .step State.readItem_changes h29
                  · exact .step State.pageRung_changes h29
              · exact h8
            · clear_value x5; split
              · exact h8
              · exact .step State.loadDone_changes h8
              · exact h8
              · extract_lets +onlyGivenNames x30 x31 x32 x33
                refine .via (x := x33) ?_ fun h33 => ?_
                · subst x33
                  exact .step State.modLoad_changes h8
                clear_value x33
                refine .ite ?_ ?_
                · exact .step State.loadDone_changes h33
                · refine .ite ?_ ?_
                  · exact .step State.readItem_changes h33
                  · exact .step State.stripeRung_changes h33
              · extract_lets +onlyGivenNames x34 x35 x36
                refine .via (x := x36) ?_ fun h36 => ?_
                · subst x36
                  exact .step State.modLoad_changes h8
                clear_value x36
                refine .ite ?_ ?_
                · exact .step State.loadDone_changes h36
                · refine .ite ?_ ?_
                  · exact .step State.readItem_changes h36
                  · exact .step State.pageRung_changes h36
              · exact h8

theorem State.startUnstarted_changes {s : State} {a1 : Nat} :
    Changes [.fv, .sys, .evr, .pmc, .clk, .tiles, .heads, .loads, .nextReq, .fab, .mesh, .poison] s (State.startUnstarted s a1) := by
  unfold State.startUnstarted
  refine .ite ?_ ?_
  · exact .step State.startLoad_changes .refl
  · exact .refl

theorem State.retryStores_changes {s : State} {a1 : TileId} :
    Changes [.fv, .sys, .evr, .pmc, .clk, .tiles, .heads, .loads, .nextReq, .fab, .mesh, .poison] s (State.retryStores s a1) := by
  unfold State.retryStores
  extract_lets +onlyGivenNames x1 x2
  refine .forAll ?_ fun a3 x3 h3 => ?_
  · exact .refl
  · exact .step State.startUnstarted_changes (.step State.tryStore_changes h3)

theorem State.applyBudgets_changes {s : State} :
    Changes [.fv, .sys, .evr, .pmc, .clk, .tiles, .heads, .loads, .nextReq, .fab, .mesh, .svc, .poison] s (State.applyBudgets s) := by
  unfold State.applyBudgets
  extract_lets +onlyGivenNames x1
  refine .via (x := x1) ?_ fun h1 => ?_
  · subst x1
    refine .forAll ?_ fun a2 x2 h2 => ?_
    · exact .refl
    · exact .modD h2
  clear_value x1
  extract_lets +onlyGivenNames x3 x4
  refine .ite ?_ ?_
  · refine .forAll ?_ fun a5 x5 h5 => ?_
    · exact h1
    · exact .step State.cleaner_changes h5
  · extract_lets +onlyGivenNames x6 x7
    refine .via (x := x7) ?_ fun h7 => ?_
    · subst x7
      refine .upd (t := x1) ?_
      exact h1
    clear_value x7
    extract_lets +onlyGivenNames x8
    refine .via (x := x8) ?_ fun h8 => ?_
    · subst x8
      refine .ite ?_ ?_
      · exact .step State.raise_changes h7
      · exact .step State.raise_changes h7
    clear_value x8
    refine .forAll ?_ fun a9 x9 h9 => ?_
    · exact h8
    · extract_lets +onlyGivenNames x10
      refine .via (x := x10) ?_ fun h10 => ?_
      · subst x10
        exact .step State.policyChanged_changes h9
      clear_value x10
      extract_lets +onlyGivenNames x11
      refine .via (x := x11) ?_ fun h11 => ?_
      · subst x11
        refine .ite ?_ ?_
        · exact h10
        · exact .step State.stagePosted_changes h10
      clear_value x11
      exact .step State.answerPeers_changes (.step State.retryStores_changes (.step State.cleaner_changes h11))

theorem State.headDown_changes {s : State} :
    Changes [.sys, .evr, .heads] s (State.headDown s) := by
  unfold State.headDown
  extract_lets +onlyGivenNames x1 x2
  refine .via (x := x2) ?_ fun h2 => ?_
  · subst x2
    refine .upd (t := s) ?_ (hh := by with_reducible exact fun h => heads_vmap h)
    exact .refl
  refine .ite ?_ ?_
  · exact .step State.addCause_changes h2
  · exact .step State.clearCause_changes h2

theorem State.setMemActive_changes {s : State} {a1 : Bool} :
    Changes [.sys, .heads] s (State.setMemActive s a1) := by
  unfold State.setMemActive
  refine .upd (t := s) ?_ (hh := by with_reducible exact fun h => heads_vmap h)
  exact .refl

theorem State.wakeLoads_changes {s : State} {a1 : TileId} :
    Changes [.fv, .sys, .evr, .pmc, .clk, .tiles, .heads, .loads, .nextReq, .fab, .mesh, .poison] s (State.wakeLoads s a1) := by
  unfold State.wakeLoads
  refine .forAll ?_ fun a1 x1 h1 => ?_
  · exact .refl
  · exact .step State.startLoad_changes h1

theorem State.thresholds_changes {s : State} {a1 : TileId} :
    Changes [.tiles] s (State.thresholds s a1) := by
  unfold State.thresholds
  exact .modD .refl

theorem State.wake_changes {s : State} {a1 : TileId} :
    Changes [.fv, .sys, .evr, .pmc, .clk, .tiles, .heads, .loads, .nextReq, .fab, .mesh, .svc, .poison] s (State.wake s a1) := by
  unfold State.wake
  refine .step State.wakeLoads_changes ?_
  exact .step State.answerPeers_changes (.step State.retryStores_changes (.step State.thresholds_changes .refl))

theorem State.copyBlackBox_changes {s : State} :
    Changes [.evr, .clk, .tiles, .heads] s (State.copyBlackBox s) := by
  unfold State.copyBlackBox
  extract_lets +onlyGivenNames x0
  refine .via (x := x0) ?_ fun h0 => ?_
  · subst x0
    refine .forAll ?_ fun a1 x1 h1 => ?_
    · exact .refl
    · exact .step State.raise_changes h1
  refine .forAll ?_ fun a1 x1 h1 => ?_
  · exact h0
  · extract_lets +onlyGivenNames x2
    refine .forAll ?_ fun a3 x3 h3 => ?_
    · exact h1
    · exact .step State.append_changes h3

end Sys2Proof.Machine
end

