-- ==== Sys2Proof/Laws/Changes2.lean ====
section
/-! SUPPORT. Part 2 of the lemmas, one for each operation and each command's meaning, that say which groups of the state it can
change and that it keeps the canonical memories and the bounds. -/

namespace Sys2Proof.Machine

set_option Elab.async false

theorem execReplayEnd_changes {a0 : Nat} {a1 : Nat} {s : State} :
    Ends [.fv, .nv, .sys, .boot, .cfg, .evr, .pmc, .clk, .tiles, .heads, .loads, .nextReq, .fab, .mesh, .svc, .poison, .prmData] s (execReplayEnd a0 a1 s) := by
  unfold execReplayEnd
  refine .ite ?_ ?_
  · exact .next .refl
  · extract_lets +onlyGivenNames x1 x2 x3 x4
    refine .via (x := x4) ?_ fun h4 => ?_
    · subst x4
      refine .upd (t := s) ?_ (ht := by with_reducible exact tiles_vmap)
      exact .refl
    extract_lets +onlyGivenNames x5
    refine .via (x := x5) ?_ fun h5 => ?_
    · subst x5
      refine .forAll ?_ fun a6 x6 h6 => ?_
      · exact h4
      · extract_lets +onlyGivenNames x7
        exact .modIt h6
    extract_lets +onlyGivenNames x8
    refine .via (x := x8) ?_ fun h8 => ?_
    · subst x8
      refine .ite ?_ ?_
      · exact .step State.setDev_changes h5
      · exact .step State.setDev_changes h5
    extract_lets +onlyGivenNames x9
    refine .via (x := x9) ?_ fun h9 => ?_
    · subst x9
      refine .step State.confirmTrial_changes ?_
      exact .step State.applyBudgets_changes (.step State.headDown_changes (.step State.setMemActive_changes h8))
    extract_lets +onlyGivenNames x10
    refine .via (x := x10) ?_ fun h10 => ?_
    · subst x10
      refine .forAll ?_ fun a11 x11 h11 => ?_
      · exact h9
      · exact .step State.wake_changes h11
    exact .next (.step State.copyBlackBox_changes h10)

theorem Ends.command {s : State} {gs : List Group} {m : Iface} {op : Nat} {r : StateRule} {lenOk : List Byte → Bool}
    {run : List Byte → State → State} {mgmt bg : Bool} (hr : ∀ inp, Changes gs s (run inp s))
    (hg : ([.heads, .svc] : List Group).all gs.contains = true := by rfl) :
    Ends gs s (s.command m op r lenOk run mgmt bg) := by
  unfold State.command
  split
  · exact .next .refl
  · split
    · exact .next (.step State.mbFinish_changes .refl hg)
    · split
      · exact .next (.step State.mbFinish_changes .refl hg)
      · exact .next (hr _)

theorem State.newStore_changes {s : State} {a1 : TileId} {a2 : StoreReq} :
    Changes [.fv, .sys, .evr, .pmc, .clk, .tiles, .heads, .loads, .nextReq, .fab, .mesh, .svc, .poison] s (State.newStore s a1 a2) := by
  unfold State.newStore
  extract_lets +onlyGivenNames x1 x2
  refine .via (x := x2) ?_ fun h2 => ?_
  · subst x2
    exact .step State.ungate_changes (.upd (t := s) .refl)
  extract_lets +onlyGivenNames x3
  exact .step State.wakeLoads_changes (.step State.answerPeers_changes (.step State.tryStore_changes (.modD h2)))

theorem State.commandStore_changes {s : State} {a1 : Iface} {a2 : Nat} {a3 : Line} {a4 : Bool} :
    Changes [.fv, .sys, .evr, .pmc, .clk, .tiles, .heads, .loads, .nextReq, .fab, .mesh, .svc, .poison] s (State.commandStore s a1 a2 a3 a4) := by
  unfold State.commandStore
  extract_lets +onlyGivenNames x1
  refine .ite ?_ ?_
  · exact .step State.mbFinish_changes .refl
  · extract_lets +onlyGivenNames x2 x3
    refine .via (x := x3) ?_ fun h3 => ?_
    · subst x3
      exact .upd (t := s) .refl
    extract_lets +onlyGivenNames x4
    exact .step State.newStore_changes h3

theorem execClearPoison_changes {a0 : Iface} {s : State} :
    Ends [.fv, .sys, .evr, .pmc, .clk, .tiles, .heads, .loads, .nextReq, .fab, .mesh, .svc, .poison] s (execClearPoison a0 s) := by
  unfold execClearPoison
  refine .command fun a1 => ?_
  extract_lets +onlyGivenNames x2
  refine .ite ?_ ?_
  · exact .step State.mbFinish_changes .refl
  · exact .step State.commandStore_changes .refl

theorem State.headsDead_changes {s : State} {a1 : Nat × Nat → Bool} :
    Changes [.sys, .tiles, .loads] s (State.headsDead s a1) := by
  unfold State.headsDead
  extract_lets +onlyGivenNames x1 x2 x3
  refine .via (x := x3) ?_ fun h3 => ?_
  · subst x3
    refine .upd (t := s) ?_
    exact .refl
  clear_value x3
  refine .forAll ?_ fun a4 x4 h4 => ?_
  · exact h3
  · extract_lets +onlyGivenNames x5 x6 x7
    refine .via (x := x7) ?_ fun h7 => ?_
    · subst x7
      exact .modD h4
    clear_value x7
    refine .upd (t := x7) ?_
    exact h7

theorem State.stateHeld_changes {s : State} :
    Changes [.sys, .evr, .heads] s (State.stateHeld s) := by
  unfold State.stateHeld
  extract_lets +onlyGivenNames x1
  refine .via (x := x1) ?_ fun h1 => ?_
  · subst x1
    exact .step State.setDev_changes .refl
  clear_value x1
  refine .ite ?_ ?_
  · exact .step State.setDev_changes h1
  · refine .ite ?_ ?_
    · exact .step State.setDev_changes h1
    · exact h1

theorem State.sleepDrain_changes {s : State} :
    Changes [.sys, .clk, .tiles] s (State.sleepDrain s) := by
  unfold State.sleepDrain
  extract_lets +onlyGivenNames x1
  refine .ite ?_ ?_
  · exact .refl
  · extract_lets +onlyGivenNames x2 x3
    refine .via (x := x3) ?_ fun h3 => ?_
    · subst x3
      exact .upd (t := s) .refl
    extract_lets +onlyGivenNames x4
    refine .forAll ?_ fun a5 x5 h5 => ?_
    · exact h3
    · exact .step State.stageAll_changes (.modEng h5)

theorem State.beginSleep_changes {s : State} {a1 : BitVec 2} {a2 : BitVec 2} :
    Changes [.sys, .pwr, .clk, .tiles] s (State.beginSleep s a1 a2) := by
  unfold State.beginSleep
  exact .step State.sleepDrain_changes (.upd (t := s) .refl)

theorem State.resetCounters_changes {s : State} {a1 : TileId} :
    Changes [.pmc, .tiles, .fab] s (State.resetCounters s a1) := by
  unfold State.resetCounters
  extract_lets +onlyGivenNames x1 x2 x3 x4 x5
  refine .via (x := x5) ?_ fun h5 => ?_
  · subst x5
    exact .modTile .refl
  extract_lets +onlyGivenNames x6
  refine .via (x := x6) ?_ fun h6 => ?_
  · subst x6
    exact .modFab h5
  exact .upd (t := x6) h6

theorem State.enableRails_changes {s : State} :
    Changes [.seq] s (State.enableRails s) := by
  unfold State.enableRails
  extract_lets +onlyGivenNames x1 x2
  exact .upd (t := s) .refl

theorem State.raiseMedia_changes {s : State} :
    Changes [.seq] s (State.raiseMedia s) := by
  unfold State.raiseMedia
  extract_lets +onlyGivenNames x1 x2 x3
  exact .step State.enableRails_changes (.upd (t := s) .refl)

theorem State.beginResume_changes {s : State} {a1 : BitVec 2} :
    Changes [.evr, .pmc, .seq, .pwr, .tiles, .heads, .fab] s (State.beginResume s a1) := by
  unfold State.beginResume
  extract_lets +onlyGivenNames x1 x2 x3 x4
  refine .via (x := x4) ?_ fun h4 => ?_
  · subst x4
    exact .upd (t := s) .refl
  extract_lets +onlyGivenNames x5
  refine .via (x := x5) ?_ fun h5 => ?_
  · subst x5
    refine .ite ?_ ?_
    · refine .forAll ?_ fun a6 x6 h6 => ?_
      · exact h4
      · refine .ite ?_ ?_
        · exact .upd (t := x6) h6
        · exact .step State.raise_changes (.step State.resetCounters_changes (.upd (t := x6) h6))
    · exact h4
  refine .ite ?_ ?_
  · exact .step State.raiseMedia_changes h5
  · exact h5

theorem State.setPower_changes {s : State} {a1 : BitVec 2} {a2 : BitVec 2} :
    Changes [.sys, .evr, .pmc, .seq, .pwr, .clk, .tiles, .heads, .fab] s (State.setPower s a1 a2) := by
  unfold State.setPower
  refine .ite ?_ ?_
  · refine .ite ?_ ?_
    · exact .upd (t := s) .refl
    · exact .upd (t := s) .refl
  · refine .ite ?_ ?_
    · exact .upd (t := s) .refl
    · refine .ite ?_ ?_
      · exact .step State.beginSleep_changes .refl
      · extract_lets +onlyGivenNames x1
        refine .via (x := x1) ?_ fun h1 => ?_
        · subst x1
          exact .step State.beginResume_changes .refl
        refine .ite ?_ ?_
        · exact h1
        · exact .upd (t := x1) h1

theorem State.reversal_changes {s : State} :
    Changes [.sys, .evr, .pmc, .seq, .pwr, .clk, .tiles, .heads, .fab] s (State.reversal s) := by
  unfold State.reversal
  refine .ite ?_ ?_
  · exact .refl
  · exact .step State.setPower_changes (.upd (t := s) .refl)

theorem execResumeEnd_changes {a0 : BitVec 32} {s : State} :
    Ends [.fv, .sys, .evr, .pmc, .seq, .pwr, .clk, .tiles, .heads, .loads, .nextReq, .fab, .mesh, .svc, .poison] s (execResumeEnd a0 s) := by
  unfold execResumeEnd
  refine .ite ?_ ?_
  · exact .next .refl
  · extract_lets +onlyGivenNames x1 x2 x3
    refine .via (x := x3) ?_ fun h3 => ?_
    · subst x3
      refine .upd (t := s) ?_
      exact .refl
    clear_value x3
    extract_lets +onlyGivenNames x4
    refine .via (x := x4) ?_ fun h4 => ?_
    · subst x4
      refine .forAll ?_ fun a5 x5 h5 => ?_
      · exact h3
      · exact .modTile h5
    clear_value x4
    extract_lets +onlyGivenNames x6 x7 x8 x9
    refine .via (x := x9) ?_ fun h9 => ?_
    · subst x9
      refine .upd (t := x4) ?_
      exact h4
    clear_value x9
    extract_lets +onlyGivenNames x10
    refine .via (x := x10) ?_ fun h10 => ?_
    · subst x10
      refine .ite ?_ ?_
      · exact .step State.raise_changes h9
      · exact h9
    clear_value x10
    refine .ite ?_ ?_
    · refine .next ?_
      refine .upd (t := x10) ?_
      exact h10
    · extract_lets +onlyGivenNames x11
      refine .via (x := x11) ?_ fun h11 => ?_
      · subst x11
        exact .step State.stateHeld_changes h10
      clear_value x11
      extract_lets +onlyGivenNames x12 x13
      refine .via (x := x13) ?_ fun h13 => ?_
      · subst x13
        refine .upd (t := x11) ?_
        exact h11
      clear_value x13
      refine .next ?_
      refine .step State.reversal_changes ?_
      refine .forAll ?_ fun a14 x14 h14 => ?_
      · exact h13
      · exact .step State.wake_changes h14

theorem State.reply_changes {s : State} {a1 : Iface} {a2 : List Byte} :
    Changes [.heads, .svc] s (State.reply s a1 a2) := by
  unfold State.reply
  refine .ite ?_ ?_
  · exact .step State.mbFinish_changes .refl
  · exact .step State.mbFinish_changes .refl

theorem execGetDcdInfo_changes {a0 : Iface} {s : State} :
    Ends [.heads, .svc] s (execGetDcdInfo a0 s) := by
  unfold execGetDcdInfo
  refine .command fun a1 => ?_
  extract_lets +onlyGivenNames x2 x3
  exact .step State.reply_changes .refl

theorem State.syncPages_changes {s : State} {a1 : State → TileId → Nat} {a2 : Nat} {a3 : Nat} :
    Changes [.nv, .prmData] s (State.syncPages s a1 a2 a3) := by
  unfold State.syncPages
  extract_lets +onlyGivenNames x1 x2
  refine .forAll ?_ fun a3 x3 h3 => ?_
  · exact .refl
  · exact .step State.prmPut_changes h3

theorem State.refuseDead_changes {s : State} {a1 : TileId} :
    Changes [.fab] s (State.refuseDead s a1) := by
  unfold State.refuseDead
  exact .modFab .refl

theorem State.wRequest_changes {s : State} {a1 : TileId} {a2 : Msg} :
    Changes [.pmc, .fab, .mesh] s (State.wRequest s a1 a2).2 := by
  unfold State.wRequest
  extract_lets +onlyGivenNames x1 x2 x3
  refine .via (x := x3) ?_ fun h3 => ?_
  · subst x3
    exact .modFab .refl
  split
  · exact .snd (.step State.refuseDead_changes h3)
  · split
    · rename_i x4 e4
      refine .via (Changes.ofPair e4 ?_) fun h4 => ?_
      · exact .step State.wsend_changes h3
      split
      · exact .snd (.modFab h4)
      · exact .snd h4

theorem State.bbMedia_changes {s : State} {a1 : BBRec} :
    Changes [.clk, .tiles] s (State.bbMedia s a1) := by
  unfold State.bbMedia
  refine .ite ?_ ?_
  · refine .forAll ?_ fun a1 x1 h1 => ?_
    · exact .refl
    · exact .step State.append_changes h1
  · exact .refl

theorem State.bbWrite_changes {s : State} {a1 : BitVec 8} {a2 : Nat} {a3 : Bool} {a4 : Bool} :
    Changes [.nv, .bbx, .clk, .tiles] s (State.bbWrite s a1 a2 a3 a4) := by
  unfold State.bbWrite
  extract_lets +onlyGivenNames x1
  refine .ite ?_ ?_
  · subst x1
    exact .upd (t := s) .refl
  · split
    · subst x1
      exact .upd (t := s) .refl
    · extract_lets +onlyGivenNames x2 x3 x4
      refine .via (x := x4) ?_ fun h4 => ?_
      · subst x4
        exact .upd (t := s) .refl
      extract_lets +onlyGivenNames x5 x6 x7
      refine .via (x := x7) ?_ fun h7 => ?_
      · subst x7
        exact .modNv h4
      extract_lets +onlyGivenNames x8 x9
      refine .via (x := x9) ?_ fun h9 => ?_
      · subst x9
        exact .upd (t := x7) h7
      extract_lets +onlyGivenNames x10
      refine .via (x := x10) ?_ fun h10 => ?_
      · subst x10
        split
        · exact .upd (t := x4) h4
        · refine .ite ?_ ?_
          · exact .step State.bbRotate_changes h9
          · exact h9
      refine .ite ?_ ?_
      · exact .step State.bbMedia_changes h10
      · exact h10

theorem State.finishBarrier_changes {s : State} {a1 : TileId} :
    Changes [.nv, .evr, .bbx, .pmc, .clk, .tiles, .heads, .fab] s (State.finishBarrier s a1) := by
  unfold State.finishBarrier
  split
  · refine .ite ?_ ?_
    · exact .refl
    · extract_lets +onlyGivenNames x1
      refine .via (x := x1) ?_ fun h1 => ?_
      · subst x1
        exact .step State.count_changes (.modFab .refl)
      refine .ite ?_ ?_
      · exact h1
      · extract_lets +onlyGivenNames x2
        refine .via (x := x2) ?_ fun h2 => ?_
        · subst x2
          refine .forAll ?_ fun a3 x3 h3 => ?_
          · exact h1
          · exact .step State.raise_changes h3
        exact .step State.bbWrite_changes h2
  · exact .refl

theorem State.barReturned_changes {s : State} {a1 : TileId} {a2 : BitVec 3} {a3 : Bool} :
    Changes [.nv, .evr, .bbx, .pmc, .clk, .tiles, .heads, .fab] s (State.barReturned s a1 a2 a3) := by
  unfold State.barReturned
  extract_lets +onlyGivenNames x1
  refine .via (x := x1) ?_ fun h1 => ?_
  · subst x1
    exact .modFab .refl
  exact .step State.finishBarrier_changes h1

theorem State.startBarrier_changes {s : State} {a1 : TileId} {a2 : BitVec 2} :
    Changes [.nv, .evr, .bbx, .pmc, .clk, .tiles, .heads, .fab, .mesh] s (State.startBarrier s a1 a2) := by
  unfold State.startBarrier
  extract_lets +onlyGivenNames x1 x2
  refine .via (x := x2) ?_ fun h2 => ?_
  · subst x2
    exact .modFab .refl
  refine .ite ?_ ?_
  · exact .step State.finishBarrier_changes h2
  · refine .forAll ?_ fun a3 x3 h3 => ?_
    · exact h2
    · split
      · rename_i x4 e4
        refine .via (Changes.ofPair e4 ?_) fun h4 => ?_
        · exact .step State.wRequest_changes h3
        refine .ite ?_ ?_
        · exact h4
        · exact .step State.barReturned_changes h4

theorem State.issueStores_changes {s : State} {a1 : TileId} :
    Changes [.nv, .evr, .bbx, .pmc, .clk, .tiles, .heads, .fab, .mesh] s (State.issueStores s a1) := by
  unfold State.issueStores
  refine .forAll ?_ fun a1 x1 h1 => ?_
  · exact .refl
  · extract_lets +onlyGivenNames x2
    refine .ite ?_ ?_
    · exact h1
    · split
      · split
        · rename_i x3 e3
          refine .via (Changes.ofPair e3 ?_) fun h3 => ?_
          · exact .step State.wRequest_changes h1
          refine .ite ?_ ?_
          · exact h3
          · exact .modFab h3
      · refine .ite ?_ ?_
        · exact .step State.startBarrier_changes h1
        · exact h1

theorem execStagStore_changes {a0 : TileId} {a1 : BitVec 52} {a2 : List Byte} {s : State} :
    Ends [.nv, .evr, .bbx, .pmc, .clk, .tiles, .heads, .fab, .mesh] s (execStagStore a0 a1 a2 s) := by
  unfold execStagStore
  extract_lets +onlyGivenNames x1 x2
  refine .ite ?_ ?_
  · exact .next .refl
  · exact .next (.step State.issueStores_changes (.modFab .refl))

theorem execThermalTrip_changes {a0 : TileId} {a1 : Fin 12} {s : State} :
    Ends [.sys, .pwr, .clk, .thm, .tiles] s (execThermalTrip a0 a1 s) := by
  unfold execThermalTrip
  refine .ite ?_ ?_
  · exact .next .refl
  · extract_lets +onlyGivenNames x1 x2
    refine .via (x := x2) ?_ fun h2 => ?_
    · subst x2
      exact .upd (t := s) .refl
    refine .ite ?_ ?_
    · exact .next h2
    · extract_lets +onlyGivenNames x3 x4 x5
      refine .via (x := x5) ?_ fun h5 => ?_
      · subst x5
        exact .upd (t := x2) h2
      extract_lets +onlyGivenNames x6
      refine .next ?_
      refine .forAll ?_ fun a7 x7 h7 => ?_
      · exact h5
      · exact .step State.stageAll_changes (.modEng h7)

theorem Ends.vendorWrite {s : State} {gs : List Group} {m : Iface} {act : TileId → List Byte → State → State}
    (hr : ∀ t b u, Changes gs s u → Changes gs s (act t b u))
    (hg : ([.heads, .svc] : List Group).all gs.contains = true := by rfl) : Ends gs s (s.vendorWrite m act) := by
  unfold State.vendorWrite
  refine .command (fun inp => ?_) hg
  split
  · exact .step State.mbFinish_changes .refl hg
  · exact hr _ _ _ .refl

theorem State.writeReg_changes {s : State} {a1 : TileId} {a2 : Nat} {a3 : Nat} {a4 : BitVec 32} :
    Changes [.evr, .pmc, .seq, .tiles, .heads, .fab, .mesh] s (State.writeReg s a1 a2 a3 a4) := by
  unfold State.writeReg
  split
  · refine .ite ?_ ?_
    · exact .modHead .refl
    · exact .refl
  · refine .ite ?_ ?_
    · exact .modCh .refl
    · exact .refl
  · refine .ite ?_ ?_
    · exact .step State.modLink_changes .refl
    · exact .refl
  · refine .ite ?_ ?_
    · exact .upd (t := s) .refl
    · exact .refl
  · refine .ite ?_ ?_
    · exact .step State.modLink_changes .refl
    · exact .refl
  · exact .upd (t := s) .refl
  · refine .ite ?_ ?_
    · exact .setEvr .refl
    · exact .refl
  · refine .ite ?_ ?_
    · exact .setEvr .refl
    · exact .refl
  · refine .ite ?_ ?_
    · exact .setEvr .refl
    · exact .refl
  · refine .ite ?_ ?_
    · exact .upd (t := s) .refl
    · exact .refl
  · exact .modCfl .refl
  · exact .refl

theorem State.plainWrite_changes {a0 : Iface} {a1 : TileId} {a2 : List Byte} {s : State} :
    Changes [.evr, .pmc, .seq, .tiles, .heads, .fab, .mesh, .svc] s (State.plainWrite a0 a1 a2 s) := by
  unfold State.plainWrite
  exact .step State.mbFinish_changes (.step State.writeReg_changes .refl)

theorem execEvrWinCursorWrite_changes {a0 : Iface} {s : State} :
    Ends [.evr, .pmc, .seq, .tiles, .heads, .fab, .mesh, .svc] s (execEvrWinCursorWrite a0 s) := by
  unfold execEvrWinCursorWrite
  refine .ite ?_ ?_
  · exact .next .refl
  · refine .vendorWrite fun a1 b1 x1 h1 => ?_
    exact .step State.plainWrite_changes h1

theorem execGetScanMediaCapabilities_changes {a0 : Iface} {s : State} :
    Ends [.heads, .svc] s (execGetScanMediaCapabilities a0 s) := by
  unfold execGetScanMediaCapabilities
  refine .command fun a1 => ?_
  extract_lets +onlyGivenNames x2 x3 x4
  refine .ite ?_ ?_
  · exact .step State.mbFinish_changes .refl
  · exact .step State.reply_changes .refl

theorem execPackageResetRelease_changes {s : State} :
    Ends [.sys, .boot] s (execPackageResetRelease s) := by
  unfold execPackageResetRelease
  refine .ite ?_ ?_
  · exact .next .refl
  · exact .next (.upd (t := s) .refl)

theorem State.resizeStaging_changes {s : State} :
    Changes [.tiles] s (State.resizeStaging s) := by
  unfold State.resizeStaging
  extract_lets +onlyGivenNames x1 x2
  refine .upd (t := s) ?_ (ht := by with_reducible exact tiles_vmap)
  exact .refl

theorem State.resizeArea_changes {s : State} :
    Changes [.tiles] s (State.resizeArea s) := by
  unfold State.resizeArea
  extract_lets +onlyGivenNames x1
  refine .via (x := x1) ?_ fun h1 => ?_
  · subst x1
    exact .step State.resizeStaging_changes .refl
  clear_value x1
  refine .forAll ?_ fun a2 x2 h2 => ?_
  · exact h1
  · exact .step State.thresholds_changes h2

theorem State.addEntry_changes {s : State} {a1 : Nat} {a2 : Nat} {a3 : Nat} {a4 : BitVec 8} {a5 : Bool} :
    Changes [.tiles, .svc] s (State.addEntry s a1 a2 a3 a4 a5) := by
  unfold State.addEntry
  extract_lets +onlyGivenNames x1 x2
  refine .via (x := x2) ?_ fun h2 => ?_
  · subst x2
    refine .ite ?_ ?_
    · refine .upd (t := s) ?_
      exact .refl
    · refine .upd (t := s) ?_
      exact .refl
  clear_value x2
  exact .step State.resizeArea_changes h2

theorem State.acceptExtent_changes {s : State} {a1 : Nat × Nat} :
    Changes [.pmc, .clk, .tiles, .fab, .mesh, .svc] s (State.acceptExtent s a1) := by
  unfold State.acceptExtent
  extract_lets +onlyGivenNames x1 x2 x3
  refine .via (x := x3) ?_ fun h3 => ?_
  · subst x3
    exact .step State.addEntry_changes .refl
  refine .ite ?_ ?_
  · split
    · rename_i x4 e4
      refine .via (Changes.ofPair e4 ?_) fun h4 => ?_
      · exact .step State.meshTag_changes h3
      extract_lets +onlyGivenNames x5 x6
      refine .via (x := x6) ?_ fun h6 => ?_
      · subst x6
        exact .upd (t := x4) h4
      exact .step State.meshSend_changes h6
  · exact h3

theorem State.addProceed_changes {s : State} :
    Changes [.tiles, .heads, .svc] s (State.addProceed s) := by
  unfold State.addProceed
  split
  · refine .ite ?_ ?_
    · extract_lets +onlyGivenNames x1
      refine .via (x := x1) ?_ fun h1 => ?_
      · subst x1
        refine .forAll ?_ fun a2 x2 h2 => ?_
        · exact .refl
        · exact .step State.addEntry_changes h2
      exact .step State.mbFinish_changes h1
    · exact .refl
  · exact .refl

theorem State.dcRecords_changes {s : State} {a1 : TileId} {a2 : Nat} {a3 : List (Nat × Nat)} :
    Changes [.heads] s (State.dcRecords s a1 a2 a3) := by
  induction a3 generalizing s with
  | nil => exact .refl
  | cons e r ih => exact ih.step State.logPush_changes

theorem execInitiateDynamicCapacityAdd_changes {a0 : Iface} {s : State} :
    Ends [.pmc, .clk, .tiles, .heads, .fab, .mesh, .svc] s (execInitiateDynamicCapacityAdd a0 s) := by
  unfold execInitiateDynamicCapacityAdd
  refine .command fun a1 => ?_
  extract_lets +onlyGivenNames x2 x3 x4
  split
  · exact .step State.mbFinish_changes .refl
  · refine .ite ?_ ?_
    · exact .step State.mbFinish_changes .refl
    · split
      · exact .step State.mbFinish_changes .refl
      · refine .ite ?_ ?_
        · extract_lets +onlyGivenNames x5
          refine .via (x := x5) ?_ fun h5 => ?_
          · subst x5
            refine .forAll ?_ fun a6 x6 h6 => ?_
            · exact .refl
            · exact .step State.acceptExtent_changes h6
          clear_value x5
          exact .step State.addProceed_changes (.upd (t := x5) h5)
        · refine .ite ?_ ?_
          · exact .step State.mbFinish_changes .refl
          · extract_lets +onlyGivenNames x7 x8
            refine .via (x := x8) ?_ fun h8 => ?_
            · subst x8
              exact .upd (t := s) .refl
            clear_value x8
            exact .step State.mbFinish_changes (.step State.dcRecords_changes h8)

theorem State.freeBytes_changes {s : State} {a1 : Nat} :
    Changes [.fv] s (State.freeBytes s a1).2 := by
  unfold State.freeBytes
  split
  · rename_i x1 e1
    refine .via (Changes.ofPair e1 ?_) fun h1 => ?_
    · exact .step State.draw_changes .refl
    exact .snd h1

theorem State.dieBytes_changes {s : State} {a1 : TileId} {a2 : ChanId} {a3 : Fin 9} {a4 : YOperand} {a5 : Bool} :
    Changes [.fv] s (State.dieBytes s a1 a2 a3 a4 a5).2 := by
  unfold State.dieBytes
  dsimp only
  split
  · split
    · exact .refl
    · exact State.freeBytes_changes
  · have hat : ∀ (n : Nat) (b : List Byte) (u : State), Changes [.fv] s u →
        Changes [.fv] s (if (s.slotLines a1 (16 * a2.val + a4.part) a4.slot).2.contains n then u.freeBytes 80 else (b, u)).2 := by
      intro n b u hu
      split
      · exact .step State.freeBytes_changes hu
      · exact hu
    split
    · exact .foldlPair .refl fun q x hq => hat _ _ _ hq
    · exact hat _ _ _ .refl

theorem State.dieSample_changes {s : State} {a1 : TileId} {a2 : ChanId} {a3 : Fin 9} {a4 : YCmd} {a5 : List Byte} {a6 : List Nat} {a7 : List Nat} :
    Changes [.fv, .tiles] s (State.dieSample s a1 a2 a3 a4 a5 a6 a7) := by
  unfold State.dieSample
  extract_lets +onlyGivenNames x1 x2 x3
  refine .ite ?_ ?_
  · exact .refl
  · refine .ite ?_ ?_
    · subst x3
      exact .modDie .refl
    · split
      · refine .ite ?_ ?_
        · subst x3
          exact .modDie .refl
        · subst x3
          exact .modDie .refl
      · extract_lets +onlyGivenNames x4 x5
        refine .ite ?_ ?_
        · exact .refl
        · refine .ite ?_ ?_
          · subst x3
            exact .modDie .refl
          · refine .ite ?_ ?_
            · subst x3
              exact .modDie .refl
            · split
              · subst x5
                refine .ite ?_ ?_
                · subst x3
                  exact .modDie .refl
                · split
                  · rename_i x6 e6
                    refine .via (Changes.ofPair e6 ?_) fun h6 => ?_
                    · exact .step State.dieBytes_changes .refl
                    exact .modDie h6
              · subst x5
                refine .ite ?_ ?_
                · subst x3
                  exact .modDie .refl
                · split
                  · rename_i x7 e7
                    refine .via (Changes.ofPair e7 ?_) fun h7 => ?_
                    · exact .step State.dieBytes_changes .refl
                    exact .modDie h7
              · exact .modDie .refl

theorem State.burst_changes {s : State} {a1 : TileId} {a2 : ChanId} {a3 : Fin 9} :
    Changes [.tiles] s (State.burst s a1 a2 a3) := by
  unfold State.burst
  exact .modDie (.modCh .refl)

theorem State.send_changes {s : State} {a1 : TileId} {a2 : ChanId} {a3 : Fin 9} {a4 : YCmd} {a5 : List Byte} {a6 : List Nat} {a7 : List Nat} :
    Changes [.fv, .tiles] s (State.send s a1 a2 a3 a4 a5 a6 a7) := by
  unfold State.send
  extract_lets +onlyGivenNames x1
  refine .via (x := x1) ?_ fun h1 => ?_
  · subst x1
    exact .step State.dieSample_changes .refl
  clear_value x1
  refine .ite ?_ ?_
  · exact .step State.burst_changes h1
  · exact h1

theorem State.sendBank_changes {s : State} {a1 : TileId} {a2 : ChanId} {a3 : Fin 9} {a4 : Nat} {a5 : List CurveEntry × List WaveRec} :
    Changes [.fv, .tiles] s (State.sendBank s a1 a2 a3 a4 a5) := by
  unfold State.sendBank
  extract_lets +onlyGivenNames x1
  refine .via (x := x1) ?_ fun h1 => ?_
  · subst x1
    refine .forAll ?_ fun a2 x2 h2 => ?_
    · exact .refl
    · exact .step State.send_changes h2
  clear_value x1
  refine .forAll ?_ fun a3 x3 h3 => ?_
  · exact h1
  · exact .step State.send_changes h3

theorem State.sendTables_changes {s : State} {a1 : TileId} {a2 : ChanId} {a3 : Fin 9} {a4 : Nat} {a5 : Nat} :
    Changes [.fv, .tiles] s (State.sendTables s a1 a2 a3 a4 a5) := by
  unfold State.sendTables
  exact .step State.sendBank_changes .refl

theorem State.replay_changes {s : State} {a1 : PortId} {a2 : List (BitVec 10 × List Msg × List MMsg)} :
    Changes [.fab, .mesh] s (State.replay s a1 a2) := by
  unfold State.replay
  refine .forAll ?_ fun a1 x1 h1 => ?_
  · exact .refl
  · split
    · exact .step State.startFlit_changes h1
    · exact h1

theorem State.bye_changes {s : State} {a1 : Nat} :
    Changes [.pmc, .clk, .fab, .mesh] s (State.bye s a1) := by
  unfold State.bye
  refine .ite ?_ ?_
  · exact .refl
  · extract_lets +onlyGivenNames x1
    refine .forAll ?_ fun a2 x2 h2 => ?_
    · exact .refl
    · exact .step State.peerPut_changes h2

theorem State.putPage_changes {s : State} {a1 : TileId} {a2 : Nat} {a3 : Nat} {a4 : Page} :
    Changes [.media, .staged] s (State.putPage s a1 a2 a3 a4) := by
  unfold State.putPage
  extract_lets +onlyGivenNames x1
  refine .via (x := x1) ?_ fun h1 => ?_
  · subst x1
    exact .modMedia .refl
  clear_value x1
  exact .modStaged h1

theorem State.stampNow_changes {s : State} {a1 : TileId} {a2 : Nat} {a3 : Nat} :
    Changes [.tiles] s (State.stampNow s a1 a2 a3) := by
  unfold State.stampNow
  refine .modD ?_ (hf := by intros; rfl)
  exact .refl

theorem State.counted_changes {s : State} {a1 : TileId} {a2 : Nat} {a3 : Nat} :
    Changes [.pmc, .tiles] s (State.counted s a1 a2 a3) := by
  unfold State.counted
  extract_lets +onlyGivenNames x1
  refine .via (x := x1) ?_ fun h1 => ?_
  · subst x1
    exact .modPl .refl
  exact .step State.count_changes h1

theorem State.zeroSome_changes {s : State} {a1 : TileId} :
    Changes [.media, .staged, .pmc, .tiles] s (State.zeroSome s a1) := by
  unfold State.zeroSome
  refine .forAll ?_ fun a1 x1 h1 => ?_
  · exact .refl
  · extract_lets +onlyGivenNames x2 x3
    refine .ite ?_ ?_
    · subst x3
      exact .modD h1
    · refine .ite ?_ ?_
      · exact h1
      · extract_lets +onlyGivenNames x4 x5
        refine .via (x := x5) ?_ fun h5 => ?_
        · subst x5
          refine .step State.putPage_changes ?_
          subst x3
          exact .modD h1
        clear_value x5
        exact .step State.count_changes (.step State.stampNow_changes (.step State.counted_changes h5))

theorem State.zeroPages_changes {s : State} {a1 : Nat} {a2 : Nat} :
    Changes [.media, .staged, .pmc, .tiles] s (State.zeroPages s a1 a2) := by
  unfold State.zeroPages
  extract_lets +onlyGivenNames x1
  refine .via (x := x1) ?_ fun h1 => ?_
  · subst x1
    refine .forAll ?_ fun a2 x2 h2 => ?_
    · exact .refl
    · extract_lets +onlyGivenNames x3
      refine .ite ?_ ?_
      · exact .modD h2
      · exact h2
  clear_value x1
  refine .forAll ?_ fun a4 x4 h4 => ?_
  · exact h1
  · exact .step State.zeroSome_changes h4

theorem State.placementRec_changes {s : State} {a1 : TileId} {a2 : Nat} {a3 : PlacementRec} :
    Changes [.clk, .tiles] s (State.placementRec s a1 a2 a3) := by
  unfold State.placementRec
  extract_lets +onlyGivenNames x1
  refine .via (x := x1) ?_ fun h1 => ?_
  · subst x1
    exact .modPl .refl
  exact .step State.append_changes h1

theorem State.clearRings_changes {s : State} {a1 : Nat} {a2 : Nat} :
    Changes [.clk, .tiles] s (State.clearRings s a1 a2) := by
  unfold State.clearRings
  extract_lets +onlyGivenNames x1 x2 x3 x4
  refine .forAll ?_ fun a5 x5 h5 => ?_
  · exact .refl
  · refine .forAll ?_ fun a6 x6 h6 => ?_
    · exact h5
    · extract_lets +onlyGivenNames x7
      refine .via (x := x7) ?_ fun h7 => ?_
      · subst x7
        exact .modPl h6
      exact .step State.placementRec_changes h7

theorem State.discardRange_changes {s : State} {a1 : Nat} {a2 : Nat} :
    Changes [.clk, .tiles, .poison] s (State.discardRange s a1 a2) := by
  unfold State.discardRange
  extract_lets +onlyGivenNames x1 x2 x3 x4 x5 x6
  refine .via (x := x6) ?_ fun h6 => ?_
  · subst x6
    refine .upd (t := s) ?_ (ht := by with_reducible exact tiles_vmap)
    exact .refl
  clear_value x6
  refine .forAll ?_ fun a7 x7 h7 => ?_
  · exact h6
  · exact .step State.append_changes h7

theorem State.dropReplica_changes {s : State} {a1 : Extent} :
    Changes [.media, .staged, .pmc, .clk, .tiles, .svc, .poison] s (State.dropReplica s a1) := by
  unfold State.dropReplica
  extract_lets +onlyGivenNames x1
  refine .via (x := x1) ?_ fun h1 => ?_
  · subst x1
    exact .step State.zeroPages_changes (.step State.clearRings_changes (.step State.discardRange_changes .refl))
  clear_value x1
  refine .ite ?_ ?_
  · exact h1
  · refine .step State.resizeArea_changes ?_
    refine .upd (t := x1) ?_
    exact h1

theorem State.dissolvePair_changes {s : State} :
    Changes [.media, .staged, .sys, .evr, .pmc, .clk, .tiles, .heads, .fab, .mesh, .svc, .poison] s (State.dissolvePair s) := by
  unfold State.dissolvePair
  extract_lets +onlyGivenNames x1 x2
  refine .via (x := x2) ?_ fun h2 => ?_
  · subst x2
    exact .step State.releaseMirrored_changes (.step State.bye_changes .refl)
  extract_lets +onlyGivenNames x3
  refine .via (x := x3) ?_ fun h3 => ?_
  · subst x3
    refine .forAll ?_ fun a4 x4 h4 => ?_
    · exact h2
    · exact .step State.dropReplica_changes h4
  extract_lets +onlyGivenNames x5 x6
  refine .via (x := x6) ?_ fun h6 => ?_
  · subst x6
    exact .upd (t := x3) h3
  exact .step State.clearCause_changes (.step State.setPair_changes h6)

theorem State.remapSlot_changes {s : State} {a1 : TileId} {a2 : Nat} {a3 : Nat} :
    Changes [.evr, .clk, .tiles, .heads] s (State.remapSlot s a1 a2 a3) := by
  unfold State.remapSlot
  extract_lets +onlyGivenNames x1 x2 x3
  split
  · extract_lets +onlyGivenNames x4
    refine .via (x := x4) ?_ fun h4 => ?_
    · subst x4
      exact .modPl .refl
    extract_lets +onlyGivenNames x5
    refine .via (x := x5) ?_ fun h5 => ?_
    · subst x5
      exact .step State.raise_changes h4
    exact .step State.placementRec_changes h5
  · extract_lets +onlyGivenNames x6
    refine .via (x := x6) ?_ fun h6 => ?_
    · subst x6
      exact .modPl .refl
    exact .step State.raise_changes h6

theorem State.modFold_changes {s : State} {a1 : TileId} {a2 : Nat} {a3 : Nat} {a4 : Fold → Fold} :
    Changes [.tiles] s (State.modFold s a1 a2 a3 a4) := by
  unfold State.modFold
  exact .modD .refl

theorem State.foldProgram_changes {s : State} {a1 : TileId} {a2 : Nat} {a3 : Nat} :
    Changes [.clk, .tiles] s (State.foldProgram s a1 a2 a3) := by
  unfold State.foldProgram
  split
  · exact .refl
  · extract_lets +onlyGivenNames x1
    refine .via (x := x1) ?_ fun h1 => ?_
    · subst x1
      exact .step State.modFold_changes .refl
    clear_value x1
    refine .ite ?_ ?_
    · exact h1
    · exact .step State.enqueue_changes (.step State.modFold_changes .refl)

theorem execFoldCarryVerified_changes {a0 : TileId} {a1 : Nat} {a2 : Nat} {s : State} :
    Ends [.evr, .clk, .tiles, .heads] s (execFoldCarryVerified a0 a1 a2 s) := by
  unfold execFoldCarryVerified
  split
  · exact .next .refl
  · refine .ite ?_ ?_
    · extract_lets +onlyGivenNames x1 x2
      refine .via (x := x2) ?_ fun h2 => ?_
      · subst x2
        refine .ite ?_ ?_
        · exact .modD (.step State.remapSlot_changes .refl)
        · exact .refl
      clear_value x2
      exact .next (.step State.foldProgram_changes h2)
    · exact .next .refl

theorem State.homeLine_changes {s : State} {a1 : TileId} {a2 : Nat} {a3 : Nat} {a4 : Nat} :
    Changes [.fv] s (State.homeLine s a1 a2 a3 a4).2 := by
  unfold State.homeLine
  split
  · split
    · exact .snd .refl
    · split
      · rename_i x1 e1
        refine .via (Changes.ofPair e1 ?_) fun h1 => ?_
        · exact .step State.draw_changes .refl
        exact .snd h1
  · split
    · rename_i x2 e2
      refine .via (Changes.ofPair e2 ?_) fun h2 => ?_
      · exact .step State.draw_changes .refl
      exact .snd h2

theorem State.cutPage_changes {s : State} {a1 : TileId} {a2 : Nat} {a3 : Nat} :
    Changes [.media, .staged] s (State.cutPage s a1 a2 a3) := by
  unfold State.cutPage
  exact .step State.putPage_changes .refl

theorem State.cutProgram_changes {s : State} {a1 : TileId} {a2 : Context} :
    Changes [.media, .staged] s (State.cutProgram s a1 a2) := by
  unfold State.cutProgram
  refine .ite ?_ ?_
  · exact .step State.cutPage_changes .refl
  · exact .refl

theorem State.abandon_changes {s : State} {a1 : TileId} {a2 : ChanId} {a3 : Fin 9} {a4 : Fin 16} :
    Changes [.media, .staged, .tiles] s (State.abandon s a1 a2 a3 a4) := by
  unfold State.abandon
  refine .ite ?_ ?_
  · exact .refl
  · extract_lets +onlyGivenNames x1
    refine .via (x := x1) ?_ fun h1 => ?_
    · subst x1
      exact .modDie .refl
    clear_value x1
    split
    · exact .step State.cutProgram_changes h1
    · exact h1

theorem State.replicaProceed_changes {s : State} :
    Changes [.pmc, .clk, .fab, .mesh] s (State.replicaProceed s) := by
  unfold State.replicaProceed
  extract_lets +onlyGivenNames x1 x2
  refine .via (x := x2) ?_ fun h2 => ?_
  · subst x2
    refine .forAll ?_ fun a3 x3 h3 => ?_
    · exact .refl
    · exact .step State.meshReply_changes h3
  exact .upd (t := x2) h2

theorem State.warmSoon_changes {s : State} {a1 : TileId} :
    Changes [.fv] s (State.warmSoon s a1).2 := by
  unfold State.warmSoon
  split
  · exact .snd .refl
  · split
    · exact .snd .refl
    · split
      · split
        · rename_i x1 e1
          refine .via (Changes.ofPair e1 ?_) fun h1 => ?_
          · exact .step State.draw_changes .refl
          exact .snd h1
      · exact .snd .refl

theorem State.abandonCommands_changes {s : State} :
    Changes [.heads, .mesh, .svc] s (State.abandonCommands s) := by
  unfold State.abandonCommands
  extract_lets +onlyGivenNames x1 x2
  refine .via (x := x2) ?_ fun h2 => ?_
  · subst x2
    refine .upd (t := s) ?_
    exact .refl
  clear_value x2
  split
  · exact h2
  · extract_lets +onlyGivenNames x3
    refine .via (x := x3) ?_ fun h3 => ?_
    · subst x3
      exact .step State.modMb_changes h2
    clear_value x3
    extract_lets +onlyGivenNames x4 x5 x6
    refine .via (x := x6) ?_ fun h6 => ?_
    · subst x6
      split
      · refine .upd (t := x3) ?_
        exact h3
      · exact h3
    clear_value x6
    refine .upd (t := x6) ?_
    exact h6

theorem State.takeLead_changes {s : State} {a1 : TileId} :
    Changes [.sys, .cfg, .prm, .bbx, .heads, .mesh, .svc] s (State.takeLead s a1) := by
  unfold State.takeLead
  extract_lets +onlyGivenNames x1 x2
  refine .via (x := x2) ?_ fun h2 => ?_
  · subst x2
    exact .step State.abandonCommands_changes .refl
  clear_value x2
  extract_lets +onlyGivenNames x3 x4 x5 x6 x7
  refine .via (x := x7) ?_ fun h7 => ?_
  · subst x7
    refine .upd (t := x2) ?_
    exact h2
  clear_value x7
  extract_lets +onlyGivenNames x8
  refine .upd (t := x7) ?_
  exact h7

theorem State.modPart_changes {s : State} {a1 : TileId} {a2 : ChanId} {a3 : Fin 9} {a4 : Fin 16} {a5 : Part → Part} :
    Changes [.tiles] s (State.modPart s a1 a2 a3 a4 a5) := by
  unfold State.modPart
  exact .modDie .refl

theorem State.endCtx_changes {s : State} {a1 : TileId} {a2 : Context} :
    Changes [.tiles] s (State.endCtx s a1 a2) := by
  unfold State.endCtx
  extract_lets +onlyGivenNames x1 x2
  refine .via (x := x2) ?_ fun h2 => ?_
  · subst x2
    exact .modEng .refl
  refine .ite ?_ ?_
  · refine .forAll ?_ fun a3 x3 h3 => ?_
    · exact h2
    · exact .step State.modPart_changes h3
  · exact h2

theorem State.enginesGone_changes {s : State} {a1 : TileId} :
    Changes [.media, .staged, .tiles] s (State.enginesGone s a1) := by
  unfold State.enginesGone
  extract_lets +onlyGivenNames x1
  refine .via (x := x1) ?_ fun h1 => ?_
  · subst x1
    refine .forAll ?_ fun a2 x2 h2 => ?_
    · exact .refl
    · exact .step State.endCtx_changes (.step State.cutProgram_changes h2)
  clear_value x1
  exact .modEng h1

theorem State.markBonded_changes {s : State} {a1 : PortId} :
    Changes [.fab, .mesh] s (State.markBonded s a1) := by
  unfold State.markBonded
  extract_lets +onlyGivenNames x1
  refine .forAll ?_ fun a2 x2 h2 => ?_
  · exact .refl
  · exact .step State.modLink_changes h2

theorem State.startDiscovery_changes {s : State} :
    Changes [.pmc, .clk, .fab, .mesh] s (State.startDiscovery s) := by
  unfold State.startDiscovery
  refine .ite ?_ ?_
  · exact .refl
  · extract_lets +onlyGivenNames x1 x2 x3
    refine .via (x := x3) ?_ fun h3 => ?_
    · subst x3
      exact .upd (t := s) .refl
    extract_lets +onlyGivenNames x4 x5
    refine .forAll ?_ fun a6 x6 h6 => ?_
    · exact h3
    · exact .step State.peerPut_changes h6

theorem State.guestDead_changes {s : State} {a1 : TileId} {a2 : Outst} :
    Changes [.evr, .pmc, .heads, .fab, .mesh] s (State.guestDead s a1 a2) := by
  unfold State.guestDead
  extract_lets +onlyGivenNames x1
  refine .via (x := x1) ?_ fun h1 => ?_
  · subst x1
    exact .modFab .refl
  extract_lets +onlyGivenNames x2
  refine .via (x := x2) ?_ fun h2 => ?_
  · subst x2
    exact .step State.wReply_changes h1
  refine .ite ?_ ?_
  · exact .step State.raise_changes h2
  · exact h2

theorem State.wDone_changes {s : State} {a1 : TileId} {a2 : Outst} {a3 : Nat} {a4 : Bool} :
    Changes [.nv, .evr, .bbx, .pmc, .clk, .tiles, .heads, .fab, .mesh] s (State.wDone s a1 a2 a3 a4) := by
  unfold State.wDone
  extract_lets +onlyGivenNames x1
  refine .via (x := x1) ?_ fun h1 => ?_
  · subst x1
    exact .modFab .refl
  refine .ite ?_ ?_
  · exact .step State.issueStores_changes (.modFab h1)
  · refine .ite ?_ ?_
    · exact .step State.issueStores_changes (.step State.barReturned_changes h1)
    · exact h1

theorem State.deadOut_changes {s : State} {a1 : Nat × Nat → Bool} :
    Changes [.nv, .sys, .evr, .bbx, .pmc, .clk, .tiles, .heads, .loads, .fab, .mesh] s (State.deadOut s a1) := by
  unfold State.deadOut
  extract_lets +onlyGivenNames x1
  refine .via (x := x1) ?_ fun h1 => ?_
  · subst x1
    exact .step State.headsDead_changes .refl
  clear_value x1
  refine .forAll ?_ fun a2 x2 h2 => ?_
  · exact h1
  · extract_lets +onlyGivenNames x3 x4 x5
    refine .via (x := x5) ?_ fun h5 => ?_
    · subst x5
      exact .modFab h2
    clear_value x5
    refine .forAll ?_ fun a6 x6 h6 => ?_
    · exact h5
    · refine .ite ?_ ?_
      · exact .step State.guestDead_changes h6
      · exact .step State.wDone_changes h6

theorem State.positionDead_changes {s : State} {a1 : Nat} :
    Changes [.nv, .sys, .evr, .bbx, .pmc, .clk, .tiles, .heads, .loads, .fab, .mesh] s (State.positionDead s a1) := by
  unfold State.positionDead
  extract_lets +onlyGivenNames x1
  refine .via (x := x1) ?_ fun h1 => ?_
  · subst x1
    refine .upd (t := s) ?_ (hf := by with_reducible exact fab_map)
    exact .refl
  clear_value x1
  exact .step State.deadOut_changes h1

theorem State.guestLost_changes {s : State} :
    Changes [.nv, .sys, .evr, .bbx, .pmc, .clk, .tiles, .heads, .loads, .fab, .guest, .mesh] s (State.guestLost s) := by
  unfold State.guestLost
  refine .ite ?_ ?_
  · exact .refl
  · extract_lets +onlyGivenNames x1 x2
    refine .via (x := x2) ?_ fun h2 => ?_
    · subst x2
      exact .upd (t := s) .refl
    exact .step State.positionDead_changes (.step State.raise_changes h2)

end Sys2Proof.Machine
end

