-- ==== Sys2Proof/Laws/Changes3.lean ====
section
/-! SUPPORT. Part 3 of the lemmas, one for each operation and each command's meaning, that say which groups of the state it can
change and that it keeps the canonical memories and the bounds. -/

namespace Sys2Proof.Machine

set_option Elab.async false

theorem State.linkLost_changes {s : State} {a1 : PortId} :
    Changes [.nv, .sys, .evr, .bbx, .pmc, .clk, .tiles, .heads, .loads, .fab, .guest, .mesh] s (State.linkLost s a1) := by
  unfold State.linkLost
  extract_lets +onlyGivenNames x1
  refine .via (x := x1) ?_ fun h1 => ?_
  · subst x1
    exact .step State.modLink_changes .refl
  split
  · exact .step State.startDiscovery_changes (.step State.modLink_changes h1)
  · split
    · exact h1
    · extract_lets +onlyGivenNames x2
      refine .via (x := x2) ?_ fun h2 => ?_
      · subst x2
        exact .step State.deadOut_changes h1
      extract_lets +onlyGivenNames x3 x4
      refine .via (x := x4) ?_ fun h4 => ?_
      · subst x4
        refine .upd (t := x2) ?_
        exact h2
      extract_lets +onlyGivenNames x5
      refine .via (x := x5) ?_ fun h5 => ?_
      · subst x5
        refine .ite ?_ ?_
        · exact .step State.guestLost_changes h4
        · exact h4
      clear_value x5
      extract_lets +onlyGivenNames x6 x7
      refine .via (x := x7) ?_ fun h7 => ?_
      · subst x7
        refine .upd (t := x5) ?_
        exact h5
      clear_value x7
      exact .step State.addCause_changes h7

theorem State.linkOut_changes {s : State} {a1 : PortId} :
    Changes [.nv, .sys, .evr, .bbx, .pmc, .clk, .tiles, .heads, .loads, .fab, .guest, .mesh] s (State.linkOut s a1) := by
  unfold State.linkOut
  extract_lets +onlyGivenNames x1 x2
  refine .via (x := x2) ?_ fun h2 => ?_
  · subst x2
    exact .step State.modLink_changes .refl
  extract_lets +onlyGivenNames x3
  refine .via (x := x3) ?_ fun h3 => ?_
  · subst x3
    exact .step State.raise_changes h2
  extract_lets +onlyGivenNames x4 x5
  refine .via (x := x5) ?_ fun h5 => ?_
  · subst x5
    exact .step State.markBonded_changes h3
  refine .ite ?_ ?_
  · exact .step State.linkLost_changes h5
  · exact .step State.raise_changes h5

theorem State.peersDown_changes {s : State} {a1 : TileId} :
    Changes [.nv, .sys, .evr, .bbx, .pmc, .clk, .tiles, .heads, .loads, .fab, .guest, .mesh] s (State.peersDown s a1) := by
  unfold State.peersDown
  refine .forAll ?_ fun a1 x1 h1 => ?_
  · exact .refl
  · exact .step State.linkOut_changes h1

theorem State.dropRequests_changes {s : State} {a1 : TileId} :
    Changes [.sys, .pmc, .clk, .tiles, .heads, .loads, .fab, .mesh, .svc] s (State.dropRequests s a1) := by
  unfold State.dropRequests
  extract_lets +onlyGivenNames x1 x2 x3 x4 x5
  refine .via (x := x5) ?_ fun h5 => ?_
  · subst x5
    exact .upd (t := s) .refl
  extract_lets +onlyGivenNames x6
  refine .via (x := x6) ?_ fun h6 => ?_
  · subst x6
    refine .forAll ?_ fun a7 x7 h7 => ?_
    · exact h5
    · split
      · exact .step State.meshSend_changes h7
      · exact h7
  extract_lets +onlyGivenNames x8 x9
  refine .via (x := x9) ?_ fun h9 => ?_
  · subst x9
    refine .forAll ?_ fun a10 x10 h10 => ?_
    · exact h6
    · split
      · exact .step State.meshReply_changes h10
      · exact h10
  extract_lets +onlyGivenNames x11 x12
  refine .via (x := x12) ?_ fun h12 => ?_
  · subst x12
    exact .modD h9
  extract_lets +onlyGivenNames x13 x14
  refine .via (x := x14) ?_ fun h14 => ?_
  · subst x14
    exact .upd (t := x12) h12
  split
  · refine .ite ?_ ?_
    · exact .step State.mbFinish_changes h14
    · exact h14
  · exact h14

theorem State.linkDown_changes {s : State} {a1 : TileId} :
    Changes [.sys, .evr, .heads] s (State.linkDown s a1) := by
  unfold State.linkDown
  refine .step State.headDown_changes ?_
  refine .modHead ?_ (hf := by intros; rfl)
  exact .refl

theorem State.headOut_changes {s : State} {a1 : TileId} :
    Changes [.sys, .evr, .heads] s (State.headOut s a1) := by
  unfold State.headOut
  extract_lets +onlyGivenNames x1
  refine .via (x := x1) ?_ fun h1 => ?_
  · subst x1
    refine .ite ?_ ?_
    · exact .refl
    · exact .step State.linkDown_changes .refl
  exact .step State.headDown_changes (.modHead h1)

theorem State.declareLost_changes {s : State} {a1 : TileId} {a2 : Bool} :
    Changes [.nv, .media, .staged, .sys, .evr, .bbx, .pmc, .clk, .tiles, .heads, .loads, .fab, .guest, .mesh, .svc] s (State.declareLost s a1 a2) := by
  unfold State.declareLost
  extract_lets +onlyGivenNames x1 x2 x3
  refine .via (x := x3) ?_ fun h3 => ?_
  · subst x3
    refine .upd (t := s) ?_ (he := fun h => h.set (l := []) (by simp))
    exact .refl
  clear_value x3
  extract_lets +onlyGivenNames x4
  refine .via (x := x4) ?_ fun h4 => ?_
  · subst x4
    exact .step State.raise_changes h3
  clear_value x4
  refine .step State.enginesGone_changes ?_
  refine .step State.peersDown_changes ?_
  exact .step State.positionDead_changes (.step State.dropRequests_changes (.step State.headOut_changes h4))

theorem State.journal_changes {s : State} {a1 : TileId} {a2 : BitVec 8} {a3 : Nat} {a4 : Nat} :
    Changes [.nv] s (State.journal s a1 a2 a3 a4) := by
  unfold State.journal
  exact .modNv .refl

theorem State.journalProgress_changes {s : State} {a1 : TileId} {a2 : Nat} :
    Changes [.nv] s (State.journalProgress s a1 a2) := by
  unfold State.journalProgress
  refine .forAll ?_ fun a1 x1 h1 => ?_
  · exact .refl
  · exact .step State.journal_changes h1

theorem State.journalReuse_changes {s : State} {a1 : TileId} {a2 : Fin 2} :
    Changes [.nv, .tiles] s (State.journalReuse s a1 a2) := by
  unfold State.journalReuse
  split
  · exact .refl
  · extract_lets +onlyGivenNames x1 x2
    refine .ite ?_ ?_
    · exact .refl
    · exact .step State.flashStart_changes .refl

theorem Evr.enter_queues {e f : Evr} {r : EventRec} (h : e.enter r = some f) : f.queues = e.queues := by
  unfold Evr.enter at h
  split at h
  · injection h with h; rw [← h]
  · split at h
    · injection h with h; rw [← h]
    · cases h

theorem Evr.QueuesOk.enterD {e : Evr} {r : EventRec} (h : e.QueuesOk) : ((e.enter r).getD e).QueuesOk := by
  cases hr : e.enter r with
  | none => exact h
  | some f => exact h.of (Evr.enter_queues hr)

theorem Evr.QueuesOk.assign {e : Evr} {r : EventRec} (h : e.QueuesOk) : (e.assign r).QueuesOk := by
  unfold Evr.assign
  split
  · exact h.of
  · dsimp only
    split
    · rename_i f hf
      exact (h.of (Evr.enter_queues hf)).of
    · exact h.of

theorem jErases_data {l : List Nat} {v : TileNv} {f : Nat → Nat} {b : Fin 2} :
    (l.foldl (fun v x => jErase v b (f x)) v).prm = v.prm ∧ (l.foldl (fun v x => jErase v b (f x)) v).lsa = v.lsa := by
  induction l generalizing v with
  | nil => exact ⟨rfl, rfl⟩
  | cons a r ih => exact ⟨(ih (v := jErase v b (f a))).1.trans rfl, (ih (v := jErase v b (f a))).2.trans rfl⟩

theorem State.flushMarker_changes {s : State} {a1 : Nat} :
    Changes [.nv, .evr, .tiles] s (State.flushMarker s a1) := by
  unfold State.flushMarker
  extract_lets +onlyGivenNames x1 x2 x3 x4 x5 x6 x7 x8 x9
  refine .via (x := x9) ?_ fun h9 => ?_
  · subst x9
    refine .modNv .refl fun x => ?_
    exact jErases_data (f := fun x => 768 + x)
  extract_lets +onlyGivenNames x10
  refine .via (x := x10) ?_ fun h10 => ?_
  · subst x10
    exact .step State.journalReuse_changes h9
  extract_lets +onlyGivenNames x11 x12 x13 x14 x15 x16
  refine .upd (t := x10) ?_ (he := fun h => ?_)
  · exact h10
  · have h15 : x15.QueuesOk := Evr.QueuesOk.of (x := x13) (y := x15) h
    have h16 : x16.QueuesOk := h15.enterD
    exact h16.of

theorem State.closeEventFlush_changes {s : State} :
    Changes [.nv, .evr, .tiles, .heads] s (State.closeEventFlush s) := by
  unfold State.closeEventFlush
  extract_lets +onlyGivenNames x1 x2 x3 x4
  refine .ite ?_ ?_
  · exact .step State.flushMarker_changes .refl
  · exact .step State.raise_changes (.step State.flushMarker_changes .refl)

theorem State.flushPage_changes {s : State} :
    Changes [.nv, .evr] s (State.flushPage s) := by
  unfold State.flushPage
  extract_lets +onlyGivenNames x1 x2 x3
  refine .via (x := x3) ?_ fun h3 => ?_
  · subst x3
    exact .modNv .refl
  refine .upd (t := x3) ?_ (he := by with_reducible exact fun h => h.of)
  exact h3

theorem State.flushBatch_changes {s : State} :
    Changes [.fv] s (State.flushBatch s).2 := by
  unfold State.flushBatch
  extract_lets +onlyGivenNames x1 x2 x3
  split
  · rename_i x4 e4
    refine .via (Changes.ofPair e4 ?_) fun h4 => ?_
    · exact .step State.draw_changes .refl
    exact .snd h4

theorem State.finishEventFlush_changes {s : State} :
    Changes [.fv, .nv, .evr, .tiles, .heads] s (State.finishEventFlush s) := by
  unfold State.finishEventFlush
  refine .ite ?_ ?_
  · exact .refl
  · extract_lets +onlyGivenNames x1 x2
    refine .via (x := x2) ?_ fun h2 => ?_
    · subst x2
      refine .ite ?_ ?_
      · subst x1
        refine .step State.closeEventFlush_changes ?_
        refine .forAll ?_ fun a3 x3 h3 => ?_
        · exact .refl
        · exact .step State.flushPage_changes h3
      · exact .refl
    refine .ite ?_ ?_
    · split
      · rename_i x4 e4
        refine .via (Changes.ofPair e4 ?_) fun h4 => ?_
        · exact .step State.flushBatch_changes h2
        subst x1
        refine .step State.closeEventFlush_changes ?_
        refine .forAll ?_ fun a5 x5 h5 => ?_
        · refine .upd (t := x4) ?_ (he := by with_reducible exact fun h => h.of)
          exact h4
        · exact .step State.flushPage_changes h5
    · exact h2

theorem State.writeSummary_changes {s : State} {a1 : Nat} {a2 : List (Nat × Nat)} {a3 : Vector Nat 8} {a4 : Bool} :
    Changes [.nv, .bbx, .clk, .tiles] s (State.writeSummary s a1 a2 a3 a4) := by
  unfold State.writeSummary
  extract_lets +onlyGivenNames x1 x2 x3
  refine .via (x := x3) ?_ fun h3 => ?_
  · subst x3
    exact .step State.bbWrite_changes .refl
  refine .forAll ?_ fun a4 x4 h4 => ?_
  · exact h3
  · extract_lets +onlyGivenNames x5
    exact .step State.bbWrite_changes h4

theorem State.fixedOff_changes {s : State} :
    Changes [.seq, .clk] s (State.fixedOff s) := by
  unfold State.fixedOff
  exact .upd (t := s) .refl

theorem State.holdDown_changes {s : State} :
    Changes [.seq, .flush, .clk] s (State.holdDown s) := by
  unfold State.holdDown
  extract_lets +onlyGivenNames x1
  refine .via (x := x1) ?_ fun h1 => ?_
  · subst x1
    exact .step State.fixedOff_changes .refl
  exact .upd (t := x1) h1

theorem State.cutPrograms_changes {s : State} :
    Changes [.fv, .media, .staged] s (State.cutPrograms s) := by
  unfold State.cutPrograms
  refine .forAll ?_ fun a1 x1 h1 => ?_
  · exact .refl
  · extract_lets +onlyGivenNames x2
    refine .via (x := x2) ?_ fun h2 => ?_
    · subst x2
      refine .forAll ?_ fun a3 x3 h3 => ?_
      · exact h1
      · exact .step State.cutProgram_changes h3
    clear_value x2
    refine .forAll ?_ fun a4 x4 h4 => ?_
    · exact h2
    · split
      · rename_i x5 e5
        refine .via (Changes.ofPair e5 ?_) fun h5 => ?_
        · exact .step State.draw_changes h4
        refine .ite ?_ ?_
        · exact h5
        · exact .modStaged h5

theorem State.packageReset_changes {s : State} {a1 : ResetCause} {a2 : Bool} :
    Changes [.fv, .media, .staged, .aon, .sys, .boot, .cfg, .prm, .evr, .bbx, .pmc, .sec, .seq, .hld, .flush, .pwr, .clk, .thm, .tiles, .heads, .loads, .nextReq, .fab, .guest, .mesh, .svc, .poison, .tcm, .scratch] s (State.packageReset s a1 a2) := by
  unfold State.packageReset
  extract_lets +onlyGivenNames x1
  refine .via (x := x1) ?_ fun h1 => ?_
  · subst x1
    exact .step State.cutPrograms_changes .refl
  clear_value x1
  extract_lets +onlyGivenNames x2
  refine .upd (t := x1) ?_ (hf := reset_fabs) (ht := reset_tiles) (he := fun _ => .nil) (hh := fun _ => replicate_all (P := Head.LogsOk) .fresh)
  exact h1

theorem State.keyStored_changes {s : State} :
    Changes [.nv, .sec] s (State.keyStored s) := by
  unfold State.keyStored
  split
  · exact .refl
  · refine .forAll ?_ fun a1 x1 h1 => ?_
    · exact .upd (t := s) .refl
    · exact .modNv h1

theorem TileNv.MemOk.erase {v : TileNv} {b : Fin 2} {op : FlashOp} (h : v.MemOk) : (eraseContent b op v).MemOk := by
  unfold eraseContent
  split <;> try exact h
  exact ⟨h.1, Sparse.wfFrom_keep _ _ h.2⟩

theorem TileNv.MemOk.opContent {v : TileNv} {b : Fin 2} {op : FlashOp} (h : v.MemOk) : (opContent b op v).MemOk := by
  unfold Sys2Proof.Machine.opContent
  split <;> try exact h
  exact ⟨h.1, Memory.wf_writeBytes _ h.2⟩

theorem eraseContent_prm {v : TileNv} {b : Fin 2} {op : FlashOp} : (eraseContent b op v).prm = v.prm := by
  unfold eraseContent
  split <;> rfl

theorem opContent_prm {v : TileNv} {b : Fin 2} {op : FlashOp} : (opContent b op v).prm = v.prm := by
  unfold opContent
  split <;> rfl

theorem State.finishOp_changes {s : State} {a1 : TileId} {a2 : Fin 2} {a3 : FlashOp} :
    Changes [.nv, .lsa] s (State.finishOp s a1 a2 a3) := by
  unfold State.finishOp
  refine .modNv' ?_ (fun x h => h.opContent) (hp := fun _ _ => opContent_prm)
  refine .ite ?_ .refl
  exact .modNv' .refl (fun x h => TileNv.MemOk.erase h) (hp := fun _ _ => eraseContent_prm)

theorem State.finishStores_changes {s : State} :
    Changes [.nv, .sec, .prmData, .lsa] s (State.finishStores s) := by
  unfold State.finishStores
  extract_lets +onlyGivenNames x1
  refine .via (x := x1) ?_ fun h1 => ?_
  · subst x1
    refine .step State.keyStored_changes ?_
    refine .forAll ?_ fun a2 x2 h2 => ?_
    · exact .refl
    · exact .step State.prmWrite_changes h2
  refine .forAll ?_ fun a3 x3 h3 => ?_
  · exact h1
  · refine .forAll ?_ fun a4 x4 h4 => ?_
    · exact h3
    · refine .forAll ?_ fun a5 x5 h5 => ?_
      · exact h4
      · exact .step State.finishOp_changes h5

theorem State.afterFlushWork_changes {s : State} :
    Changes [.fv, .nv, .media, .staged, .aon, .sys, .boot, .cfg, .prm, .evr, .bbx, .pmc, .sec, .seq, .hld, .flush, .pwr, .clk, .thm, .tiles, .heads, .loads, .nextReq, .fab, .guest, .mesh, .svc, .poison, .prmData, .lsa, .tcm, .scratch] s (State.afterFlushWork s) := by
  unfold State.afterFlushWork
  split
  · exact .refl
  · extract_lets +onlyGivenNames x1 x2
    refine .ite ?_ ?_
    · refine .ite ?_ ?_
      · refine .ite ?_ ?_
        · exact .step State.packageReset_changes (.step State.finishStores_changes .refl)
        · subst x2
          refine .ite ?_ ?_
          · exact .step State.holdDown_changes .refl
          · exact .refl
      · extract_lets +onlyGivenNames x3 x4
        refine .via (x := x4) ?_ fun h4 => ?_
        · subst x4
          refine .upd (t := s) ?_
          exact .refl
        clear_value x4
        exact .step State.setDev_changes h4
    · refine .ite ?_ ?_
      · exact .step State.packageReset_changes (.step State.finishStores_changes .refl)
      · subst x2
        refine .ite ?_ ?_
        · exact .step State.holdDown_changes .refl
        · exact .refl

theorem State.lowerMedia_changes {s : State} :
    Changes [.seq, .tiles] s (State.lowerMedia s) := by
  unfold State.lowerMedia
  refine .upd (t := s) ?_ (ht := by with_reducible exact tiles_vmap)
  exact .refl

theorem State.endFlushWork_changes {s : State} {a1 : Bool} :
    Changes [.fv, .nv, .media, .staged, .aon, .sys, .boot, .cfg, .prm, .evr, .bbx, .pmc, .sec, .seq, .hld, .flush, .pwr, .clk, .thm, .tiles, .heads, .loads, .nextReq, .fab, .guest, .mesh, .svc, .poison, .prmData, .lsa, .tcm, .scratch] s (State.endFlushWork s a1) := by
  unfold State.endFlushWork
  split
  · exact .refl
  · refine .ite ?_ ?_
    · exact .refl
    · extract_lets +onlyGivenNames x1 x2
      refine .via (x := x2) ?_ fun h2 => ?_
      · subst x2
        refine .forAll ?_ fun a3 x3 h3 => ?_
        · exact .refl
        · refine .forAll ?_ fun a4 x4 h4 => ?_
          · exact .step State.journalProgress_changes h3
          · exact .step State.journal_changes h4
      extract_lets +onlyGivenNames x5
      refine .via (x := x5) ?_ fun h5 => ?_
      · subst x5
        refine .ite ?_ ?_
        · refine .forAll ?_ fun a6 x6 h6 => ?_
          · exact h2
          · exact .step State.journal_changes h6
        · exact h2
      extract_lets +onlyGivenNames x7 x8 x9 x10 x11
      refine .via (x := x11) ?_ fun h11 => ?_
      · subst x11
        exact .step State.finishEventFlush_changes h5
      extract_lets +onlyGivenNames x12 x13
      refine .via (x := x13) ?_ fun h13 => ?_
      · subst x13
        refine .ite ?_ ?_
        · exact .step State.writeSummary_changes h11
        · exact h11
      split
      · rename_i x14 e14
        refine .via (Changes.ofPair e14 ?_) fun h14 => ?_
        · exact .step State.draw_changes h13
        extract_lets +onlyGivenNames x15 x16
        refine .via (x := x16) ?_ fun h16 => ?_
        · subst x16
          refine .ite ?_ ?_
          · exact .step State.raise_changes h14
          · exact h14
        extract_lets +onlyGivenNames x17
        refine .via (x := x17) ?_ fun h17 => ?_
        · subst x17
          exact .step State.raise_changes h16
        extract_lets +onlyGivenNames x18 x19 x20
        refine .via (x := x20) ?_ fun h20 => ?_
        · subst x20
          exact .upd (t := x17) h17
        exact .step State.afterFlushWork_changes (.step State.lowerMedia_changes (.step State.setMemActive_changes h20))

theorem State.lostInFlush_changes {s : State} {a1 : TileId} :
    Changes [.fv, .nv, .media, .staged, .aon, .sys, .boot, .cfg, .prm, .evr, .bbx, .pmc, .sec, .seq, .hld, .flush, .pwr, .clk, .thm, .tiles, .heads, .loads, .nextReq, .fab, .guest, .mesh, .svc, .poison, .prmData, .lsa, .tcm, .scratch] s (State.lostInFlush s a1) := by
  unfold State.lostInFlush
  split
  · rename_i x1 e1
    refine .via (Changes.ofPair e1 ?_) fun h1 => ?_
    · exact .step State.draw_changes .refl
    extract_lets +onlyGivenNames x2
    refine .via (x := x2) ?_ fun h2 => ?_
    · subst x2
      exact .upd (t := x1) h1
    split
    · refine .ite ?_ ?_
      · exact .step State.endFlushWork_changes h2
      · exact h2
    · exact h2

theorem State.leadLostRecord_changes {s : State} {a1 : TileId} {a2 : Nat} :
    Changes [.nv, .bbx, .clk, .tiles] s (State.leadLostRecord s a1 a2) := by
  unfold State.leadLostRecord
  exact .step State.bbWrite_changes .refl

theorem State.startFw_changes {s : State} {a1 : TileId} {a2 : Nat} :
    Changes [.sys, .tiles] s (State.startFw s a1 a2) := by
  unfold State.startFw
  exact .modCfl (.upd (t := s) .refl)

theorem State.fail_changes {s : State} {a1 : FailCause} :
    Changes [.sys, .evr, .pmc, .seq, .clk, .tiles, .heads, .fab, .mesh] s (State.fail s a1) := by
  unfold State.fail
  refine .ite ?_ ?_
  · exact .refl
  · extract_lets +onlyGivenNames x1 x2 x3
    refine .via (x := x3) ?_ fun h3 => ?_
    · subst x3
      refine .upd (t := s) ?_ (he := by with_reducible exact fun h => h.of)
      exact .refl
    refine .step State.lowerMedia_changes ?_
    exact .step State.setMemActive_changes (.step State.setDev_changes (.step State.bye_changes h3))

theorem State.leadLost_changes {s : State} {a1 : TileId} {a2 : TileId} {a3 : Bool} :
    Changes [.fv, .nv, .media, .staged, .aon, .sys, .boot, .cfg, .prm, .evr, .bbx, .pmc, .sec, .seq, .hld, .flush, .pwr, .clk, .thm, .tiles, .heads, .loads, .nextReq, .fab, .guest, .mesh, .svc, .poison, .prmData, .lsa, .tcm, .scratch] s (State.leadLost s a1 a2 a3) := by
  unfold State.leadLost
  extract_lets +onlyGivenNames x1
  refine .via (x := x1) ?_ fun h1 => ?_
  · subst x1
    exact .step State.takeLead_changes (.step State.declareLost_changes .refl)
  clear_value x1
  refine .ite ?_ ?_
  · refine .step State.lostInFlush_changes ?_
    refine .step State.leadLostRecord_changes ?_
    refine .upd (t := x1) ?_
    exact h1
  · refine .ite ?_ ?_
    · refine .upd (t := x1) ?_
      exact h1
    · refine .ite ?_ ?_
      · extract_lets +onlyGivenNames x2 x3
        refine .via (x := x3) ?_ fun h3 => ?_
        · subst x3
          refine .upd (t := x1) ?_
          exact h1
        refine .ite ?_ ?_
        · exact h3
        · exact .step State.beginResume_changes h3
      · extract_lets +onlyGivenNames x4
        refine .via (x := x4) ?_ fun h4 => ?_
        · subst x4
          refine .ite ?_ ?_
          · exact h1
          · split
            · exact .step State.startFw_changes h1
            · exact h1
        clear_value x4
        extract_lets +onlyGivenNames x5
        refine .via (x := x5) ?_ fun h5 => ?_
        · subst x5
          exact .step State.leadLostRecord_changes h4
        clear_value x5
        refine .step State.fail_changes ?_
        refine .upd (t := x5) ?_
        exact h5

theorem State.flushTile_changes {s : State} {a1 : TileId} :
    Changes [.nv, .boot, .flush, .clk, .tiles] s (State.flushTile s a1) := by
  unfold State.flushTile
  extract_lets +onlyGivenNames x1 x2 x3
  refine .via (x := x3) ?_ fun h3 => ?_
  · subst x3
    refine .upd (t := s) ?_
    exact .refl
  clear_value x3
  extract_lets +onlyGivenNames x4
  refine .via (x := x4) ?_ fun h4 => ?_
  · subst x4
    exact .modEng h3
  clear_value x4
  extract_lets +onlyGivenNames x5
  refine .via (x := x5) ?_ fun h5 => ?_
  · subst x5
    exact .step State.journal_changes h4
  clear_value x5
  extract_lets +onlyGivenNames x6 x7
  refine .via (x := x7) ?_ fun h7 => ?_
  · subst x7
    exact .step State.stageAll_changes h5
  clear_value x7
  refine .upd (t := x7) ?_
  exact h7

theorem State.loneFailed_changes {s : State} :
    Changes [.sys, .evr, .seq, .tiles, .heads] s (State.loneFailed s) := by
  unfold State.loneFailed
  extract_lets +onlyGivenNames x1
  refine .via (x := x1) ?_ fun h1 => ?_
  · subst x1
    exact .step State.lowerMedia_changes .refl
  clear_value x1
  extract_lets +onlyGivenNames x2 x3
  refine .via (x := x3) ?_ fun h3 => ?_
  · subst x3
    refine .upd (t := x1) ?_
    exact h1
  clear_value x3
  exact .step State.setMemActive_changes (.step State.setDev_changes h3)

theorem State.loneLost_changes {s : State} {a1 : TileId} {a2 : Bool} :
    Changes [.nv, .aon, .sys, .boot, .evr, .seq, .flush, .clk, .tiles, .heads] s (State.loneLost s a1 a2) := by
  unfold State.loneLost
  extract_lets +onlyGivenNames x1
  refine .via (x := x1) ?_ fun h1 => ?_
  · subst x1
    exact .step State.raise_changes .refl
  clear_value x1
  extract_lets +onlyGivenNames x2 x3 x4
  refine .via (x := x4) ?_ fun h4 => ?_
  · subst x4
    refine .upd (t := x1) ?_ (hh := fun h => heads_map h (by intros; exact Head.conventional_logs _))
    exact h1
  clear_value x4
  refine .ite ?_ ?_
  · exact h4
  · refine .ite ?_ ?_
    · refine .step State.flushTile_changes ?_
      refine .upd (t := x4) ?_
      exact h4
    · exact .step State.loneFailed_changes h4

theorem State.tileLost_changes {s : State} {a1 : TileId} {a2 : Bool} :
    Changes [.fv, .nv, .media, .staged, .aon, .sys, .boot, .cfg, .prm, .evr, .bbx, .pmc, .sec, .seq, .hld, .flush, .pwr, .clk, .thm, .tiles, .heads, .loads, .nextReq, .fab, .guest, .mesh, .svc, .poison, .prmData, .lsa, .tcm, .scratch] s (State.tileLost s a1 a2) := by
  unfold State.tileLost
  refine .ite ?_ ?_
  · exact .refl
  · refine .ite ?_ ?_
    · split
      · exact .step State.leadLost_changes .refl
      · exact .step State.loneLost_changes .refl
    · extract_lets +onlyGivenNames x1
      refine .via (x := x1) ?_ fun h1 => ?_
      · subst x1
        exact .step State.declareLost_changes .refl
      refine .ite ?_ ?_
      · exact .step State.lostInFlush_changes h1
      · refine .ite ?_ ?_
        · exact h1
        · exact .upd (t := x1) h1

theorem State.internalFatal_changes {s : State} {a1 : TileId} :
    Changes [.fv, .nv, .media, .staged, .aon, .sys, .boot, .cfg, .prm, .evr, .bbx, .pmc, .sec, .seq, .hld, .flush, .pwr, .clk, .thm, .tiles, .heads, .loads, .nextReq, .fab, .guest, .mesh, .svc, .poison, .prmData, .lsa, .tcm, .scratch] s (State.internalFatal s a1) := by
  unfold State.internalFatal
  refine .ite ?_ ?_
  · exact .refl
  · extract_lets +onlyGivenNames x1
    refine .via (x := x1) ?_ fun h1 => ?_
    · subst x1
      exact .step State.tileLost_changes .refl
    refine .ite ?_ ?_
    · exact h1
    · split
      · rename_i x2 e2
        refine .via (Changes.ofPair e2 ?_) fun h2 => ?_
        · exact .step State.draw_changes h1
        exact .step State.raise_changes h2

theorem State.warmReset_changes {s : State} {a1 : TileId} :
    Changes [.fv, .nv, .media, .staged, .aon, .sys, .boot, .cfg, .prm, .evr, .bbx, .pmc, .sec, .seq, .hld, .flush, .pwr, .clk, .thm, .tiles, .heads, .loads, .nextReq, .fab, .guest, .mesh, .svc, .poison, .prmData, .lsa, .tcm, .scratch] s (State.warmReset s a1) := by
  unfold State.warmReset
  refine .ite ?_ ?_
  · exact .refl
  · split
    · rename_i x1 e1
      refine .via (Changes.ofPair e1 ?_) fun h1 => ?_
      · exact .step State.warmSoon_changes .refl
      refine .ite ?_ ?_
      · exact .step State.internalFatal_changes h1
      · extract_lets +onlyGivenNames x2 x3
        refine .via (x := x3) ?_ fun h3 => ?_
        · subst x3
          exact .upd (t := x1) h1
        extract_lets +onlyGivenNames x4
        refine .via (x := x4) ?_ fun h4 => ?_
        · subst x4
          exact .modEng h3
        exact .step State.stageAll_changes h4

theorem execCdatTableAccess_changes {a0 : TileId} {a1 : Nat} {s : State} :
    Ends [.fv, .heads] s (execCdatTableAccess a0 a1 s) := by
  unfold execCdatTableAccess
  refine .ite ?_ ?_
  · exact .next .refl
  · extract_lets +onlyGivenNames x1 x2
    split
    · rename_i x3 e3
      refine .via (Changes.ofPair e3 ?_) fun h3 => ?_
      · exact .step State.draw_changes .refl
      extract_lets +onlyGivenNames x4 x5 x6 x7 x8
      exact .next (.modHead h3)

theorem State.noteCorrected_changes {s : State} {a1 : TileId} {a2 : ChanId} {a3 : Nat} :
    Changes [.pmc, .tiles] s (State.noteCorrected s a1 a2 a3) := by
  unfold State.noteCorrected
  refine .ite ?_ ?_
  · exact .refl
  · exact .step State.count_changes (.modIt .refl)

theorem State.sendInit_changes {s : State} {a1 : PortId} :
    Changes [.fv, .fab, .mesh] s (State.sendInit s a1) := by
  unfold State.sendInit
  split
  · rename_i x1 e1
    refine .via (Changes.ofPair e1 ?_) fun h1 => ?_
    · exact .step State.draw_changes .refl
    extract_lets +onlyGivenNames x2
    exact .step State.modLink_changes h1

theorem State.retrained_changes {s : State} {a1 : PortId} {a2 : InitFlit} :
    Changes [.fv, .evr, .heads, .fab, .mesh] s (State.retrained s a1 a2) := by
  unfold State.retrained
  split
  rename_i x1 e1
  refine .via (Changes.ofPair e1 (.step State.lately_changes .refl)) fun h1 => ?_
  extract_lets +onlyGivenNames x2
  refine .via (x := x2) ?_ fun h2 => ?_
  · subst x2
    exact .step State.sendInit_changes (.step State.modLink_changes h1)
  clear_value x2
  exact .step State.raise_changes h2

theorem State.startBackground_changes {s : State} {a1 : Iface} {a2 : Nat} {a3 : List Byte} :
    Changes [.heads, .svc] s (State.startBackground s a1 a2 a3) := by
  unfold State.startBackground
  extract_lets +onlyGivenNames x1 x2 x3 x4
  refine .via (x := x4) ?_ fun h4 => ?_
  · subst x4
    exact .upd (t := s) .refl
  exact .step State.mbFinish_changes (.step State.modMb_changes h4)

theorem State.guestAdmit_changes {s : State} {a1 : InitFlit} :
    Changes [.evr, .heads, .fab, .guest] s (State.guestAdmit s a1) := by
  unfold State.guestAdmit
  extract_lets +onlyGivenNames x1
  refine .via (x := x1) ?_ fun h1 => ?_
  · subst x1
    refine .upd (t := s) ?_ (hf := by with_reducible exact fab_map)
    exact .refl
  clear_value x1
  extract_lets +onlyGivenNames x2 x3
  refine .ite ?_ ?_
  · exact h1
  · extract_lets +onlyGivenNames x4 x5
    refine .via (x := x5) ?_ fun h5 => ?_
    · subst x5
      refine .upd (t := x1) ?_ (hf := by with_reducible exact fab_map)
      exact h1
    clear_value x5
    exact .step State.raise_changes h5

theorem State.foldRead_changes {s : State} {a1 : TileId} {a2 : Fold} {a3 : Nat} {a4 : Nat} {a5 : Nat} {a6 : Bool} {a7 : Nat} :
    Changes [.clk, .tiles] s (State.foldRead s a1 a2 a3 a4 a5 a6 a7) := by
  unfold State.foldRead
  exact .step State.enqueue_changes .refl

theorem State.foldShares_changes {s : State} {a1 : TileId} {a2 : Fold} {a3 : Nat} :
    Changes [.clk, .tiles] s (State.foldShares s a1 a2 a3) := by
  unfold State.foldShares
  refine .forAll ?_ fun a1 x1 h1 => ?_
  · exact .refl
  · exact .step State.foldRead_changes h1

theorem State.foldProgrammed_changes {s : State} {a1 : TileId} {a2 : Fold} :
    Changes [.clk, .tiles] s (State.foldProgrammed s a1 a2) := by
  unfold State.foldProgrammed
  exact .step State.foldShares_changes (.step State.modFold_changes .refl)

theorem State.portsOff_changes {s : State} :
    Changes [.fab, .mesh] s (State.portsOff s) := by
  unfold State.portsOff
  refine .upd (t := s) ?_ (hf := by with_reducible exact fab_vmap)
  exact .refl

theorem execSelftestWindowClose_changes {s : State} :
    Ends [.sys, .boot, .prm, .heads, .fab, .mesh] s (execSelftestWindowClose s) := by
  unfold execSelftestWindowClose
  refine .ite ?_ ?_
  · exact .next .refl
  · extract_lets +onlyGivenNames x1 x2 x3 x4 x5
    refine .via (x := x5) ?_ fun h5 => ?_
    · subst x5
      refine .upd (t := s) ?_ (hh := by with_reducible exact fun h => heads_vmap h)
      exact .refl
    clear_value x5
    extract_lets +onlyGivenNames x6
    refine .via (x := x6) ?_ fun h6 => ?_
    · subst x6
      exact .step State.portsOff_changes h5
    clear_value x6
    refine .ite ?_ ?_
    · exact .next h6
    · extract_lets +onlyGivenNames x7
      refine .next ?_
      refine .upd (t := x6) ?_
      exact h6

theorem State.stageOwed_changes {s : State} {a1 : TileId} :
    Changes [.clk, .tiles] s (State.stageOwed s a1) := by
  unfold State.stageOwed
  refine .ite ?_ ?_
  · exact .refl
  · exact .step State.stageAll_changes .refl

theorem State.afterVerify_changes {s : State} {a1 : TileId} :
    Changes [.pmc, .clk, .tiles] s (State.afterVerify s a1) := by
  unfold State.afterVerify
  extract_lets +onlyGivenNames x1
  exact .step State.cleaner_changes (.step State.stageOwed_changes (.step State.stageAll_changes .refl))

theorem State.appendAgain_changes {s : State} {a1 : TileId} {a2 : Stripe} :
    Changes [.clk, .tiles] s (State.appendAgain s a1 a2) := by
  unfold State.appendAgain
  extract_lets +onlyGivenNames x1
  refine .forAll ?_ fun a2 x2 h2 => ?_
  · exact .refl
  · exact .step State.append_changes h2

theorem State.stripeAgain_changes {s : State} {a1 : TileId} {a2 : BitVec 64} :
    Changes [.clk, .tiles] s (State.stripeAgain s a1 a2) := by
  unfold State.stripeAgain
  split
  · exact .step State.appendAgain_changes (.modD .refl)
  · exact .refl

theorem State.modRebuild_changes {s : State} {a1 : TileId} {a2 : ChanId} {a3 : Rebuild → Rebuild} :
    Changes [.tiles] s (State.modRebuild s a1 a2 a3) := by
  unfold State.modRebuild
  exact .modIt .refl

theorem State.endContexts_changes {s : State} {a1 : TileId} {a2 : WorkUse} :
    Changes [.tiles] s (State.endContexts s a1 a2) := by
  unfold State.endContexts
  extract_lets +onlyGivenNames x1
  refine .via (x := x1) ?_ fun h1 => ?_
  · subst x1
    exact .modEng .refl
  refine .forAll ?_ fun a2 x2 h2 => ?_
  · exact h1
  · exact .step State.endCtx_changes h2

theorem State.programAgain_changes {s : State} {a1 : TileId} {a2 : Context} :
    Changes [.media, .staged, .clk, .tiles] s (State.programAgain s a1 a2) := by
  unfold State.programAgain
  extract_lets +onlyGivenNames x1
  refine .via (x := x1) ?_ fun h1 => ?_
  · subst x1
    exact .step State.endCtx_changes (.step State.cutProgram_changes .refl)
  clear_value x1
  cases a2.item.use <;> dsimp only <;> first
    | exact h1
    | exact .step State.stripeAgain_changes h1
    | exact .step State.enqueue_changes (.step State.modFold_changes h1)
    | exact .step State.enqueue_changes (.modPl h1)
    | exact .step State.modRebuild_changes (.step State.endContexts_changes h1)
    | exact .step State.enqueue_changes h1

theorem State.resetChannel_changes {s : State} {a1 : TileId} {a2 : ChanId} :
    Changes [.media, .staged, .seq, .clk, .tiles] s (State.resetChannel s a1 a2) := by
  unfold State.resetChannel
  extract_lets +onlyGivenNames x1 x2
  refine .via (x := x2) ?_ fun h2 => ?_
  · subst x2
    refine .forAll ?_ fun a3 x3 h3 => ?_
    · exact .refl
    · exact .step State.programAgain_changes h3
  clear_value x2
  extract_lets +onlyGivenNames x4
  refine .via (x := x4) ?_ fun h4 => ?_
  · subst x4
    exact .modCh h2
  clear_value x4
  refine .upd (t := x4) ?_
  exact h4

theorem execScrambleCounterExhausted_changes {a0 : TileId} {a1 : ChanId} {s : State} :
    Ends [.media, .staged, .seq, .clk, .tiles] s (execScrambleCounterExhausted a0 a1 s) := by
  unfold execScrambleCounterExhausted
  exact .next (.modCh (.step State.resetChannel_changes .refl))

theorem execGetDynamicCapacityConfiguration_changes {a0 : Iface} {s : State} :
    Ends [.heads, .svc] s (execGetDynamicCapacityConfiguration a0 s) := by
  unfold execGetDynamicCapacityConfiguration
  refine .command fun a1 => ?_
  extract_lets +onlyGivenNames x2 x3 x4
  exact .step State.reply_changes .refl

theorem State.loadPair_changes {s : State} :
    Changes [.mesh] s (State.loadPair s) := by
  unfold State.loadPair
  extract_lets +onlyGivenNames x1 x2 x3 x4 x5 x6
  exact .upd (t := s) .refl

theorem State.putInForce_changes {s : State} {a1 : List Byte} :
    Changes [.aon, .sys, .boot, .cfg, .evr, .seq, .tiles, .heads, .mesh, .svc] s (State.putInForce s a1) := by
  unfold State.putInForce
  extract_lets +onlyGivenNames x1 x2 x3 x4 x5 x6
  refine .via (x := x6) ?_ fun h6 => ?_
  · subst x6
    refine .upd (t := s) ?_ (ht := by with_reducible exact tiles_vmap) (hh := by with_reducible exact fun h => heads_vmap h (by intros; split; with_reducible rfl; exact Head.conventional_logs _))
    exact .refl
  clear_value x6
  exact .step State.headDown_changes (.step State.loadPair_changes h6)

theorem State.mediaGone_changes {s : State} :
    Changes [.sys, .evr, .pmc, .seq, .clk, .tiles, .heads, .fab, .mesh] s (State.mediaGone s) := by
  unfold State.mediaGone
  extract_lets +onlyGivenNames x1 x2
  refine .ite ?_ ?_
  · exact .refl
  · exact .step State.fail_changes .refl

theorem State.channelOff_changes {s : State} {a1 : TileId} {a2 : ChanId} :
    Changes [.sys, .evr, .pmc, .seq, .clk, .tiles, .heads, .fab, .mesh, .poison] s (State.channelOff s a1 a2) := by
  unfold State.channelOff
  refine .ite ?_ ?_
  · exact .refl
  · extract_lets +onlyGivenNames x1
    refine .via (x := x1) ?_ fun h1 => ?_
    · subst x1
      exact .modCh .refl
    clear_value x1
    extract_lets +onlyGivenNames x2
    refine .via (x := x2) ?_ fun h2 => ?_
    · subst x2
      exact .step State.addCause_changes h1
    clear_value x2
    extract_lets +onlyGivenNames x3
    refine .via (x := x3) ?_ fun h3 => ?_
    · subst x3
      exact .step State.raise_changes h2
    clear_value x3
    extract_lets +onlyGivenNames x4
    refine .via (x := x4) ?_ fun h4 => ?_
    · subst x4
      exact .modD h3
    clear_value x4
    extract_lets +onlyGivenNames x5 x6
    refine .via (x := x6) ?_ fun h6 => ?_
    · subst x6
      exact .modD h4
    clear_value x6
    extract_lets +onlyGivenNames x7
    refine .via (x := x7) ?_ fun h7 => ?_
    · subst x7
      refine .forAll ?_ fun a8 x8 h8 => ?_
      · exact h6
      · exact .step State.appendAgain_changes h8
    clear_value x7
    exact .step State.mediaGone_changes (.step State.raise_changes (.upd (t := x7) h7))

theorem State.startRebuild_changes {s : State} {a1 : TileId} {a2 : ChanId} {a3 : Nat} :
    Changes [.evr, .tiles, .heads] s (State.startRebuild s a1 a2 a3) := by
  unfold State.startRebuild
  extract_lets +onlyGivenNames x1
  refine .via (x := x1) ?_ fun h1 => ?_
  · subst x1
    exact .modIt .refl
  extract_lets +onlyGivenNames x2
  refine .via (x := x2) ?_ fun h2 => ?_
  · subst x2
    exact .modD h1
  exact .step State.raise_changes h2

theorem State.failDie_changes {s : State} {a1 : TileId} {a2 : ChanId} {a3 : Fin 9} {a4 : Nat} :
    Changes [.sys, .evr, .pmc, .seq, .clk, .tiles, .heads, .fab, .mesh, .poison] s (State.failDie s a1 a2 a3 a4) := by
  unfold State.failDie
  extract_lets +onlyGivenNames x1
  refine .ite ?_ ?_
  · exact .refl
  · extract_lets +onlyGivenNames x2
    refine .via (x := x2) ?_ fun h2 => ?_
    · subst x2
      exact .modCh .refl
    split
    · extract_lets +onlyGivenNames x3
      refine .via (x := x3) ?_ fun h3 => ?_
      · subst x3
        exact .modCh h2
      extract_lets +onlyGivenNames x4
      refine .via (x := x4) ?_ fun h4 => ?_
      · subst x4
        exact .modIt h3
      exact .step State.raise_changes h4
    · extract_lets +onlyGivenNames x5
      refine .via (x := x5) ?_ fun h5 => ?_
      · subst x5
        exact .modCh h2
      extract_lets +onlyGivenNames x6
      refine .via (x := x6) ?_ fun h6 => ?_
      · subst x6
        exact .step State.addCause_changes h5
      extract_lets +onlyGivenNames x7
      refine .via (x := x7) ?_ fun h7 => ?_
      · subst x7
        exact .step State.raise_changes h6
      extract_lets +onlyGivenNames x8
      refine .via (x := x8) ?_ fun h8 => ?_
      · subst x8
        refine .ite ?_ ?_
        · exact .step State.channelOff_changes h7
        · exact h7
      refine .ite ?_ ?_
      · exact .step State.startRebuild_changes h8
      · exact h8

theorem State.noteSlot_changes {s : State} {a1 : TileId} {a2 : ChanId} {a3 : Fin 9} {a4 : Nat} :
    Changes [.fv, .sys, .evr, .pmc, .seq, .clk, .tiles, .heads, .fab, .mesh, .poison] s (State.noteSlot s a1 a2 a3 a4) := by
  unfold State.noteSlot
  split
  rename_i x0 e0
  refine .via (Changes.ofTriple e0 (.step State.noteIn_changes .refl)) fun h0 => ?_
  extract_lets +onlyGivenNames x1
  refine .via (x := x1) ?_ fun h1 => ?_
  · subst x1
    exact .modIt h0
  refine .ite ?_ ?_
  · exact .step State.failDie_changes h1
  · exact h1

theorem State.breakMesh_changes {s : State} :
    Changes [.nv, .evr, .bbx, .clk, .tiles, .heads, .mesh] s (State.breakMesh s) := by
  unfold State.breakMesh
  refine .ite ?_ ?_
  · exact .refl
  · extract_lets +onlyGivenNames x1 x2 x3 x4
    refine .via (x := x4) ?_ fun h4 => ?_
    · subst x4
      refine .forAll ?_ fun a5 x5 h5 => ?_
      · exact .refl
      · exact .step State.raise_changes h5
    extract_lets +onlyGivenNames x6
    refine .via (x := x6) ?_ fun h6 => ?_
    · subst x6
      refine .forAll ?_ fun a7 x7 h7 => ?_
      · exact h4
      · exact .step State.bbWrite_changes h7
    exact .upd (t := x6) h6

theorem State.takeover_changes {s : State} :
    Changes [.nv, .evr, .bbx, .clk, .tiles, .heads, .mesh, .svc] s (State.takeover s) := by
  unfold State.takeover
  extract_lets +onlyGivenNames x1 x2
  refine .via (x := x2) ?_ fun h2 => ?_
  · subst x2
    refine .forAll ?_ fun a3 x3 h3 => ?_
    · exact .refl
    · extract_lets +onlyGivenNames x4 x5 x6 x7
      refine .via (x := x7) ?_ fun h7 => ?_
      · subst x7
        exact .upd (t := x3) h3
      refine .forAll ?_ fun a8 x8 h8 => ?_
      · exact h7
      · exact .step State.logPush_changes h8
  extract_lets +onlyGivenNames x9 x10
  refine .via (x := x10) ?_ fun h10 => ?_
  · subst x10
    exact .upd (t := x2) h2
  extract_lets +onlyGivenNames x11
  refine .via (x := x11) ?_ fun h11 => ?_
  · subst x11
    exact .step State.raise_changes h10
  exact .step State.bbWrite_changes h11

theorem State.queueRefresh_changes {s : State} {a1 : TileId} {a2 : Nat} {a3 : Nat} :
    Changes [.tiles] s (State.queueRefresh s a1 a2 a3) := by
  unfold State.queueRefresh
  exact .modD .refl

theorem State.poisonCached_changes {s : State} {a1 : Nat} {a2 : PoisonSrc} :
    Changes [.evr, .tiles, .heads, .poison] s (State.poisonCached s a1 a2) := by
  unfold State.poisonCached
  extract_lets +onlyGivenNames x1
  refine .via (x := x1) ?_ fun h1 => ?_
  · subst x1
    refine .modD ?_ (hf := by intros; rfl)
    exact .refl
  exact .step State.listPoison_changes (.upd (t := x1) h1)

theorem State.uncorrectable_changes {s : State} {a1 : TileId} {a2 : Nat} {a3 : Nat} {a4 : Nat} {a5 : Nat} :
    Changes [.evr, .tiles, .heads, .poison] s (State.uncorrectable s a1 a2 a3 a4 a5) := by
  unfold State.uncorrectable
  extract_lets +onlyGivenNames x1
  refine .via (x := x1) ?_ fun h1 => ?_
  · subst x1
    exact .modIt .refl
  extract_lets +onlyGivenNames x2
  refine .via (x := x2) ?_ fun h2 => ?_
  · subst x2
    exact .step State.raise_changes h1
  refine .ite ?_ ?_
  · exact h2
  · exact .step State.poisonCached_changes h2

theorem State.repairFailed_changes {s : State} {a1 : LoadReq} :
    Changes [.fv, .sys, .evr, .pmc, .clk, .tiles, .heads, .loads, .nextReq, .fab, .mesh, .poison] s (State.repairFailed s a1) := by
  unfold State.repairFailed
  extract_lets +onlyGivenNames x1
  exact .step State.loadDone_changes (.step State.queueRefresh_changes (.step State.uncorrectable_changes .refl))

theorem State.peerDead_changes {s : State} {a1 : Nat} {a2 : Bool} :
    Changes [.fv, .nv, .sys, .evr, .bbx, .pmc, .clk, .tiles, .heads, .loads, .nextReq, .fab, .mesh, .svc, .poison] s (State.peerDead s a1 a2) := by
  unfold State.peerDead
  refine .ite ?_ ?_
  · exact .refl
  · extract_lets +onlyGivenNames x1 x2 x3
    refine .via (x := x3) ?_ fun h3 => ?_
    · subst x3
      refine .upd (t := s) ?_
      exact .refl
    clear_value x3
    extract_lets +onlyGivenNames x4
    refine .via (x := x4) ?_ fun h4 => ?_
    · subst x4
      exact .step State.addCause_changes (.step State.setPair_changes (.step State.releaseMirrored_changes h3))
    clear_value x4
    extract_lets +onlyGivenNames x5
    refine .via (x := x5) ?_ fun h5 => ?_
    · subst x5
      exact .step State.raise_changes h4
    clear_value x5
    extract_lets +onlyGivenNames x6
    refine .via (x := x6) ?_ fun h6 => ?_
    · subst x6
      exact .step State.breakMesh_changes h5
    clear_value x6
    extract_lets +onlyGivenNames x7
    refine .via (x := x7) ?_ fun h7 => ?_
    · subst x7
      refine .ite ?_ ?_
      · exact .step State.takeover_changes h6
      · exact h6
    clear_value x7
    extract_lets +onlyGivenNames x8
    refine .via (x := x8) ?_ fun h8 => ?_
    · subst x8
      refine .step State.addProceed_changes ?_
      refine .forAll ?_ fun a9 x9 h9 => ?_
      · exact h7
      · exact .step State.answerPeers_changes h9
    clear_value x8
    extract_lets +onlyGivenNames x10 x11 x12
    refine .via (x := x12) ?_ fun h12 => ?_
    · subst x12
      refine .upd (t := x8) ?_
      exact h8
    clear_value x12
    refine .forAll ?_ fun a13 x13 h13 => ?_
    · exact h12
    · split
      · exact .step State.repairFailed_changes (.step State.modLoad_changes h13)
      · exact h13

theorem execPairContactTimeout_changes {s : State} :
    Ends [.fv, .nv, .sys, .evr, .bbx, .pmc, .clk, .tiles, .heads, .loads, .nextReq, .fab, .mesh, .svc, .poison] s (execPairContactTimeout s) := by
  unfold execPairContactTimeout
  refine .ite ?_ ?_
  · extract_lets +onlyGivenNames x1
    refine .via (x := x1) ?_ fun h1 => ?_
    · subst x1
      exact .step State.peerDead_changes .refl
    exact .next (.upd (t := x1) h1)
  · exact .next .refl

theorem State.keyStart_changes {s : State} {a1 : Fin 2} {a2 : KeySet} :
    Changes [.nv, .prm, .sec] s (State.keyStart s a1 a2) := by
  unfold State.keyStart
  extract_lets +onlyGivenNames x1
  refine .via (x := x1) ?_ fun h1 => ?_
  · subst x1
    refine .forAll ?_ fun a2 x2 h2 => ?_
    · exact .refl
    · exact .modNv h2
  exact .upd (t := x1) h1

end Sys2Proof.Machine
end

