-- ==== Sys2Proof/Laws/Changes4.lean ====
section
/-! SUPPORT. Part 4 of the lemmas, one for each operation and each command's meaning, that say which groups of the state it can
change and that it keeps the canonical memories and the bounds. -/

namespace Sys2Proof.Machine

set_option Elab.async false

theorem State.startErase_changes {s : State} {a1 : Iface} {a2 : Nat} {a3 : Nat} {a4 : List Byte} :
    Changes [.nv, .sys, .prm, .sec, .tiles, .heads, .svc] s (State.startErase s a1 a2 a3 a4) := by
  unfold State.startErase
  refine .ite ?_ ?_
  · exact .step State.mbFinish_changes (.step State.supplyRefused_changes .refl)
  · extract_lets +onlyGivenNames x1 x2 x3 x4
    refine .via (x := x4) ?_ fun h4 => ?_
    · subst x4
      exact .upd (t := s) .refl
    exact .step State.startBackground_changes (.step State.keyStart_changes h4)

theorem State.creditMsg_changes {s : State} {a1 : PortId} {a2 : Bool} {a3 : Nat} :
    Changes [.fab, .mesh] s (State.creditMsg s a1 a2 a3) := by
  unfold State.creditMsg
  exact .step State.modLink_changes .refl

theorem State.wTake_changes {s t : State} {a1 : TileId} {a2 : Msg} {n : Nat} (e : State.wTake s a1 a2 = some (n, t)) :
    Changes [.fab, .mesh] s t := by
  unfold State.wTake at e
  split at e
  · cases e
  · split at e
    · cases e
    · extract_lets x1 at e
      have h1 : Changes [.fab, .mesh] s x1 := .modFab .refl
      injection e with e
      injection e with _ e
      rw [← e]
      exact .ite (State.creditMsg_changes.step h1) h1

theorem State.wReject_changes {s : State} {a1 : TileId} {a2 : Option (Fin 4)} {a3 : Msg} {a4 : Nat} :
    Changes [.pmc, .fab, .mesh] s (State.wReject s a1 a2 a3 a4) := by
  unfold State.wReject
  extract_lets +onlyGivenNames x1
  refine .via (x := x1) ?_ fun h1 => ?_
  · subst x1
    refine .modFab ?_ (hf := by intros; repeat' (first | with_reducible exact ⟨rfl, rfl⟩ | split))
    exact .refl
  extract_lets +onlyGivenNames x2
  refine .via (x := x2) ?_ fun h2 => ?_
  · subst x2
    split
    · refine .ite ?_ ?_
      · exact .step State.modLink_changes h1
      · exact h1
    · exact h1
  exact .step State.wReply_changes h2

theorem execWidarBar_changes {a0 : TileId} {a1 : Msg} {s : State} :
    Ends [.pmc, .fab, .mesh] s (execWidarBar a0 a1 s) := by
  unfold execWidarBar
  refine .ite ?_ ?_
  · exact .next .refl
  · split
    · exact .next .refl
    · rename_i x1 e1
      refine .via (.step (State.wTake_changes e1) ?_) fun h1 => ?_
      · exact .refl
      refine .ite ?_ ?_
      · exact .next (.step State.wReject_changes h1)
      · extract_lets +onlyGivenNames x2 x3
        exact .next (.step State.answerWidarBars_changes (.modFab h1))

theorem State.writeUnitRec_changes {s : State} {a1 : TileId} {a2 : Nat} :
    Changes [.media, .tiles] s (State.writeUnitRec s a1 a2) := by
  unfold State.writeUnitRec
  extract_lets +onlyGivenNames x1 x2 x3 x4
  refine .via (x := x4) ?_ fun h4 => ?_
  · subst x4
    exact .modMedia .refl
  extract_lets +onlyGivenNames x5
  refine .via (x := x5) ?_ fun h5 => ?_
  · subst x5
    exact .modPl h4
  exact .step State.stampNow_changes h5

theorem State.discardData_changes {s : State} :
    Changes [.media, .staged, .tiles, .svc, .poison] s (State.discardData s) := by
  unfold State.discardData
  extract_lets +onlyGivenNames x1 x2
  refine .via (x := x2) ?_ fun h2 => ?_
  · subst x2
    refine .upd (t := s) ?_
    exact .refl
  clear_value x2
  extract_lets +onlyGivenNames x3
  refine .via (x := x3) ?_ fun h3 => ?_
  · subst x3
    refine .forAll ?_ fun a4 x4 h4 => ?_
    · exact h2
    · extract_lets +onlyGivenNames x5
      refine .via (x := x5) ?_ fun h5 => ?_
      · subst x5
        exact .modD h4
      clear_value x5
      extract_lets +onlyGivenNames x6
      refine .via (x := x6) ?_ fun h6 => ?_
      · subst x6
        exact .modPl h5
      clear_value x6
      extract_lets +onlyGivenNames x7
      refine .via (x := x7) ?_ fun h7 => ?_
      · subst x7
        exact .modStaged h6
      clear_value x7
      exact .modMedia h7
  clear_value x3
  extract_lets +onlyGivenNames x8
  refine .via (x := x8) ?_ fun h8 => ?_
  · subst x8
    refine .forAll ?_ fun a9 x9 h9 => ?_
    · exact h3
    · exact .step State.writeUnitRec_changes h9
  clear_value x8
  exact .step State.resizeArea_changes h8

theorem State.endProgram_changes {s : State} {a1 : TileId} {a2 : Context} {a3 : List Nat} :
    Changes [.tiles] s (State.endProgram s a1 a2 a3) := by
  unfold State.endProgram
  extract_lets +onlyGivenNames x1
  refine .via (x := x1) ?_ fun h1 => ?_
  · subst x1
    exact .step State.endCtx_changes .refl
  clear_value x1
  refine .ite ?_ ?_
  · exact h1
  · extract_lets +onlyGivenNames x2
    exact .modEng h1

theorem execEventFlushDone_changes {s : State} :
    Ends [.nv, .evr, .tiles, .heads] s (execEventFlushDone s) := by
  unfold execEventFlushDone
  refine .ite ?_ ?_
  · exact .next .refl
  · exact .next (.step State.closeEventFlush_changes .refl)

theorem State.writeCopy_changes {s : State} {a1 : TileId} {a2 : Fin 2} {a3 : List Byte} :
    Changes [.nv, .tiles] s (State.writeCopy s a1 a2 a3) := by
  unfold State.writeCopy
  exact .step State.flashStart_changes .refl

theorem State.startCommit_changes {s : State} {a1 : List Byte} {a2 : Bool} {a3 : Bool} {a4 : Nat} :
    Changes [.nv, .cfg, .tiles] s (State.startCommit s a1 a2 a3 a4) := by
  unfold State.startCommit
  extract_lets +onlyGivenNames x1 x2 x3 x4
  refine .via (x := x4) ?_ fun h4 => ?_
  · subst x4
    exact .upd (t := s) .refl
  refine .forAll ?_ fun a5 x5 h5 => ?_
  · exact h4
  · exact .step State.writeCopy_changes h5

theorem execCommitConfiguration_changes {a0 : Iface} {s : State} :
    Ends [.nv, .sys, .cfg, .tiles, .heads, .svc] s (execCommitConfiguration a0 s) := by
  unfold execCommitConfiguration
  refine .ite ?_ ?_
  · exact .next .refl
  · refine .command fun a1 => ?_
    split
    · exact .step State.mbFinish_changes .refl
    · refine .ite ?_ ?_
      · exact .step State.mbFinish_changes .refl
      · refine .ite ?_ ?_
        · exact .step State.mbFinish_changes .refl
        · refine .ite ?_ ?_
          · exact .step State.mbFinish_changes (.step State.supplyRefused_changes .refl)
          · extract_lets +onlyGivenNames x2
            refine .via (x := x2) ?_ fun h2 => ?_
            · subst x2
              exact .step State.startCommit_changes .refl
            clear_value x2
            refine .upd (t := x2) ?_
            exact h2

theorem State.wrongPw_changes {s : State} {a1 : Iface} {a2 : Bool} :
    Changes [.evr, .sec, .heads, .svc] s (State.wrongPw s a1 a2) := by
  unfold State.wrongPw
  extract_lets +onlyGivenNames x1 x2 x3
  refine .via (x := x3) ?_ fun h3 => ?_
  · subst x3
    exact .upd (t := s) .refl
  extract_lets +onlyGivenNames x4
  refine .via (x := x4) ?_ fun h4 => ?_
  · subst x4
    exact .step State.raise_changes h3
  extract_lets +onlyGivenNames x5
  refine .via (x := x5) ?_ fun h5 => ?_
  · subst x5
    refine .ite ?_ ?_
    · exact .step State.raise_changes h4
    · exact h4
  exact .step State.mbFinish_changes h5

theorem Changes.withPw {s t : State} {gs : List Group} {m : Iface} {user : Bool} {pw : List Byte} {ok : State → State}
    (h : Changes gs s t) (hk : ∀ u, Changes gs s u → Changes gs s (ok u))
    (hg : ([.sec, .heads, .evr, .svc] : List Group).all gs.contains = true := by rfl) :
    Changes gs s (t.withPw m user pw ok) := by
  have hm : ([.heads, .svc] : List Group).all gs.contains = true := by
    simp only [List.all_cons, List.all_nil, Bool.and_true, Bool.and_eq_true] at hg ⊢
    exact ⟨hg.2.1, hg.2.2.2⟩
  unfold State.withPw
  split
  · exact .step State.mbFinish_changes h hm
  · split
    · exact .step State.mbFinish_changes h hm
    · split
      · exact hk _ h
      · split
        · exact hk _ h
        · refine .step State.wrongPw_changes h ?_
          simp only [List.all_cons, List.all_nil, Bool.and_true, Bool.and_eq_true] at hg ⊢
          exact ⟨hg.2.2.1, hg.1, hg.2.1, hg.2.2.2⟩

theorem State.storeKeySet_changes {s : State} {a1 : Iface} {a2 : KeySet} :
    Changes [.nv, .sys, .prm, .sec, .tiles, .heads, .svc] s (State.storeKeySet s a1 a2) := by
  unfold State.storeKeySet
  refine .ite ?_ ?_
  · exact .step State.mbFinish_changes (.step State.supplyRefused_changes .refl)
  · extract_lets +onlyGivenNames x1
    refine .via (x := x1) ?_ fun h1 => ?_
    · subst x1
      exact .step State.keyStart_changes .refl
    exact .upd (t := x1) h1

theorem execSetPassphrase_changes {a0 : Iface} {s : State} :
    Ends [.fv, .nv, .sys, .prm, .evr, .sec, .tiles, .heads, .svc] s (execSetPassphrase a0 s) := by
  unfold execSetPassphrase
  refine .command fun a1 => ?_
  extract_lets +onlyGivenNames x2
  refine .ite ?_ ?_
  · exact .step State.mbFinish_changes .refl
  · refine .withPw ?_ fun x3 h3 => ?_
    · exact .refl
    · split
      · rename_i x4 e4
        refine .via (Changes.ofPair e4 ?_) fun h4 => ?_
        · exact .step State.draw_changes h3
        extract_lets +onlyGivenNames x5
        exact .step State.storeKeySet_changes h4

theorem execGetLog_changes {a0 : Iface} {s : State} :
    Ends [.heads, .svc] s (execGetLog a0 s) := by
  unfold execGetLog
  refine .command fun a1 => ?_
  refine .ite ?_ ?_
  · exact .step State.mbFinish_changes .refl
  · exact .step State.reply_changes .refl

theorem State.endExcluded_changes {s : State} {a1 : TileId} :
    Changes [.tiles] s (State.endExcluded s a1) := by
  unfold State.endExcluded
  extract_lets +onlyGivenNames x1 x2 x3
  exact .modD .refl

theorem State.foldExclude_changes {s : State} {a1 : TileId} {a2 : Fold} :
    Changes [.media, .staged, .evr, .clk, .tiles, .heads] s (State.foldExclude s a1 a2) := by
  unfold State.foldExclude
  extract_lets +onlyGivenNames x1 x2 x3 x4
  refine .via (x := x4) ?_ fun h4 => ?_
  · subst x4
    exact .step State.modFold_changes .refl
  clear_value x4
  extract_lets +onlyGivenNames x5
  refine .via (x := x5) ?_ fun h5 => ?_
  · subst x5
    exact .modD h4
  clear_value x5
  extract_lets +onlyGivenNames x6
  refine .via (x := x6) ?_ fun h6 => ?_
  · subst x6
    exact .step State.raise_changes h5
  clear_value x6
  extract_lets +onlyGivenNames x7
  refine .via (x := x7) ?_ fun h7 => ?_
  · subst x7
    exact .step State.cutPage_changes h6
  clear_value x7
  extract_lets +onlyGivenNames x8 x9
  refine .step State.endExcluded_changes ?_
  refine .forAll ?_ fun a10 x10 h10 => ?_
  · exact h7
  · refine .ite ?_ ?_
    · exact h10
    · exact .step State.append_changes h10

theorem execPllLockLoss_changes {s : State} :
    Ends [.clk] s (execPllLockLoss s) := by
  unfold execPllLockLoss
  refine .ite ?_ ?_
  · exact .next .refl
  · exact .next (.upd (t := s) .refl)

theorem State.headRound_changes {s : State} {a1 : TileId} :
    Changes [.evr, .heads] s (State.headRound s a1) := by
  unfold State.headRound
  extract_lets +onlyGivenNames x1 x2
  refine .via (x := x2) ?_ fun h2 => ?_
  · subst x2
    refine .ite ?_ ?_
    · exact .refl
    · exact .step State.raise_changes .refl
  extract_lets +onlyGivenNames x3
  refine .via (x := x3) ?_ fun h3 => ?_
  · subst x3
    refine .ite ?_ ?_
    · exact h2
    · exact .step State.raise_changes h2
  exact .modHead h3

theorem State.drawStages_changes {s : State} {a1 : List Bool} :
    Changes [.fv] s (State.drawStages s a1).2 := by
  induction a1 generalizing s with
  | nil => exact .refl
  | cons b r ih =>
    cases b with
    | false => exact ih (s := s)
    | true => exact (ih (s := s.draw.2)).step State.draw_changes

theorem State.sample_changes {s : State} {a1 : Nat} {a2 : Nat} {a3 : Nat} {a4 : Nat} {a5 : Nat} {a6 : BitVec 64} {a7 : List Bool} :
    Changes [.fv, .pmc] s (State.sample s a1 a2 a3 a4 a5 a6 a7) := by
  unfold State.sample
  refine .ite ?_ ?_
  · exact .refl
  · split
    · rename_i x1 e1
      refine .via (Changes.ofPair e1 ?_) fun h1 => ?_
      · exact .step State.drawStages_changes .refl
      extract_lets +onlyGivenNames x2 x3
      exact .upd (t := x1) h1

theorem State.reloadDie_changes {s : State} {a1 : TileId} {a2 : ChanId} {a3 : Fin 9} :
    Changes [.fv, .tiles] s (State.reloadDie s a1 a2 a3) := by
  unfold State.reloadDie
  extract_lets +onlyGivenNames x1
  exact .step State.sendTables_changes .refl

theorem State.flashNext_changes {s : State} {a1 : TileId} {a2 : Fin 2} :
    Changes [.nv, .tiles] s (State.flashNext s a1 a2) := by
  unfold State.flashNext
  extract_lets +onlyGivenNames x1
  refine .via (x := x1) ?_ fun h1 => ?_
  · subst x1
    exact .modCfl .refl
  split
  · exact h1
  · exact .step State.flashStart_changes (.modCfl h1)

theorem execJtagAccess_changes {a0 : Fin 9} {a1 : JtagKind} {a2 : Nat} {s : State} :
    Ends [.fv, .sys, .svc] s (execJtagAccess a0 a1 a2 s) := by
  unfold execJtagAccess
  extract_lets +onlyGivenNames x1 x2 x3
  refine .ite ?_ ?_
  · exact .next .refl
  · extract_lets +onlyGivenNames x4
    refine .ite ?_ ?_
    · extract_lets +onlyGivenNames x5 x6
      refine .via (x := x6) ?_ fun h6 => ?_
      · subst x6
        exact .upd (t := s) .refl
      refine .next ?_
      subst x3
      exact .upd (t := x6) h6
    · refine .ite ?_ ?_
      · refine .next ?_
        subst x3
        exact .upd (t := s) .refl
      · split
        · rename_i x7 e7
          refine .via (Changes.ofPair e7 ?_) fun h7 => ?_
          · exact .step State.draw_changes .refl
          refine .next ?_
          subst x3
          exact .upd (t := x7) h7

theorem State.noteRead_changes {s : State} {a1 : TileId} {a2 : ChanId} {a3 : LineRead} :
    Changes [.pmc, .tiles] s (State.noteRead s a1 a2 a3) := by
  unfold State.noteRead
  split
  · exact .step State.noteCorrected_changes .refl
  · exact .modIt .refl
  · exact .refl

theorem State.newLoad_changes {s : State} {a1 : LoadReq} :
    Changes [.fv, .sys, .evr, .pmc, .clk, .tiles, .heads, .loads, .nextReq, .fab, .mesh, .poison] s (State.newLoad s a1) := by
  unfold State.newLoad
  extract_lets +onlyGivenNames x1 x2
  refine .via (x := x2) ?_ fun h2 => ?_
  · subst x2
    exact .step State.ungate_changes .refl
  exact .step State.startLoad_changes (.upd (t := x2) h2)

theorem State.rescueLost_changes {s : State} {a1 : TileId} {a2 : List Nat} {a3 : List Nat} :
    Changes [.media, .evr, .heads, .poison] s (State.rescueLost s a1 a2 a3) := by
  unfold State.rescueLost
  extract_lets +onlyGivenNames x1
  refine .via (x := x1) ?_ fun h1 => ?_
  · subst x1
    refine .forAll ?_ fun a2 x2 h2 => ?_
    · exact .refl
    · exact .step State.listPoison_changes h2
  clear_value x1
  extract_lets +onlyGivenNames x3
  refine .via (x := x3) ?_ fun h3 => ?_
  · subst x3
    exact .modMedia h1
  clear_value x3
  refine .ite ?_ ?_
  · exact h3
  · exact .step State.raise_changes h3

theorem execWriteVendorRegister_changes {a0 : Iface} {s : State} :
    Ends [.evr, .pmc, .seq, .tiles, .heads, .fab, .mesh, .svc] s (execWriteVendorRegister a0 s) := by
  unfold execWriteVendorRegister
  refine .ite ?_ ?_
  · exact .next .refl
  · refine .vendorWrite fun a1 b1 x1 h1 => ?_
    exact .step State.plainWrite_changes h1

theorem State.notePage_changes {s : State} {a1 : TileId} {a2 : ChanId} {a3 : Fin 9} {a4 : Nat} :
    Changes [.fv, .sys, .evr, .pmc, .seq, .clk, .tiles, .heads, .fab, .mesh, .poison] s (State.notePage s a1 a2 a3 a4) := by
  unfold State.notePage
  split
  rename_i x0 e0
  refine .via (Changes.ofTriple e0 (.step State.noteIn_changes .refl)) fun h0 => ?_
  extract_lets +onlyGivenNames x1
  refine .via (x := x1) ?_ fun h1 => ?_
  · subst x1
    exact .modIt h0
  refine .ite ?_ ?_
  · exact .step State.failDie_changes h1
  · exact h1

theorem State.suspendSent_changes {s : State} {a1 : TileId} {a2 : ChanId} {a3 : Fin 9} {a4 : Fin 16} {a5 : List Nat} {a6 : Bool} :
    Changes [.fv, .tiles] s (State.suspendSent s a1 a2 a3 a4 a5 a6).2 := by
  unfold State.suspendSent
  exact .snd (.step State.send_changes .refl)

theorem State.gpfStart_changes {s : State} :
    Changes [.clk, .tiles] s (State.gpfStart s) := by
  unfold State.gpfStart
  refine .forAll ?_ fun a1 x1 h1 => ?_
  · exact .refl
  · extract_lets +onlyGivenNames x2 x3
    refine .via (x := x3) ?_ fun h3 => ?_
    · subst x3
      exact .modD h1
    exact .step State.stageAll_changes h3

theorem execGpfFlushDone_changes {a0 : Vector Nat 8} {s : State} :
    Ends [.sys, .clk, .tiles, .heads] s (execGpfFlushDone a0 s) := by
  unfold execGpfFlushDone
  refine .ite ?_ ?_
  · exact .next .refl
  · extract_lets +onlyGivenNames x1
    refine .via (x := x1) ?_ fun h1 => ?_
    · subst x1
      refine .forAll ?_ fun a2 x2 h2 => ?_
      · exact .refl
      · exact .modD h2
    clear_value x1
    extract_lets +onlyGivenNames x3
    refine .via (x := x3) ?_ fun h3 => ?_
    · subst x3
      refine .upd (t := x1) ?_ (hh := by with_reducible exact fun h => heads_vmap h)
      exact h1
    clear_value x3
    refine .next ?_
    refine .ite ?_ ?_
    · exact .step State.gpfStart_changes h3
    · exact .step State.sleepDrain_changes h3

theorem State.pulsesEnd_changes {s : State} {a1 : TileId} {a2 : WorkItem} :
    Changes [.tiles] s (State.pulsesEnd s a1 a2) := by
  unfold State.pulsesEnd
  refine .forAll ?_ fun a1 x1 h1 => ?_
  · exact .refl
  · exact .step State.modPart_changes h1

theorem State.sendNull_changes {s : State} {a1 : PortId} :
    Changes [.fv, .pmc, .fab, .mesh] s (State.sendNull s a1) := by
  unfold State.sendNull
  split
  · rename_i x1 e1
    refine .via (Changes.ofPair e1 ?_) fun h1 => ?_
    · exact .step State.pick_changes .refl
    exact h1
  · rename_i x2 e2
    refine .via (Changes.ofPair e2 ?_) fun h2 => ?_
    · exact .step State.pick_changes .refl
    extract_lets +onlyGivenNames x3
    refine .via (x := x3) ?_ fun h3 => ?_
    · subst x3
      exact .step State.modLink_changes (.step State.modLink_changes h2)
    split
    · exact .step State.count_changes h3
    · exact h3

theorem State.sendReturns_changes {s : State} {a1 : PortId} :
    Changes [.fv, .pmc, .fab, .mesh] s (State.sendReturns s a1) := by
  unfold State.sendReturns
  extract_lets +onlyGivenNames x1
  refine .via (x := x1) ?_ fun h1 => ?_
  · subst x1
    exact .step State.pump_changes .refl
  refine .ite ?_ ?_
  · exact .step State.sendNull_changes h1
  · exact h1

theorem State.sendRetry_changes {s : State} {a1 : PortId} :
    Changes [.fab, .mesh] s (State.sendRetry s a1) := by
  unfold State.sendRetry
  extract_lets +onlyGivenNames x1
  refine .via (x := x1) ?_ fun h1 => ?_
  · subst x1
    exact .step State.modLink_changes .refl
  clear_value x1
  refine .forAll ?_ fun a2 x2 h2 => ?_
  · exact h1
  · exact .step State.startFlit_changes h2

theorem State.badFlit_changes {s : State} {a1 : PortId} :
    Changes [.fv, .pmc, .fab, .mesh] s (State.badFlit s a1) := by
  unfold State.badFlit
  extract_lets +onlyGivenNames x1 x2
  refine .via (x := x2) ?_ fun h2 => ?_
  · subst x2
    exact .step State.modLink_changes .refl
  extract_lets +onlyGivenNames x3 x4
  refine .via (x := x4) ?_ fun h4 => ?_
  · subst x4
    exact .step State.modLink_changes h2
  refine .ite ?_ ?_
  · exact .step State.sendReturns_changes h4
  · exact .step State.sendRetry_changes (.step State.modLink_changes h4)

theorem State.meshForward_changes {s : State} {a1 : MMsg} :
    Changes [.pmc, .clk, .fab, .mesh] s (State.meshForward s a1) := by
  unfold State.meshForward
  extract_lets +onlyGivenNames x1 x2
  refine .ite ?_ ?_
  · exact .refl
  · refine .ite ?_ ?_
    · subst x2
      refine .ite ?_ ?_
      · exact .upd (t := s) .refl
      · split
        · exact .step State.peerPut_changes (.upd (t := s) .refl)
        · exact .upd (t := s) .refl
    · refine .ite ?_ ?_
      · exact .upd (t := s) .refl
      · split
        · subst x2
          refine .ite ?_ ?_
          · exact .upd (t := s) .refl
          · split
            · exact .step State.peerPut_changes (.upd (t := s) .refl)
            · exact .upd (t := s) .refl
        · extract_lets +onlyGivenNames x3 x4
          refine .via (x := x4) ?_ fun h4 => ?_
          · subst x4
            exact .upd (t := s) .refl
          exact .step State.count_changes (.step State.peerPut_changes h4)

theorem State.sendHeld_changes {s : State} :
    Changes [.pmc, .clk, .fab, .mesh] s (State.sendHeld s) := by
  unfold State.sendHeld
  extract_lets +onlyGivenNames x1
  refine .forAll ?_ fun a2 x2 h2 => ?_
  · exact .upd (t := s) .refl
  · refine .ite ?_ ?_
    · exact .step State.meshForward_changes h2
    · split
      · exact .step State.peerPut_changes h2
      · exact .upd (t := x2) h2

theorem State.issue_changes {s : State} {a1 : TileId} {a2 : Context} {a3 : Fin 9} {a4 : List Nat} {a5 : List Nat} :
    Changes [.fv, .tiles] s (State.issue s a1 a2 a3 a4 a5) := by
  unfold State.issue
  extract_lets +onlyGivenNames x1
  exact .step State.send_changes .refl

theorem Changes.homeRead {s t : State} {gs : List Group} {i : TileId} {r : LoadReq} {u w : Nat} {f : State → State} (h : Changes gs s t)
    (hf : ∀ x, Changes gs s x → Changes gs s (f x))
    (hg : ([.fv, .sys, .evr, .pmc, .clk, .tiles, .heads, .loads, .nextReq, .fab, .mesh, .poison] : List Group).all gs.contains = true := by rfl) :
    Changes gs s (t.homeRead i r u w f) := by
  unfold State.homeRead
  dsimp only
  split
  · exact .ite (.step State.serveFold_changes h hg) (hf _ h)
  · exact hf _ h

theorem State.deadRead_changes {s : State} {a1 : TileId} {a2 : Context} {a3 : Nat} :
    Changes [.fv, .sys, .evr, .pmc, .clk, .tiles, .heads, .loads, .nextReq, .fab, .mesh, .poison] s (State.deadRead s a1 a2 a3) := by
  unfold State.deadRead
  extract_lets +onlyGivenNames x1 x2
  refine .via (x := x2) ?_ fun h2 => ?_
  · subst x2
    exact .step State.endCtx_changes .refl
  clear_value x2
  split
  · split
    · exact h2
    · extract_lets +onlyGivenNames x3
      refine .ite ?_ ?_
      · refine .ite ?_ ?_
        · exact .step State.stripeRung_changes h2
        · exact .step State.modLoad_changes h2
      · refine .ite ?_ ?_
        · refine .homeRead ?_ fun x4 h4 => ?_
          · exact h2
          · exact .step State.pageRung_changes h4
        · exact .step State.modLoad_changes h2
  · exact h2

theorem State.suspendMissed_changes {s : State} {a1 : TileId} {a2 : ChanId} {a3 : Fin 9} {a4 : Context} {a5 : Nat} :
    Changes [.fv, .sys, .evr, .pmc, .seq, .clk, .tiles, .heads, .loads, .nextReq, .fab, .mesh, .poison] s (State.suspendMissed s a1 a2 a3 a4 a5) := by
  unfold State.suspendMissed
  extract_lets +onlyGivenNames x1
  refine .via (x := x1) ?_ fun h1 => ?_
  · subst x1
    exact .modCh .refl
  clear_value x1
  extract_lets +onlyGivenNames x2
  refine .via (x := x2) ?_ fun h2 => ?_
  · subst x2
    exact .step State.raise_changes h1
  clear_value x2
  split
  rename_i x3 e3
  refine .via (Changes.ofPair e3 (.step State.lately_changes h2)) fun h3 => ?_
  extract_lets +onlyGivenNames x4
  refine .via (x := x4) ?_ fun h4 => ?_
  · subst x4
    exact .modDie h3
  clear_value x4
  extract_lets +onlyGivenNames x5
  refine .via (x := x5) ?_ fun h5 => ?_
  · subst x5
    exact .step State.deadRead_changes h4
  clear_value x5
  refine .ite ?_ ?_
  · exact .step State.failDie_changes h5
  · exact h5

theorem State.dcrCommit_changes {s : State} {a1 : Iface} {a2 : List Byte → List Byte} {a3 : List Byte} :
    Changes [.nv, .cfg, .tiles, .svc] s (State.dcrCommit s a1 a2 a3) := by
  unfold State.dcrCommit
  extract_lets +onlyGivenNames x1 x2 x3
  refine .via (x := x3) ?_ fun h3 => ?_
  · subst x3
    exact .step State.startCommit_changes (.upd (t := s) .refl)
  exact .upd (t := x3) h3

theorem State.noteContainers_changes {s : State} {a1 : TileId} {a2 : ChanId} :
    Changes [.evr, .heads] s (State.noteContainers s a1 a2) := by
  unfold State.noteContainers
  extract_lets +onlyGivenNames x1 x2 x3
  refine .forAll ?_ fun a4 x4 h4 => ?_
  · exact .refl
  · exact .step State.raise_changes h4

theorem State.prmEnqueue_changes {s : State} {a1 : Nat} {a2 : Nat} {a3 : List Byte} :
    Changes [.prm] s (State.prmEnqueue s a1 a2 a3) := by
  unfold State.prmEnqueue
  exact .upd (t := s) .refl

theorem State.twinEnqueue_changes {s : State} {a1 : Nat} {a2 : Nat} {a3 : List Byte} :
    Changes [.prm] s (State.twinEnqueue s a1 a2 a3) := by
  unfold State.twinEnqueue
  extract_lets +onlyGivenNames x1
  exact .step State.prmEnqueue_changes .refl

theorem execParameterStorePassword_changes {a0 : Iface} {s : State} :
    Ends [.fv, .sys, .prm, .tiles, .heads, .svc] s (execParameterStorePassword a0 s) := by
  unfold execParameterStorePassword
  refine .command fun a1 => ?_
  extract_lets +onlyGivenNames x2 x3 x4 x5 x6 x7 x8
  refine .ite ?_ ?_
  · exact .step State.mbFinish_changes .refl
  · refine .ite ?_ ?_
    · exact .step State.mbFinish_changes .refl
    · refine .ite ?_ ?_
      · refine .step State.mbFinish_changes ?_
        refine .upd (t := s) ?_
        exact .refl
      · split
        · rename_i x9 e9
          refine .via (Changes.ofPair e9 ?_) fun h9 => ?_
          · exact .step State.draw_changes .refl
          clear_value x2; split
          · subst x7
            refine .step State.mbFinish_changes ?_
            refine .upd (t := s) ?_
            exact .refl
          · subst x7
            refine .step State.mbFinish_changes ?_
            refine .upd (t := s) ?_
            exact .refl
          · extract_lets +onlyGivenNames x10
            subst x8
            refine .ite ?_ ?_
            · exact .step State.mbFinish_changes (.step State.supplyRefused_changes h9)
            · extract_lets +onlyGivenNames x11 x12
              refine .via (x := x12) ?_ fun h12 => ?_
              · subst x12
                refine .step State.twinEnqueue_changes ?_
                refine .upd (t := x9) ?_
                exact h9
              clear_value x12
              refine .upd (t := x12) ?_
              exact h12
          · refine .ite ?_ ?_
            · subst x8
              refine .ite ?_ ?_
              · exact .step State.mbFinish_changes (.step State.supplyRefused_changes .refl)
              · extract_lets +onlyGivenNames x13 x14
                refine .via (x := x14) ?_ fun h14 => ?_
                · subst x14
                  refine .step State.twinEnqueue_changes ?_
                  refine .upd (t := s) ?_
                  exact .refl
                clear_value x14
                refine .upd (t := x14) ?_
                exact h14
            · subst x7
              refine .step State.mbFinish_changes ?_
              refine .upd (t := s) ?_
              exact .refl

theorem State.badWord_changes {s : State} {a1 : TileId} {a2 : Bool} {a3 : Bool} :
    Changes [.fv, .sys, .evr, .pmc, .seq, .clk, .tiles, .heads, .fab, .mesh] s (State.badWord s a1 a2 a3) := by
  unfold State.badWord
  extract_lets +onlyGivenNames x1
  refine .via (x := x1) ?_ fun h1 => ?_
  · subst x1
    exact .modIt .refl
  split
  · rename_i x2 e2
    refine .via (Changes.ofPair e2 ?_) fun h2 => ?_
    · exact .step State.draw_changes h1
    split
    · rename_i x3 e3
      refine .via (Changes.ofPair e3 ?_) fun h3 => ?_
      · exact .step State.draw_changes h2
      extract_lets +onlyGivenNames x4
      refine .via (x := x4) ?_ fun h4 => ?_
      · subst x4
        exact .step State.raise_changes h3
      refine .ite ?_ ?_
      · exact .step State.fail_changes h4
      · exact h4

theorem State.badCacheData_changes {s : State} {a1 : TileId} {a2 : Nat} :
    Changes [.evr, .tiles, .heads, .poison] s (State.badCacheData s a1 a2) := by
  unfold State.badCacheData
  split
  · exact .refl
  · refine .ite ?_ ?_
    · exact .modD .refl
    · exact .step State.poisonCached_changes .refl

theorem State.foldGather_changes {s : State} {a1 : TileId} {a2 : Fold} :
    Changes [.clk, .tiles] s (State.foldGather s a1 a2) := by
  unfold State.foldGather
  extract_lets +onlyGivenNames x1
  refine .via (x := x1) ?_ fun h1 => ?_
  · subst x1
    refine .forAll ?_ fun a2 x2 h2 => ?_
    · exact .refl
    · extract_lets +onlyGivenNames x3 x4 x5
      refine .forAll ?_ fun a6 x6 h6 => ?_
      · exact h2
      · exact .step State.foldRead_changes h6
  clear_value x1
  refine .ite ?_ ?_
  · exact h1
  · exact .step State.foldShares_changes h1

theorem State.foldClaim_changes {s : State} {a1 : TileId} {a2 : Nat} {a3 : Nat} {a4 : Bool} :
    Changes [.clk, .tiles] s (State.foldClaim s a1 a2 a3 a4) := by
  unfold State.foldClaim
  extract_lets +onlyGivenNames x1 x2 x3
  exact .step State.foldGather_changes (.modD .refl)

theorem State.cutContexts_changes {s : State} {a1 : TileId} {a2 : WorkUse} :
    Changes [.media, .staged, .tiles] s (State.cutContexts s a1 a2) := by
  unfold State.cutContexts
  extract_lets +onlyGivenNames x1
  refine .step State.endContexts_changes ?_
  refine .forAll ?_ fun a2 x2 h2 => ?_
  · exact .refl
  · exact .step State.cutPage_changes h2

theorem State.foldRestart_changes {s : State} {a1 : TileId} {a2 : Fold} :
    Changes [.media, .staged, .clk, .tiles] s (State.foldRestart s a1 a2) := by
  unfold State.foldRestart
  exact .step State.foldClaim_changes (.step State.cutContexts_changes .refl)

theorem State.sramBad_changes {s : State} {a1 : TileId} {a2 : SramWord} {a3 : Bool} :
    Changes [.fv, .nv, .media, .staged, .aon, .sys, .boot, .cfg, .prm, .evr, .bbx, .pmc, .sec, .seq, .hld, .flush, .pwr, .clk, .thm, .tiles, .heads, .loads, .nextReq, .fab, .guest, .mesh, .svc, .poison, .prmData, .lsa, .tcm, .scratch] s (State.sramBad s a1 a2 a3) := by
  unfold State.sramBad
  split
  · exact .step State.badCacheData_changes (.step State.badWord_changes .refl)
  · exact .step State.badWord_changes .refl
  · exact .modIt (.step State.badWord_changes .refl)
  · exact .modPl (.step State.badWord_changes .refl)
  · exact .step State.badWord_changes .refl
  · refine .modD' ?_ fun x h => by dsimp only; repeat' (first | exact h | rfl | split)
    exact .step State.badWord_changes .refl
  · exact .step State.reloadDie_changes (.step State.badWord_changes .refl)
  · split
    · exact .step State.foldRestart_changes (.step State.badWord_changes .refl)
    · exact .refl
  · exact .step State.internalFatal_changes (.step State.badWord_changes .refl)
  · exact .modNv (.step State.badWord_changes .refl)
  · exact .step State.badWord_changes .refl

theorem State.sramVisit_changes {s : State} {a1 : TileId} {a2 : SramWord} {a3 : SramAccess} {a4 : SramAccess} :
    Changes [.fv, .nv, .media, .staged, .aon, .sys, .boot, .cfg, .prm, .evr, .bbx, .pmc, .sec, .seq, .hld, .flush, .pwr, .clk, .thm, .tiles, .heads, .loads, .nextReq, .fab, .guest, .mesh, .svc, .poison, .prmData, .lsa, .tcm, .scratch] s (State.sramVisit s a1 a2 a3 a4) := by
  unfold State.sramVisit
  extract_lets +onlyGivenNames x1 x2 x3 x4 x5 x6
  refine .via (x := x6) ?_ fun h6 => ?_
  · subst x6
    exact .modIt .refl
  clear_value x6
  refine .ite ?_ ?_
  · exact .step State.badWord_changes h6
  · refine .ite ?_ ?_
    · exact .step State.sramBad_changes h6
    · refine .ite ?_ ?_
      · exact .step State.sramBad_changes h6
      · exact h6

theorem State.freeSeg_changes {s : State} {a1 : TileId} {a2 : Segment} :
    Changes [.staged, .tiles] s (State.freeSeg s a1 a2) := by
  unfold State.freeSeg
  extract_lets +onlyGivenNames x1
  refine .via (x := x1) ?_ fun h1 => ?_
  · subst x1
    exact .modD .refl
  exact .modStaged h1

theorem State.freeSegments_changes {s : State} {a1 : TileId} :
    Changes [.staged, .clk, .tiles] s (State.freeSegments s a1) := by
  unfold State.freeSegments
  extract_lets +onlyGivenNames x1 x2
  refine .via (x := x2) ?_ fun h2 => ?_
  · subst x2
    refine .forAll ?_ fun a3 x3 h3 => ?_
    · exact .refl
    · extract_lets +onlyGivenNames x4
      refine .ite ?_ ?_
      · refine .forAll ?_ fun a5 x5 h5 => ?_
        · exact h3
        · exact .step State.append_changes h5
      · exact h3
  clear_value x2
  refine .forAll ?_ fun a6 x6 h6 => ?_
  · exact h2
  · refine .ite ?_ ?_
    · exact .step State.freeSeg_changes h6
    · exact h6

theorem execUnitRecordWrite_changes {a0 : TileId} {a1 : Nat} {s : State} :
    Ends [.media, .staged, .clk, .tiles] s (execUnitRecordWrite a0 a1 s) := by
  unfold execUnitRecordWrite
  refine .ite ?_ ?_
  · exact .next (.step State.freeSegments_changes (.step State.writeUnitRec_changes .refl))
  · exact .next .refl

theorem execGetFwInfo_changes {a0 : Iface} {s : State} :
    Ends [.heads, .svc] s (execGetFwInfo a0 s) := by
  unfold execGetFwInfo
  refine .command fun a1 => ?_
  extract_lets +onlyGivenNames x2
  exact .step State.reply_changes .refl

theorem State.foldRepeat_changes {s : State} {a1 : TileId} {a2 : Fold} :
    Changes [.media, .staged, .evr, .pmc, .clk, .tiles, .heads] s (State.foldRepeat s a1 a2) := by
  unfold State.foldRepeat
  extract_lets +onlyGivenNames x1
  refine .ite ?_ ?_
  · extract_lets +onlyGivenNames x2
    refine .via (x := x2) ?_ fun h2 => ?_
    · subst x2
      refine .ite ?_ ?_
      · exact .step State.remapSlot_changes .refl
      · exact .refl
    clear_value x2
    refine .ite ?_ ?_
    · exact .step State.foldProgram_changes (.step State.count_changes (.step State.modFold_changes h2))
    · exact .step State.foldExclude_changes h2
  · exact .step State.foldProgram_changes (.step State.count_changes (.step State.remapSlot_changes .refl))

theorem State.noteProgram_changes {s : State} {a1 : TileId} {a2 : Nat} {a3 : Nat} {a4 : BitVec 8} :
    Changes [.fv, .sys, .evr, .pmc, .seq, .clk, .tiles, .heads, .fab, .mesh, .poison] s (State.noteProgram s a1 a2 a3 a4) := by
  unfold State.noteProgram
  extract_lets +onlyGivenNames x1
  split
  · exact .step State.noteSlot_changes .refl
  · exact .refl

theorem execFoldProgramEnd_changes {a0 : TileId} {a1 : Nat} {a2 : Nat} {a3 : Unit} {s : State} :
    Ends [.fv, .media, .staged, .sys, .evr, .pmc, .seq, .clk, .tiles, .heads, .fab, .mesh, .poison] s (execFoldProgramEnd a0 a1 a2 a3 s) := by
  unfold execFoldProgramEnd
  split
  · exact .next .refl
  · exact .next .refl
  · refine .ite ?_ ?_
    · exact .next .refl
    · extract_lets +onlyGivenNames x1
      refine .via (x := x1) ?_ fun h1 => ?_
      · subst x1
        exact .step State.count_changes (.step State.endContexts_changes .refl)
      clear_value x1
      extract_lets +onlyGivenNames x2
      refine .ite ?_ ?_
      · exact .next (.step State.foldRepeat_changes (.step State.noteProgram_changes (.step State.cutPage_changes h1)))
      · extract_lets +onlyGivenNames x3 x4
        refine .via (x := x4) ?_ fun h4 => ?_
        · subst x4
          exact .step State.putPage_changes h1
        clear_value x4
        refine .ite ?_ ?_
        · extract_lets +onlyGivenNames x5
          refine .via (x := x5) ?_ fun h5 => ?_
          · subst x5
            exact .step State.stampNow_changes (.step State.counted_changes h4)
          clear_value x5
          extract_lets +onlyGivenNames x6
          refine .via (x := x6) ?_ fun h6 => ?_
          · subst x6
            exact .step State.modFold_changes h5
          clear_value x6
          refine .ite ?_ ?_
          · exact .next (.step State.foldProgram_changes h6)
          · exact .next (.step State.foldProgrammed_changes h6)
        · exact .next (.step State.foldProgrammed_changes h4)

theorem State.linkUpEvents_changes {s : State} {a1 : PortId} {a2 : List (Nat × Nat)} :
    Changes [.evr, .heads] s (State.linkUpEvents s a1 a2) := by
  unfold State.linkUpEvents
  extract_lets +onlyGivenNames x1 x2
  refine .via (x := x2) ?_ fun h2 => ?_
  · subst x2
    exact .step State.raise_changes .refl
  refine .ite ?_ ?_
  · exact .step State.raise_changes h2
  · exact h2

theorem State.resumeLink_changes {s : State} {a1 : PortId} {a2 : Nat} {a3 : BitVec 10} :
    Changes [.pmc, .fab, .mesh] s (State.resumeLink s a1 a2 a3) := by
  unfold State.resumeLink
  extract_lets +onlyGivenNames x1
  refine .via (x := x1) ?_ fun h1 => ?_
  · subst x1
    exact .step State.modLink_changes .refl
  clear_value x1
  exact .step State.pump_changes (.step State.replay_changes h1)

theorem State.linkUp_changes {s : State} {a1 : PortId} {a2 : InitFlit} :
    Changes [.sys, .evr, .pmc, .heads, .fab, .mesh] s (State.linkUp s a1 a2) := by
  unfold State.linkUp
  extract_lets +onlyGivenNames x1 x2 x3 x4
  refine .via (x := x4) ?_ fun h4 => ?_
  · subst x4
    exact .step State.modLink_changes .refl
  clear_value x4
  extract_lets +onlyGivenNames x5
  refine .via (x := x5) ?_ fun h5 => ?_
  · subst x5
    refine .ite ?_ ?_
    · exact .step State.modLink_changes h4
    · exact h4
  clear_value x5
  extract_lets +onlyGivenNames x6
  refine .via (x := x6) ?_ fun h6 => ?_
  · subst x6
    refine .ite ?_ ?_
    · exact .step State.resumeLink_changes h5
    · exact h5
  clear_value x6
  extract_lets +onlyGivenNames x7
  refine .via (x := x7) ?_ fun h7 => ?_
  · subst x7
    exact .step State.markBonded_changes h6
  clear_value x7
  split
  · refine .ite ?_ ?_
    · exact h7
    · exact .step State.clearCause_changes h7
  · exact h7

theorem State.applyRoutes_changes {s : State} :
    Changes [.fab] s (State.applyRoutes s) := by
  unfold State.applyRoutes
  refine .upd (t := s) ?_ (hf := by with_reducible exact fab_vmap (by intros; repeat' (first | with_reducible exact ⟨rfl, rfl⟩ | split)))
  exact .refl

theorem execWidarInit_changes {a0 : TileId} {a1 : Fin 4} {a2 : List Byte} {s : State} :
    Ends [.sys, .evr, .pmc, .heads, .fab, .guest, .mesh] s (execWidarInit a0 a1 a2 s) := by
  unfold execWidarInit
  extract_lets +onlyGivenNames x1 x2
  split
  · exact .next .refl
  · refine .ite ?_ ?_
    · exact .next .refl
    · refine .ite ?_ ?_
      · exact .next (.step State.raise_changes .refl)
      · refine .ite ?_ ?_
        · exact .next .refl
        · extract_lets +onlyGivenNames x3
          refine .via (x := x3) ?_ fun h3 => ?_
          · subst x3
            exact .step State.linkUpEvents_changes (.step State.linkUp_changes .refl)
          clear_value x3
          extract_lets +onlyGivenNames x4 x5
          refine .via (x := x5) ?_ fun h5 => ?_
          · subst x5
            refine .upd (t := x3) ?_
            exact h3
          clear_value x5
          extract_lets +onlyGivenNames x6
          refine .via (x := x6) ?_ fun h6 => ?_
          · subst x6
            refine .ite ?_ ?_
            · exact .step State.guestAdmit_changes h5
            · exact h5
          clear_value x6
          exact .next (.step State.applyRoutes_changes h6)

theorem State.dropGrant_changes {s : State} {a1 : Nat} {a2 : Nat} {a3 : Nat} :
    Changes [.svc] s (State.dropGrant s a1 a2 a3) := by
  unfold State.dropGrant
  extract_lets +onlyGivenNames x1
  exact .upd (t := s) .refl

theorem State.releaseRanges_changes {s t : State} {a1 : TileId} {a2 : List (Nat × Nat × Bool)}
    (e : State.releaseRanges s a1 a2 = .ok t) : Changes [.svc] s t := by
  induction a2 generalizing s with
  | nil => cases e; exact .refl
  | cons x r ih =>
    unfold State.releaseRanges at e
    split at e
    · cases e
    · split at e
      · exact (ih e).step State.dropGrant_changes
      · cases e

theorem State.releasesEnd_changes {s : State} {a1 : TileId} {a2 : List (Nat × Nat × Bool)} :
    Changes [.svc] s (State.releasesEnd s a1 a2) := by
  unfold State.releasesEnd
  extract_lets +onlyGivenNames x1
  exact .upd (t := s) .refl

theorem execInitiateDynamicCapacityRelease_changes {a0 : Iface} {s : State} :
    Ends [.heads, .svc] s (execInitiateDynamicCapacityRelease a0 s) := by
  unfold execInitiateDynamicCapacityRelease
  refine .command fun a1 => ?_
  extract_lets +onlyGivenNames x2 x3 x4 x5
  split
  · exact .step State.mbFinish_changes .refl
  · refine .ite ?_ ?_
    · exact .step State.mbFinish_changes .refl
    · split
      · exact .step State.mbFinish_changes .refl
      · rename_i x6 e6
        refine .via (.step (State.releaseRanges_changes e6) ?_) fun h6 => ?_
        · exact .refl
        refine .ite ?_ ?_
        · exact .step State.mbFinish_changes (.step State.dcRecords_changes (.step State.releasesEnd_changes h6))
        · extract_lets +onlyGivenNames x7 x8
          refine .via (x := x8) ?_ fun h8 => ?_
          · subst x8
            refine .upd (t := s) ?_
            exact .refl
          clear_value x8
          exact .step State.mbFinish_changes (.step State.dcRecords_changes h8)

theorem convertWays_wf {a b : Nat} {d : TileData} (h : Memory.wf (fun _ => 0) d.scratch = true) :
    Memory.wf (fun _ => 0) (convertWays a b d).scratch = true := by
  unfold convertWays
  exact Sparse.wfFrom_keep _ _ h

theorem State.convertDone_changes {s : State} {a1 : Iface} {a2 : List Byte} :
    Changes [.fv, .nv, .sys, .cfg, .evr, .pmc, .clk, .tiles, .heads, .loads, .nextReq, .fab, .mesh, .svc, .poison, .scratch] s (State.convertDone s a1 a2) := by
  unfold State.convertDone
  refine .step State.dcrCommit_changes ?_
  refine .step State.applyBudgets_changes ?_
  refine .forAll .refl fun a x h => ?_
  exact .modD' h fun d hd => convertWays_wf hd

theorem State.stageLeaving_changes {s : State} {a1 : TileId} :
    Changes [.clk, .tiles] s (State.stageLeaving s a1) := by
  unfold State.stageLeaving
  extract_lets +onlyGivenNames x1
  exact .step State.stageAll_changes .refl

theorem State.cacheCommand_changes {s : State} {a1 : Iface} {a2 : Nat} {a3 : Nat} {a4 : Nat → TileData → Nat × Nat} :
    Ends [.fv, .nv, .sys, .cfg, .evr, .pmc, .clk, .tiles, .heads, .loads, .nextReq, .fab, .mesh, .svc, .poison, .scratch] s (State.cacheCommand s a1 a2 a3 a4) := by
  unfold State.cacheCommand
  split
  · refine .ite ?_ ?_
    · refine .ite ?_ ?_
      · exact .next (.step State.convertDone_changes .refl)
      · refine .next ?_
        refine .forAll ?_ fun a1 x1 h1 => ?_
        · exact .refl
        · exact .step State.stageLeaving_changes h1
    · exact .next .refl
  · refine .ite ?_ ?_
    · exact .next .refl
    · refine .command fun a2 => ?_
      extract_lets +onlyGivenNames x3 x4 x5 x6
      refine .ite ?_ ?_
      · exact .step State.mbFinish_changes .refl
      · refine .ite ?_ ?_
        · exact .step State.mbFinish_changes .refl
        · refine .ite ?_ ?_
          · exact .step State.mbFinish_changes .refl
          · refine .ite ?_ ?_
            · exact .step State.mbFinish_changes (.step State.supplyRefused_changes .refl)
            · extract_lets +onlyGivenNames x7 x8
              refine .via (x := x8) ?_ fun h8 => ?_
              · subst x8
                refine .forAll ?_ fun a9 x9 h9 => ?_
                · exact .refl
                · extract_lets +onlyGivenNames x10
                  refine .via (x := x10) ?_ fun h10 => ?_
                  · subst x10
                    exact .modD h9
                  clear_value x10
                  exact .step State.stageLeaving_changes h10
              clear_value x8
              exact .upd (t := x8) h8

theorem execCachePartition_changes {a0 : Iface} {s : State} :
    Ends [.fv, .nv, .sys, .cfg, .evr, .pmc, .clk, .tiles, .heads, .loads, .nextReq, .fab, .mesh, .svc, .poison, .scratch] s (execCachePartition a0 s) := by
  unfold execCachePartition
  exact .step State.cacheCommand_changes .refl

theorem execHoldupMeasurementStart_changes {s : State} :
    Ends [.hld] s (execHoldupMeasurementStart s) := by
  unfold execHoldupMeasurementStart
  extract_lets +onlyGivenNames x1
  refine .ite ?_ ?_
  · exact .next .refl
  · exact .next (.upd (t := s) .refl)

theorem execPerformanceSnapshot_changes {a0 : Iface} {s : State} :
    Ends [.fv, .pmc, .heads, .svc] s (execPerformanceSnapshot a0 s) := by
  unfold execPerformanceSnapshot
  refine .command fun a1 => ?_
  split
  · rename_i x2 e2
    refine .via (Changes.ofPair e2 ?_) fun h2 => ?_
    · exact .step State.draw_changes .refl
    extract_lets +onlyGivenNames x3 x4 x5 x6
    split
    · subst x6
      refine .step State.mbFinish_changes ?_
      refine .upd (t := x2) ?_
      exact h2
    · subst x6
      refine .step State.mbFinish_changes ?_
      refine .upd (t := x2) ?_
      exact h2
    · subst x6
      refine .step State.mbFinish_changes ?_
      refine .upd (t := x2) ?_
      exact h2
    · subst x6
      refine .step State.mbFinish_changes ?_
      refine .upd (t := x2) ?_
      exact h2
    · exact .step State.mbFinish_changes h2

end Sys2Proof.Machine
end

