-- ==== Sys2Proof/Laws/Changes5.lean ====
section
/-! SUPPORT. Part 5 of the lemmas, one for each operation and each command's meaning, that say which groups of the state it can
change and that it keeps the canonical memories and the bounds. -/

namespace Sys2Proof.Machine

set_option Elab.async false

theorem State.writePart_changes {s : State} {a1 : Nat} {a2 : Nat} {a3 : Nat} {a4 : Option FwImage} :
    Changes [.nv, .tiles] s (State.writePart s a1 a2 a3 a4) := by
  unfold State.writePart
  extract_lets +onlyGivenNames x1 x2
  refine .forAll ?_ fun a3 x3 h3 => ?_
  · exact .refl
  · extract_lets +onlyGivenNames x4
    refine .via (x := x4) ?_ fun h4 => ?_
    · subst x4
      exact .modNv h3
    refine .forAll ?_ fun a5 x5 h5 => ?_
    · exact h4
    · extract_lets +onlyGivenNames x6
      exact .step State.flashStart_changes h5

theorem State.takePart_changes {s : State} {a1 : Iface} {a2 : Nat} {a3 : Nat} {a4 : FwImage} {a5 : Bool} :
    Changes [.nv, .sys, .tiles, .heads, .svc] s (State.takePart s a1 a2 a3 a4 a5) := by
  unfold State.takePart
  refine .ite ?_ ?_
  · exact .step State.mbFinish_changes (.step State.supplyRefused_changes .refl)
  · extract_lets +onlyGivenNames x1
    refine .via (x := x1) ?_ fun h1 => ?_
    · subst x1
      exact .step State.writePart_changes .refl
    exact .upd (t := x1) h1

theorem execTransferFw_changes {a0 : Iface} {a1 : Unit} {s : State} :
    Ends [.nv, .sys, .evr, .tiles, .heads, .svc] s (execTransferFw a0 a1 s) := by
  unfold execTransferFw
  refine .command fun a1 => ?_
  extract_lets +onlyGivenNames x2 x3 x4 x5
  refine .ite ?_ ?_
  · exact .step State.mbFinish_changes .refl
  · refine .ite ?_ ?_
    · split
      · refine .step State.mbFinish_changes ?_
        refine .upd (t := s) ?_
        exact .refl
      · exact .step State.mbFinish_changes .refl
    · refine .ite ?_ ?_
      · refine .ite ?_ ?_
        · exact .step State.mbFinish_changes .refl
        · refine .ite ?_ ?_
          · extract_lets +onlyGivenNames x6
            refine .via (x := x6) ?_ fun h6 => ?_
            · subst x6
              exact .modCfl .refl
            clear_value x6
            exact .step State.mbFinish_changes (.step State.raise_changes h6)
          · refine .ite ?_ ?_
            · exact .step State.mbFinish_changes .refl
            · refine .ite ?_ ?_
              · exact .step State.mbFinish_changes .refl
              · exact .step State.takePart_changes .refl
      · split
        · exact .step State.mbFinish_changes .refl
        · refine .ite ?_ ?_
          · exact .step State.mbFinish_changes .refl
          · exact .step State.takePart_changes .refl

theorem State.asRead_changes {s : State} {a1 : StoredLine} {a2 : LineRead} :
    Changes [.fv] s (State.asRead s a1 a2).2 := by
  unfold State.asRead
  split
  · split
    · rename_i x1 e1
      refine .via (Changes.ofPair e1 ?_) fun h1 => ?_
      · exact .step State.draw_changes .refl
      split
      · exact .snd h1
      · exact .snd h1
  · exact .snd .refl

theorem State.foundPoisoned_changes {s : State} {a1 : Nat} :
    Changes [.evr, .heads, .poison] s (State.foundPoisoned s a1) := by
  unfold State.foundPoisoned
  exact .step State.listPoison_changes .refl

theorem State.ladderGave_changes {s : State} {a1 : LoadReq} {a2 : StoredLine} :
    Changes [.fv, .sys, .evr, .pmc, .clk, .tiles, .heads, .loads, .nextReq, .fab, .mesh, .poison] s (State.ladderGave s a1 a2) := by
  unfold State.ladderGave
  extract_lets +onlyGivenNames x1 x2
  refine .via (x := x2) ?_ fun h2 => ?_
  · subst x2
    refine .ite ?_ ?_
    · exact .step State.listPoison_changes .refl
    · exact .refl
  split
  · rename_i x3 e3
    refine .via (Changes.ofPair e3 ?_) fun h3 => ?_
    · exact .step State.decrypt_changes h2
    exact .step State.loadDone_changes h3

theorem State.homeGave_changes {s : State} {a1 : TileId} {a2 : LoadReq} {a3 : Nat} {a4 : Nat} {a5 : LineRead} :
    Changes [.fv, .sys, .evr, .pmc, .clk, .tiles, .heads, .loads, .nextReq, .fab, .mesh, .poison] s (State.homeGave s a1 a2 a3 a4 a5) := by
  unfold State.homeGave
  split
  · rename_i x1 e1
    refine .via (Changes.ofPair e1 ?_) fun h1 => ?_
    · exact .step State.homeLine_changes .refl
    split
    · rename_i x2 e2
      refine .via (Changes.ofPair e2 ?_) fun h2 => ?_
      · exact .step State.asRead_changes h1
      exact .step State.ladderGave_changes h2

theorem State.pageGave_changes {s : State} {a1 : TileId} {a2 : LoadReq} {a3 : Nat} {a4 : Nat} {a5 : List (Nat × LineRead)} :
    Changes [.fv, .sys, .evr, .pmc, .clk, .tiles, .heads, .loads, .nextReq, .fab, .mesh, .poison] s (State.pageGave s a1 a2 a3 a4 a5) := by
  unfold State.pageGave
  extract_lets +onlyGivenNames x1 x2
  refine .via (x := x2) ?_ fun h2 => ?_
  · subst x2
    exact .modIt .refl
  clear_value x2
  extract_lets +onlyGivenNames x3 x4 x5
  refine .via (x := x5) ?_ fun h5 => ?_
  · subst x5
    refine .ite ?_ ?_
    · exact h2
    · exact .step State.queueRefresh_changes h2
  clear_value x5
  exact .step State.homeGave_changes h5

theorem State.noteReads_changes {s : State} {a1 : TileId} {a2 : ChanId} {a3 : Nat} {a4 : Nat} {a5 : List LineRead} :
    Changes [.pmc, .tiles] s (State.noteReads s a1 a2 a3 a4 a5) := by
  unfold State.noteReads
  refine .forAll ?_ fun a1 x1 h1 => ?_
  · exact .step State.count_changes (.step State.count_changes .refl)
  · exact .step State.noteRead_changes h1

theorem State.learnStamp_changes {s : State} {a1 : TileId} {a2 : Nat} {a3 : Nat} {a4 : Nat} :
    Changes [.tiles] s (State.learnStamp s a1 a2 a3 a4) := by
  unfold State.learnStamp
  extract_lets +onlyGivenNames x1
  refine .ite ?_ ?_
  · exact .refl
  · extract_lets +onlyGivenNames x2
    refine .modD ?_ (hf := by intros; rfl)
    exact .refl

theorem execRecoverySweepVisit_changes {a0 : TileId} {a1 : Nat} {a2 : List (List Nat)} {s : State} :
    Ends [.pmc, .tiles] s (execRecoverySweepVisit a0 a1 a2 s) := by
  unfold execRecoverySweepVisit
  extract_lets +onlyGivenNames x1 x2 x3
  refine .ite ?_ ?_
  · exact .next .refl
  · extract_lets +onlyGivenNames x4 x5 x6 x7
    refine .via (x := x7) ?_ fun h7 => ?_
    · subst x7
      exact .step State.noteReads_changes .refl
    clear_value x7
    extract_lets +onlyGivenNames x8
    refine .via (x := x8) ?_ fun h8 => ?_
    · subst x8
      split
      · exact .step State.learnStamp_changes h7
      · exact .modD h7
    clear_value x8
    exact .next (.modD h8)

theorem execPwrPadRelease_changes {a0 : TileId} {s : State} :
    Ends [.pwr] s (execPwrPadRelease a0 s) := by
  unfold execPwrPadRelease
  extract_lets +onlyGivenNames x1
  refine .ite ?_ ?_
  · exact .next .refl
  · exact .next (.upd (t := s) .refl)

theorem Changes.respond {s t : State} {gs : List Group} {h : TileId} {dl : BitVec 2} {f : Head → Head} (hc : Changes gs s t)
    (hf : ∀ x : Head, (f x).logs = x.logs := by intros; with_reducible rfl)
    (hg : gs.contains .heads = true := by rfl) : Changes gs s (t.respond h dl f) := by
  unfold State.respond
  exact .modHead hc (fun x => hf _) hg

theorem State.sendCmp_changes {s : State} {a1 : TileId} {a2 : BitVec 2} :
    Changes [.heads] s (State.sendCmp s a1 a2) := by
  unfold State.sendCmp
  refine .respond ?_
  exact .refl

theorem State.admitMiss_changes {s : State} {a1 : TileId} {a2 : BitVec 64} {a3 : Nat} :
    Changes [.pmc, .heads] s (State.admitMiss s a1 a2 a3) := by
  unfold State.admitMiss
  extract_lets +onlyGivenNames x1
  exact .step State.count_changes (.modHead .refl)

theorem State.noteLocked_changes {s : State} :
    Changes [.sys] s (State.noteLocked s) := by
  unfold State.noteLocked
  exact .upd (t := s) .refl

theorem trackStore_logs {x : Head} {n : Nat} : (trackStore x n).2.logs = x.logs := by
  unfold trackStore
  dsimp only
  split <;> rfl

theorem State.tracked_changes {s : State} {a1 : TileId} {a2 : Nat} {a3 : BitVec 64} {a4 : Bool} :
    Changes [.heads] s (State.tracked s a1 a2 a3 a4).2 := by
  unfold State.tracked
  split
  · exact .refl
  · split
    · exact .modHead .refl (hf := fun _ => rfl)
    · exact .modHead .refl (hf := fun _ => trackStore_logs)

theorem State.tagStep_changes {s : State} {a1 : TileId} :
    Changes [.fv, .pmc] s (State.tagStep s a1).2.2 := by
  unfold State.tagStep
  split
  · extract_lets +onlyGivenNames x1 x2 x3
    refine .via (x := x3) ?_ fun h3 => ?_
    · subst x3
      exact .upd (t := s) .refl
    split
    · split
      · rename_i x4 e4
        refine .via (Changes.ofPair e4 ?_) fun h4 => ?_
        · exact .step State.draw_changes h3
        exact .snd h4
    · exact .snd h3
  · exact .snd .refl

theorem State.noteDiscard_changes {s : State} :
    Changes [.sys] s (State.noteDiscard s) := by
  unfold State.noteDiscard
  exact .upd (t := s) .refl

theorem State.storeAt_changes {s : State} {a1 : TileId} {a2 : BitVec 64} {a3 : Line} {a4 : BitVec 64} {a5 : Bool} {a6 : Bool} :
    Changes [.fv, .sys, .evr, .pmc, .clk, .tiles, .heads, .loads, .nextReq, .fab, .mesh, .svc, .poison] s (State.storeAt s a1 a2 a3 a4 a5 a6) := by
  unfold State.storeAt
  extract_lets +onlyGivenNames x1
  refine .via (x := x1) ?_ fun h1 => ?_
  · subst x1
    exact .step State.ungate_changes .refl
  clear_value x1
  extract_lets +onlyGivenNames x2
  split
  · exact h1
  · exact .step State.sendCmp_changes (.step State.admitMiss_changes h1)
  · refine .step State.sendCmp_changes ?_
    exact .step State.noteLocked_changes (.step State.count_changes (.step State.tracked_changes h1))
  · split
    · rename_i x3 e3
      refine .via (Changes.ofTriple e3 ?_) fun h3 => ?_
      · exact .step State.tagStep_changes (.step State.count_changes (.step State.tracked_changes h1))
      extract_lets +onlyGivenNames x4
      refine .via (x := x4) ?_ fun h4 => ?_
      · subst x4
        exact .step State.sendCmp_changes (.step State.noteDiscard_changes h3)
      clear_value x4
      refine .ite ?_ ?_
      · exact .step State.sample_changes h4
      · exact h4
  · split
    · rename_i x5 e5
      refine .via (Changes.ofTriple e5 ?_) fun h5 => ?_
      · exact .step State.tagStep_changes (.step State.count_changes h1)
      split
      · rename_i x6 e6
        refine .via (Changes.ofPair e6 ?_) fun h6 => ?_
        · exact .step State.tracked_changes h5
        extract_lets +onlyGivenNames x7
        refine .ite ?_ ?_
        · extract_lets +onlyGivenNames x8
          refine .via (x := x8) ?_ fun h8 => ?_
          · subst x8
            refine .ite ?_ ?_
            · exact h6
            · exact .step State.noteDiscard_changes h6
          clear_value x8
          extract_lets +onlyGivenNames x9
          refine .via (x := x9) ?_ fun h9 => ?_
          · subst x9
            exact .step State.sendCmp_changes h8
          clear_value x9
          refine .ite ?_ ?_
          · exact .step State.sample_changes h9
          · exact h9
        · exact .step State.newStore_changes h6

theorem execMemwr_changes {a0 : TileId} {a1 : BitVec 64} {a2 : Line} {a3 : Bool} {s : State} :
    Ends [.fv, .sys, .evr, .pmc, .clk, .tiles, .heads, .loads, .nextReq, .fab, .mesh, .svc, .poison] s (execMemwr a0 a1 a2 a3 s) := by
  unfold execMemwr
  exact .next (.step State.storeAt_changes .refl)

theorem State.noteFailedPage_changes {s : State} {a1 : TileId} {a2 : Nat} {a3 : Nat} {a4 : List Nat} {a5 : List (Nat × LineRead)} :
    Changes [.fv, .sys, .evr, .pmc, .seq, .clk, .tiles, .heads, .fab, .mesh, .poison] s (State.noteFailedPage s a1 a2 a3 a4 a5) := by
  unfold State.noteFailedPage
  extract_lets +onlyGivenNames x1
  split
  · exact .step State.notePage_changes .refl
  · exact .refl

theorem State.pageRead_changes {s : State} {a1 : TileId} {a2 : Nat} {a3 : Nat} {a4 : PageNoise} :
    Changes [.fv, .sys, .evr, .pmc, .seq, .clk, .tiles, .heads, .fab, .mesh, .poison] s (State.pageRead s a1 a2 a3 a4).2 := by
  unfold State.pageRead
  extract_lets +onlyGivenNames x1 x2 x3 x4 x5
  refine .via (x := x5) ?_ fun h5 => ?_
  · subst x5
    exact .step State.noteReads_changes .refl
  clear_value x5
  extract_lets +onlyGivenNames x6
  refine .via (x := x6) ?_ fun h6 => ?_
  · subst x6
    exact .step State.noteFailedPage_changes h5
  clear_value x6
  split
  · exact .snd h6
  · extract_lets +onlyGivenNames x7
    refine .via (x := x7) ?_ fun h7 => ?_
    · subst x7
      exact .step State.count_changes (.modD h6)
    clear_value x7
    extract_lets +onlyGivenNames x8
    split
    · rename_i x9 e9
      refine .via (Changes.ofPair e9 ?_) fun h9 => ?_
      · split
        · exact .snd h7
        · extract_lets +onlyGivenNames x10
          exact .snd (.step State.noteReads_changes h7)
      refine .snd ?_
      refine .ite ?_ ?_
      · exact .modIt h9
      · exact h9

theorem execInjectPoison_changes {a0 : Iface} {s : State} :
    Ends [.fv, .sys, .evr, .pmc, .clk, .tiles, .heads, .loads, .nextReq, .fab, .mesh, .svc, .poison] s (execInjectPoison a0 s) := by
  unfold execInjectPoison
  refine .command fun a1 => ?_
  extract_lets +onlyGivenNames x2
  refine .ite ?_ ?_
  · exact .step State.mbFinish_changes .refl
  · refine .ite ?_ ?_
    · exact .step State.mbFinish_changes .refl
    · exact .step State.commandStore_changes .refl

theorem State.bbStart_changes {s : State} :
    Changes [.bbx] s (State.bbStart s) := by
  unfold State.bbStart
  extract_lets +onlyGivenNames x1
  exact .upd (t := s) .refl

theorem Evr.QueuesOk.enterAll {α : Type} {l : List EventRec} {f : EventRec → EventRec} {g : α → EventRec → α} {p : Evr × α}
    (h : p.1.QueuesOk) :
    (l.foldl (fun (acc : Evr × α) r => match acc.1.enter (f r) with
      | some e => (e, acc.2)
      | none => (acc.1, g acc.2 r)) p).1.QueuesOk := by
  induction l generalizing p with
  | nil => exact h
  | cons r rest ih =>
    refine ih ?_
    dsimp only
    split
    · rename_i hf
      exact h.of (Evr.enter_queues hf)
    · exact h

theorem Evr.QueuesOk.assignAll {l : List EventRec} {f : EventRec → EventRec} {e : Evr} (h : e.QueuesOk) :
    (l.foldl (fun e r => e.assign (f r)) e).QueuesOk := by
  induction l generalizing e with
  | nil => exact h
  | cons r rest ih => exact ih h.assign

theorem Evr.rebuild_queues {e : Evr} {l : List EventRec} {d : List HeldRec} {w : Vector (BitVec 16) 4} {n m : Nat} {v : List EventRec}
    (h : e.QueuesOk) : (l.foldl (fun (e : Evr) r => e.assign { r with held := true })
      { e with held := d, drops := w, nextSeq := n, limit := m, velvet := v }).QueuesOk :=
  Evr.QueuesOk.assignAll (f := fun r => { r with held := true }) (Evr.QueuesOk.of h)

theorem State.rebuildRecorder_changes {s : State} :
    Changes [.evr, .heads] s (State.rebuildRecorder s) := by
  unfold State.rebuildRecorder
  dsimp only
  refine .ite (.step State.raise_changes ?_) ?_ <;>
    refine .upd (t := s) .refl (he := fun h => ?_) <;>
    exact Evr.rebuild_queues (Evr.QueuesOk.enterAll (p := (s.evr, Vector.replicate 4 0)) (f := fun r => { r with reloaded := true })
      (g := fun a r => vmod a r.sev.idx (satAdd · 1)) h)

theorem State.readHoldup_changes {s : State} :
    Changes [.aon, .hld, .clk] s (State.readHoldup s) := by
  unfold State.readHoldup
  extract_lets +onlyGivenNames x1 x2 x3 x4
  refine .via (x := x4) ?_ fun h4 => ?_
  · subst x4
    exact .upd (t := s) .refl
  refine .ite ?_ ?_
  · extract_lets +onlyGivenNames x5
    exact .upd (t := x4) h4
  · exact h4

theorem State.judgeTwins_changes {s : State} :
    Changes [.evr, .heads] s (State.judgeTwins s) := by
  unfold State.judgeTwins
  refine .forAll ?_ fun a1 x1 h1 => ?_
  · exact .refl
  · split
    · refine .ite ?_ ?_
      · exact .step State.raise_changes h1
      · refine .ite ?_ ?_
        · exact .step State.raise_changes h1
        · exact h1

theorem State.advanceBoot_changes {s : State} :
    Changes [.nv, .evr, .heads, .prmData] s (State.advanceBoot s) := by
  unfold State.advanceBoot
  extract_lets +onlyGivenNames x1 x2 x3 x4 x5
  refine .via (x := x5) ?_ fun h5 => ?_
  · subst x5
    refine .forAll ?_ fun a6 x6 h6 => ?_
    · exact .refl
    · exact .step State.raise_changes h6
  extract_lets +onlyGivenNames x7
  refine .via (x := x7) ?_ fun h7 => ?_
  · subst x7
    exact .step State.ladderAdvance_changes h5
  extract_lets +onlyGivenNames x8
  refine .via (x := x8) ?_ fun h8 => ?_
  · subst x8
    refine .ite ?_ ?_
    · exact .step State.ladderAdvance_changes h7
    · exact h7
  refine .ite ?_ ?_
  · exact .step State.ladderAdvance_changes h8
  · exact h8

theorem State.syncStandby_changes {s : State} :
    Changes [.nv, .prmData] s (State.syncStandby s) := by
  unfold State.syncStandby
  extract_lets +onlyGivenNames x1
  refine .via (x := x1) ?_ fun h1 => ?_
  · subst x1
    refine .forAll ?_ fun a2 x2 h2 => ?_
    · exact .refl
    · exact .step State.syncPages_changes h2
  extract_lets +onlyGivenNames x3
  refine .via (x := x3) ?_ fun h3 => ?_
  · subst x3
    refine .forAll ?_ fun a4 x4 h4 => ?_
    · exact h1
    · exact .step State.syncPages_changes h4
  extract_lets +onlyGivenNames x5
  refine .forAll ?_ fun a6 x6 h6 => ?_
  · exact h3
  · exact .modNv h6

theorem State.phase3_end {s u : State} {p : Prm} {c : Sec} {y : Sys} (h : Changes [.nv, .aon, .sys, .prm, .evr, .bbx, .sec, .hld, .clk, .tiles, .heads, .prmData] s u) :
    Changes [.nv, .aon, .sys, .prm, .evr, .bbx, .sec, .hld, .clk, .tiles, .heads, .prmData] s { u with prm := p, sec := c, sys := y } :=
  .upd (t := u) h

theorem State.bbHeldFatal_changes {s : State} :
    Changes [.nv, .bbx, .clk, .tiles] s (State.bbHeldFatal s) := by
  unfold State.bbHeldFatal
  refine .forAll ?_ fun a1 x1 h1 => ?_
  · exact .refl
  · exact .step State.bbWrite_changes h1

theorem State.phase3_changes {s : State} :
    Changes [.nv, .aon, .sys, .prm, .evr, .bbx, .sec, .hld, .clk, .tiles, .heads, .prmData] s (State.phase3 s) := by
  unfold State.phase3
  refine State.phase3_end ?_
  refine .step State.bbHeldFatal_changes ?_
  refine .step State.bbStart_changes ?_
  refine .step State.rebuildRecorder_changes ?_
  refine .step State.readHoldup_changes ?_
  exact .step State.judgeTwins_changes (.step State.advanceBoot_changes (.step State.syncStandby_changes .refl))

theorem State.cflRecords_changes {s : State} :
    Changes [.tiles] s (State.cflRecords s) := by
  unfold State.cflRecords
  refine .forAll ?_ fun a1 x1 h1 => ?_
  · exact .refl
  · exact .modCfl h1

theorem State.holdMwrs_changes {s : State} :
    Changes [.mesh] s (State.holdMwrs s) := by
  unfold State.holdMwrs
  extract_lets +onlyGivenNames x1
  exact .upd (t := s) .refl

theorem State.unpark_changes {s : State} {a1 : TileId} {a2 : Nat} :
    Changes [.clk, .tiles] s (State.unpark s a1 a2) := by
  unfold State.unpark
  refine .forAll ?_ fun a1 x1 h1 => ?_
  · exact .refl
  · exact .step State.foldProgram_changes h1

theorem State.moveDone_changes {s : State} {a1 : TileId} {a2 : Nat} :
    Changes [.media, .staged, .pmc, .clk, .tiles] s (State.moveDone s a1 a2) := by
  unfold State.moveDone
  extract_lets +onlyGivenNames x1 x2
  refine .via (x := x2) ?_ fun h2 => ?_
  · subst x2
    exact .modPl .refl
  clear_value x2
  extract_lets +onlyGivenNames x3 x4
  refine .via (x := x4) ?_ fun h4 => ?_
  · subst x4
    exact .modD h2
  clear_value x4
  refine .step State.zeroSome_changes ?_
  exact .step State.unpark_changes (.step State.placementRec_changes (.step State.count_changes h4))

theorem execRootPllLock_changes {s : State} :
    Ends [.clk] s (execRootPllLock s) := by
  unfold execRootPllLock
  refine .ite ?_ ?_
  · exact .next (.upd (t := s) .refl)
  · exact .next .refl

theorem State.sbEnd_changes {s : State} {a1 : Bool} {a2 : List Byte} :
    Changes [.clk, .svc] s (State.sbEnd s a1 a2) := by
  unfold State.sbEnd
  extract_lets +onlyGivenNames x1
  refine .via (x := x1) ?_ fun h1 => ?_
  · subst x1
    exact .step State.ungatePkg_changes .refl
  clear_value x1
  refine .upd (t := x1) ?_
  exact h1

theorem execSidebandEepromRead_changes {a0 : BitVec 16} {a1 : BitVec 8} {s : State} :
    Ends [.clk, .svc] s (execSidebandEepromRead a0 a1 s) := by
  unfold execSidebandEepromRead
  extract_lets +onlyGivenNames x1 x2
  refine .ite ?_ ?_
  · exact .next (.step State.sbEnd_changes .refl)
  · extract_lets +onlyGivenNames x3
    exact .next (.step State.sbEnd_changes .refl)

theorem execPlevelChange_changes {s : State} :
    Ends [.evr, .pwr, .heads] s (execPlevelChange s) := by
  unfold execPlevelChange
  extract_lets +onlyGivenNames x1
  refine .ite ?_ ?_
  · exact .next .refl
  · refine .ite ?_ ?_
    · exact .next (.upd (t := s) .refl)
    · exact .next (.step State.raise_changes (.upd (t := s) .refl))

theorem State.scanJournals_changes {s : State} :
    Changes [.evr, .tiles, .heads] s (State.scanJournals s) := by
  unfold State.scanJournals
  refine .forAll ?_ fun a1 x1 h1 => ?_
  · exact .refl
  · extract_lets +onlyGivenNames x2 x3
    refine .ite ?_ ?_
    · exact h1
    · refine .forAll ?_ fun a4 x4 h4 => ?_
      · exact .modCfl h1
      · exact .step State.raise_changes h4

theorem State.judgeCopies_changes {s : State} :
    Changes [.evr, .heads] s (State.judgeCopies s).2 := by
  unfold State.judgeCopies
  extract_lets +onlyGivenNames x1 x2 x3 x4
  split
  · split
    · exact .snd .refl
    · split
      · exact .snd .refl
      · exact .snd (.step State.raise_changes .refl)
  · subst x4
    exact .snd (.step State.raise_changes .refl)
  · subst x4
    exact .snd (.step State.raise_changes .refl)
  · exact .snd .refl

theorem State.configHold_changes {s : State} {a1 : Nat} :
    Changes [.sys, .boot, .cfg, .evr, .seq, .tiles, .heads] s (State.configHold s a1) := by
  unfold State.configHold
  extract_lets +onlyGivenNames x1 x2 x3
  refine .via (x := x3) ?_ fun h3 => ?_
  · subst x3
    exact .upd (t := s) .refl
  exact .step State.lowerMedia_changes (.step State.setDev_changes h3)

theorem State.readKeys_changes {s : State} {a1 : List Byte} :
    Changes [.cfg, .evr, .sec, .heads] s (State.readKeys s a1) := by
  unfold State.readKeys
  extract_lets +onlyGivenNames x4 x5
  refine .via (x := x5) ?_ fun h5 => ?_
  · subst x5
    exact .upd (t := s) .refl
  split
  extract_lets +onlyGivenNames x7
  refine .via (x := x7) ?_ fun h7 => ?_
  · subst x7
    refine .ite ?_ (.ite ?_ h5)
    · exact .step State.raise_changes h5
    · exact .step State.raise_changes h5
  exact .upd (t := x7) h7

theorem execRecordJudge_changes {s : State} :
    Ends [.nv, .aon, .sys, .boot, .cfg, .evr, .sec, .seq, .hld, .tiles, .heads, .mesh, .svc, .prmData] s (execRecordJudge s) := by
  unfold execRecordJudge
  refine .ite ?_ ?_
  · exact .next .refl
  · extract_lets +onlyGivenNames x1
    refine .via (x := x1) ?_ fun h1 => ?_
    · subst x1
      exact .step State.cflRecords_changes (.step State.scanJournals_changes .refl)
    split
    · rename_i x2 e2
      refine .via (Changes.ofPair e2 ?_) fun h2 => ?_
      · exact .step State.judgeCopies_changes h1
      exact .next (.step State.confirmTrial_changes (.step State.configHold_changes h2))
    · rename_i x3 e3
      refine .via (Changes.ofPair e3 ?_) fun h3 => ?_
      · exact .step State.judgeCopies_changes h1
      extract_lets +onlyGivenNames x8
      refine .via (x := x8) ?_ fun h8 => ?_
      · subst x8
        exact .step State.readKeys_changes h3
      extract_lets +onlyGivenNames x9
      split
      · extract_lets +onlyGivenNames x10
        refine .via (x := x10) ?_ fun h10 => ?_
        · subst x10
          refine .ite ?_ ?_
          · exact .step State.raise_changes h8
          · exact h8
        extract_lets +onlyGivenNames x11
        refine .via (x := x11) ?_ fun h11 => ?_
        · subst x11
          refine .ite ?_ ?_
          · exact .step State.raise_changes h10
          · exact h10
        exact .next (.step State.confirmTrial_changes (.step State.configHold_changes h11))
      · extract_lets +onlyGivenNames x12 x13
        refine .via (x := x13) ?_ fun h13 => ?_
        · subst x13
          refine .ite ?_ ?_
          · exact .upd (t := x8) h8
          · exact h8
        extract_lets +onlyGivenNames x14
        refine .via (x := x14) ?_ fun h14 => ?_
        · subst x14
          exact .step State.putInForce_changes h13
        exact .next (.step State.raiseMedia_changes (.upd (t := x14) h14))

theorem execGetEventInterruptPolicy_changes {a0 : Iface} {s : State} :
    Ends [.heads, .svc] s (execGetEventInterruptPolicy a0 s) := by
  unfold execGetEventInterruptPolicy
  refine .command fun a1 => ?_
  extract_lets +onlyGivenNames x2
  exact .step State.reply_changes .refl

theorem State.commitFailed_changes {s : State} {a1 : CommitRun} :
    Changes [.cfg, .tiles, .heads, .svc] s (State.commitFailed s a1) := by
  unfold State.commitFailed
  extract_lets +onlyGivenNames x1 x2
  refine .via (x := x2) ?_ fun h2 => ?_
  · subst x2
    exact .step State.cflRecords_changes (.upd (t := s) .refl)
  split
  · refine .ite ?_ ?_
    · exact .step State.mbFinish_changes h2
    · exact h2
  · exact h2

theorem execGetShutdownState_changes {a0 : Iface} {s : State} :
    Ends [.heads, .svc] s (execGetShutdownState a0 s) := by
  unfold execGetShutdownState
  refine .command fun a1 => ?_
  exact .step State.reply_changes .refl

theorem execPllRelock_changes {s : State} :
    Ends [.evr, .clk, .heads] s (execPllRelock s) := by
  unfold execPllRelock
  refine .ite ?_ ?_
  · exact .next .refl
  · extract_lets +onlyGivenNames x1 x2 x3
    refine .via (x := x3) ?_ fun h3 => ?_
    · subst x3
      exact .upd (t := s) .refl
    refine .next ?_
    refine .ite ?_ ?_
    · exact .step State.raise_changes h3
    · exact h3

theorem State.meshReject_changes {s : State} {a1 : Fin 4} {a2 : MMsg} {a3 : Nat} :
    Changes [.pmc, .clk, .fab, .mesh] s (State.meshReject s a1 a2 a3) := by
  unfold State.meshReject
  extract_lets +onlyGivenNames x1
  refine .via (x := x1) ?_ fun h1 => ?_
  · subst x1
    exact .step State.modLink_changes .refl
  refine .ite ?_ ?_
  · exact .step State.meshSend_changes h1
  · exact .step State.meshReply_changes h1

theorem State.mmsgsIn_changes {s : State} {a1 : Fin 4} {a2 : Nat} {a3 : List MMsg} :
    Changes [.pmc, .clk, .fab, .mesh] s (State.mmsgsIn s a1 a2 a3) := by
  unfold State.mmsgsIn
  split
  · exact .refl
  · refine .ite ?_ ?_
    · extract_lets +onlyGivenNames x1
      refine .via (x := x1) ?_ fun h1 => ?_
      · subst x1
        exact .step State.creditMsg_changes .refl
      clear_value x1
      refine .ite ?_ ?_
      · exact .step State.modLink_changes h1
      · exact .step State.meshReject_changes h1
    · extract_lets +onlyGivenNames x2 x3
      refine .via (x := x3) ?_ fun h3 => ?_
      · subst x3
        exact .step State.creditMsg_changes .refl
      clear_value x3
      extract_lets +onlyGivenNames x4
      refine .via (x := x4) ?_ fun h4 => ?_
      · subst x4
        refine .ite ?_ ?_
        · refine .upd (t := s) ?_
          exact .refl
        · refine .ite ?_ ?_
          · exact .step State.meshReject_changes h3
          · exact .step State.meshForward_changes h3
      clear_value x4
      exact .step State.mmsgsIn_changes h4

theorem execHdmDecoderCommit_changes {a0 : TileId} {a1 : Fin 4} {a2 : BitVec 64} {a3 : BitVec 64} {a4 : BitVec 64} {a5 : Nat} {a6 : Nat} {a7 : Bool} {s : State} :
    Ends [.heads] s (execHdmDecoderCommit a0 a1 a2 a3 a4 a5 a6 a7 s) := by
  unfold execHdmDecoderCommit
  extract_lets +onlyGivenNames x1 x2
  refine .ite ?_ ?_
  · exact .next .refl
  · extract_lets +onlyGivenNames x3 x4 x5
    exact .next (.modHead .refl)

theorem State.prmInternal_changes {s : State} {a1 : Nat} {a2 : Nat} {a3 : List Byte} :
    Changes [.sys, .cfg, .prm, .tiles] s (State.prmInternal s a1 a2 a3) := by
  unfold State.prmInternal
  refine .ite ?_ ?_
  · extract_lets +onlyGivenNames x1
    refine .via (x := x1) ?_ fun h1 => ?_
    · subst x1
      exact .step State.prmEnqueue_changes .refl
    exact .upd (t := x1) h1
  · extract_lets +onlyGivenNames x2
    refine .via (x := x2) ?_ fun h2 => ?_
    · subst x2
      exact .step State.supplyRefused_changes .refl
    exact .upd (t := x2) h2

theorem State.saveCursors_changes {s : State} :
    Changes [.sys, .cfg, .prm, .tiles] s (State.saveCursors s) := by
  unfold State.saveCursors
  exact .step State.prmInternal_changes .refl

theorem State.startFixed_changes {s : State} :
    Changes [.seq] s (State.startFixed s) := by
  unfold State.startFixed
  refine .ite ?_ ?_
  · exact .upd (t := s) .refl
  · exact .refl

theorem execFixedRailRestartTimer_changes {s : State} :
    Ends [.seq, .clk] s (execFixedRailRestartTimer s) := by
  unfold execFixedRailRestartTimer
  refine .ite ?_ ?_
  · exact .next .refl
  · exact .next (.step State.startFixed_changes (.upd (t := s) .refl))

theorem State.tornWords_changes {s : State} {a1 : Nat} {a2 : List Byte} :
    Changes [.fv, .nv, .prmData] s (State.tornWords s a1 a2) := by
  fun_induction State.tornWords s a1 a2 with
  | case1 s a x y r v u e ih =>
    have h1 : Changes [.fv, .nv, .prmData] s u := .ofPair e (State.draw_changes.step .refl)
    exact ih.step (.ite h1 (State.prmPut_changes.step h1))
  | case2 s a x v u e =>
    have h1 : Changes [.fv, .nv, .prmData] s u := .ofPair e (State.draw_changes.step .refl)
    exact h1
  | case3 s a x v u e =>
    have h1 : Changes [.fv, .nv, .prmData] s u := .ofPair e (State.draw_changes.step .refl)
    exact State.prmPut_changes.step h1
  | case4 => exact .refl

theorem State.tornLsa_changes {s : State} {a1 : TileId} {a2 : FlashOp} {a3 : List Byte} :
    Changes [.fv, .nv, .lsa] s (State.tornLsa s a1 a2 a3) := by
  unfold State.tornLsa
  dsimp only
  refine .modNv' ?_ fun x h => ⟨h.1, Memory.wf_writeBytes _ h.2⟩
  exact State.draw_changes.step (.modNv' .refl fun x h => ⟨h.1, Memory.wf_writeBytes _ h.2⟩)

theorem State.cutStores_changes {s : State} :
    Changes [.fv, .nv, .prmData, .lsa] s (State.cutStores s) := by
  unfold State.cutStores
  extract_lets +onlyGivenNames x1
  refine .via (x := x1) ?_ fun h1 => ?_
  · subst x1
    split
    · exact .refl
    · exact .step State.tornWords_changes .refl
  refine .forAll ?_ fun a2 x2 h2 => ?_
  · exact h1
  · refine .forAll ?_ fun a3 x3 h3 => ?_
    · exact h2
    · split
      · split
        · refine .ite ?_ ?_
          · exact h3
          · exact .step State.tornLsa_changes h3
        · exact h3
      · exact h3

theorem State.powerOff_end {s u : State} {n : Vector TileNv 8} {a : Aon} {b : Boot} {e : Evr} {c : Clk} {q : Seq}
    {f : Vector Fabric 8} (h : Changes [.fv, .nv, .media, .staged, .aon, .sys, .boot, .cfg, .prm, .evr, .bbx, .pmc, .sec, .seq, .hld, .flush, .pwr, .clk, .thm, .tiles, .heads, .loads, .nextReq, .fab, .guest, .mesh, .svc, .poison, .prmData, .lsa, .tcm, .velvet, .scratch] s u) (hn : Nvs [.fv, .nv, .media, .staged, .aon, .sys, .boot, .cfg, .prm, .evr, .bbx, .pmc, .sec, .seq, .hld, .flush, .pwr, .clk, .thm, .tiles, .heads, .loads, .nextReq, .fab, .guest, .mesh, .svc, .poison, .prmData, .lsa, .tcm, .velvet, .scratch] u.nv n)
    (hf : Fabs [.fv, .nv, .media, .staged, .aon, .sys, .boot, .cfg, .prm, .evr, .bbx, .pmc, .sec, .seq, .hld, .flush, .pwr, .clk, .thm, .tiles, .heads, .loads, .nextReq, .fab, .guest, .mesh, .svc, .poison, .prmData, .lsa, .tcm, .velvet, .scratch] u.fab f) (he : e.QueuesOk) :
    Changes [.fv, .nv, .media, .staged, .aon, .sys, .boot, .cfg, .prm, .evr, .bbx, .pmc, .sec, .seq, .hld, .flush, .pwr, .clk, .thm, .tiles, .heads, .loads, .nextReq, .fab, .guest, .mesh, .svc, .poison, .prmData, .lsa, .tcm, .velvet, .scratch] s { u.fixedOff with nv := n, aon := a, boot := b, evr := e, clk := c, seq := q, fab := f } :=
  .upd (t := u) h (hn := hn) (hf := hf) (he := fun _ => he) (ht := .refl) (hh := fun h => h)

theorem State.powerOff_changes {s : State} :
    Changes [.fv, .nv, .media, .staged, .aon, .sys, .boot, .cfg, .prm, .evr, .bbx, .pmc, .sec, .seq, .hld, .flush, .pwr, .clk, .thm, .tiles, .heads, .loads, .nextReq, .fab, .guest, .mesh, .svc, .poison, .prmData, .lsa, .tcm, .velvet, .scratch] s (State.powerOff s) := by
  unfold State.powerOff
  refine State.powerOff_end ?_ nv_map off_fabs .nil
  exact .step State.packageReset_changes (.step State.cutStores_changes .refl)

theorem State.meshRefuse_changes {s : State} {a1 : Fin 4} {a2 : InitFlit} :
    Changes [.evr, .heads, .fab, .mesh] s (State.meshRefuse s a1 a2) := by
  unfold State.meshRefuse
  extract_lets +onlyGivenNames x1
  refine .via (x := x1) ?_ fun h1 => ?_
  · subst x1
    exact .step State.modLink_changes .refl
  clear_value x1
  exact .step State.raise_changes h1

theorem execMeshInit_changes {a0 : Fin 4} {a1 : List Byte} {s : State} :
    Ends [.sys, .evr, .pmc, .clk, .heads, .fab, .mesh] s (execMeshInit a0 a1 s) := by
  unfold execMeshInit
  extract_lets +onlyGivenNames x1 x2
  split
  · exact .next .refl
  · refine .ite ?_ ?_
    · exact .next .refl
    · refine .ite ?_ ?_
      · exact .next (.step State.meshRefuse_changes .refl)
      · extract_lets +onlyGivenNames x3
        refine .via (x := x3) ?_ fun h3 => ?_
        · subst x3
          exact .step State.modLink_changes .refl
        clear_value x3
        refine .next ?_
        exact .step State.startDiscovery_changes (.step State.linkUpEvents_changes (.step State.linkUp_changes h3))

theorem execVholdCollapse_changes {s : State} :
    Ends [.fv, .nv, .media, .staged, .aon, .sys, .boot, .cfg, .prm, .evr, .bbx, .pmc, .sec, .seq, .hld, .flush, .pwr, .clk, .thm, .tiles, .heads, .loads, .nextReq, .fab, .guest, .mesh, .svc, .poison, .prmData, .lsa, .tcm, .scratch] s (execVholdCollapse s) := by
  unfold execVholdCollapse
  refine .ite ?_ ?_
  · refine .next ?_
    exact .step State.fixedOff_changes (.step State.packageReset_changes (.step State.finishStores_changes .refl))
  · exact .next .refl

theorem execRecoveryRestartTimer_changes {s : State} :
    Ends [.fv, .nv, .media, .staged, .aon, .sys, .boot, .cfg, .prm, .evr, .bbx, .pmc, .sec, .seq, .hld, .flush, .pwr, .clk, .thm, .tiles, .heads, .loads, .nextReq, .fab, .guest, .mesh, .svc, .poison, .prmData, .lsa, .tcm, .scratch] s (execRecoveryRestartTimer s) := by
  unfold execRecoveryRestartTimer
  refine .ite ?_ ?_
  · exact .next (.step State.packageReset_changes (.step State.finishStores_changes .refl))
  · exact .next .refl

theorem execXtalStartTimeout_changes {s : State} :
    Ends [.seq, .clk] s (execXtalStartTimeout s) := by
  unfold execXtalStartTimeout
  refine .ite ?_ ?_
  · exact .next .refl
  · extract_lets +onlyGivenNames x1
    refine .via (x := x1) ?_ fun h1 => ?_
    · subst x1
      exact .step State.fixedOff_changes .refl
    exact .next (.upd (t := x1) h1)

theorem execPassphraseSecureErase_changes {a0 : Iface} {s : State} :
    Ends [.nv, .sys, .prm, .evr, .sec, .tiles, .heads, .svc] s (execPassphraseSecureErase a0 s) := by
  unfold execPassphraseSecureErase
  refine .command fun a1 => ?_
  extract_lets +onlyGivenNames x2
  refine .ite ?_ ?_
  · exact .step State.mbFinish_changes .refl
  · refine .ite ?_ ?_
    · exact .step State.mbFinish_changes .refl
    · refine .ite ?_ ?_
      · exact .step State.mbFinish_changes .refl
      · refine .withPw ?_ fun x3 h3 => ?_
        · exact .refl
        · exact .step State.startErase_changes h3

theorem execLeadReportAbsent_changes {s : State} :
    Ends [.fv, .nv, .media, .staged, .aon, .sys, .boot, .cfg, .prm, .evr, .bbx, .pmc, .sec, .seq, .hld, .flush, .pwr, .clk, .thm, .tiles, .heads, .loads, .nextReq, .fab, .guest, .mesh, .svc, .poison, .prmData, .lsa, .tcm, .scratch] s (execLeadReportAbsent s) := by
  unfold execLeadReportAbsent
  split
  · refine .ite ?_ ?_
    · exact .next (.step State.tileLost_changes .refl)
    · exact .next .refl
  · exact .next .refl

theorem State.putCtx_changes {s : State} {a1 : TileId} {a2 : Context} {a3 : Context → Context} {a4 : Nat} :
    Changes [.pmc, .tiles] s (State.putCtx s a1 a2 a3 a4) := by
  unfold State.putCtx
  exact .step State.count_changes (.modEng .refl)

theorem State.setCtx_changes {s : State} {a1 : TileId} {a2 : Context} {a3 : Context} :
    Changes [.pmc, .tiles] s (State.setCtx s a1 a2 a3) := by
  unfold State.setCtx
  exact .step State.putCtx_changes .refl

theorem State.noteBurst_changes {s : State} {a1 : TileId} {a2 : ChanId} :
    Changes [.pmc, .tiles] s (State.noteBurst s a1 a2) := by
  unfold State.noteBurst
  exact .step State.count_changes (.modCh .refl)

theorem State.noteCrc_changes {s : State} {a1 : TileId} {a2 : ChanId} {a3 : Fin 9} {a4 : Nat} :
    Changes [.fv, .sys, .evr, .pmc, .seq, .clk, .tiles, .heads, .fab, .mesh, .poison] s (State.noteCrc s a1 a2 a3 a4) := by
  unfold State.noteCrc
  split
  rename_i x0 e0
  refine .via (Changes.ofTriple e0 (.step State.noteIn_changes .refl)) fun h0 => ?_
  extract_lets +onlyGivenNames x1
  refine .via (x := x1) ?_ fun h1 => ?_
  · subst x1
    exact .modIt h0
  refine .ite ?_ ?_
  · exact .step State.failDie_changes h1
  · exact h1

theorem State.fetchFrom_changes {s : State} {a1 : TileId} {a2 : Context} {a3 : Fin 9} :
    Changes [.fv, .pmc, .tiles] s (State.fetchFrom s a1 a2 a3).2 := by
  unfold State.fetchFrom
  extract_lets +onlyGivenNames x1 x2 x3
  refine .via (x := x3) ?_ fun h3 => ?_
  · subst x3
    exact .step State.modPart_changes .refl
  clear_value x3
  extract_lets +onlyGivenNames x4
  exact .snd (.step State.send_changes (.step State.setCtx_changes h3))

theorem State.commandAgain_changes {s : State} {a1 : TileId} {a2 : Context} {a3 : Fin 9} :
    Changes [.fv, .pmc, .tiles] s (State.commandAgain s a1 a2 a3) := by
  unfold State.commandAgain
  extract_lets +onlyGivenNames x1
  refine .ite ?_ ?_
  · exact .step State.setCtx_changes .refl
  · refine .ite ?_ ?_
    · exact .step State.setCtx_changes .refl
    · exact .step State.fetchFrom_changes (.step State.issue_changes (.step State.setCtx_changes .refl))

theorem execFetchBurstReceived_changes {a0 : TileId} {a1 : Fin 64} {a2 : Fin 4} {a3 : Fin 9} {a4 : List Nat} {a5 : List (BitVec 8)} {s : State} :
    Ends [.fv, .media, .staged, .sys, .evr, .pmc, .seq, .clk, .tiles, .heads, .fab, .mesh, .poison] s (execFetchBurstReceived a0 a1 a2 a3 a4 a5 s) := by
  unfold execFetchBurstReceived
  split
  · exact .next .refl
  · extract_lets +onlyGivenNames x1 x2 x3
    refine .ite ?_ ?_
    · exact .next .refl
    · extract_lets +onlyGivenNames x4
      refine .via (x := x4) ?_ fun h4 => ?_
      · subst x4
        refine .ite ?_ ?_
        · exact .step State.burst_changes .refl
        · exact .refl
      clear_value x4
      refine .ite ?_ ?_
      · extract_lets +onlyGivenNames x5 x6 x7
        refine .ite ?_ ?_
        · exact .next (.step State.setCtx_changes h4)
        · refine .ite ?_ ?_
          · exact .next (.step State.endCtx_changes h4)
          · exact .next (.step State.setCtx_changes h4)
      · extract_lets +onlyGivenNames x8
        refine .via (x := x8) ?_ fun h8 => ?_
        · subst x8
          exact .step State.noteBurst_changes h4
        clear_value x8
        refine .ite ?_ ?_
        · exact .next (.step State.noteCrc_changes (.step State.endProgram_changes (.step State.cutProgram_changes h8)))
        · exact .next (.step State.commandAgain_changes h8)

theorem execInputReturn_changes {s : State} :
    Ends [.aon, .evr, .seq, .flush, .heads] s (execInputReturn s) := by
  unfold execInputReturn
  extract_lets +onlyGivenNames x1 x2
  refine .via (x := x2) ?_ fun h2 => ?_
  · subst x2
    exact .upd (t := s) .refl
  split
  · refine .ite ?_ ?_
    · exact .next h2
    · extract_lets +onlyGivenNames x3
      refine .via (x := x3) ?_ fun h3 => ?_
      · subst x3
        exact .step State.raise_changes h2
      exact .next (.upd (t := x3) h3)
  · exact .next (.step State.startFixed_changes h2)

theorem State.noteFlags_changes {s : State} {a1 : TileId} {a2 : ChanId} {a3 : BitVec 8} :
    Changes [.tiles] s (State.noteFlags s a1 a2 a3) := by
  unfold State.noteFlags
  exact .modCh .refl

theorem execStatusPollResult_changes {a0 : TileId} {a1 : ChanId} {a2 : Fin 9} {a3 : List Nat} {a4 : Nat} {a5 : List Nat} {a6 : Unit} {s : State} :
    Ends [.fv, .media, .staged, .sys, .evr, .pmc, .seq, .clk, .tiles, .heads, .fab, .mesh, .poison] s (execStatusPollResult a0 a1 a2 a3 a4 a5 a6 s) := by
  unfold execStatusPollResult
  split
  · exact .next .refl
  · extract_lets +onlyGivenNames x1 x2
    refine .via (x := x2) ?_ fun h2 => ?_
    · subst x2
      refine .ite ?_ ?_
      · exact .step State.burst_changes .refl
      · exact .refl
    clear_value x2
    extract_lets +onlyGivenNames x3
    refine .ite ?_ ?_
    · extract_lets +onlyGivenNames x4
      refine .via (x := x4) ?_ fun h4 => ?_
      · subst x4
        exact .step State.noteBurst_changes h2
      clear_value x4
      refine .ite ?_ ?_
      · refine .next ?_
        refine .step State.noteCrc_changes ?_
        subst x3
        exact .step State.setCtx_changes h4
      · extract_lets +onlyGivenNames x5
        exact .next (.step State.issue_changes (.step State.setCtx_changes h4))
    · extract_lets +onlyGivenNames x6 x7 x8 x9
      refine .via (x := x9) ?_ fun h9 => ?_
      · subst x9
        refine .step State.noteFlags_changes ?_
        subst x3
        exact .step State.setCtx_changes h2
      clear_value x9
      refine .ite ?_ ?_
      · exact .next h9
      · extract_lets +onlyGivenNames x10
        refine .via (x := x10) ?_ fun h10 => ?_
        · subst x10
          exact .step State.count_changes (.modEng h9)
        clear_value x10
        extract_lets +onlyGivenNames x11
        refine .via (x := x11) ?_ fun h11 => ?_
        · subst x11
          exact .step State.raise_changes h10
        clear_value x11
        split
        · exact .next (.step State.programAgain_changes h11)
        · exact .next h11

theorem State.mediaLine_changes {s : State} {a1 : TileId} {a2 : Nat} :
    Changes [.fv] s (State.mediaLine s a1 a2).2 := by
  unfold State.mediaLine
  extract_lets +onlyGivenNames x1 x2 x3 x4
  split
  · rename_i x5 e5
    refine .via (Changes.ofPair e5 ?_) fun h5 => ?_
    · split
      · exact .step State.dieBytes_changes .refl
      · exact .step State.freeBytes_changes .refl
    exact .snd h5

theorem State.windowRead_changes {s : State} {a1 : TileId} {a2 : Window} {a3 : Nat} :
    Changes [.fv] s (State.windowRead s a1 a2 a3).2 := by
  unfold State.windowRead
  extract_lets +onlyGivenNames x1
  split
  · exact .snd .refl
  · exact .snd .refl
  · subst x1
    exact .snd .refl
  · subst x1
    exact .snd .refl
  · subst x1
    exact .snd .refl
  · subst x1
    exact .snd .refl
  · split
    · rename_i x2 e2
      refine .via (Changes.ofPair e2 ?_) fun h2 => ?_
      · exact .step State.mediaLine_changes .refl
      exact .snd h2
  · exact .snd .refl

theorem execWidarRd_changes {a0 : TileId} {a1 : Msg} {s : State} :
    Ends [.fv, .sys, .evr, .pmc, .clk, .tiles, .heads, .loads, .nextReq, .fab, .mesh, .poison] s (execWidarRd a0 a1 s) := by
  unfold execWidarRd
  refine .ite ?_ ?_
  · exact .next .refl
  · split
    · exact .next .refl
    · rename_i x1 e1
      refine .via (.step (State.wTake_changes e1) ?_) fun h1 => ?_
      · exact .refl
      split
      · exact .next (.step State.wReply_changes h1)
      · exact .next (.step State.wReject_changes h1)
      · extract_lets +onlyGivenNames x2
        exact .next (.step State.newLoad_changes h1)
      · split
        · rename_i x3 e3
          refine .via (Changes.ofPair e3 ?_) fun h3 => ?_
          · exact .step State.windowRead_changes h1
          exact .next (.step State.wReply_changes h3)

theorem execMemwrptl_changes {a0 : TileId} {a1 : BitVec 64} {a2 : Line} {a3 : BitVec 64} {a4 : Bool} {s : State} :
    Ends [.fv, .sys, .evr, .pmc, .clk, .tiles, .heads, .loads, .nextReq, .fab, .mesh, .svc, .poison] s (execMemwrptl a0 a1 a2 a3 a4 s) := by
  unfold execMemwrptl
  exact .next (.step State.storeAt_changes .refl)

theorem execGetAlertConfiguration_changes {a0 : Iface} {s : State} :
    Ends [.heads, .svc] s (execGetAlertConfiguration a0 s) := by
  unfold execGetAlertConfiguration
  refine .command fun a1 => ?_
  extract_lets +onlyGivenNames x2 x3
  exact .step State.reply_changes .refl

theorem State.meshTake_changes {s : State} {a1 : Fin 4} {a2 : MMsg} :
    Changes [.fab, .mesh] s (State.meshTake s a1 a2) := by
  unfold State.meshTake
  refine .ite ?_ ?_
  · extract_lets +onlyGivenNames x1 x2
    refine .via (x := x2) ?_ fun h2 => ?_
    · subst x2
      exact .upd (t := s) .refl
    exact .step State.modLink_changes h2
  · exact .refl

theorem State.putKeySets_changes {s : State} {a1 : KeySet} :
    Changes [.nv] s (State.putKeySets s a1) := by
  unfold State.putKeySets
  refine .forAll ?_ fun a1 x1 h1 => ?_
  · exact .refl
  · exact .modNv h1

theorem State.newScatter_changes {s : State} :
    Changes [.fv, .nv, .prmData] s (State.newScatter s) := by
  unfold State.newScatter
  split
  · rename_i x1 e1
    refine .via (Changes.ofPair e1 ?_) fun h1 => ?_
    · exact .step State.draw_changes .refl
    extract_lets +onlyGivenNames x2
    refine .via (x := x2) ?_ fun h2 => ?_
    · subst x2
      exact .step State.twinWrite_changes h1
    exact .step State.ladderAdvance_changes h2

theorem State.eraseLsa_changes {s : State} :
    Changes [.nv, .lsa] s (State.eraseLsa s) := by
  unfold State.eraseLsa
  exact .modNv' .refl fun x h => h.writeLsa

theorem State.finishErase_changes {s : State} {a1 : KeySet} :
    Changes [.fv, .nv, .media, .staged, .sec, .tiles, .svc, .poison, .prmData, .lsa] s (State.finishErase s a1) := by
  unfold State.finishErase
  extract_lets +onlyGivenNames x1
  refine .via (x := x1) ?_ fun h1 => ?_
  · subst x1
    exact .step State.putKeySets_changes .refl
  extract_lets +onlyGivenNames x2 x3
  refine .via (x := x3) ?_ fun h3 => ?_
  · subst x3
    exact .upd (t := x1) h1
  extract_lets +onlyGivenNames x4
  refine .via (x := x4) ?_ fun h4 => ?_
  · subst x4
    refine .ite ?_ ?_
    · exact h3
    · exact .step State.newScatter_changes h3
  extract_lets +onlyGivenNames x5
  refine .via (x := x5) ?_ fun h5 => ?_
  · subst x5
    exact .step State.discardData_changes h4
  extract_lets +onlyGivenNames x6
  refine .via (x := x6) ?_ fun h6 => ?_
  · subst x6
    refine .ite ?_ ?_
    · exact .step State.eraseLsa_changes h5
    · exact h5
  extract_lets +onlyGivenNames x7
  refine .via (x := x7) ?_ fun h7 => ?_
  · subst x7
    exact .step State.putKeySets_changes h6
  exact .upd (t := x7) h7

end Sys2Proof.Machine
end

