-- ==== Sys2Proof/Laws/Changes6.lean ====
section
/-! SUPPORT. Part 6 of the lemmas, one for each operation and each command's meaning, that say which groups of the state it can
change and that it keeps the canonical memories and the bounds. -/

namespace Sys2Proof.Machine

set_option Elab.async false

theorem execGetScanMediaResults_changes {a0 : Iface} {s : State} :
    Ends [.heads, .svc, .poison] s (execGetScanMediaResults a0 s) := by
  unfold execGetScanMediaResults
  refine .command fun a1 => ?_
  extract_lets +onlyGivenNames x2 x3 x4 x5 x6 x7 x8
  refine .via (x := x8) ?_ fun h8 => ?_
  · subst x8
    exact .upd (t := s) .refl
  clear_value x8
  exact .step State.mbFinish_changes h8

theorem State.otherBucket_changes {s : State} {a1 : TileId} {a2 : Nat} :
    Changes [.tiles] s (State.otherBucket s a1 a2) := by
  unfold State.otherBucket
  refine .ite ?_ ?_
  · exact .refl
  · exact .modD .refl

theorem State.noteMisdirected_changes {s : State} {a1 : TileId} {a2 : Nat} {a3 : Nat} {a4 : Nat} {a5 : List (Nat × LineRead)} :
    Changes [.evr, .heads] s (State.noteMisdirected s a1 a2 a3 a4 a5) := by
  unfold State.noteMisdirected
  refine .forAll ?_ fun a1 x1 h1 => ?_
  · exact .refl
  · extract_lets +onlyGivenNames x2
    exact .step State.raise_changes h1

theorem State.ladderFailed_changes {s : State} {a1 : TileId} {a2 : LoadReq} {a3 : Nat} {a4 : Nat} {a5 : Nat} {a6 : Nat} :
    Changes [.fv, .sys, .evr, .pmc, .clk, .tiles, .heads, .loads, .nextReq, .fab, .mesh, .poison] s (State.ladderFailed s a1 a2 a3 a4 a5 a6) := by
  unfold State.ladderFailed
  extract_lets +onlyGivenNames x1 x2
  split
  · rename_i x3 e3
    refine .via (Changes.ofTriple e3 ?_) fun h3 => ?_
    · split
      · split
        · rename_i x4 e4
          refine .via (Changes.ofPair e4 ?_) fun h4 => ?_
          · exact .step State.meshTag_changes .refl
          split
          · rename_i x5 e5
            refine .via (Changes.ofPair e5 ?_) fun h5 => ?_
            · exact .step State.meshSend_changes h4
            exact .snd h5
      · exact .snd .refl
    refine .ite ?_ ?_
    · extract_lets +onlyGivenNames x6 x7
      refine .via (x := x7) ?_ fun h7 => ?_
      · subst x7
        exact .upd (t := x3) h3
      exact .step State.count_changes (.step State.modLoad_changes h7)
    · exact .step State.loadDone_changes (.step State.queueRefresh_changes (.step State.uncorrectable_changes h3))

theorem execLadderRungDone_changes {a0 : TileId} {a1 : Nat} {a2 : Noise} {s : State} :
    Ends [.fv, .sys, .evr, .pmc, .seq, .clk, .tiles, .heads, .loads, .nextReq, .fab, .mesh, .poison] s (execLadderRungDone a0 a1 a2 s) := by
  unfold execLadderRungDone
  split
  · exact .next .refl
  · split
    · refine .ite ?_ ?_
      · exact .next .refl
      · extract_lets +onlyGivenNames x1 x2 x3 x4 x5 x6
        refine .next ?_
        refine .ite ?_ ?_
        · extract_lets +onlyGivenNames x7 x8
          refine .via (x := x8) ?_ fun h8 => ?_
          · subst x8
            exact .step State.noteRead_changes .refl
          clear_value x8
          refine .ite ?_ ?_
          · exact .step State.homeGave_changes (.step State.learnStamp_changes (.step State.otherBucket_changes h8))
          · refine .homeRead ?_ fun x9 h9 => ?_
            · exact h8
            · refine .ite ?_ ?_
              · exact .step State.readItem_changes (.step State.modLoad_changes h9)
              · exact .step State.pageRung_changes h9
        · refine .ite ?_ ?_
          · extract_lets +onlyGivenNames x10 x11
            refine .via (x := x11) ?_ fun h11 => ?_
            · subst x11
              refine .forAll ?_ fun a12 x12 h12 => ?_
              · exact .refl
              · exact .step State.noteRead_changes h12
            clear_value x11
            extract_lets +onlyGivenNames x13
            refine .via (x := x13) ?_ fun h13 => ?_
            · subst x13
              exact .step State.noteMisdirected_changes (.step State.noteFailedPage_changes h11)
            clear_value x13
            refine .ite ?_ ?_
            · exact .step State.pageGave_changes h13
            · extract_lets +onlyGivenNames x14 x15
              refine .via (x := x15) ?_ fun h15 => ?_
              · subst x15
                exact .step State.modLoad_changes h13
              clear_value x15
              refine .ite ?_ ?_
              · exact h15
              · refine .homeRead ?_ fun x16 h16 => ?_
                · exact h15
                · exact .step State.readShares_changes h16
          · refine .ite ?_ ?_
            · extract_lets +onlyGivenNames x17 x18 x19
              refine .via (x := x19) ?_ fun h19 => ?_
              · subst x19
                refine .forAll ?_ fun a20 x20 h20 => ?_
                · exact .refl
                · exact .step State.noteRead_changes h20
              clear_value x19
              refine .ite ?_ ?_
              · exact .step State.pageGave_changes h19
              · exact .step State.modLoad_changes h19
            · refine .ite ?_ ?_
              · exact .step State.pageGave_changes .refl
              · exact .step State.ladderFailed_changes .refl
    · exact .next .refl

theorem execGetSecurityState_changes {a0 : Iface} {s : State} :
    Ends [.heads, .svc] s (execGetSecurityState a0 s) := by
  unfold execGetSecurityState
  refine .command fun a1 => ?_
  extract_lets +onlyGivenNames x2
  exact .step State.reply_changes .refl

theorem execDisablePassphrase_changes {a0 : Iface} {s : State} :
    Ends [.nv, .sys, .prm, .evr, .sec, .tiles, .heads, .svc] s (execDisablePassphrase a0 s) := by
  unfold execDisablePassphrase
  refine .command fun a1 => ?_
  extract_lets +onlyGivenNames x2
  refine .ite ?_ ?_
  · exact .step State.mbFinish_changes .refl
  · refine .withPw ?_ fun x3 h3 => ?_
    · exact .refl
    · refine .ite ?_ ?_
      · exact .step State.mbFinish_changes h3
      · exact .step State.storeKeySet_changes h3

theorem execLoneLossFlushEnd_changes {a0 : Bool} {s : State} :
    Ends [.fv, .nv, .media, .staged, .aon, .sys, .boot, .cfg, .prm, .evr, .bbx, .pmc, .sec, .seq, .hld, .flush, .pwr, .clk, .thm, .tiles, .heads, .loads, .nextReq, .fab, .guest, .mesh, .svc, .poison, .prmData, .lsa, .tcm, .scratch] s (execLoneLossFlushEnd a0 s) := by
  unfold execLoneLossFlushEnd
  split
  · refine .ite ?_ ?_
    · exact .next .refl
    · extract_lets +onlyGivenNames x1
      refine .via (x := x1) ?_ fun h1 => ?_
      · subst x1
        refine .ite ?_ ?_
        · exact .step State.journal_changes (.step State.journalProgress_changes .refl)
        · exact .refl
      extract_lets +onlyGivenNames x2 x3
      refine .via (x := x3) ?_ fun h3 => ?_
      · subst x3
        exact .upd (t := x1) h1
      extract_lets +onlyGivenNames x4
      refine .via (x := x4) ?_ fun h4 => ?_
      · subst x4
        exact .step State.loneFailed_changes h3
      refine .ite ?_ ?_
      · refine .ite ?_ ?_
        · exact .next (.step State.packageReset_changes (.step State.finishStores_changes h4))
        · exact .next (.upd (t := x4) h4)
      · extract_lets +onlyGivenNames x5
        refine .via (x := x5) ?_ fun h5 => ?_
        · subst x5
          exact .upd (t := x4) h4
        refine .next ?_
        refine .ite ?_ ?_
        · exact .step State.holdDown_changes h5
        · exact h5
  · exact .next .refl

theorem State.raiseRdp_changes {s : State} {a1 : Iface} {a2 : Nat} :
    Changes [.fuses, .nv, .sys, .cfg, .evr, .tiles, .heads, .svc] s (State.raiseRdp s a1 a2) := by
  unfold State.raiseRdp
  refine .ite ?_ ?_
  · exact .step State.mbFinish_changes (.step State.supplyRefused_changes .refl)
  · extract_lets +onlyGivenNames x1 x2 x3 x4 x5
    refine .via (x := x5) ?_ fun h5 => ?_
    · subst x5
      refine .upd (t := s) ?_ (ht := by with_reducible exact tiles_vmap)
      exact .refl
    clear_value x5
    extract_lets +onlyGivenNames x6
    refine .via (x := x6) ?_ fun h6 => ?_
    · subst x6
      exact .step State.raise_changes h5
    clear_value x6
    extract_lets +onlyGivenNames x7
    refine .via (x := x7) ?_ fun h7 => ?_
    · subst x7
      exact .step State.flashStart_changes h6
    clear_value x7
    exact .upd (t := x7) h7

theorem State.rebuildDone_changes {s : State} {a1 : TileId} {a2 : ChanId} :
    Changes [.sys, .cfg, .evr, .tiles, .heads] s (State.rebuildDone s a1 a2) := by
  unfold State.rebuildDone
  extract_lets +onlyGivenNames x1 x2
  refine .via (x := x2) ?_ fun h2 => ?_
  · subst x2
    exact .modIt .refl
  extract_lets +onlyGivenNames x3
  refine .via (x := x3) ?_ fun h3 => ?_
  · subst x3
    exact .modCh h2
  extract_lets +onlyGivenNames x4
  refine .via (x := x4) ?_ fun h4 => ?_
  · subst x4
    exact .step State.raise_changes h3
  extract_lets +onlyGivenNames x5 x6
  refine .via (x := x6) ?_ fun h6 => ?_
  · subst x6
    exact .upd (t := x4) h4
  extract_lets +onlyGivenNames x7
  refine .ite ?_ ?_
  · exact h6
  · exact .step State.clearCause_changes h6

theorem State.rebuildRing_changes {s : State} {a1 : TileId} {a2 : ChanId} {a3 : Nat} {a4 : Nat} :
    Changes [.tiles] s (State.rebuildRing s a1 a2 a3 a4) := by
  unfold State.rebuildRing
  extract_lets +onlyGivenNames x1
  refine .via (x := x1) ?_ fun h1 => ?_
  · subst x1
    exact .step State.modRebuild_changes .refl
  clear_value x1
  extract_lets +onlyGivenNames x2 x3 x4 x5
  exact .step State.modRebuild_changes h1

theorem State.rebuildBegin_changes {s : State} {a1 : TileId} {a2 : ChanId} {a3 : Nat} {a4 : Nat} {a5 : Nat} :
    Changes [.clk, .tiles] s (State.rebuildBegin s a1 a2 a3 a4 a5) := by
  unfold State.rebuildBegin
  extract_lets +onlyGivenNames x1 x2 x3 x4 x5
  refine .via (x := x5) ?_ fun h5 => ?_
  · subst x5
    exact .step State.modRebuild_changes .refl
  clear_value x5
  extract_lets +onlyGivenNames x6
  refine .via (x := x6) ?_ fun h6 => ?_
  · subst x6
    refine .forAll ?_ fun a7 x7 h7 => ?_
    · exact h5
    · exact .step State.enqueue_changes h7
  clear_value x6
  exact .step State.enqueue_changes h6

theorem State.stagedRead_changes {s : State} {a1 : TileId} {a2 : Nat} {a3 : Nat} {a4 : Nat} {a5 : Nat} {a6 : Noise} :
    Changes [.pmc, .tiles] s (State.stagedRead s a1 a2 a3 a4 a5 a6).2 := by
  unfold State.stagedRead
  extract_lets +onlyGivenNames x1 x2 x3 x4 x5 x6
  refine .via (x := x6) ?_ fun h6 => ?_
  · subst x6
    refine .ite ?_ ?_
    · exact .refl
    · exact .step State.noteReads_changes .refl
  clear_value x6
  split
  · exact .snd h6
  · extract_lets +onlyGivenNames x7
    refine .via (x := x7) ?_ fun h7 => ?_
    · subst x7
      exact .step State.noteReads_changes h6
    clear_value x7
    extract_lets +onlyGivenNames x8
    refine .snd ?_
    refine .ite ?_ ?_
    · exact .modIt h7
    · exact h7

theorem State.rebuildStripe_changes {s : State} {a1 : TileId} {a2 : Nat} {a3 : Nat} {a4 : Nat} {a5 : Nat} {a6 : Noise} :
    Changes [.staged, .evr, .pmc, .tiles, .heads, .poison] s (State.rebuildStripe s a1 a2 a3 a4 a5 a6) := by
  unfold State.rebuildStripe
  split
  · exact .refl
  · extract_lets +onlyGivenNames x1 x2
    split
    · rename_i x3 e3
      refine .via (Changes.ofPair e3 ?_) fun h3 => ?_
      · exact .step State.stagedRead_changes .refl
      split
      · refine .ite ?_ ?_
        · exact h3
        · extract_lets +onlyGivenNames x4 x5
          refine .via (x := x5) ?_ fun h5 => ?_
          · subst x5
            exact .modStaged h3
          clear_value x5
          exact .step State.uncorrectable_changes h5
      · exact h3

theorem State.rebuildPage_changes {s : State} {a1 : TileId} {a2 : Nat} {a3 : Nat} {a4 : PageNoise} :
    Changes [.fv, .media, .sys, .evr, .pmc, .seq, .clk, .tiles, .heads, .fab, .mesh, .poison] s (State.rebuildPage s a1 a2 a3 a4) := by
  unfold State.rebuildPage
  split
  · rename_i x1 e1
    refine .via (Changes.ofPair e1 ?_) fun h1 => ?_
    · exact .step State.pageRead_changes .refl
    extract_lets +onlyGivenNames x2
    refine .forAll ?_ fun a3 x3 h3 => ?_
    · exact h1
    · exact .step State.uncorrectable_changes (.modMedia h3)

theorem execSpareRebuildStep_changes {a0 : TileId} {a1 : ChanId} {a2 : PageNoise} {s : State} :
    Ends [.fv, .media, .staged, .sys, .cfg, .evr, .pmc, .seq, .clk, .tiles, .heads, .fab, .mesh, .poison] s (execSpareRebuildStep a0 a1 a2 s) := by
  unfold execSpareRebuildStep
  extract_lets +onlyGivenNames x1
  refine .ite ?_ ?_
  · exact .next .refl
  · split
    · refine .ite ?_ ?_
      · exact .next (.step State.modRebuild_changes .refl)
      · exact .next (.step State.rebuildDone_changes .refl)
    · split
      · exact .next (.step State.rebuildRing_changes .refl)
      · extract_lets +onlyGivenNames x2 x3
        refine .ite ?_ ?_
        · refine .next ?_
          refine .ite ?_ ?_
          · exact .refl
          · exact .step State.rebuildBegin_changes .refl
        · split
          · exact .next .refl
          · refine .ite ?_ ?_
            · exact .next .refl
            · extract_lets +onlyGivenNames x4
              refine .via (x := x4) ?_ fun h4 => ?_
              · subst x4
                exact .step State.endContexts_changes .refl
              clear_value x4
              extract_lets +onlyGivenNames x5
              refine .via (x := x5) ?_ fun h5 => ?_
              · subst x5
                refine .ite ?_ ?_
                · exact h4
                · exact .step State.noteSlot_changes h4
              clear_value x5
              extract_lets +onlyGivenNames x6
              refine .via (x := x6) ?_ fun h6 => ?_
              · subst x6
                refine .ite ?_ ?_
                · exact .step State.rebuildStripe_changes h5
                · exact .step State.rebuildPage_changes h5
              clear_value x6
              exact .next (.step State.modRebuild_changes (.step State.count_changes h6))

theorem execFlushWatchdog_changes {s : State} :
    Ends [.fv, .nv, .media, .staged, .aon, .sys, .boot, .cfg, .prm, .evr, .bbx, .pmc, .sec, .seq, .hld, .flush, .pwr, .clk, .thm, .tiles, .heads, .loads, .nextReq, .fab, .guest, .mesh, .svc, .poison, .prmData, .lsa, .tcm, .scratch] s (execFlushWatchdog s) := by
  unfold execFlushWatchdog
  refine .ite ?_ ?_
  · exact .next (.step State.endFlushWork_changes .refl)
  · exact .next .refl

theorem State.writeHoldup_changes {s : State} :
    Changes [.sys, .cfg, .prm, .tiles] s (State.writeHoldup s) := by
  unfold State.writeHoldup
  refine .ite ?_ ?_
  · exact .refl
  · exact .step State.prmInternal_changes .refl

theorem State.cmpOnly_changes {s : State} {a1 : TileId} {a2 : BitVec 64} :
    Changes [.fv, .sys, .pmc, .clk, .heads] s (State.cmpOnly s a1 a2) := by
  unfold State.cmpOnly
  extract_lets +onlyGivenNames x1
  refine .via (x := x1) ?_ fun h1 => ?_
  · subst x1
    exact .step State.ungate_changes .refl
  split
  · exact h1
  · exact .step State.sendCmp_changes (.step State.admitMiss_changes h1)
  · exact .step State.sendCmp_changes (.step State.noteLocked_changes h1)
  · split
    · rename_i x2 e2
      refine .via (Changes.ofTriple e2 ?_) fun h2 => ?_
      · exact .step State.tagStep_changes h1
      extract_lets +onlyGivenNames x3
      refine .via (x := x3) ?_ fun h3 => ?_
      · subst x3
        exact .step State.sendCmp_changes h2
      refine .ite ?_ ?_
      · exact .step State.sample_changes h3
      · exact h3
  · split
    · rename_i x4 e4
      refine .via (Changes.ofTriple e4 ?_) fun h4 => ?_
      · exact .step State.tagStep_changes h1
      extract_lets +onlyGivenNames x5
      refine .via (x := x5) ?_ fun h5 => ?_
      · subst x5
        exact .step State.sendCmp_changes h4
      refine .ite ?_ ?_
      · exact .step State.sample_changes h5
      · exact h5

theorem execMeminv_changes {a0 : TileId} {a1 : BitVec 64} {s : State} :
    Ends [.fv, .sys, .pmc, .clk, .heads] s (execMeminv a0 a1 s) := by
  unfold execMeminv
  exact .next (.step State.cmpOnly_changes .refl)

theorem execMeshDiscover_changes {a0 : Iface} {s : State} :
    Ends [.pmc, .clk, .heads, .fab, .mesh, .svc] s (execMeshDiscover a0 s) := by
  unfold execMeshDiscover
  refine .command fun a1 => ?_
  refine .ite ?_ ?_
  · exact .step State.mbFinish_changes .refl
  · extract_lets +onlyGivenNames x2 x3
    refine .via (x := x3) ?_ fun h3 => ?_
    · subst x3
      exact .upd (t := s) .refl
    clear_value x3
    exact .step State.startBackground_changes (.step State.startDiscovery_changes h3)

theorem State.heard_changes {s : State} {a1 : MMsg} :
    Changes [.mesh] s (State.heard s a1) := by
  unfold State.heard
  refine .ite ?_ ?_
  · exact .upd (t := s) .refl
  · exact .refl

theorem State.meshArrive_changes {s : State} {a1 : Fin 4} {a2 : MMsg} :
    Changes [.pmc, .clk, .fab, .mesh] s (State.meshArrive s a1 a2).2 := by
  unfold State.meshArrive
  extract_lets +onlyGivenNames x1
  refine .via (x := x1) ?_ fun h1 => ?_
  · subst x1
    exact .step State.meshTake_changes .refl
  split
  · exact .snd (.step State.meshForward_changes h1)
  · split
    · exact .snd h1
    · exact .snd (.step State.heard_changes h1)

theorem State.addRefused_changes {s : State} {a1 : Nat} :
    Changes [.sys, .evr, .pmc, .clk, .tiles, .heads, .fab, .mesh, .svc] s (State.addRefused s a1) := by
  unfold State.addRefused
  split
  · extract_lets +onlyGivenNames x1 x2 x3
    refine .via (x := x3) ?_ fun h3 => ?_
    · subst x3
      refine .upd (t := s) ?_
      exact .refl
    clear_value x3
    exact .step State.mbFinish_changes (.step State.resizeArea_changes h3)
  · exact .step State.degradePair_changes .refl

theorem State.startWalk_changes {s : State} :
    Changes [.mesh] s (State.startWalk s) := by
  unfold State.startWalk
  exact .upd (t := s) .refl

theorem State.walkDone_changes {s : State} :
    Changes [.sys, .evr, .pmc, .clk, .heads, .fab, .mesh] s (State.walkDone s) := by
  unfold State.walkDone
  refine .ite ?_ ?_
  · extract_lets +onlyGivenNames x1 x2
    refine .via (x := x2) ?_ fun h2 => ?_
    · subst x2
      exact .upd (t := s) .refl
    refine .ite ?_ ?_
    · exact .step State.setPair_changes h2
    · extract_lets +onlyGivenNames x3
      split
      · rename_i x4 e4
        refine .via (Changes.ofPair e4 ?_) fun h4 => ?_
        · exact .step State.meshTag_changes h2
        exact .step State.meshSend_changes h4
  · exact .refl

theorem State.modWalk_changes {s : State} {a1 : TileId} {a2 : Walk → Walk} :
    Changes [.mesh] s (State.modWalk s a1 a2) := by
  unfold State.modWalk
  exact .upd (t := s) .refl

theorem execMcmp_changes {a0 : Fin 4} {a1 : MMsg} {a2 : Nat} {s : State} :
    Ends [.nv, .sys, .evr, .bbx, .pmc, .clk, .tiles, .heads, .fab, .mesh, .svc, .poison] s (execMcmp a0 a1 a2 s) := by
  unfold execMcmp
  split
  · rename_i x1 e1
    refine .via (Changes.ofPair e1 ?_) fun h1 => ?_
    · exact .step State.meshArrive_changes .refl
    refine .ite ?_ ?_
    · exact .next h1
    · split
      · extract_lets +onlyGivenNames x2 x3
        refine .via (x := x3) ?_ fun h3 => ?_
        · subst x3
          exact .upd (t := x1) h1
        extract_lets +onlyGivenNames x4
        refine .via (x := x4) ?_ fun h4 => ?_
        · subst x4
          refine .ite ?_ ?_
          · exact .step State.count_changes h3
          · exact h3
        refine .ite ?_ ?_
        · exact .next (.step State.answerPeers_changes (.step State.modStore_changes h4))
        · exact .next (.step State.degradePair_changes h4)
      · split
        · extract_lets +onlyGivenNames x5 x6
          refine .via (x := x6) ?_ fun h6 => ?_
          · subst x6
            exact .upd (t := x1) h1
          refine .ite ?_ ?_
          · exact .next (.step State.addRefused_changes h6)
          · refine .ite ?_ ?_
            · exact .next (.step State.addProceed_changes (.step State.startWalk_changes h6))
            · exact .next (.step State.addProceed_changes h6)
        · split
          · extract_lets +onlyGivenNames x7 x8
            refine .via (x := x8) ?_ fun h8 => ?_
            · subst x8
              exact .upd (t := x1) h1
            refine .ite ?_ ?_
            · exact .next (.step State.walkDone_changes (.step State.modWalk_changes h8))
            · exact .next (.step State.degradePair_changes (.step State.breakMesh_changes (.upd (t := x8) h8)))
          · extract_lets +onlyGivenNames x9 x10
            refine .via (x := x10) ?_ fun h10 => ?_
            · subst x10
              exact .upd (t := x1) h1
            refine .ite ?_ ?_
            · exact .next (.step State.degradePair_changes h10)
            · exact .next (.upd (t := x10) h10)
          · exact .next h1

theorem State.mirrorWrite_changes {s : State} {a1 : MMsg} {a2 : Bool} {a3 : Bool} :
    Changes [.fv, .sys, .evr, .pmc, .clk, .tiles, .heads, .loads, .nextReq, .fab, .mesh, .svc, .poison] s (State.mirrorWrite s a1 a2 a3) := by
  unfold State.mirrorWrite
  extract_lets +onlyGivenNames x1 x2 x3
  exact .step State.newStore_changes .refl

theorem execPlacementWordReloaded_changes {a0 : TileId} {a1 : Nat} {s : State} :
    Ends [.fv, .sys, .evr, .pmc, .clk, .tiles, .heads, .loads, .nextReq, .fab, .mesh, .poison] s (execPlacementWordReloaded a0 a1 s) := by
  unfold execPlacementWordReloaded
  exact .next (.step State.wakeLoads_changes (.modPl .refl))

theorem State.startResync_changes {s : State} :
    Changes [.pmc, .clk, .fab, .mesh] s (State.startResync s) := by
  unfold State.startResync
  extract_lets +onlyGivenNames x1 x2 x3
  refine .via (x := x3) ?_ fun h3 => ?_
  · subst x3
    exact .upd (t := s) .refl
  split
  · rename_i x4 e4
    refine .via (Changes.ofPair e4 ?_) fun h4 => ?_
    · exact .step State.meshTag_changes h3
    extract_lets +onlyGivenNames x5 x6
    refine .via (x := x6) ?_ fun h6 => ?_
    · subst x6
      exact .upd (t := x4) h4
    extract_lets +onlyGivenNames x7
    refine .via (x := x7) ?_ fun h7 => ?_
    · subst x7
      exact .step State.meshSend_changes h6
    refine .forAll ?_ fun a8 x8 h8 => ?_
    · exact h7
    · split
      · rename_i x9 e9
        refine .via (Changes.ofPair e9 ?_) fun h9 => ?_
        · exact .step State.meshTag_changes h8
        extract_lets +onlyGivenNames x10 x11
        refine .via (x := x11) ?_ fun h11 => ?_
        · subst x11
          exact .upd (t := x9) h9
        exact .step State.meshSend_changes h11

theorem TileNv.MemOk.eraseAll {v : TileNv} (h : v.MemOk) : (eraseAll v).MemOk := by
  unfold Sys2Proof.Machine.eraseAll
  exact ⟨h.1, rfl⟩

theorem eraseAll_nv {gs : List Group} {v : Vector TileNv 8} (hg : gs.contains .lsa = true := by rfl) :
    Nvs gs v (vmap v fun _ x => eraseAll x) :=
  vmap_rel fun _ x => ⟨fun _ => rfl, fun h => by rw [hg] at h; (cases h), fun hx => TileNv.MemOk.eraseAll hx⟩

theorem execRdpEraseDone_changes {s : State} :
    Ends [.fv, .nv, .media, .staged, .aon, .sys, .boot, .cfg, .prm, .evr, .bbx, .pmc, .sec, .seq, .hld, .flush, .pwr, .clk, .thm, .tiles, .heads, .loads, .nextReq, .fab, .guest, .mesh, .svc, .poison, .prmData, .lsa, .tcm, .scratch] s (execRdpEraseDone s) := by
  unfold execRdpEraseDone
  refine .ite ?_ ?_
  · exact .next .refl
  · extract_lets +onlyGivenNames x1
    refine .via (x := x1) ?_ fun h1 => ?_
    · subst x1
      refine .upd (t := s) ?_ (hn := eraseAll_nv)
      exact .refl
    clear_value x1
    extract_lets +onlyGivenNames x2
    refine .via (x := x2) ?_ fun h2 => ?_
    · subst x2
      exact .modNv h1
    clear_value x2
    extract_lets +onlyGivenNames x3
    refine .via (x := x3) ?_ fun h3 => ?_
    · subst x3
      exact .step State.raise_changes h2
    clear_value x3
    extract_lets +onlyGivenNames x4
    refine .via (x := x4) ?_ fun h4 => ?_
    · subst x4
      exact .step State.twinWrite_changes h3
    clear_value x4
    exact .next (.step State.packageReset_changes h4)

theorem execGetDynamicCapacityExtentList_changes {a0 : Iface} {s : State} :
    Ends [.heads, .svc] s (execGetDynamicCapacityExtentList a0 s) := by
  unfold execGetDynamicCapacityExtentList
  refine .command fun a1 => ?_
  extract_lets +onlyGivenNames x2 x3
  exact .step State.reply_changes .refl

theorem State.packageRound_changes {s : State} :
    Changes [.sys, .evr, .bbx, .heads, .mesh] s (State.packageRound s) := by
  unfold State.packageRound
  extract_lets +onlyGivenNames x1 x2
  refine .via (x := x2) ?_ fun h2 => ?_
  · subst x2
    refine .ite ?_ ?_
    · exact .refl
    · exact .step State.raise_changes .refl
  extract_lets +onlyGivenNames x3
  refine .via (x := x3) ?_ fun h3 => ?_
  · subst x3
    refine .ite ?_ ?_
    · exact h2
    · exact .step State.raise_changes h2
  extract_lets +onlyGivenNames x4
  refine .via (x := x4) ?_ fun h4 => ?_
  · subst x4
    refine .ite ?_ ?_
    · exact h3
    · exact .step State.raise_changes h3
  extract_lets +onlyGivenNames x5
  refine .via (x := x5) ?_ fun h5 => ?_
  · subst x5
    refine .ite ?_ ?_
    · exact h4
    · exact .step State.raise_changes h4
  extract_lets +onlyGivenNames x6
  refine .via (x := x6) ?_ fun h6 => ?_
  · subst x6
    refine .ite ?_ ?_
    · exact .step State.raise_changes h5
    · exact h5
  extract_lets +onlyGivenNames x7
  refine .via (x := x7) ?_ fun h7 => ?_
  · subst x7
    refine .ite ?_ ?_
    · exact h6
    · exact .step State.raise_changes h6
  extract_lets +onlyGivenNames x8 x9 x10 x11
  refine .via (x := x11) ?_ fun h11 => ?_
  · subst x11
    exact .upd (t := x7) h7
  refine .forAll ?_ fun a12 x12 h12 => ?_
  · exact h11
  · exact .step State.raise_changes h12

theorem execMctpRequest_changes {a0 : BitVec 16} {a1 : List Byte} {s : State} :
    Ends [.clk, .heads, .svc] s (execMctpRequest a0 a1 s) := by
  unfold execMctpRequest
  refine .ite ?_ ?_
  · exact .next (.step State.sbEnd_changes .refl)
  · refine .ite ?_ ?_
    · exact .next (.step State.sbEnd_changes .refl)
    · refine .ite ?_ ?_
      · exact .next (.step State.sbEnd_changes .refl)
      · extract_lets +onlyGivenNames x1
        refine .via (x := x1) ?_ fun h1 => ?_
        · subst x1
          exact .step State.sbEnd_changes .refl
        exact .next (.step State.modMb_changes h1)

theorem execBackgroundOperationStatus_changes {a0 : Iface} {s : State} :
    Ends [.fv, .heads, .svc] s (execBackgroundOperationStatus a0 s) := by
  unfold execBackgroundOperationStatus
  refine .command fun a1 => ?_
  split
  · rename_i x2 e2
    refine .via (Changes.ofPair e2 ?_) fun h2 => ?_
    · exact .step State.draw_changes .refl
    extract_lets +onlyGivenNames x3
    refine .via (x := x3) ?_ fun h3 => ?_
    · subst x3
      exact .step State.modMb_changes h2
    clear_value x3
    extract_lets +onlyGivenNames x4
    exact .step State.reply_changes h3

theorem execI3cRstdaa_changes {s : State} :
    Ends [.clk, .svc] s (execI3cRstdaa s) := by
  unfold execI3cRstdaa
  refine .ite ?_ ?_
  · exact .next (.step State.sbEnd_changes .refl)
  · exact .next (.step State.sbEnd_changes (.upd (t := s) .refl))

theorem State.patrolRefresh_changes {s : State} {a1 : TileId} {a2 : Nat} {a3 : Nat} {a4 : Bool} :
    Changes [.pmc, .tiles] s (State.patrolRefresh s a1 a2 a3 a4) := by
  unfold State.patrolRefresh
  extract_lets +onlyGivenNames x1
  refine .via (x := x1) ?_ fun h1 => ?_
  · subst x1
    exact .step State.count_changes (.modIt .refl)
  refine .ite ?_ ?_
  · exact .step State.queueRefresh_changes h1
  · exact .modD h1

theorem execGaitSetc_changes {a0 : TileId} {a1 : Fin 64} {a2 : Fin 4} {s : State} :
    Ends [.pmc, .tiles] s (execGaitSetc a0 a1 a2 s) := by
  unfold execGaitSetc
  split
  · exact .next .refl
  · exact .next (.step State.putCtx_changes .refl)

theorem execMailboxDoorbell_changes {a0 : Iface} {a1 : BitVec 16} {a2 : List Byte} {s : State} :
    Ends [.heads, .svc] s (execMailboxDoorbell a0 a1 a2 s) := by
  unfold execMailboxDoorbell
  split
  · exact .next .refl
  · refine .ite ?_ ?_
    · exact .next .refl
    · exact .next (.step State.modMb_changes .refl)

theorem State.startFlush_changes {s : State} {a1 : Nat} :
    Changes [.nv, .sys, .boot, .evr, .bbx, .pmc, .hld, .flush, .pwr, .clk, .tiles, .heads, .fab, .mesh, .svc] s (State.startFlush s a1) := by
  unfold State.startFlush
  refine .ite ?_ ?_
  · exact .refl
  · extract_lets +onlyGivenNames x1 x2
    refine .via (x := x2) ?_ fun h2 => ?_
    · subst x2
      exact .step State.bye_changes .refl
    clear_value x2
    extract_lets +onlyGivenNames x3
    refine .via (x := x3) ?_ fun h3 => ?_
    · subst x3
      exact .step State.abandonCommands_changes h2
    clear_value x3
    extract_lets +onlyGivenNames x4 x5 x6
    refine .via (x := x6) ?_ fun h6 => ?_
    · subst x6
      refine .upd (t := x3) ?_
      exact h3
    clear_value x6
    extract_lets +onlyGivenNames x7
    refine .via (x := x7) ?_ fun h7 => ?_
    · subst x7
      refine .ite ?_ ?_
      · exact h6
      · exact .step State.setDev_changes h6
    clear_value x7
    extract_lets +onlyGivenNames x8
    refine .via (x := x8) ?_ fun h8 => ?_
    · subst x8
      exact .step State.raise_changes h7
    clear_value x8
    extract_lets +onlyGivenNames x9
    refine .via (x := x9) ?_ fun h9 => ?_
    · subst x9
      refine .forAll ?_ fun a10 x10 h10 => ?_
      · exact h8
      · exact .step State.flushTile_changes h10
    clear_value x9
    refine .ite ?_ ?_
    · exact h9
    · extract_lets +onlyGivenNames x11 x12
      refine .via (x := x12) ?_ fun h12 => ?_
      · subst x12
        exact .step State.bbWrite_changes h9
      clear_value x12
      refine .upd (t := x12) ?_ (he := by with_reducible exact fun h => h.of)
      exact h12

theorem State.newest_changes {s : State} {a1 : Nat} :
    Changes [.fv] s (State.newest s a1).2.2 := by
  unfold State.newest
  dsimp only
  split
  · cases cached s.tiles[(s.home a1).tile].d a1 <;> exact .refl
  · exact State.decrypt_changes.step .refl
  · exact State.decrypt_changes.step .refl
  · exact State.decrypt_changes.step (State.homeLine_changes.step .refl)
  · exact .refl

theorem State.listPage_changes {s : State} {a1 : TileId} {a2 : Nat} {a3 : Nat} {a4 : Nat} {a5 : List (Nat × LineRead)} :
    Changes [.evr, .heads, .poison] s (State.listPage s a1 a2 a3 a4 a5) := by
  unfold State.listPage
  extract_lets +onlyGivenNames x1
  refine .forAll ?_ fun a2 x2 h2 => ?_
  · exact .refl
  · extract_lets +onlyGivenNames x3
    refine .ite ?_ ?_
    · exact .step State.foundPoisoned_changes h2
    · exact h2

theorem State.visitBad_changes {s : State} {a1 : TileId} {a2 : Nat} {a3 : Nat} {a4 : Nat} :
    Changes [.fv, .sys, .evr, .pmc, .clk, .tiles, .heads, .loads, .nextReq, .fab, .mesh, .poison] s (State.visitBad s a1 a2 a3 a4) := by
  unfold State.visitBad
  extract_lets +onlyGivenNames x1 x2 x3
  exact .step State.ladderFailed_changes (.upd (t := s) .refl)

theorem State.pageVisited_changes {s : State} {a1 : TileId} {a2 : Nat} {a3 : Nat} {a4 : Bool} {a5 : List (Nat × LineRead)} :
    Changes [.fv, .sys, .evr, .pmc, .clk, .tiles, .heads, .loads, .nextReq, .fab, .mesh, .poison] s (State.pageVisited s a1 a2 a3 a4 a5) := by
  unfold State.pageVisited
  extract_lets +onlyGivenNames x1 x2 x3 x4 x5
  refine .via (x := x5) ?_ fun h5 => ?_
  · subst x5
    exact .step State.listPage_changes .refl
  clear_value x5
  extract_lets +onlyGivenNames x6 x7 x8 x9 x10
  refine .ite ?_ ?_
  · exact h5
  · refine .ite ?_ ?_
    · extract_lets +onlyGivenNames x11
      refine .step State.patrolRefresh_changes ?_
      refine .forAll ?_ fun a12 x12 h12 => ?_
      · exact h5
      · exact .step State.count_changes (.step State.visitBad_changes h12)
    · refine .ite ?_ ?_
      · exact .step State.patrolRefresh_changes h5
      · refine .ite ?_ ?_
        · extract_lets +onlyGivenNames x13 x14
          refine .via (x := x14) ?_ fun h14 => ?_
          · subst x14
            exact .modIt h5
          clear_value x14
          extract_lets +onlyGivenNames x15
          refine .via (x := x15) ?_ fun h15 => ?_
          · subst x15
            refine .ite ?_ ?_
            · exact .modD h14
            · exact h14
          clear_value x15
          exact .step State.patrolRefresh_changes h15
        · refine .ite ?_ ?_
          · exact .step State.patrolRefresh_changes h5
          · exact h5

theorem execMwrRouteHoldEnd_changes {a0 : Nat} {s : State} :
    Ends [.sys, .evr, .pmc, .clk, .tiles, .heads, .fab, .mesh] s (execMwrRouteHoldEnd a0 s) := by
  unfold execMwrRouteHoldEnd
  refine .ite ?_ ?_
  · extract_lets +onlyGivenNames x1 x2 x3
    refine .via (x := x3) ?_ fun h3 => ?_
    · subst x3
      exact .upd (t := s) .refl
    refine .next ?_
    refine .forAll ?_ fun a4 x4 h4 => ?_
    · exact h3
    · exact .step State.sendMwr_changes h4
  · exact .next .refl

theorem execSetPowerState_changes {a0 : Iface} {s : State} :
    Ends [.sys, .evr, .pmc, .seq, .pwr, .clk, .tiles, .heads, .fab, .svc] s (execSetPowerState a0 s) := by
  unfold execSetPowerState
  refine .command fun a1 => ?_
  refine .ite ?_ ?_
  · exact .step State.mbFinish_changes .refl
  · exact .step State.mbFinish_changes (.step State.setPower_changes .refl)

theorem State.markRdp_changes {s : State} :
    Changes [.sys, .cfg, .prm, .tiles] s (State.markRdp s) := by
  unfold State.markRdp
  refine .ite ?_ ?_
  · extract_lets +onlyGivenNames x1
    refine .via (x := x1) ?_ fun h1 => ?_
    · subst x1
      exact .step State.twinEnqueue_changes .refl
    exact .upd (t := x1) h1
  · extract_lets +onlyGivenNames x2
    refine .via (x := x2) ?_ fun h2 => ?_
    · subst x2
      exact .step State.supplyRefused_changes .refl
    exact .upd (t := x2) h2

theorem execSetReadoutProtection_changes {a0 : Iface} {s : State} :
    Ends [.fuses, .nv, .sys, .cfg, .prm, .evr, .tiles, .heads, .svc] s (execSetReadoutProtection a0 s) := by
  unfold execSetReadoutProtection
  refine .command fun a1 => ?_
  extract_lets +onlyGivenNames x2 x3 x4
  refine .ite ?_ ?_
  · exact .step State.mbFinish_changes .refl
  · refine .ite ?_ ?_
    · exact .step State.mbFinish_changes .refl
    · refine .ite ?_ ?_
      · exact .step State.mbFinish_changes .refl
      · refine .ite ?_ ?_
        · exact .step State.mbFinish_changes .refl
        · refine .ite ?_ ?_
          · exact .step State.mbFinish_changes .refl
          · refine .ite ?_ ?_
            · exact .step State.mbFinish_changes (.step State.markRdp_changes .refl)
            · exact .step State.raiseRdp_changes .refl

theorem State.logsBytes_changes {s : State} {a1 : Fin 5} {a2 : List LogRec} :
    Changes [.fv] s (State.logsBytes s a1 a2).2 := by
  induction a2 generalizing s with
  | nil => exact .refl
  | cons x r ih => exact (ih (s := s.draw.2)).step State.draw_changes

theorem execGetEventRecords_changes {a0 : Iface} {s : State} :
    Ends [.fv, .heads, .svc] s (execGetEventRecords a0 s) := by
  unfold execGetEventRecords
  refine .command fun a1 => ?_
  refine .ite ?_ ?_
  · exact .step State.mbFinish_changes .refl
  · extract_lets +onlyGivenNames x2 x3 x4
    split
    · rename_i x5 e5
      refine .via (Changes.ofPair e5 ?_) fun h5 => ?_
      · exact .step State.logsBytes_changes .refl
      exact .step State.mbFinish_changes h5

theorem execHeadLinkUp_changes {a0 : TileId} {a1 : BitVec 4} {a2 : BitVec 4} {a3 : Bool} {a4 : Bool} {s : State} :
    Ends [.sys, .evr, .clk, .heads] s (execHeadLinkUp a0 a1 a2 a3 a4 s) := by
  unfold execHeadLinkUp
  extract_lets +onlyGivenNames x1
  refine .ite ?_ ?_
  · exact .next .refl
  · extract_lets +onlyGivenNames x2 x3
    refine .via (x := x3) ?_ fun h3 => ?_
    · subst x3
      exact .upd (t := s) .refl
    exact .next (.step State.headDown_changes (.modHead h3))

theorem State.waitDone_changes {s : State} {a1 : MbWait} :
    Changes [.heads, .svc] s (State.waitDone s a1) := by
  unfold State.waitDone
  split
  · refine .ite ?_ ?_
    · exact .step State.mbFinish_changes .refl
    · exact .refl
  · exact .refl

theorem State.flashCommand_changes {s : State} :
    Changes [.heads, .svc] s (State.flashCommand s) := by
  unfold State.flashCommand
  extract_lets +onlyGivenNames x1
  refine .ite ?_ ?_
  · exact .refl
  · exact .step State.waitDone_changes .refl

theorem execFlashEraseDone_changes {a0 : TileId} {a1 : Bool} {s : State} :
    Ends [.nv, .tiles, .heads, .svc, .lsa] s (execFlashEraseDone a0 a1 s) := by
  unfold execFlashEraseDone
  dsimp only
  split
  · exact .next .refl
  · rename_i op _
    refine .ite (.next .refl) ?_
    have h2 := (State.journalReuse_changes (a1 := a0) (a2 := if a1 then 1 else 0)).step
      (Changes.modNv' (gs := [.nv, .tiles, .heads, .svc, .lsa]) (s := s) (i := a0) .refl
        (f := fun v => eraseContent (if a1 then 1 else 0) op (jClose v (if a1 then 1 else 0) op.sector))
        (fun x h => TileNv.MemOk.erase h) (hp := fun _ _ => eraseContent_prm))
    exact .ite (.next (.step State.flashCommand_changes (.step State.flashNext_changes h2))) (.next (.modCfl h2))

theorem execUnitRecordCheck_changes {s : State} :
    Ends [.nv, .sys, .boot, .cfg, .evr, .seq, .tiles, .heads, .prmData] s (execUnitRecordCheck s) := by
  unfold execUnitRecordCheck
  refine .ite ?_ ?_
  · exact .next .refl
  · refine .ite ?_ ?_
    · exact .next (.step State.confirmTrial_changes (.step State.configHold_changes (.step State.raise_changes .refl)))
    · exact .next (.upd (t := s) .refl)

theorem execGetResponseMessageLimit_changes {a0 : Iface} {s : State} :
    Ends [.heads, .svc] s (execGetResponseMessageLimit a0 s) := by
  unfold execGetResponseMessageLimit
  refine .command fun a1 => ?_
  exact .step State.reply_changes .refl

theorem execPatrolCursorSave_changes {s : State} :
    Ends [.sys, .cfg, .prm, .tiles] s (execPatrolCursorSave s) := by
  unfold execPatrolCursorSave
  exact .next (.step State.saveCursors_changes .refl)

theorem execUnsupportedCommand_changes {a0 : Iface} {s : State} :
    Ends [.heads, .svc] s (execUnsupportedCommand a0 s) := by
  unfold execUnsupportedCommand
  refine .ite ?_ ?_
  · exact .next .refl
  · split
    · exact .next .refl
    · refine .ite ?_ ?_
      · exact .next .refl
      · refine .ite ?_ ?_
        · exact .next (.step State.mbFinish_changes .refl)
        · exact .next (.step State.mbFinish_changes .refl)

theorem State.holdRound_changes {s : State} {a1 : TileId} {a2 : ChanId} :
    Changes [.evr, .tiles, .heads] s (State.holdRound s a1 a2) := by
  unfold State.holdRound
  extract_lets +onlyGivenNames x1 x2 x3
  refine .ite ?_ ?_
  · refine .ite ?_ ?_
    · exact .refl
    · exact .step State.raise_changes (.modTherm .refl)
  · refine .ite ?_ ?_
    · exact .step State.raise_changes (.modTherm .refl)
    · exact .refl

theorem execReadVendorRegister_changes {a0 : Iface} {s : State} :
    Ends [.heads, .svc] s (execReadVendorRegister a0 s) := by
  unfold execReadVendorRegister
  refine .command fun a1 => ?_
  split
  · exact .step State.mbFinish_changes .refl
  · exact .step State.reply_changes .refl

theorem execWidarTrainRetryTimer_changes {a0 : PortId} {s : State} :
    Ends [.fab, .mesh] s (execWidarTrainRetryTimer a0 s) := by
  unfold execWidarTrainRetryTimer
  refine .ite ?_ ?_
  · exact .next (.step State.modLink_changes .refl)
  · exact .next .refl

theorem State.energyRound_changes {s : State} :
    Changes [.fv, .sys, .evr, .pmc, .hld, .clk, .tiles, .heads, .loads, .nextReq, .fab, .mesh, .svc, .poison] s (State.energyRound s) := by
  unfold State.energyRound
  refine .ite ?_ ?_
  · exact .refl
  · extract_lets +onlyGivenNames x1 x2 x3 x4
    refine .via (x := x4) ?_ fun h4 => ?_
    · subst x4
      exact .upd (t := s) .refl
    refine .ite ?_ ?_
    · exact .step State.applyBudgets_changes (.upd (t := x4) h4)
    · exact h4

theorem execPowerFailDetect_changes {a0 : Bool} {s : State} :
    Ends [.nv, .aon, .sys, .boot, .evr, .bbx, .pmc, .seq, .hld, .flush, .pwr, .clk, .tiles, .heads, .fab, .mesh, .svc] s (execPowerFailDetect a0 s) := by
  unfold execPowerFailDetect
  extract_lets +onlyGivenNames x1 x2
  refine .via (x := x2) ?_ fun h2 => ?_
  · subst x2
    exact .upd (t := s) .refl
  refine .ite ?_ ?_
  · exact .next h2
  · refine .ite ?_ ?_
    · exact .next (.step State.fixedOff_changes h2)
    · extract_lets +onlyGivenNames x3
      refine .via (x := x3) ?_ fun h3 => ?_
      · subst x3
        exact .upd (t := x2) h2
      exact .next (.step State.startFlush_changes h3)

theorem State.refuseRetrain_changes {s : State} {a1 : PortId} {a2 : InitFlit} :
    Changes [.nv, .sys, .evr, .bbx, .pmc, .clk, .tiles, .heads, .loads, .fab, .guest, .mesh] s (State.refuseRetrain s a1 a2) := by
  unfold State.refuseRetrain
  refine .step State.linkOut_changes ?_
  split
  · refine .ite ?_ ?_
    · exact .step State.raise_changes .refl
    · exact .refl
  · exact .step State.meshRefuse_changes .refl

theorem execSidebandEepromWrite_changes {a0 : BitVec 16} {a1 : BitVec 8} {a2 : List Byte} {s : State} :
    Ends [.sys, .prm, .clk, .tiles, .svc] s (execSidebandEepromWrite a0 a1 a2 s) := by
  unfold execSidebandEepromWrite
  extract_lets +onlyGivenNames x1 x2 x3
  refine .ite ?_ ?_
  · exact .next (.step State.sbEnd_changes .refl)
  · refine .ite ?_ ?_
    · exact .next (.step State.sbEnd_changes .refl)
    · refine .ite ?_ ?_
      · exact .next (.step State.sbEnd_changes .refl)
      · refine .ite ?_ ?_
        · exact .next (.step State.sbEnd_changes (.upd (t := s) .refl))
        · refine .ite ?_ ?_
          · extract_lets +onlyGivenNames x4
            refine .via (x := x4) ?_ fun h4 => ?_
            · subst x4
              exact .step State.supplyRefused_changes .refl
            exact .next (.step State.sbEnd_changes (.upd (t := x4) h4))
          · exact .next (.step State.sbEnd_changes (.step State.prmEnqueue_changes .refl))

theorem State.retrain_changes {s : State} {a1 : PortId} :
    Changes [.fab, .mesh] s (State.retrain s a1) := by
  unfold State.retrain
  exact .step State.modLink_changes .refl

theorem State.rxTimeout_changes {s : State} {a1 : PortId} :
    Changes [.fab, .mesh] s (State.rxTimeout s a1) := by
  unfold State.rxTimeout
  extract_lets +onlyGivenNames x1
  refine .ite ?_ ?_
  · exact .refl
  · exact .step State.retrain_changes (.step State.modLink_changes .refl)

theorem execWidarRxTimeout_changes {a0 : TileId} {a1 : Fin 4} {s : State} :
    Ends [.fab, .mesh] s (execWidarRxTimeout a0 a1 s) := by
  unfold execWidarRxTimeout
  exact .next (.step State.rxTimeout_changes .refl)

theorem execLoadConfiguration_changes {a0 : Iface} {s : State} :
    Ends [.cfg, .heads, .svc] s (execLoadConfiguration a0 s) := by
  unfold execLoadConfiguration
  refine .command fun a1 => ?_
  refine .ite ?_ ?_
  · exact .step State.mbFinish_changes .refl
  · refine .ite ?_ ?_
    · exact .step State.mbFinish_changes .refl
    · refine .ite ?_ ?_
      · exact .step State.mbFinish_changes .refl
      · refine .step State.mbFinish_changes ?_
        refine .upd (t := s) ?_
        exact .refl

theorem State.loadPlacement_changes {s : State} {a1 : TileId} :
    Changes [.tiles] s (State.loadPlacement s a1) := by
  unfold State.loadPlacement
  extract_lets +onlyGivenNames x1 x2 x3 x4 x5 x6
  exact .modPl .refl

theorem execWriteParameterStore_changes {a0 : Iface} {s : State} :
    Ends [.sys, .prm, .tiles, .heads, .svc] s (execWriteParameterStore a0 s) := by
  unfold execWriteParameterStore
  refine .command fun a1 => ?_
  extract_lets +onlyGivenNames x2 x3
  refine .ite ?_ ?_
  · exact .step State.mbFinish_changes .refl
  · refine .ite ?_ ?_
    · exact .step State.mbFinish_changes .refl
    · refine .ite ?_ ?_
      · exact .step State.mbFinish_changes .refl
      · refine .ite ?_ ?_
        · exact .step State.mbFinish_changes (.step State.supplyRefused_changes .refl)
        · extract_lets +onlyGivenNames x4
          refine .via (x := x4) ?_ fun h4 => ?_
          · subst x4
            exact .step State.prmEnqueue_changes .refl
          clear_value x4
          refine .upd (t := x4) ?_
          exact h4

theorem State.useCells_changes {s : State} {a1 : TileId} {a2 : Nat} {a3 : Nat} {a4 : Nat} :
    Changes [.media] s (State.useCells s a1 a2 a3 a4) := by
  unfold State.useCells
  exact .modMedia .refl

end Sys2Proof.Machine
end

