-- ==== Sys2Proof/Laws/Changes7.lean ====
section
/-! SUPPORT. Part 7 of the lemmas, one for each operation and each command's meaning, that say which groups of the state it can
change and that it keeps the canonical memories and the bounds. -/

namespace Sys2Proof.Machine

set_option Elab.async false

theorem State.placeStripe_changes {s : State} {a1 : TileId} {a2 : BitVec 64} {a3 : Fin 5} {a4 : Nat × Nat × Nat} :
    Changes [.media, .tiles] s (State.placeStripe s a1 a2 a3 a4) := by
  unfold State.placeStripe
  split
  · extract_lets +onlyGivenNames x1 x2
    refine .via (x := x2) ?_ fun h2 => ?_
    · subst x2
      exact .modD .refl
    clear_value x2
    exact .step State.thresholds_changes (.step State.useCells_changes h2)

theorem State.saveRegisters_changes {s : State} {a1 : TileId} :
    Changes [.fv, .nv, .fab, .velvet] s (State.saveRegisters s a1) := by
  unfold State.saveRegisters
  extract_lets y1 y2 x1
  have h1 : Changes [.fv, .nv, .fab, .velvet] s x1 := .upd (t := s) .refl
  exact .modNv (.modFab' h1 fun x h => h.writeVelvet)

theorem execDirectoryBucketRebuilt_changes {a0 : TileId} {a1 : Nat} {s : State} :
    Ends [.fv, .sys, .evr, .pmc, .clk, .tiles, .heads, .loads, .nextReq, .fab, .mesh, .poison] s (execDirectoryBucketRebuilt a0 a1 s) := by
  unfold execDirectoryBucketRebuilt
  exact .next (.step State.wakeLoads_changes (.modIt .refl))

theorem State.railRecord_changes {s : State} {a1 : Nat} {a2 : Nat} {a3 : Nat} :
    Changes [.nv, .bbx, .clk, .tiles] s (State.railRecord s a1 a2 a3) := by
  unfold State.railRecord
  exact .step State.bbWrite_changes .refl

theorem execRetryReqResendTimer_changes {a0 : PortId} {s : State} :
    Ends [.fab, .mesh] s (execRetryReqResendTimer a0 s) := by
  unfold execRetryReqResendTimer
  extract_lets +onlyGivenNames x1
  refine .ite ?_ ?_
  · exact .next .refl
  · refine .ite ?_ ?_
    · exact .next (.step State.retrain_changes (.step State.modLink_changes .refl))
    · exact .next (.step State.sendRetry_changes .refl)

theorem State.msgIn_changes {s : State} {a1 : TileId} {a2 : Fin 4} {a3 : Msg} :
    Changes [.sys, .pmc, .clk, .fab, .mesh] s (State.msgIn s a1 a2 a3) := by
  unfold State.msgIn
  extract_lets +onlyGivenNames x1
  refine .via (x := x1) ?_ fun h1 => ?_
  · subst x1
    exact .step State.ungate_changes .refl
  extract_lets +onlyGivenNames x2 x3 x4 x5
  refine .ite ?_ ?_
  · extract_lets +onlyGivenNames x6 x7
    refine .via (x := x7) ?_ fun h7 => ?_
    · subst x7
      refine .ite ?_ ?_
      · exact .upd (t := x1) h1
      · exact h1
    exact .step State.wReject_changes (.step State.creditMsg_changes h7)
  · refine .ite ?_ ?_
    · exact .step State.wReject_changes (.step State.creditMsg_changes h1)
    · refine .ite ?_ ?_
      · exact .modFab h1
      · extract_lets +onlyGivenNames x8
        refine .via (x := x8) ?_ fun h8 => ?_
        · subst x8
          exact .step State.creditMsg_changes h1
        refine .ite ?_ ?_
        · refine .step State.wReply_changes ?_
          refine .ite ?_ ?_
          · exact h8
          · exact .step State.refuseDead_changes h8
        · extract_lets +onlyGivenNames x9
          refine .via (x := x9) ?_ fun h9 => ?_
          · subst x9
            exact .step State.count_changes h8
          split
          · rename_i x10 e10
            refine .via (Changes.ofPair e10 ?_) fun h10 => ?_
            · exact .step State.wsend_changes h9
            refine .ite ?_ ?_
            · refine .ite ?_ ?_
              · exact .modFab h10
              · exact h10
            · refine .ite ?_ ?_
              · exact .step State.wReply_changes h10
              · exact h10

theorem State.msgsIn_changes {s : State} {a1 : TileId} {a2 : Fin 4} {a3 : Nat} {a4 : List Msg} :
    Changes [.sys, .pmc, .clk, .fab, .mesh] s (State.msgsIn s a1 a2 a3 a4) := by
  induction a4 generalizing s a3 with
  | nil => exact .refl
  | cons m r ih =>
    unfold State.msgsIn
    split
    · extract_lets x1
      have h1 : Changes [.sys, .pmc, .clk, .fab, .mesh] s x1 := State.creditMsg_changes.step .refl
      split
      · exact State.modLink_changes.step h1
      · exact State.wReject_changes.step h1
    · exact ih.step State.msgIn_changes

theorem State.pairRoles_changes {s : State} {a1 : List Byte} :
    Changes [.mesh] s (State.pairRoles s a1) := by
  unfold State.pairRoles
  extract_lets +onlyGivenNames x1
  exact .upd (t := s) .refl

theorem State.contactMade_changes {s : State} {a1 : List Byte} :
    Changes [.sys, .evr, .pmc, .clk, .heads, .fab, .mesh] s (State.contactMade s a1) := by
  unfold State.contactMade
  extract_lets +onlyGivenNames x1 x2 x3
  split
  · exact .step State.startResync_changes (.step State.setPair_changes (.upd (t := s) .refl))
  · subst x3
    exact .step State.raise_changes (.step State.setPair_changes (.upd (t := s) .refl))
  · refine .ite ?_ ?_
    · subst x3
      exact .step State.raise_changes (.step State.setPair_changes (.upd (t := s) .refl))
    · exact .step State.setPair_changes (.upd (t := s) .refl)
  · refine .ite ?_ ?_
    · subst x3
      exact .step State.raise_changes (.step State.setPair_changes (.upd (t := s) .refl))
    · exact .step State.setPair_changes (.upd (t := s) .refl)

theorem execMpair_changes {a0 : Fin 4} {a1 : MMsg} {s : State} :
    Ends [.sys, .evr, .pmc, .clk, .tiles, .heads, .fab, .mesh] s (execMpair a0 a1 s) := by
  unfold execMpair
  split
  · rename_i x1 e1
    refine .via (Changes.ofPair e1 ?_) fun h1 => ?_
    · exact .step State.meshArrive_changes .refl
    refine .ite ?_ ?_
    · exact .next h1
    · refine .ite ?_ ?_
      · exact .next (.step State.meshReject_changes h1)
      · extract_lets +onlyGivenNames x2
        refine .via (x := x2) ?_ fun h2 => ?_
        · subst x2
          exact .step State.meshReply_changes h1
        extract_lets +onlyGivenNames x3 x4
        refine .via (x := x4) ?_ fun h4 => ?_
        · subst x4
          exact .upd (t := x2) h2
        refine .ite ?_ ?_
        · exact .next h4
        · refine .ite ?_ ?_
          · extract_lets +onlyGivenNames x5
            refine .via (x := x5) ?_ fun h5 => ?_
            · subst x5
              exact .step State.raise_changes h4
            refine .next ?_
            refine .ite ?_ ?_
            · exact .step State.setPair_changes (.step State.releaseMirrored_changes h5)
            · refine .ite ?_ ?_
              · exact .step State.setPair_changes h5
              · exact .step State.degradePair_changes h5
          · extract_lets +onlyGivenNames x6 x7
            refine .via (x := x7) ?_ fun h7 => ?_
            · subst x7
              exact .step State.pairRoles_changes h4
            extract_lets +onlyGivenNames x8
            refine .via (x := x8) ?_ fun h8 => ?_
            · subst x8
              refine .ite ?_ ?_
              · exact .step State.sendPair_changes h7
              · exact h7
            split
            · refine .next ?_
              refine .ite ?_ ?_
              · exact .step State.startResync_changes h8
              · refine .ite ?_ ?_
                · exact .step State.setPair_changes h8
                · exact h8
            · refine .next ?_
              refine .ite ?_ ?_
              · exact .step State.setPair_changes h8
              · exact h8
            · exact .next h8
            · refine .next ?_
              refine .ite ?_ ?_
              · exact .step State.contactMade_changes h8
              · exact h8

theorem State.readKnown_changes {s : State} {a1 : Known} :
    Changes [.fv] s (State.readKnown s a1).2 := by
  unfold State.readKnown
  split
  · exact .snd .refl
  · split
    · rename_i x1 e1
      refine .via (Changes.ofPair e1 ?_) fun h1 => ?_
      · exact .step State.draw_changes .refl
      exact .snd h1

theorem State.copyBytes_changes {s : State} {a1 : Fin 2} :
    Changes [.fv] s (State.copyBytes s a1).2 := by
  unfold State.copyBytes
  extract_lets +onlyGivenNames x1
  split
  · split
    · rename_i x2 e2
      refine .via (Changes.ofPair e2 ?_) fun h2 => ?_
      · exact .step State.draw_changes .refl
      exact .snd h2
  · exact .snd .refl

theorem execReadConfiguration_changes {a0 : Iface} {s : State} :
    Ends [.fv, .heads, .svc] s (execReadConfiguration a0 s) := by
  unfold execReadConfiguration
  refine .command fun a1 => ?_
  extract_lets +onlyGivenNames x2
  refine .ite ?_ ?_
  · exact .step State.mbFinish_changes .refl
  · refine .ite ?_ ?_
    · exact .step State.mbFinish_changes .refl
    · refine .ite ?_ ?_
      · exact .step State.mbFinish_changes .refl
      · split
        · rename_i x3 e3
          refine .via (Changes.ofPair e3 ?_) fun h3 => ?_
          · clear_value x2; split
            · exact .snd .refl
            · exact .step State.copyBytes_changes .refl
            · exact .step State.copyBytes_changes .refl
            · exact .snd .refl
          exact .step State.reply_changes h3

theorem execDelayRecalibration_changes {a0 : TileId} {s : State} :
    Ends [.tiles] s (execDelayRecalibration a0 s) := by
  unfold execDelayRecalibration
  refine .ite ?_ ?_
  · exact .next .refl
  · exact .next (.modTherm .refl)

theorem execGetPartitionInfo_changes {a0 : Iface} {s : State} :
    Ends [.heads, .svc] s (execGetPartitionInfo a0 s) := by
  unfold execGetPartitionInfo
  refine .command fun a1 => ?_
  exact .step State.reply_changes .refl

theorem State.scanPage_changes {s : State} {a1 : Nat} {a2 : Nat} {a3 : Nat} {a4 : PageNoise} :
    Changes [.fv, .sys, .evr, .pmc, .seq, .clk, .tiles, .heads, .loads, .nextReq, .fab, .mesh, .poison] s (State.scanPage s a1 a2 a3 a4) := by
  unfold State.scanPage
  extract_lets +onlyGivenNames x1
  refine .ite ?_ ?_
  · exact .refl
  · extract_lets +onlyGivenNames x2
    split
    · rename_i x3 e3
      refine .via (Changes.ofPair e3 ?_) fun h3 => ?_
      · exact .step State.pageRead_changes .refl
      extract_lets +onlyGivenNames x4
      refine .via (x := x4) ?_ fun h4 => ?_
      · subst x4
        exact .step State.listPage_changes h3
      clear_value x4
      extract_lets +onlyGivenNames x5 x6
      refine .via (x := x6) ?_ fun h6 => ?_
      · subst x6
        refine .forAll ?_ fun a7 x7 h7 => ?_
        · exact h4
        · exact .step State.visitBad_changes h7
      clear_value x6
      extract_lets +onlyGivenNames x8
      refine .forAll ?_ fun a9 x9 h9 => ?_
      · exact h6
      · split
        · refine .upd (t := x9) ?_
          exact h9
        · exact h9

theorem State.throttleRound_changes {s : State} :
    Changes [.evr, .thm, .heads] s (State.throttleRound s) := by
  unfold State.throttleRound
  extract_lets +onlyGivenNames x1 x2 x3
  refine .via (x := x3) ?_ fun h3 => ?_
  · subst x3
    refine .ite ?_ ?_
    · exact .step State.raise_changes .refl
    · refine .ite ?_ ?_
      · exact .step State.raise_changes .refl
      · exact .refl
  exact .upd (t := x3) h3

theorem execGetLsa_changes {a0 : Iface} {s : State} :
    Ends [.heads, .svc] s (execGetLsa a0 s) := by
  unfold execGetLsa
  refine .command fun a1 => ?_
  exact .step State.reply_changes .refl

theorem execMdata_changes {a0 : Fin 4} {a1 : MMsg} {s : State} :
    Ends [.fv, .sys, .evr, .pmc, .clk, .tiles, .heads, .loads, .nextReq, .fab, .mesh, .svc, .poison] s (execMdata a0 a1 s) := by
  unfold execMdata
  split
  · rename_i x1 e1
    refine .via (Changes.ofPair e1 ?_) fun h1 => ?_
    · exact .step State.meshArrive_changes .refl
    refine .ite ?_ ?_
    · exact .next h1
    · split
      · exact .next (.step State.modLink_changes h1)
      · extract_lets +onlyGivenNames x2 x3
        refine .via (x := x3) ?_ fun h3 => ?_
        · subst x3
          refine .upd (t := x1) ?_
          exact h1
        clear_value x3
        split
        · exact .next h3
        · extract_lets +onlyGivenNames x4
          refine .via (x := x4) ?_ fun h4 => ?_
          · subst x4
            exact .step State.modLoad_changes h3
          clear_value x4
          refine .ite ?_ ?_
          · extract_lets +onlyGivenNames x5 x6 x7
            refine .via (x := x7) ?_ fun h7 => ?_
            · subst x7
              exact .step State.loadDone_changes h4
            clear_value x7
            extract_lets +onlyGivenNames x8
            refine .via (x := x8) ?_ fun h8 => ?_
            · subst x8
              exact .step State.newStore_changes h7
            clear_value x8
            exact .next (.step State.raise_changes h8)
          · exact .next (.step State.repairFailed_changes h4)

theorem State.resetChans_changes {s : State} {a1 : BitVec 32} :
    Changes [.media, .staged, .seq, .clk, .tiles] s (State.resetChans s a1) := by
  unfold State.resetChans
  refine .forAll ?_ fun a1 x1 h1 => ?_
  · exact .refl
  · exact .step State.resetChannel_changes h1

theorem State.chansOut_changes {s : State} {a1 : BitVec 32} :
    Changes [.fv, .media, .staged, .sys, .evr, .pmc, .seq, .clk, .tiles, .heads, .loads, .nextReq, .fab, .mesh, .poison] s (State.chansOut s a1) := by
  unfold State.chansOut
  extract_lets +onlyGivenNames x1 x2
  refine .ite ?_ ?_
  · exact .refl
  · extract_lets +onlyGivenNames x3 x4 x5 x6
    refine .via (x := x6) ?_ fun h6 => ?_
    · subst x6
      exact .upd (t := s) .refl
    extract_lets +onlyGivenNames x7
    refine .via (x := x7) ?_ fun h7 => ?_
    · subst x7
      exact .step State.resetChans_changes h6
    extract_lets +onlyGivenNames x8
    refine .via (x := x8) ?_ fun h8 => ?_
    · subst x8
      refine .forAll ?_ fun a9 x9 h9 => ?_
      · exact h7
      · extract_lets +onlyGivenNames x10 x11 x12
        refine .via (x := x12) ?_ fun h12 => ?_
        · subst x12
          refine .forAll ?_ fun a13 x13 h13 => ?_
          · exact h9
          · exact .step State.endCtx_changes h13
        extract_lets +onlyGivenNames x14 x15
        refine .via (x := x15) ?_ fun h15 => ?_
        · subst x15
          exact .modEng h12
        extract_lets +onlyGivenNames x16 x17
        refine .via (x := x17) ?_ fun h17 => ?_
        · subst x17
          exact .modD h15
        extract_lets +onlyGivenNames x18
        refine .via (x := x18) ?_ fun h18 => ?_
        · subst x18
          refine .forAll ?_ fun a19 x19 h19 => ?_
          · exact h17
          · exact .step State.appendAgain_changes h19
        extract_lets +onlyGivenNames x20
        refine .forAll ?_ fun a21 x21 h21 => ?_
        · exact h18
        · exact .step State.startLoad_changes h21
    refine .ite ?_ ?_
    · exact h8
    · exact .step State.mediaGone_changes (.step State.addCause_changes h8)

theorem execClockDomainIdleGate_changes {a0 : TileId} {a1 : Fin 37} {s : State} :
    Ends [.clk] s (execClockDomainIdleGate a0 a1 s) := by
  unfold execClockDomainIdleGate
  refine .ite ?_ ?_
  · refine .next ?_
    refine .upd (t := s) ?_
    exact .refl
  · refine .ite ?_ ?_
    · exact .next .refl
    · refine .next ?_
      refine .upd (t := s) ?_
      exact .refl

theorem State.seeds_changes {s : State} :
    Changes [.fv] s (State.seeds s).2 := by
  unfold State.seeds
  exact .snd (.upd (t := s) .refl)

theorem execConfigureRequestTagging_changes {a0 : Iface} {s : State} :
    Ends [.fv, .pmc, .heads, .svc] s (execConfigureRequestTagging a0 s) := by
  unfold execConfigureRequestTagging
  refine .command fun a1 => ?_
  extract_lets +onlyGivenNames x2 x3 x4 x5
  refine .via (x := x5) ?_ fun h5 => ?_
  · subst x5
    exact .step State.mbFinish_changes .refl
  clear_value x5
  clear_value x2; split
  · refine .ite ?_ ?_
    · exact h5
    · split
      · rename_i x6 e6
        refine .via (Changes.ofPair e6 ?_) fun h6 => ?_
        · exact .step State.seeds_changes .refl
        exact .step State.mbFinish_changes (.upd (t := x6) h6)
  · refine .ite ?_ ?_
    · exact h5
    · exact .step State.reply_changes .refl
  · refine .ite ?_ ?_
    · exact h5
    · exact .step State.reply_changes .refl
  · refine .ite ?_ ?_
    · exact h5
    · exact .step State.mbFinish_changes (.upd (t := s) .refl)
  · exact h5

theorem execReadEventWindow_changes {a0 : Iface} {s : State} :
    Ends [.heads, .svc] s (execReadEventWindow a0 s) := by
  unfold execReadEventWindow
  refine .command fun a1 => ?_
  extract_lets +onlyGivenNames x2 x3
  refine .ite ?_ ?_
  · exact .step State.mbFinish_changes .refl
  · refine .ite ?_ ?_
    · exact .step State.mbFinish_changes .refl
    · extract_lets +onlyGivenNames x4 x5
      exact .step State.reply_changes .refl

theorem State.commitOptions_changes {s : State} {a1 : List Byte} :
    Changes [.nv, .tiles] s (State.commitOptions s a1) := by
  unfold State.commitOptions
  extract_lets +onlyGivenNames x1 x2 x3
  refine .ite ?_ ?_
  · exact .refl
  · extract_lets +onlyGivenNames x4
    exact .step State.flashStart_changes .refl

theorem State.commitDone_changes {s : State} {a1 : CommitRun} :
    Changes [.nv, .sys, .boot, .cfg, .evr, .tiles, .heads, .svc] s (State.commitDone s a1) := by
  unfold State.commitDone
  extract_lets +onlyGivenNames x1 x2
  refine .via (x := x2) ?_ fun h2 => ?_
  · subst x2
    exact .step State.cflRecords_changes (.upd (t := s) .refl)
  refine .ite ?_ ?_
  · extract_lets +onlyGivenNames x3
    refine .via (x := x3) ?_ fun h3 => ?_
    · subst x3
      exact .step State.commitOptions_changes h2
    extract_lets +onlyGivenNames x4 x5
    refine .via (x := x5) ?_ fun h5 => ?_
    · subst x5
      exact .upd (t := x3) h3
    extract_lets +onlyGivenNames x6
    refine .via (x := x6) ?_ fun h6 => ?_
    · subst x6
      exact .step State.waitDone_changes h5
    refine .ite ?_ ?_
    · exact .step State.setDev_changes (.upd (t := x6) h6)
    · exact h6
  · extract_lets +onlyGivenNames x7
    refine .via (x := x7) ?_ fun h7 => ?_
    · subst x7
      exact .step State.raise_changes h2
    refine .ite ?_ ?_
    · exact .step State.waitDone_changes h7
    · exact h7

theorem Changes.dcrChange {s t : State} {gs : List Group} {m : Iface} {f : List Byte → List Byte} {act : State → State}
    {out : List Byte} (h : Changes gs s t) (hk : ∀ u, Changes gs s u → Changes gs s (act u))
    (hg : ([.nv, .sys, .cfg, .tiles, .heads, .svc] : List Group).all gs.contains = true := by rfl) :
    Changes gs s (t.dcrChange m f act out) := by
  have h0 : Changes [.nv, .sys, .cfg, .tiles, .heads, .svc] t (if t.sys.state = .configHold then
      match t.cfg.loaded with
      | none => t.mbFinish m .invalidInput 0x126
      | some img => { t with cfg := { t.cfg with loaded := some (recSeal (f img) (recSeq img)) } }.mbFinish m .success 0 out
      else t.supplyRefused.mbFinish m .busy 0x122) := by
    split
    · split
      · exact .step State.mbFinish_changes .refl
      · exact .step State.mbFinish_changes (.upd (t := t) .refl)
    · exact .step State.mbFinish_changes (.step State.supplyRefused_changes .refl)
  unfold State.dcrChange
  split
  · rename_i hs
    rw [if_pos hs] at h0
    exact h0.step h hg
  · rename_i hs
    rw [if_neg hs] at h0
    split
    · exact h0.step h hg
    · refine State.dcrCommit_changes.step (hk _ h) ?_
      simp only [List.all_cons, List.all_nil, Bool.and_true, Bool.and_eq_true] at hg ⊢
      exact ⟨hg.1, hg.2.2.1, hg.2.2.2.1, hg.2.2.2.2.2⟩

theorem execSetMirrorGroup_changes {a0 : Iface} {s : State} :
    Ends [.nv, .media, .staged, .sys, .cfg, .evr, .pmc, .clk, .tiles, .heads, .fab, .mesh, .svc, .poison] s (execSetMirrorGroup a0 s) := by
  unfold execSetMirrorGroup
  refine .ite ?_ ?_
  · exact .next .refl
  · refine .command fun a1 => ?_
    extract_lets +onlyGivenNames x2 x3 x4 x5 x6
    refine .via (x := x6) ?_ fun h6 => ?_
    · subst x6
      subst x5
      refine .dcrChange ?_ fun x7 h7 => ?_
      · exact .refl
      · refine .upd (t := x7) ?_
        exact h7
    clear_value x6
    split
    · refine .ite ?_ ?_
      · exact .step State.mbFinish_changes .refl
      · refine .ite ?_ ?_
        · refine .ite ?_ ?_
          · exact h6
          · exact .step State.mbFinish_changes .refl
        · extract_lets +onlyGivenNames x8 x9
          refine .via (x := x9) ?_ fun h9 => ?_
          · subst x9
            refine .upd (t := s) ?_
            exact .refl
          clear_value x9
          extract_lets +onlyGivenNames x10
          refine .ite ?_ ?_
          · exact .step State.mbFinish_changes (.step State.raise_changes .refl)
          · subst x5
            refine .dcrChange ?_ fun x11 h11 => ?_
            · exact .refl
            · refine .step State.setPair_changes ?_
              refine .upd (t := x11) ?_
              exact h11
    · subst x5
      refine .dcrChange ?_ fun x12 h12 => ?_
      · exact .refl
      · exact .step State.dissolvePair_changes h12
    · refine .ite ?_ ?_
      · exact .step State.mbFinish_changes .refl
      · refine .ite ?_ ?_
        · extract_lets +onlyGivenNames x13 x14
          subst x5
          refine .dcrChange ?_ fun x15 h15 => ?_
          · exact .refl
          · refine .step State.sendPair_changes ?_
            refine .upd (t := x15) ?_
            exact h15
        · refine .step State.mbFinish_changes ?_
          refine .step State.sendPair_changes ?_
          refine .upd (t := s) ?_
          exact .refl
    · exact h6
    · exact .step State.mbFinish_changes .refl

theorem State.raisePages_changes {s : State} {a1 : TileId} {a2 : List Nat} :
    Changes [.tiles] s (State.raisePages s a1 a2) := by
  unfold State.raisePages
  extract_lets +onlyGivenNames x1
  exact .modD .refl

theorem State.segmentVisited_changes {s : State} {a1 : TileId} {a2 : Nat} {a3 : Nat} {a4 : List (Nat × Noise)} :
    Changes [.pmc, .tiles] s (State.segmentVisited s a1 a2 a3 a4) := by
  unfold State.segmentVisited
  extract_lets +onlyGivenNames x1 x2
  refine .via (x := x2) ?_ fun h2 => ?_
  · subst x2
    refine .forAll ?_ fun a3 x3 h3 => ?_
    · exact .refl
    · extract_lets +onlyGivenNames x4 x5 x6
      refine .ite ?_ ?_
      · exact h3
      · split
        · rename_i x7 e7
          refine .via (Changes.ofPair e7 ?_) fun h7 => ?_
          · exact .step State.stagedRead_changes h3
          refine .ite ?_ ?_
          · exact h7
          · exact .step State.raisePages_changes h7
  clear_value x2
  extract_lets +onlyGivenNames x8
  refine .ite ?_ ?_
  · exact .step State.raisePages_changes h2
  · exact h2

theorem State.verifyAgain_changes {s : State} {a1 : TileId} {a2 : Context} {a3 : Fin 9} :
    Changes [.fv, .pmc, .tiles] s (State.verifyAgain s a1 a2 a3) := by
  unfold State.verifyAgain
  extract_lets +onlyGivenNames x1 x2
  refine .via (x := x2) ?_ fun h2 => ?_
  · subst x2
    exact .step State.setCtx_changes .refl
  clear_value x2
  refine .ite ?_ ?_
  · exact h2
  · extract_lets +onlyGivenNames x3
    refine .via (x := x3) ?_ fun h3 => ?_
    · subst x3
      exact .step State.issue_changes h2
    clear_value x3
    refine .ite ?_ ?_
    · exact .step State.fetchFrom_changes h3
    · exact h3

theorem State.resume_changes {s : State} {a1 : TileId} {a2 : ChanId} {a3 : Fin 9} {a4 : Nat} :
    Changes [.fv, .pmc, .tiles] s (State.resume s a1 a2 a3 a4) := by
  unfold State.resume
  extract_lets +onlyGivenNames x1 x2
  refine .ite ?_ ?_
  · exact .refl
  · extract_lets +onlyGivenNames x3
    refine .via (x := x3) ?_ fun h3 => ?_
    · subst x3
      refine .ite ?_ ?_
      · exact .step State.count_changes (.step State.send_changes .refl)
      · exact .refl
    clear_value x3
    refine .forAll ?_ fun a4 x4 h4 => ?_
    · exact h3
    · exact .step State.verifyAgain_changes h4

theorem execSanitize_changes {a0 : Iface} {s : State} :
    Ends [.nv, .sys, .prm, .sec, .tiles, .heads, .svc] s (execSanitize a0 s) := by
  unfold execSanitize
  refine .command fun a1 => ?_
  refine .ite ?_ ?_
  · exact .step State.mbFinish_changes .refl
  · refine .ite ?_ ?_
    · exact .step State.mbFinish_changes .refl
    · exact .step State.startErase_changes .refl

theorem State.windowWrite_changes {s : State} {a1 : TileId} {a2 : Window} {a3 : List Byte} :
    Changes [.nv, .evr, .pmc, .seq, .tiles, .heads, .fab, .mesh, .tcm, .velvet, .scratch] s (State.windowWrite s a1 a2 a3) := by
  unfold State.windowWrite
  split
  · exact State.writeReg_changes.step .refl
  · exact State.writeReg_changes.step .refl
  · exact .modFab' .refl fun x h => ⟨Memory.wf_writeBytes _ h.1, h.2⟩
  · exact .modNv (.modFab' .refl fun x h => ⟨h.1, Memory.wf_writeBytes _ h.2⟩)
  · exact .modD' .refl fun x h => Memory.wf_writeBytes _ h
  · exact .refl

theorem execWidarWr_changes {a0 : TileId} {a1 : Msg} {s : State} :
    Ends [.fv, .nv, .sys, .evr, .pmc, .seq, .clk, .tiles, .heads, .loads, .nextReq, .fab, .mesh, .svc, .poison, .tcm, .velvet, .scratch] s (execWidarWr a0 a1 s) := by
  unfold execWidarWr
  refine .ite ?_ ?_
  · exact .next .refl
  · split
    · exact .next .refl
    · rename_i x1 e1
      refine .via (.step (State.wTake_changes e1) ?_) fun h1 => ?_
      · exact .refl
      extract_lets +onlyGivenNames x2
      split
      · exact .next (.step State.wReply_changes h1)
      · exact .next (.step State.wReject_changes h1)
      · extract_lets +onlyGivenNames x3 x4
        exact .next (.step State.newStore_changes h1)
      · extract_lets +onlyGivenNames x5
        refine .via (x := x5) ?_ fun h5 => ?_
        · subst x5
          exact .step State.windowWrite_changes h1
        clear_value x5
        split
        · split
          · rename_i x6 e6
            refine .via (Changes.ofPair e6 ?_) fun h6 => ?_
            · exact .step State.draw_changes h5
            extract_lets +onlyGivenNames x7
            exact .next (.step State.wReply_changes h6)
        · exact .next (.step State.wReply_changes h5)

theorem State.checkLate_changes {s : State} {a1 : TileId} {a2 : Nat} :
    Changes [.evr, .tiles, .heads] s (State.checkLate s a1 a2) := by
  unfold State.checkLate
  extract_lets +onlyGivenNames x1 x2 x3 x4
  refine .ite ?_ ?_
  · extract_lets +onlyGivenNames x5
    refine .via (x := x5) ?_ fun h5 => ?_
    · subst x5
      exact .modIt .refl
    exact .step State.raise_changes h5
  · exact .refl

theorem execSmbusClockLowTimeout_changes {s : State} :
    Ends [.clk, .svc] s (execSmbusClockLowTimeout s) := by
  unfold execSmbusClockLowTimeout
  refine .ite ?_ ?_
  · exact .next .refl
  · exact .next (.step State.sbEnd_changes .refl)

theorem execMemclnevct_changes {a0 : TileId} {a1 : BitVec 64} {s : State} :
    Ends [.fv, .sys, .pmc, .clk, .heads] s (execMemclnevct a0 a1 s) := by
  unfold execMemclnevct
  exact .next (.step State.cmpOnly_changes .refl)

theorem State.endBackground_changes {s : State} {a1 : Background} {a2 : Ret} {a3 : Nat} :
    Changes [.evr, .heads, .svc] s (State.endBackground s a1 a2 a3) := by
  unfold State.endBackground
  extract_lets +onlyGivenNames x1 x2 x3
  refine .via (x := x3) ?_ fun h3 => ?_
  · subst x3
    refine .upd (t := s) ?_
    exact .refl
  clear_value x3
  extract_lets +onlyGivenNames x4
  refine .via (x := x4) ?_ fun h4 => ?_
  · subst x4
    exact .step State.modMb_changes h3
  clear_value x4
  extract_lets +onlyGivenNames x5
  refine .via (x := x5) ?_ fun h5 => ?_
  · subst x5
    exact .step State.raise_changes h4
  clear_value x5
  split
  · refine .ite ?_ ?_
    · exact .step State.vector_changes h5
    · exact h5
  · exact h5

theorem execTileHeartbeatTimeout_changes {a0 : TileId} {s : State} :
    Ends [.fv, .nv, .media, .staged, .aon, .sys, .boot, .cfg, .prm, .evr, .bbx, .pmc, .sec, .seq, .hld, .flush, .pwr, .clk, .thm, .tiles, .heads, .loads, .nextReq, .fab, .guest, .mesh, .svc, .poison, .prmData, .lsa, .tcm, .scratch] s (execTileHeartbeatTimeout a0 s) := by
  unfold execTileHeartbeatTimeout
  refine .ite ?_ ?_
  · exact .next (.step State.tileLost_changes .refl)
  · exact .next .refl

theorem execGpfPhase2_changes {a0 : TileId} {s : State} :
    Ends [.clk, .tiles, .heads] s (execGpfPhase2 a0 s) := by
  unfold execGpfPhase2
  refine .ite ?_ ?_
  · exact .next .refl
  · extract_lets +onlyGivenNames x1
    refine .via (x := x1) ?_ fun h1 => ?_
    · subst x1
      exact .modHead .refl
    refine .ite ?_ ?_
    · exact .next (.modHead h1)
    · refine .ite ?_ ?_
      · exact .next (.modHead h1)
      · exact .next (.step State.gpfStart_changes (.modHead h1))

theorem execRowReclaimDone_changes {a0 : Nat} {s : State} :
    Ends [.pmc, .clk, .tiles, .heads, .fab, .mesh, .svc] s (execRowReclaimDone a0 s) := by
  unfold execRowReclaimDone
  extract_lets +onlyGivenNames x1
  refine .ite ?_ ?_
  · exact .next .refl
  · exact .next (.step State.replicaProceed_changes (.step State.addProceed_changes .refl))

theorem State.tileSleeps_changes {s : State} {a1 : TileId} {a2 : BitVec 2} :
    Changes [.fv, .nv, .pwr, .tiles, .fab, .velvet, .scratch] s (State.tileSleeps s a1 a2) := by
  unfold State.tileSleeps
  extract_lets +onlyGivenNames x1
  refine .via (x := x1) ?_ fun h1 => ?_
  · subst x1
    refine .modD' ?_ fun x h => by dsimp only; repeat' (first | exact h | rfl | split)
    exact .refl
  clear_value x1
  refine .ite ?_ ?_
  · exact h1
  · extract_lets +onlyGivenNames x2
    refine .via (x := x2) ?_ fun h2 => ?_
    · subst x2
      exact .step State.saveRegisters_changes h1
    clear_value x2
    exact .upd (t := x2) h2

theorem State.sendData_changes {s : State} {a1 : TileId} {a2 : BitVec 2} {a3 : Option Line} :
    Changes [.heads] s (State.sendData s a1 a2 a3) := by
  unfold State.sendData
  refine .respond ?_
  exact .refl

theorem execWorkDispatch_changes {a0 : TileId} {a1 : Fin 64} {a2 : Fin 4} {s : State} :
    Ends [.fv, .media, .pmc, .tiles] s (execWorkDispatch a0 a1 a2 s) := by
  unfold execWorkDispatch
  extract_lets +onlyGivenNames x1 x2 x3
  refine .via (x := x3) ?_ fun h3 => ?_
  · subst x3
    refine .ite ?_ ?_
    · exact .modEng .refl
    · exact .refl
  clear_value x3
  refine .ite ?_ ?_
  · exact .next .refl
  · split
    · exact .next .refl
    · split
      · rename_i x4 e4
        refine .via (Changes.ofPair e4 ?_) fun h4 => ?_
        · split
          · extract_lets +onlyGivenNames x5
            split
            · rename_i x6 e6
              refine .via (Changes.ofPair e6 ?_) fun h6 => ?_
              · exact .step State.pick_changes .refl
              exact .snd (.step State.placeStripe_changes h6)
            · rename_i x7 e7
              refine .via (Changes.ofPair e7 ?_) fun h7 => ?_
              · exact .step State.pick_changes .refl
              exact .snd h7
          · exact .snd .refl
        extract_lets +onlyGivenNames x8 x9
        refine .via (x := x9) ?_ fun h9 => ?_
        · subst x9
          exact .modEng h4
        clear_value x9
        extract_lets +onlyGivenNames x10
        refine .via (x := x10) ?_ fun h10 => ?_
        · subst x10
          exact .step State.count_changes h9
        clear_value x10
        refine .ite ?_ ?_
        · exact .next h10
        · exact .next (.step State.count_changes (.modEng h10))

theorem execGetSupportedLogs_changes {a0 : Iface} {s : State} :
    Ends [.heads, .svc] s (execGetSupportedLogs a0 s) := by
  unfold execGetSupportedLogs
  refine .command fun a1 => ?_
  exact .step State.reply_changes .refl

theorem State.controllerRound_changes {s : State} :
    Changes [.thm, .tiles] s (State.controllerRound s) := by
  unfold State.controllerRound
  extract_lets +onlyGivenNames x1
  refine .via (x := x1) ?_ fun h1 => ?_
  · subst x1
    refine .upd (t := s) ?_ (ht := by with_reducible exact tiles_vmap)
    exact .refl
  exact .upd (t := x1) h1

theorem execSpdmRequest_changes {a0 : TileId} {a1 : BitVec 8} {s : State} :
    Ends [.fv, .heads] s (execSpdmRequest a0 a1 s) := by
  unfold execSpdmRequest
  refine .ite ?_ ?_
  · exact .next .refl
  · extract_lets +onlyGivenNames x1 x2
    refine .ite ?_ ?_
    · exact .next (.modHead .refl)
    · split
      · rename_i x3 e3
        refine .via (Changes.ofPair e3 ?_) fun h3 => ?_
        · exact .step State.draw_changes .refl
        extract_lets +onlyGivenNames x4
        exact .next (.modHead h3)

theorem execWidarHeartbeat_changes {a0 : TileId} {a1 : Msg} {s : State} :
    Ends [.pmc, .fab, .mesh] s (execWidarHeartbeat a0 a1 s) := by
  unfold execWidarHeartbeat
  refine .ite ?_ ?_
  · exact .next .refl
  · split
    · exact .next .refl
    · rename_i x1 e1
      refine .via (.step (State.wTake_changes e1) ?_) fun h1 => ?_
      · exact .refl
      refine .ite ?_ ?_
      · exact .next (.step State.wReject_changes h1)
      · refine .ite ?_ ?_
        · exact .next h1
        · exact .next (.step State.wsend_changes h1)

theorem State.vectorMgmt_changes {s : State} {a1 : Nat} :
    Changes [.heads] s (State.vectorMgmt s a1) := by
  unfold State.vectorMgmt
  exact .upd (t := s) .refl (hh := fun h => heads_vmap (f := fun i x => if s.mgmtHeads.getLsbD i && s.inSvc i then x.signal a1 else x) h (fun i x => by split <;> rfl))

theorem execTileSelftestDone_changes {a0 : TileId} {a1 : Bool} {s : State} :
    Ends [.sys] s (execTileSelftestDone a0 a1 s) := by
  unfold execTileSelftestDone
  refine .ite ?_ ?_
  · exact .next .refl
  · exact .next (.upd (t := s) .refl)

theorem execPlevelVcoreSettled_changes {s : State} :
    Ends [.evr, .pwr, .heads] s (execPlevelVcoreSettled s) := by
  unfold execPlevelVcoreSettled
  refine .ite ?_ ?_
  · exact .next .refl
  · exact .next (.step State.raise_changes (.upd (t := s) .refl))

theorem State.loadBank_changes {s : State} {a1 : TileId} {a2 : ChanId} {a3 : Fin 9} {a4 : List CurveEntry × List WaveRec} :
    Changes [.fv, .tiles] s (State.loadBank s a1 a2 a3 a4) := by
  unfold State.loadBank
  extract_lets +onlyGivenNames x1
  exact .modDie (.step State.sendBank_changes .refl)

theorem State.loadGait_changes {s : State} {a1 : TileId} {a2 : Option Nat} :
    Changes [.evr, .tiles, .heads] s (State.loadGait s a1 a2) := by
  unfold State.loadGait
  extract_lets +onlyGivenNames x1
  refine .forAll ?_ fun a2 x2 h2 => ?_
  · exact .refl
  · split
    · refine .forAll ?_ fun a3 x3 h3 => ?_
      · exact h2
      · split
        · exact .step State.raise_changes (.modEng h3)
        · exact .modEng h3

theorem State.dieRound_changes {s : State} {a1 : TileId} {a2 : ChanId} {a3 : Fin 9} :
    Changes [.fv, .evr, .tiles, .heads] s (State.dieRound s a1 a2 a3) := by
  unfold State.dieRound
  extract_lets +onlyGivenNames x1 x2 x3 x4
  refine .via (x := x4) ?_ fun h4 => ?_
  · subst x4
    refine .ite ?_ ?_
    · exact .modEng .refl
    · exact .refl
  clear_value x4
  extract_lets +onlyGivenNames x5
  refine .via (x := x5) ?_ fun h5 => ?_
  · subst x5
    exact .modEng h4
  clear_value x5
  extract_lets +onlyGivenNames x6
  refine .via (x := x6) ?_ fun h6 => ?_
  · subst x6
    refine .ite ?_ ?_
    · exact .step State.raise_changes h5
    · exact h5
  clear_value x6
  extract_lets +onlyGivenNames x7 x8 x9
  refine .via (x := x9) ?_ fun h9 => ?_
  · subst x9
    exact .modDie h6
  clear_value x9
  extract_lets +onlyGivenNames x10
  refine .ite ?_ ?_
  · refine .ite ?_ ?_
    · exact .step State.loadBank_changes h9
    · exact h9
  · refine .ite ?_ ?_
    · exact .step State.loadGait_changes (.step State.loadBank_changes h9)
    · exact h9

theorem State.mediaRound_changes {s : State} :
    Changes [.fv, .evr, .thm, .tiles, .heads] s (State.mediaRound s) := by
  unfold State.mediaRound
  refine .ite ?_ ?_
  · exact .refl
  · extract_lets +onlyGivenNames x1
    refine .via (x := x1) ?_ fun h1 => ?_
    · subst x1
      refine .forAll ?_ fun a2 x2 h2 => ?_
      · exact .refl
      · refine .forAll ?_ fun a3 x3 h3 => ?_
        · exact h2
        · refine .ite ?_ ?_
          · exact h3
          · extract_lets +onlyGivenNames x4
            refine .via (x := x4) ?_ fun h4 => ?_
            · subst x4
              refine .forAll ?_ fun a5 x5 h5 => ?_
              · exact h3
              · exact .step State.dieRound_changes h5
            extract_lets +onlyGivenNames x6
            exact .modCh h4
    extract_lets +onlyGivenNames x7
    exact .upd (t := x1) h1

theorem State.fabRound_changes {s : State} {a1 : TileId} :
    Changes [.evr, .heads, .fab] s (State.fabRound s a1) := by
  unfold State.fabRound
  extract_lets +onlyGivenNames x1 x2
  refine .via (x := x2) ?_ fun h2 => ?_
  · subst x2
    refine .forAll ?_ fun a3 x3 h3 => ?_
    · exact .refl
    · refine .ite ?_ ?_
      · exact h3
      · exact .step State.raise_changes h3
  extract_lets +onlyGivenNames x4
  refine .via (x := x4) ?_ fun h4 => ?_
  · subst x4
    refine .ite ?_ ?_
    · exact h2
    · exact .step State.raise_changes h2
  extract_lets +onlyGivenNames x5
  refine .via (x := x5) ?_ fun h5 => ?_
  · subst x5
    refine .ite ?_ ?_
    · exact h4
    · exact .step State.raise_changes h4
  exact .modFab h5

theorem State.commitCheck_changes {s : State} :
    Changes [.nv, .sys, .boot, .cfg, .evr, .tiles, .heads, .svc] s (State.commitCheck s) := by
  unfold State.commitCheck
  split
  · exact .refl
  · extract_lets +onlyGivenNames x1
    refine .ite ?_ ?_
    · exact .step State.commitDone_changes .refl
    · exact .upd (t := s) .refl

theorem State.commitMaps_changes {s : State} :
    Changes [.nv, .sys, .cfg, .tiles] s (State.commitMaps s) := by
  unfold State.commitMaps
  refine .ite ?_ ?_
  · exact .refl
  · refine .ite ?_ ?_
    · exact .step State.supplyRefused_changes .refl
    · extract_lets +onlyGivenNames x1 x2 x3
      refine .via (x := x3) ?_ fun h3 => ?_
      · subst x3
        exact .upd (t := s) .refl
      exact .step State.startCommit_changes h3

theorem State.retryWrites_changes {s : State} :
    Changes [.nv, .sys, .boot, .cfg, .prm, .tiles, .prmData] s (State.retryWrites s) := by
  unfold State.retryWrites
  refine .ite ?_ ?_
  · exact .refl
  · refine .forAll ?_ fun a1 x1 h1 => ?_
    · exact .refl
    · split
      · exact .step State.saveCursors_changes h1
      · exact .step State.writeHoldup_changes h1
      · exact .step State.confirmTrial_changes h1
      · exact .step State.commitMaps_changes h1
      · exact .step State.markRdp_changes h1
      · exact h1

theorem State.counterRound_changes {s : State} :
    Changes [.evr, .pmc, .heads] s (State.counterRound s) := by
  unfold State.counterRound
  extract_lets +onlyGivenNames x1 x2 x3
  refine .via (x := x3) ?_ fun h3 => ?_
  · subst x3
    exact .upd (t := s) .refl
  refine .ite ?_ ?_
  · exact h3
  · refine .forAll ?_ fun a4 x4 h4 => ?_
    · exact .step State.vectorMgmt_changes h3
    · exact .step State.raise_changes h4

theorem execHousekeepingDecide_changes {s : State} :
    Ends [.fv, .nv, .aon, .sys, .boot, .cfg, .prm, .evr, .bbx, .pmc, .hld, .clk, .thm, .tiles, .heads, .loads, .nextReq, .fab, .mesh, .svc, .poison, .prmData] s (execHousekeepingDecide s) := by
  unfold execHousekeepingDecide
  refine .ite ?_ ?_
  · exact .next .refl
  · extract_lets +onlyGivenNames x1
    refine .via (x := x1) ?_ fun h1 => ?_
    · subst x1
      refine .step State.throttleRound_changes ?_
      exact .step State.controllerRound_changes (.step State.mediaRound_changes .refl)
    extract_lets +onlyGivenNames x2
    refine .via (x := x2) ?_ fun h2 => ?_
    · subst x2
      refine .ite ?_ ?_
      · refine .forAll ?_ fun a3 x3 h3 => ?_
        · exact h1
        · refine .forAll ?_ fun a4 x4 h4 => ?_
          · exact h3
          · exact .step State.holdRound_changes h4
      · exact h1
    extract_lets +onlyGivenNames x5
    refine .via (x := x5) ?_ fun h5 => ?_
    · subst x5
      refine .ite ?_ ?_
      · split
        · rename_i x6 e6
          refine .via (Changes.ofPair e6 ?_) fun h6 => ?_
          · exact .step State.draw_changes h2
          exact .upd (t := x6) h6
      · exact h2
    extract_lets +onlyGivenNames x7
    refine .via (x := x7) ?_ fun h7 => ?_
    · subst x7
      exact .step State.energyRound_changes h5
    extract_lets +onlyGivenNames x8
    refine .via (x := x8) ?_ fun h8 => ?_
    · subst x8
      refine .forAll ?_ fun a9 x9 h9 => ?_
      · exact h7
      · exact .step State.fabRound_changes (.step State.headRound_changes h9)
    extract_lets +onlyGivenNames x10
    refine .via (x := x10) ?_ fun h10 => ?_
    · subst x10
      refine .step State.commitCheck_changes ?_
      exact .step State.retryWrites_changes (.step State.counterRound_changes (.step State.packageRound_changes h8))
    extract_lets +onlyGivenNames x11
    refine .via (x := x11) ?_ fun h11 => ?_
    · subst x11
      refine .forAll ?_ fun a12 x12 h12 => ?_
      · exact h10
      · exact .step State.answerPeers_changes h12
    refine .next ?_
    split
    · exact h11
    · refine .ite ?_ ?_
      · exact h11
      · exact .upd (t := x11) h11

theorem State.issueRead_changes {s : State} {a1 : TileId} {a2 : Context} {a3 : Fin 9} {a4 : List Nat} :
    Changes [.fv, .pmc, .tiles] s (State.issueRead s a1 a2 a3 a4) := by
  unfold State.issueRead
  extract_lets +onlyGivenNames x1 x2
  refine .via (x := x2) ?_ fun h2 => ?_
  · subst x2
    exact .step State.issue_changes (.step State.setCtx_changes .refl)
  clear_value x2
  refine .ite ?_ ?_
  · exact h2
  · extract_lets +onlyGivenNames x3
    exact .step State.resume_changes (.step State.fetchFrom_changes (.step State.setCtx_changes h2))

theorem execForegroundReadArrival_changes {a0 : TileId} {a1 : ChanId} {a2 : Fin 8} {a3 : Fin 16} {a4 : SuspendTry × SuspendTry} {a5 : List Nat} {s : State} :
    Ends [.fv, .sys, .evr, .pmc, .seq, .clk, .tiles, .heads, .loads, .nextReq, .fab, .mesh, .poison] s (execForegroundReadArrival a0 a1 a2 a3 a4 a5 s) := by
  unfold execForegroundReadArrival
  split
  · exact .next .refl
  · split
    · exact .next (.step State.deadRead_changes .refl)
    · refine .ite ?_ ?_
      · exact .next (.step State.issueRead_changes .refl)
      · split
        · rename_i x1 e1
          refine .via (Changes.ofPair e1 ?_) fun h1 => ?_
          · exact .step State.suspendSent_changes .refl
          split
          · rename_i x2 e2
            refine .via (Changes.ofPair e2 ?_) fun h2 => ?_
            · split
              · exact .snd h1
              · exact .step State.suspendSent_changes h1
            extract_lets +onlyGivenNames x3
            refine .via (x := x3) ?_ fun h3 => ?_
            · subst x3
              exact .step State.count_changes (.modCh h2)
            clear_value x3
            refine .ite ?_ ?_
            · exact .next (.step State.suspendMissed_changes h3)
            · extract_lets +onlyGivenNames x4
              refine .via (x := x4) ?_ fun h4 => ?_
              · subst x4
                refine .ite ?_ ?_
                · exact h3
                · exact .modEng h3
              clear_value x4
              exact .next (.step State.issueRead_changes h4)

theorem State.readTemps_changes {s : State} {a1 : TileId} :
    Changes [.clk, .tiles] s (State.readTemps s a1) := by
  unfold State.readTemps
  refine .forAll ?_ fun a1 x1 h1 => ?_
  · exact .refl
  · refine .ite ?_ ?_
    · exact h1
    · refine .forAll ?_ fun a2 x2 h2 => ?_
      · exact h1
      · extract_lets +onlyGivenNames x3 x4 x5
        refine .via (x := x5) ?_ fun h5 => ?_
        · subst x5
          refine .ite ?_ ?_
          · exact h2
          · exact .step State.enqueue_changes h2
        refine .ite ?_ ?_
        · exact .modEng h5
        · exact h5

end Sys2Proof.Machine
end

