-- ==== Sys2Proof/Laws/Changes8.lean ====
section
/-! SUPPORT. Part 8 of the lemmas, one for each operation and each command's meaning, that say which groups of the state it can
change and that it keeps the canonical memories and the bounds. -/

namespace Sys2Proof.Machine

set_option Elab.async false

theorem execRailRetryTimer_changes {s : State} :
    Ends [.seq] s (execRailRetryTimer s) := by
  unfold execRailRetryTimer
  split
  · exact .next .refl
  · refine .ite ?_ ?_
    · exact .next .refl
    · exact .next (.step State.enableRails_changes (.upd (t := s) .refl))

theorem execPrmProtectBpWrite_changes {a0 : Iface} {s : State} :
    Ends [.sys, .prm, .tiles, .heads, .svc] s (execPrmProtectBpWrite a0 s) := by
  unfold execPrmProtectBpWrite
  refine .ite ?_ ?_
  · exact .next .refl
  · refine .vendorWrite fun a1 b1 x1 h1 => ?_
    extract_lets +onlyGivenNames x2
    refine .ite ?_ ?_
    · exact .step State.mbFinish_changes h1
    · refine .ite ?_ ?_
      · exact .step State.mbFinish_changes (.step State.supplyRefused_changes h1)
      · extract_lets +onlyGivenNames x3 x4
        refine .via (x := x4) ?_ fun h4 => ?_
        · subst x4
          exact .step State.twinEnqueue_changes (.upd (t := x1) h1)
        clear_value x4
        exact .upd (t := x4) h4

theorem execFixedRailPgTimeout_changes {a0 : Fin 4} {s : State} :
    Ends [.seq, .clk] s (execFixedRailPgTimeout a0 s) := by
  unfold execFixedRailPgTimeout
  refine .ite ?_ ?_
  · exact .next .refl
  · extract_lets +onlyGivenNames x1
    refine .via (x := x1) ?_ fun h1 => ?_
    · subst x1
      exact .step State.fixedOff_changes .refl
    exact .next (.upd (t := x1) h1)

theorem execWidarHeartbeatReply_changes {a0 : TileId} {a1 : Msg} {s : State} :
    Ends [.sys, .pmc, .fab, .guest, .mesh] s (execWidarHeartbeatReply a0 a1 s) := by
  unfold execWidarHeartbeatReply
  refine .ite ?_ ?_
  · exact .next .refl
  · split
    · exact .next .refl
    · rename_i x1 e1
      refine .via (.step (State.wTake_changes e1) ?_) fun h1 => ?_
      · exact .refl
      refine .ite ?_ ?_
      · exact .next (.step State.wReject_changes h1)
      · refine .ite ?_ ?_
        · exact .next h1
        · refine .ite ?_ ?_
          · exact .next (.upd (t := x1) h1)
          · extract_lets +onlyGivenNames x2
            exact .next (.upd (t := x1) h1)

theorem execGetPoisonList_changes {a0 : Iface} {s : State} :
    Ends [.heads, .svc] s (execGetPoisonList a0 s) := by
  unfold execGetPoisonList
  refine .command fun a1 => ?_
  extract_lets +onlyGivenNames x2 x3 x4 x5
  refine .ite ?_ ?_
  · exact .step State.mbFinish_changes .refl
  · refine .ite ?_ ?_
    · exact .step State.mbFinish_changes .refl
    · exact .step State.mbFinish_changes .refl

theorem execDcReleaseHostTimeout_changes {a0 : TileId} {s : State} :
    Ends [.svc] s (execDcReleaseHostTimeout a0 s) := by
  unfold execDcReleaseHostTimeout
  split
  · exact .next .refl
  · exact .next (.upd (t := s) .refl)

theorem execWidarNullFlit_changes {a0 : PortId} {a1 : List Byte} {s : State} :
    Ends [.fv, .pmc, .fab, .mesh] s (execWidarNullFlit a0 a1 s) := by
  unfold execWidarNullFlit
  extract_lets +onlyGivenNames x1
  refine .ite ?_ ?_
  · exact .next .refl
  · extract_lets +onlyGivenNames x2
    refine .via (x := x2) ?_ fun h2 => ?_
    · subst x2
      exact .step State.modLink_changes .refl
    clear_value x2
    split
    · exact .next (.step State.badFlit_changes h2)
    · refine .ite ?_ ?_
      · exact .next .refl
      · extract_lets +onlyGivenNames x3
        exact .next (.step State.pump_changes (.step State.modLink_changes h2))

theorem State.linksDown_changes {s : State} :
    Changes [.fab, .guest, .mesh] s (State.linksDown s) := by
  unfold State.linksDown
  extract_lets +onlyGivenNames x1
  refine .upd (t := s) ?_ (hf := by with_reducible exact fab_map)
  exact .refl

theorem execReleaseDynamicCapacity_changes {a0 : Iface} {s : State} :
    Ends [.heads, .svc] s (execReleaseDynamicCapacity a0 s) := by
  unfold execReleaseDynamicCapacity
  refine .command fun a1 => ?_
  extract_lets +onlyGivenNames x2 x3
  split
  · exact .step State.mbFinish_changes .refl
  · rename_i x4 e4
    refine .via (.step (State.releaseRanges_changes e4) ?_) fun h4 => ?_
    · exact .refl
    exact .step State.mbFinish_changes (.step State.releasesEnd_changes h4)

theorem State.wResponse_changes {s : State} {a1 : TileId} {a2 : Nat} {a3 : Msg} {a4 : BitVec 8 → Bool} :
    Changes [.nv, .evr, .bbx, .pmc, .clk, .tiles, .heads, .fab, .mesh] s (State.wResponse s a1 a2 a3 a4) := by
  unfold State.wResponse
  split
  · exact .step State.wDone_changes .refl
  · refine .ite ?_ ?_
    · exact .step State.modLink_changes .refl
    · exact .refl

theorem execWidarRdata_changes {a0 : TileId} {a1 : Msg} {s : State} :
    Ends [.nv, .evr, .bbx, .pmc, .clk, .tiles, .heads, .fab, .mesh] s (execWidarRdata a0 a1 s) := by
  unfold execWidarRdata
  refine .ite ?_ ?_
  · exact .next .refl
  · split
    · exact .next .refl
    · rename_i x1 e1
      refine .via (.step (State.wTake_changes e1) ?_) fun h1 => ?_
      · exact .refl
      exact .next (.step State.wResponse_changes h1)

theorem execSidebandStatusReadout_changes {s : State} :
    Ends [.clk, .svc] s (execSidebandStatusReadout s) := by
  unfold execSidebandStatusReadout
  refine .next ?_
  refine .ite ?_ ?_
  · exact .step State.sbEnd_changes .refl
  · exact .step State.sbEnd_changes .refl

theorem execAgeCatchupStep_changes {a0 : TileId} {s : State} :
    Ends [.sys, .clk, .tiles] s (execAgeCatchupStep a0 s) := by
  unfold execAgeCatchupStep
  extract_lets +onlyGivenNames x1
  refine .ite ?_ ?_
  · exact .next .refl
  · refine .next ?_
    refine .step State.sleepDrain_changes ?_
    refine .modD ?_ (hf := by intros; rfl)
    exact .refl

theorem State.paramUnit_changes {s : State} {a1 : TileId} {a2 : ChanId} {a3 : Nat} {a4 : Bool} :
    Changes [.evr, .tiles, .heads] s (State.paramUnit s a1 a2 a3 a4) := by
  unfold State.paramUnit
  extract_lets +onlyGivenNames x1
  refine .via (x := x1) ?_ fun h1 => ?_
  · subst x1
    exact .modCh .refl
  clear_value x1
  extract_lets +onlyGivenNames x2 x3 x4
  refine .ite ?_ ?_
  · exact h1
  · exact .step State.raise_changes (.modCh h1)

theorem State.moveCopy_changes {s : State} {a1 : TileId} {a2 : Nat} {a3 : Nat} {a4 : Nat} :
    Changes [.clk, .tiles] s (State.moveCopy s a1 a2 a3 a4) := by
  unfold State.moveCopy
  extract_lets +onlyGivenNames x1 x2
  refine .via (x := x2) ?_ fun h2 => ?_
  · subst x2
    refine .forAll ?_ fun a3 x3 h3 => ?_
    · exact .refl
    · exact .step State.enqueue_changes h3
  clear_value x2
  exact .step State.enqueue_changes h2

theorem execGapMoveStart_changes {a0 : TileId} {a1 : Nat} {s : State} :
    Ends [.media, .staged, .pmc, .clk, .tiles] s (execGapMoveStart a0 a1 s) := by
  unfold execGapMoveStart
  extract_lets +onlyGivenNames x1 x2 x3
  split
  · extract_lets +onlyGivenNames x4 x5
    refine .ite ?_ ?_
    · exact .next .refl
    · refine .ite ?_ ?_
      · exact .next (.step State.moveDone_changes .refl)
      · extract_lets +onlyGivenNames x6
        refine .via (x := x6) ?_ fun h6 => ?_
        · subst x6
          exact .modPl .refl
        clear_value x6
        exact .next (.step State.moveCopy_changes h6)

theorem execMbar_changes {a0 : Fin 4} {a1 : MMsg} {s : State} :
    Ends [.pmc, .clk, .fab, .mesh] s (execMbar a0 a1 s) := by
  unfold execMbar
  split
  · rename_i x1 e1
    refine .via (Changes.ofPair e1 ?_) fun h1 => ?_
    · exact .step State.meshArrive_changes .refl
    refine .ite ?_ ?_
    · exact .next h1
    · refine .ite ?_ ?_
      · exact .next (.step State.meshReject_changes h1)
      · extract_lets +onlyGivenNames x2 x3
        refine .via (x := x3) ?_ fun h3 => ?_
        · subst x3
          exact .upd (t := x1) h1
        exact .next (.step State.answerBars_changes h3)

theorem execEventFlushStart_changes {s : State} :
    Ends [.fv, .nv, .sys, .evr, .tiles] s (execEventFlushStart s) := by
  unfold execEventFlushStart
  refine .ite ?_ ?_
  · exact .next .refl
  · split
    · rename_i x1 e1
      refine .via (Changes.ofPair e1 ?_) fun h1 => ?_
      · split
        · exact .step State.flushBatch_changes .refl
        · exact .snd .refl
      extract_lets +onlyGivenNames x2
      refine .ite ?_ ?_
      · exact .next (.step State.supplyRefused_changes h1)
      · extract_lets +onlyGivenNames x3 x4
        refine .via (x := x4) ?_ fun h4 => ?_
        · subst x4
          refine .upd (t := x1) ?_ (he := by with_reducible exact fun h => h.of)
          exact h1
        refine .ite ?_ ?_
        · exact .next h4
        · exact .next (.step State.flashStart_changes h4)

theorem execFoldClaim_changes {a0 : TileId} {a1 : Nat} {a2 : Nat} {s : State} :
    Ends [.clk, .tiles] s (execFoldClaim a0 a1 a2 s) := by
  unfold execFoldClaim
  extract_lets +onlyGivenNames x1
  refine .ite ?_ ?_
  · exact .next (.step State.foldClaim_changes .refl)
  · exact .next .refl

theorem execWidarRetrainDone_changes {a0 : PortId} {a1 : Bool} {a2 : List Byte} {s : State} :
    Ends [.fv, .nv, .sys, .evr, .bbx, .pmc, .clk, .tiles, .heads, .loads, .fab, .guest, .mesh] s (execWidarRetrainDone a0 a1 a2 s) := by
  unfold execWidarRetrainDone
  refine .ite ?_ ?_
  · exact .next .refl
  · split
    · exact .next (.step State.linkOut_changes .refl)
    · refine .ite ?_ ?_
      · exact .next (.step State.refuseRetrain_changes .refl)
      · extract_lets +onlyGivenNames x1
        refine .via (x := x1) ?_ fun h1 => ?_
        · subst x1
          exact .step State.retrained_changes .refl
        clear_value x1
        refine .ite ?_ ?_
        · exact .next (.step State.linkOut_changes h1)
        · exact .next (.step State.resumeLink_changes h1)

theorem execGetTimestamp_changes {a0 : Iface} {s : State} :
    Ends [.heads, .svc] s (execGetTimestamp a0 s) := by
  unfold execGetTimestamp
  refine .command fun a1 => ?_
  exact .step State.reply_changes .refl

theorem execPllHoldoverTimeout_changes {s : State} :
    Ends [.evr, .clk, .heads] s (execPllHoldoverTimeout s) := by
  unfold execPllHoldoverTimeout
  refine .ite ?_ ?_
  · exact .next .refl
  · exact .next (.step State.raise_changes (.upd (t := s) .refl))

theorem State.dirInsert_changes {s : State} {a1 : TileId} {a2 : DirEntry} :
    Changes [.pmc, .tiles] s (State.dirInsert s a1 a2) := by
  unfold State.dirInsert
  extract_lets +onlyGivenNames x1 x2
  refine .ite ?_ ?_
  · exact .modD .refl
  · extract_lets +onlyGivenNames x3 x4 x5 x6
    refine .via (x := x6) ?_ fun h6 => ?_
    · subst x6
      exact .modD .refl
    clear_value x6
    exact .step State.count_changes h6

theorem execSetTimestamp_changes {a0 : Iface} {s : State} :
    Ends [.heads, .svc] s (execSetTimestamp a0 s) := by
  unfold execSetTimestamp
  refine .command fun a1 => ?_
  exact .step State.mbFinish_changes (.modHead .refl)

theorem State.judgeChannel_changes {s : State} {a1 : TileId} {a2 : ChanId} :
    Changes [.nv, .sys, .boot, .cfg, .evr, .seq, .tiles, .heads, .prmData] s (State.judgeChannel s a1 a2) := by
  unfold State.judgeChannel
  extract_lets +onlyGivenNames x1
  refine .ite ?_ ?_
  · exact .step State.confirmTrial_changes (.step State.configHold_changes (.step State.raise_changes .refl))
  · extract_lets +onlyGivenNames x2
    refine .via (x := x2) ?_ fun h2 => ?_
    · subst x2
      refine .ite ?_ ?_
      · exact .step State.loadGait_changes .refl
      · exact .refl
    refine .ite ?_ ?_
    · exact .upd (t := x2) h2
    · exact h2

theorem State.lineVerified_changes {s : State} {a1 : TileId} {a2 : Nat} :
    Changes [.tiles] s (State.lineVerified s a1 a2) := by
  unfold State.lineVerified
  exact .modD .refl

theorem execBucketSlotFreed_changes {a0 : TileId} {s : State} :
    Ends [.fv, .sys, .evr, .pmc, .clk, .tiles, .heads, .loads, .nextReq, .fab, .mesh, .svc, .poison] s (execBucketSlotFreed a0 s) := by
  unfold execBucketSlotFreed
  refine .next ?_
  refine .step State.wake_changes ?_
  refine .step State.endExcluded_changes ?_
  refine .forAll ?_ fun a1 x1 h1 => ?_
  · exact .refl
  · refine .ite ?_ ?_
    · extract_lets +onlyGivenNames x2
      refine .via (x := x2) ?_ fun h2 => ?_
      · subst x2
        exact .step State.dirInsert_changes (.modD h1)
      clear_value x2
      refine .ite ?_ ?_
      · exact h2
      · exact .step State.lineVerified_changes h2
    · exact h1

theorem execCxlReset_changes {a0 : TileId} {s : State} :
    Ends [.heads] s (execCxlReset a0 s) := by
  unfold execCxlReset
  refine .ite ?_ ?_
  · exact .next .refl
  · refine .next ?_
    refine .modHead ?_ (hf := by intros; rfl)
    exact .refl

theorem execHello_changes {a0 : Fin 4} {a1 : MMsg} {s : State} :
    Ends [.evr, .pmc, .clk, .heads, .fab, .mesh] s (execHello a0 a1 s) := by
  unfold execHello
  extract_lets +onlyGivenNames x1
  refine .via (x := x1) ?_ fun h1 => ?_
  · subst x1
    exact .step State.meshTake_changes .refl
  refine .ite ?_ ?_
  · exact .next h1
  · refine .ite ?_ ?_
    · extract_lets +onlyGivenNames x2
      refine .ite ?_ ?_
      · exact .next h1
      · exact .next (.step State.raise_changes (.upd (t := x1) h1))
    · extract_lets +onlyGivenNames x3 x4 y0 x5
      refine .via (x := x5) ?_ fun h5 => ?_
      · subst x5
        exact .upd (t := x1) h1
      extract_lets +onlyGivenNames x6 y1 y2
      refine .ite ?_ ?_
      · exact .next h5
      · extract_lets +onlyGivenNames x7 x8 x9 x10 x11
        refine .via (x := x11) ?_ fun h11 => ?_
        · subst x11
          exact .upd (t := x5) h5
        extract_lets +onlyGivenNames x12
        refine .via (x := x12) ?_ fun h12 => ?_
        · subst x12
          refine .ite ?_ ?_
          · refine .forAll ?_ fun a13 x13 h13 => ?_
            · exact h11
            · exact .step State.peerPut_changes h13
          · exact h11
        refine .next ?_
        refine .ite ?_ ?_
        · extract_lets +onlyGivenNames x14 x15
          refine .via (x := x15) ?_ fun h15 => ?_
          · subst x15
            exact .step State.startDiscovery_changes h12
          exact .upd (t := x15) h15
        · exact h12

theorem execGaitDecj_changes {a0 : TileId} {a1 : Fin 64} {a2 : Fin 4} {s : State} :
    Ends [.pmc, .tiles] s (execGaitDecj a0 a1 a2 s) := by
  unfold execGaitDecj
  split
  · exact .next .refl
  · exact .next (.step State.putCtx_changes .refl)

theorem execSecureErase_changes {a0 : Iface} {s : State} :
    Ends [.nv, .sys, .prm, .sec, .tiles, .heads, .svc] s (execSecureErase a0 s) := by
  unfold execSecureErase
  refine .command fun a1 => ?_
  refine .ite ?_ ?_
  · exact .step State.mbFinish_changes .refl
  · refine .ite ?_ ?_
    · exact .step State.mbFinish_changes .refl
    · exact .step State.startErase_changes .refl

theorem execMedrstStretchEnd_changes {a0 : TileId} {a1 : ChanId} {s : State} :
    Ends [.boot, .seq, .tiles] s (execMedrstStretchEnd a0 a1 s) := by
  unfold execMedrstStretchEnd
  extract_lets +onlyGivenNames x1 x2
  refine .ite ?_ ?_
  · exact .next .refl
  · extract_lets +onlyGivenNames x3
    refine .via (x := x3) ?_ fun h3 => ?_
    · subst x3
      exact .modCh .refl
    exact .next (.upd (t := x3) h3)

theorem State.walkBarrier_changes {s : State} {a1 : TileId} {a2 : Bool} :
    Changes [.pmc, .clk, .fab, .mesh] s (State.walkBarrier s a1 a2) := by
  unfold State.walkBarrier
  split
  · rename_i x1 e1
    refine .via (Changes.ofPair e1 ?_) fun h1 => ?_
    · exact .step State.meshTag_changes .refl
    extract_lets +onlyGivenNames x2
    refine .via (x := x2) ?_ fun h2 => ?_
    · subst x2
      exact .step State.modWalk_changes h1
    extract_lets +onlyGivenNames x3 x4
    refine .via (x := x4) ?_ fun h4 => ?_
    · subst x4
      exact .upd (t := x2) h2
    exact .step State.meshSend_changes h4

theorem execResyncWalkStep_changes {a0 : TileId} {s : State} :
    Ends [.fv, .pmc, .clk, .fab, .mesh] s (execResyncWalkStep a0 s) := by
  unfold execResyncWalkStep
  split
  · exact .next .refl
  · extract_lets +onlyGivenNames x1 x2
    clear_value x2; split
    · exact .next (.step State.walkBarrier_changes .refl)
    · split
      · rename_i x3 e3
        refine .via (Changes.ofTriple e3 ?_) fun h3 => ?_
        · exact .step State.newest_changes .refl
        split
        · rename_i x4 e4
          refine .via (Changes.ofPair e4 ?_) fun h4 => ?_
          · exact .step State.meshTag_changes h3
          extract_lets +onlyGivenNames x5 x6
          refine .via (x := x6) ?_ fun h6 => ?_
          · subst x6
            exact .upd (t := x4) h4
          extract_lets +onlyGivenNames x7
          refine .via (x := x7) ?_ fun h7 => ?_
          · subst x7
            exact .step State.count_changes (.step State.meshSend_changes h6)
          extract_lets +onlyGivenNames x8
          refine .via (x := x8) ?_ fun h8 => ?_
          · subst x8
            exact .step State.modWalk_changes h7
          extract_lets +onlyGivenNames x9 x10 x11 x12
          refine .via (x := x12) ?_ fun h12 => ?_
          · subst x12
            exact .upd (t := x8) h8
          refine .next ?_
          refine .ite ?_ ?_
          · exact .step State.walkBarrier_changes h12
          · exact h12

theorem execReadPerformanceCounters_changes {a0 : Iface} {s : State} :
    Ends [.heads, .svc] s (execReadPerformanceCounters a0 s) := by
  unfold execReadPerformanceCounters
  refine .command fun a1 => ?_
  extract_lets +onlyGivenNames x2
  split
  · exact .step State.mbFinish_changes .refl
  · refine .ite ?_ (.ite ?_ ?_)
    · exact .step State.mbFinish_changes .refl
    · exact .step State.mbFinish_changes .refl
    · extract_lets +onlyGivenNames x3 x4
      exact .step State.reply_changes .refl

theorem State.replayReads_changes {s : State} {a1 : TileId} :
    Changes [.fv, .pmc, .tiles] s (State.replayReads s a1) := by
  unfold State.replayReads
  extract_lets +onlyGivenNames x1
  refine .via (x := x1) ?_ fun h1 => ?_
  · subst x1
    refine .forAll ?_ fun a2 x2 h2 => ?_
    · exact .refl
    · split
      · rename_i x3 e3
        refine .via (Changes.ofPair e3 ?_) fun h3 => ?_
        · exact .step State.draw_changes h2
        exact .step State.count_changes h3
  clear_value x1
  refine .forAll ?_ fun a4 x4 h4 => ?_
  · exact h1
  · split
    · rename_i x5 e5
      refine .via (Changes.ofPair e5 ?_) fun h5 => ?_
      · exact .step State.draw_changes h4
      exact .step State.count_changes (.modIt h5)

theorem State.programStarts_changes {s : State} {a1 : TileId} {a2 : WorkItem} :
    Changes [.tiles] s (State.programStarts s a1 a2) := by
  unfold State.programStarts
  split
  · exact .step State.modFold_changes .refl
  · exact .modPl .refl
  · exact .step State.modRebuild_changes .refl
  · exact .refl

theorem execFlushTileDataEnd_changes {a0 : TileId} {s : State} :
    Ends [.fv, .nv, .media, .staged, .aon, .sys, .boot, .cfg, .prm, .evr, .bbx, .pmc, .sec, .seq, .hld, .flush, .pwr, .clk, .thm, .tiles, .heads, .loads, .nextReq, .fab, .guest, .mesh, .svc, .poison, .prmData, .lsa, .tcm, .scratch] s (execFlushTileDataEnd a0 s) := by
  unfold execFlushTileDataEnd
  split
  · exact .next .refl
  · refine .ite ?_ ?_
    · exact .next .refl
    · extract_lets +onlyGivenNames x1
      refine .via (x := x1) ?_ fun h1 => ?_
      · subst x1
        exact .step State.journal_changes (.step State.journalProgress_changes .refl)
      extract_lets +onlyGivenNames x2 x3
      refine .via (x := x3) ?_ fun h3 => ?_
      · subst x3
        exact .upd (t := x1) h1
      refine .ite ?_ ?_
      · exact .next (.step State.endFlushWork_changes h3)
      · exact .next h3

theorem State.stillRaising_changes {s : State} :
    Changes [.seq] s (State.stillRaising s) := by
  unfold State.stillRaising
  exact .upd (t := s) .refl

theorem State.holdGroupOff_changes {s : State} {a1 : Nat} :
    Changes [.fv, .media, .staged, .sys, .evr, .pmc, .seq, .clk, .tiles, .heads, .loads, .nextReq, .fab, .mesh, .poison] s (State.holdGroupOff s a1) := by
  unfold State.holdGroupOff
  extract_lets +onlyGivenNames x1 x2
  refine .via (x := x2) ?_ fun h2 => ?_
  · subst x2
    exact .upd (t := s) .refl
  exact .step State.stillRaising_changes (.step State.chansOut_changes (.step State.addCause_changes h2))

theorem State.lowerGroup_changes {s : State} {a1 : Nat} :
    Changes [.seq] s (State.lowerGroup s a1) := by
  unfold State.lowerGroup
  exact .upd (t := s) .refl

theorem State.shutGroup_changes {s : State} {a1 : Nat} :
    Changes [.fv, .nv, .media, .staged, .sys, .evr, .bbx, .pmc, .seq, .clk, .tiles, .heads, .loads, .nextReq, .fab, .mesh, .poison] s (State.shutGroup s a1) := by
  unfold State.shutGroup
  extract_lets +onlyGivenNames x1
  refine .via (x := x1) ?_ fun h1 => ?_
  · subst x1
    exact .step State.holdGroupOff_changes (.step State.lowerGroup_changes .refl)
  extract_lets +onlyGivenNames x2
  refine .via (x := x2) ?_ fun h2 => ?_
  · subst x2
    exact .step State.raise_changes h1
  exact .step State.railRecord_changes h2

theorem State.gpfVerified_changes {s : State} {a1 : TileId} {a2 : Nat} :
    Changes [.tiles] s (State.gpfVerified s a1 a2) := by
  unfold State.gpfVerified
  exact .modD .refl

theorem State.foldRelease_changes {s : State} {a1 : TileId} {a2 : Fold} :
    Changes [.fv, .staged, .sys, .evr, .pmc, .clk, .tiles, .heads, .loads, .nextReq, .fab, .mesh, .svc, .poison] s (State.foldRelease s a1 a2) := by
  unfold State.foldRelease
  extract_lets +onlyGivenNames x1 x2 x3
  refine .via (x := x3) ?_ fun h3 => ?_
  · subst x3
    exact .modD .refl
  clear_value x3
  refine .step State.wake_changes ?_
  exact .step State.stageOwed_changes (.step State.freeSegments_changes (.step State.count_changes h3))

theorem State.bbStored_changes {s : State} {a1 : TileId} {a2 : BBRec} :
    Changes [.bbx] s (State.bbStored s a1 a2) := by
  unfold State.bbStored
  extract_lets +onlyGivenNames x1
  exact .upd (t := s) .refl

theorem State.entryVerified_changes {s : State} {a1 : TileId} {a2 : Stripe} {a3 : Nat} {a4 : StripeEntry} :
    Changes [.fv, .media, .staged, .sys, .evr, .bbx, .pmc, .clk, .tiles, .heads, .loads, .nextReq, .fab, .mesh, .svc, .poison] s (State.entryVerified s a1 a2 a3 a4) := by
  unfold State.entryVerified
  refine .ite ?_ ?_
  · exact .refl
  · split
    · extract_lets +onlyGivenNames x1
      refine .via (x := x1) ?_ fun h1 => ?_
      · subst x1
        exact .step State.gpfVerified_changes (.modD .refl)
      clear_value x1
      refine .ite ?_ ?_
      · exact .step State.lineVerified_changes h1
      · extract_lets +onlyGivenNames x2 x3
        refine .via (x := x3) ?_ fun h3 => ?_
        · subst x3
          exact .step State.dirInsert_changes h1
        clear_value x3
        refine .ite ?_ ?_
        · refine .modD ?_ (hf := by intros; rfl)
          exact h3
        · exact .step State.lineVerified_changes h3
    · exact .modD .refl
    · extract_lets +onlyGivenNames x4
      refine .via (x := x4) ?_ fun h4 => ?_
      · subst x4
        exact .modMedia .refl
      clear_value x4
      extract_lets +onlyGivenNames x5
      refine .via (x := x5) ?_ fun h5 => ?_
      · subst x5
        split
        · exact .modPl h4
        · exact h4
      clear_value x5
      refine .forAll ?_ fun a6 x6 h6 => ?_
      · exact h5
      · exact .step State.foldRelease_changes h6
    · exact .step State.bbStored_changes .refl
    · exact .refl

theorem execTileRejoinTimeout_changes {a0 : TileId} {s : State} :
    Ends [.fv, .nv, .media, .staged, .aon, .sys, .boot, .cfg, .prm, .evr, .bbx, .pmc, .sec, .seq, .hld, .flush, .pwr, .clk, .thm, .tiles, .heads, .loads, .nextReq, .fab, .guest, .mesh, .svc, .poison, .prmData, .lsa, .tcm, .scratch] s (execTileRejoinTimeout a0 s) := by
  unfold execTileRejoinTimeout
  refine .ite ?_ ?_
  · exact .next (.step State.tileLost_changes .refl)
  · exact .next .refl

theorem State.keyWritten_changes {s : State} :
    Changes [.nv, .prm, .evr, .sec, .heads, .svc] s (State.keyWritten s) := by
  unfold State.keyWritten
  split
  · exact .refl
  · extract_lets +onlyGivenNames x1
    refine .via (x := x1) ?_ fun h1 => ?_
    · subst x1
      exact .step State.keyStored_changes .refl
    split
    · exact .step State.waitDone_changes h1
    · exact .step State.keyStart_changes (.upd (t := x1) h1)
    · exact .step State.raise_changes (.upd (t := x1) h1)

theorem execStagedLadderRungDone_changes {a0 : TileId} {a1 : Nat} {a2 : Noise} {s : State} :
    Ends [.fv, .sys, .evr, .pmc, .clk, .tiles, .heads, .loads, .nextReq, .fab, .mesh, .poison] s (execStagedLadderRungDone a0 a1 a2 s) := by
  unfold execStagedLadderRungDone
  split
  · exact .next .refl
  · split
    · refine .ite ?_ ?_
      · exact .next .refl
      · extract_lets +onlyGivenNames x1 x2 x3 x4 x5 x6 x7
        refine .next ?_
        refine .ite ?_ ?_
        · extract_lets +onlyGivenNames x8
          refine .via (x := x8) ?_ fun h8 => ?_
          · subst x8
            exact .step State.noteRead_changes .refl
          clear_value x8
          refine .ite ?_ ?_
          · extract_lets +onlyGivenNames x9
            refine .via (x := x9) ?_ fun h9 => ?_
            · subst x9
              exact .step State.learnStamp_changes (.step State.otherBucket_changes h8)
            clear_value x9
            split
            · rename_i x10 e10
              refine .via (Changes.ofPair e10 ?_) fun h10 => ?_
              · exact .step State.asRead_changes h9
              exact .step State.ladderGave_changes h10
          · refine .ite ?_ ?_
            · exact .step State.readItem_changes (.step State.modLoad_changes h8)
            · exact .step State.stripeRung_changes h8
        · extract_lets +onlyGivenNames x11
          refine .via (x := x11) ?_ fun h11 => ?_
          · subst x11
            refine .forAll ?_ fun a12 x12 h12 => ?_
            · exact .refl
            · exact .step State.noteRead_changes h12
          clear_value x11
          refine .ite ?_ ?_
          · exact .step State.ladderGave_changes (.modIt h11)
          · exact .step State.ladderFailed_changes h11
    · exact .next .refl

theorem State.rdpMarked_changes {s : State} :
    Changes [.sys, .tiles, .svc] s (State.rdpMarked s) := by
  unfold State.rdpMarked
  refine .upd (t := s) ?_ (ht := by with_reducible exact tiles_vmap)
  exact .refl

theorem execPrmPageWriteDone_changes {s : State} :
    Ends [.nv, .sys, .prm, .evr, .sec, .tiles, .heads, .svc, .prmData] s (execPrmPageWriteDone s) := by
  unfold execPrmPageWriteDone
  split
  · exact .next .refl
  · extract_lets +onlyGivenNames x1
    refine .via (x := x1) ?_ fun h1 => ?_
    · subst x1
      exact .step State.prmWrite_changes .refl
    extract_lets +onlyGivenNames x2 x3
    refine .via (x := x3) ?_ fun h3 => ?_
    · subst x3
      exact .upd (t := x1) h1
    refine .ite ?_ ?_
    · exact .next h3
    · split
      · exact .next (.step State.waitDone_changes h3)
      · exact .next (.step State.rdpMarked_changes h3)
      · exact .next (.step State.keyWritten_changes h3)
      · exact .next h3

theorem execDcOfferTimeout_changes {a0 : TileId} {s : State} :
    Ends [.svc] s (execDcOfferTimeout a0 s) := by
  unfold execDcOfferTimeout
  split
  · exact .next .refl
  · exact .next (.upd (t := s) .refl)

theorem execSensorResultHold_changes {a0 : TileId} {a1 : Vector (Option (BitVec 16)) 12} {s : State} :
    Ends [.evr, .tiles, .heads] s (execSensorResultHold a0 a1 s) := by
  unfold execSensorResultHold
  refine .ite ?_ ?_
  · exact .next .refl
  · extract_lets +onlyGivenNames x1 x2 x3 x4 x5
    refine .via (x := x5) ?_ fun h5 => ?_
    · subst x5
      exact .modTherm .refl
    refine .next ?_
    refine .forAll ?_ fun a6 x6 h6 => ?_
    · exact h5
    · exact .step State.raise_changes h6

theorem State.cycleCounters_changes {s : State} {a1 : TileId} :
    Changes [.fv, .pmc] s (State.cycleCounters s a1) := by
  unfold State.cycleCounters
  refine .forAll ?_ fun a1 x1 h1 => ?_
  · exact .refl
  · split
    · rename_i x2 e2
      refine .via (Changes.ofPair e2 ?_) fun h2 => ?_
      · exact .step State.draw_changes h1
      exact .step State.count_changes h2

theorem execHousekeepingStrobe_changes {a0 : BitVec 16} {a1 : BitVec 16} {a2 : BitVec 16} {a3 : BitVec 16} {a4 : BitVec 64} {s : State} :
    Ends [.fv, .aon, .pmc, .clk, .thm, .tiles] s (execHousekeepingStrobe a0 a1 a2 a3 a4 s) := by
  unfold execHousekeepingStrobe
  refine .ite ?_ ?_
  · exact .next .refl
  · extract_lets +onlyGivenNames x1 x2 x3 x4 x5
    refine .via (x := x5) ?_ fun h5 => ?_
    · subst x5
      refine .upd (t := s) ?_
      exact .refl
    clear_value x5
    extract_lets +onlyGivenNames x6
    refine .via (x := x6) ?_ fun h6 => ?_
    · subst x6
      exact .step State.ungatePkg_changes h5
    clear_value x6
    extract_lets +onlyGivenNames x7 x8
    refine .via (x := x8) ?_ fun h8 => ?_
    · subst x8
      refine .ite ?_ ?_
      · exact h6
      · refine .forAll ?_ fun a9 x9 h9 => ?_
        · exact h6
        · exact .step State.cycleCounters_changes (.step State.count_changes h9)
    clear_value x8
    extract_lets +onlyGivenNames x10
    refine .via (x := x10) ?_ fun h10 => ?_
    · subst x10
      refine .upd (t := x8) ?_ (ht := by with_reducible exact tiles_vmap)
      exact h8
    clear_value x10
    refine .ite ?_ ?_
    · refine .next ?_
      refine .forAll ?_ fun a11 x11 h11 => ?_
      · exact h10
      · exact .step State.readTemps_changes h11
    · exact .next h10

theorem execSetShutdownState_changes {a0 : Iface} {s : State} :
    Ends [.heads, .svc] s (execSetShutdownState a0 s) := by
  unfold execSetShutdownState
  refine .command fun a1 => ?_
  refine .ite ?_ ?_
  · exact .step State.mbFinish_changes .refl
  · exact .step State.mbFinish_changes (.modHead .refl)

theorem State.foldLine_changes {s : State} {a1 : TileId} {a2 : Fold} {a3 : Nat} {a4 : Nat} {a5 : List (Nat × Noise)} {a6 : List (Nat × LineRead)} {a7 : Nat} :
    Changes [.fv, .evr, .pmc, .tiles, .heads, .poison] s (State.foldLine s a1 a2 a3 a4 a5 a6 a7).2 := by
  unfold State.foldLine
  extract_lets +onlyGivenNames x1 x2
  split
  · rename_i x3 e3
    refine .via (Changes.ofTriple e3 ?_) fun h3 => ?_
    · split
      · extract_lets +onlyGivenNames x4
        split
        · rename_i x5 e5
          refine .via (Changes.ofPair e5 ?_) fun h5 => ?_
          · exact .step State.stagedRead_changes .refl
          split
          · rename_i x6 e6
            refine .via (Changes.ofPair e6 ?_) fun h6 => ?_
            · exact .step State.asRead_changes h5
            exact .snd h6
      · split
        · exact .snd .refl
        · split
          · rename_i x7 e7
            refine .via (Changes.ofPair e7 ?_) fun h7 => ?_
            · exact .step State.homeLine_changes .refl
            split
            · rename_i x8 e8
              refine .via (Changes.ofPair e8 ?_) fun h8 => ?_
              · exact .step State.asRead_changes h7
              exact .snd h8
    split
    · exact .snd h3
    · split
      · exact .snd (.step State.uncorrectable_changes h3)
      · split
        · exact .snd h3
        · exact .snd h3

theorem execLeadHeartbeatTimer_changes {s : State} :
    Ends [.sys, .pmc, .fab, .guest, .mesh] s (execLeadHeartbeatTimer s) := by
  unfold execLeadHeartbeatTimer
  split
  · exact .next .refl
  · refine .ite ?_ ?_
    · exact .next .refl
    · extract_lets +onlyGivenNames x1 x2
      refine .via (x := x2) ?_ fun h2 => ?_
      · subst x2
        refine .forAll ?_ fun a3 x3 h3 => ?_
        · exact .refl
        · extract_lets +onlyGivenNames x4
          subst x1
          exact .step State.wsend_changes (.upd (t := x3) h3)
      refine .next ?_
      refine .ite ?_ ?_
      · subst x1
        exact .step State.wsend_changes (.upd (t := x2) h2)
      · exact h2

theorem execLoadResponseEgress_changes {a0 : TileId} {a1 : Nat} {a2 : Nat} {s : State} :
    Ends [.fv, .pmc, .heads, .loads] s (execLoadResponseEgress a0 a1 a2 s) := by
  unfold execLoadResponseEgress
  split
  · exact .next .refl
  · split
    · exact .next .refl
    · extract_lets +onlyGivenNames x1
      refine .via (x := x1) ?_ fun h1 => ?_
      · subst x1
        exact .upd (t := s) .refl
      clear_value x1
      refine .ite ?_ ?_
      · exact .next (.modHead h1)
      · extract_lets +onlyGivenNames x2
        refine .via (x := x2) ?_ fun h2 => ?_
        · subst x2
          refine .ite ?_ ?_
          · exact .modHead (.step State.sendData_changes h1)
          · exact .modHead h1
        clear_value x2
        extract_lets +onlyGivenNames x3
        refine .via (x := x3) ?_ fun h3 => ?_
        · subst x3
          refine .ite ?_ ?_
          · exact .step State.count_changes h2
          · exact h2
        clear_value x3
        extract_lets +onlyGivenNames x4
        refine .next ?_
        refine .ite ?_ ?_
        · exact .step State.sample_changes h3
        · exact h3

theorem State.stripeVerified_changes {s : State} {a1 : TileId} {a2 : Stripe} :
    Changes [.fv, .media, .staged, .sys, .evr, .bbx, .pmc, .clk, .tiles, .heads, .loads, .nextReq, .fab, .mesh, .svc, .poison] s (State.stripeVerified s a1 a2) := by
  unfold State.stripeVerified
  extract_lets +onlyGivenNames x1
  refine .via (x := x1) ?_ fun h1 => ?_
  · subst x1
    exact .modD .refl
  clear_value x1
  extract_lets +onlyGivenNames x2
  refine .via (x := x2) ?_ fun h2 => ?_
  · subst x2
    exact .modStaged h1
  clear_value x2
  extract_lets +onlyGivenNames x3
  refine .via (x := x3) ?_ fun h3 => ?_
  · subst x3
    exact .step State.stampNow_changes h2
  clear_value x3
  extract_lets +onlyGivenNames x4 x5
  refine .via (x := x5) ?_ fun h5 => ?_
  · subst x5
    exact .step State.count_changes (.step State.count_changes (.step State.count_changes h3))
  clear_value x5
  extract_lets +onlyGivenNames x6
  refine .via (x := x6) ?_ fun h6 => ?_
  · subst x6
    exact .step State.count_changes h5
  clear_value x6
  extract_lets +onlyGivenNames x7
  refine .via (x := x7) ?_ fun h7 => ?_
  · subst x7
    refine .forAll ?_ fun a8 x8 h8 => ?_
    · exact h6
    · exact .step State.entryVerified_changes h8
  clear_value x7
  refine .step State.wake_changes ?_
  exact .step State.freeSegments_changes (.step State.afterVerify_changes (.step State.endExcluded_changes h7))

theorem State.stripeAbandoned_changes {s : State} {a1 : TileId} {a2 : Stripe} {a3 : BitVec 8} :
    Changes [.fv, .sys, .evr, .pmc, .seq, .clk, .tiles, .heads, .fab, .mesh, .poison] s (State.stripeAbandoned s a1 a2 a3) := by
  unfold State.stripeAbandoned
  extract_lets +onlyGivenNames x1 x2
  refine .via (x := x2) ?_ fun h2 => ?_
  · subst x2
    exact .modD .refl
  clear_value x2
  extract_lets +onlyGivenNames x3
  refine .via (x := x3) ?_ fun h3 => ?_
  · subst x3
    exact .step State.count_changes (.step State.raise_changes h2)
  clear_value x3
  extract_lets +onlyGivenNames x4
  refine .via (x := x4) ?_ fun h4 => ?_
  · subst x4
    exact .step State.appendAgain_changes h3
  clear_value x4
  exact .step State.noteProgram_changes h4

theorem execStripeProgramEnd_changes {a0 : TileId} {a1 : BitVec 64} {a2 : Unit} {s : State} :
    Ends [.fv, .media, .staged, .sys, .evr, .bbx, .pmc, .seq, .clk, .tiles, .heads, .loads, .nextReq, .fab, .mesh, .svc, .poison] s (execStripeProgramEnd a0 a1 a2 s) := by
  unfold execStripeProgramEnd
  split
  · exact .next .refl
  · exact .next .refl
  · extract_lets +onlyGivenNames x1
    refine .via (x := x1) ?_ fun h1 => ?_
    · subst x1
      exact .step State.endContexts_changes .refl
    clear_value x1
    refine .next ?_
    refine .ite ?_ ?_
    · exact .step State.stripeVerified_changes h1
    · exact .step State.stripeAbandoned_changes h1

theorem execRailPowerGood_changes {a0 : Fin 16} {s : State} :
    Ends [.evr, .seq, .heads] s (execRailPowerGood a0 s) := by
  unfold execRailPowerGood
  refine .ite ?_ ?_
  · exact .next .refl
  · extract_lets +onlyGivenNames x1 x2
    refine .via (x := x2) ?_ fun h2 => ?_
    · subst x2
      exact .upd (t := s) .refl
    refine .ite ?_ ?_
    · exact .next (.upd (t := x2) h2)
    · refine .ite ?_ ?_
      · exact .next h2
      · extract_lets +onlyGivenNames x3
        refine .via (x := x3) ?_ fun h3 => ?_
        · subst x3
          exact .step State.enableRails_changes h2
        extract_lets +onlyGivenNames x4 x5
        refine .via (x := x5) ?_ fun h5 => ?_
        · subst x5
          exact .upd (t := x3) h3
        refine .ite ?_ ?_
        · exact .next (.step State.raise_changes (.upd (t := x5) h5))
        · exact .next h5

theorem State.initDie_changes {s : State} {a1 : TileId} {a2 : ChanId} {a3 : Fin 9} {a4 : List (Nat × Nat)} {a5 : List (Nat × BitVec 6)} :
    Changes [.fv, .evr, .tiles, .heads] s (State.initDie s a1 a2 a3 a4 a5).2 := by
  unfold State.initDie
  extract_lets +onlyGivenNames x1
  split
  · exact .snd .refl
  · extract_lets +onlyGivenNames x2
    refine .via (x := x2) ?_ fun h2 => ?_
    · subst x2
      refine .ite ?_ ?_
      · exact .step State.raise_changes .refl
      · exact .refl
    clear_value x2
    split
    · exact .snd h2
    · extract_lets +onlyGivenNames x3
      refine .via (x := x3) ?_ fun h3 => ?_
      · subst x3
        exact .step State.send_changes h2
      clear_value x3
      split
      · exact .snd h3
      · extract_lets +onlyGivenNames x4
        refine .via (x := x4) ?_ fun h4 => ?_
        · subst x4
          exact .step State.sendTables_changes h3
        clear_value x4
        extract_lets +onlyGivenNames x5 x6
        refine .via (x := x6) ?_ fun h6 => ?_
        · subst x6
          exact .step State.burst_changes (.step State.send_changes h4)
        clear_value x6
        split
        · exact .snd h6
        · exact .snd (.step State.noteFlags_changes h6)

theorem State.initChannel_changes {s : State} {a1 : TileId} {a2 : ChanId} {a3 : List (Nat × Nat)} {a4 : List (Nat × BitVec 6)} :
    Changes [.fv, .evr, .tiles, .heads] s (State.initChannel s a1 a2 a3 a4) := by
  unfold State.initChannel
  split
  · rename_i x1 e1
    refine .via (Changes.ofPair e1 ?_) fun h1 => ?_
    · exact .step State.draw_changes .refl
    extract_lets +onlyGivenNames x2 x3 x4
    refine .via (x := x4) ?_ fun h4 => ?_
    · subst x4
      exact .modCh h1
    clear_value x4
    extract_lets +onlyGivenNames x5 x6 x7
    refine .via (x := x7) ?_ fun h7 => ?_
    · subst x7
      refine .forAll ?_ fun a8 x8 h8 => ?_
      · exact h4
      · split
        · rename_i x9 e9
          refine .via (Changes.ofPair e9 ?_) fun h9 => ?_
          · exact .step State.initDie_changes h8
          exact .step State.raise_changes h9
        · rename_i x10 e10
          refine .via (Changes.ofPair e10 ?_) fun h10 => ?_
          · exact .step State.initDie_changes h8
          exact .modCh h10
    clear_value x7
    exact .step State.noteContainers_changes (.modCh h7)

theorem State.noteRail_changes {s : State} {a1 : Nat} {a2 : Nat} :
    Changes [.seq] s (State.noteRail s a1 a2) := by
  unfold State.noteRail
  exact .upd (t := s) .refl

theorem State.railFault_changes {s : State} {a1 : Nat} :
    Changes [.fv, .nv, .media, .staged, .sys, .boot, .evr, .bbx, .pmc, .seq, .hld, .flush, .pwr, .clk, .tiles, .heads, .loads, .nextReq, .fab, .mesh, .svc, .poison] s (State.railFault s a1) := by
  unfold State.railFault
  extract_lets +onlyGivenNames x1 x2 x3
  refine .via (x := x3) ?_ fun h3 => ?_
  · subst x3
    exact .upd (t := s) .refl
  extract_lets +onlyGivenNames x4
  refine .via (x := x4) ?_ fun h4 => ?_
  · subst x4
    exact .step State.raise_changes (.step State.noteRail_changes h3)
  extract_lets +onlyGivenNames x5
  refine .via (x := x5) ?_ fun h5 => ?_
  · subst x5
    exact .step State.railRecord_changes h4
  extract_lets +onlyGivenNames x6
  refine .ite ?_ ?_
  · exact .step State.chansOut_changes h5
  · clear_value x1; split
    · extract_lets +onlyGivenNames x7
      refine .via (x := x7) ?_ fun h7 => ?_
      · subst x7
        exact .step State.resetChans_changes h5
      exact .upd (t := x7) h7
    · extract_lets +onlyGivenNames x8
      refine .via (x := x8) ?_ fun h8 => ?_
      · subst x8
        exact .step State.lowerGroup_changes (.step State.chansOut_changes h5)
      exact .upd (t := x8) h8
    · exact .step State.shutGroup_changes h5
    · exact .step State.startFlush_changes (.step State.chansOut_changes h5)

theorem execPmbAlert_changes {s : State} :
    Ends [.fv, .nv, .media, .staged, .sys, .boot, .evr, .bbx, .pmc, .seq, .hld, .flush, .pwr, .clk, .tiles, .heads, .loads, .nextReq, .fab, .mesh, .svc, .poison] s (execPmbAlert s) := by
  unfold execPmbAlert
  refine .ite ?_ ?_
  · exact .next .refl
  · exact .next (.step State.railFault_changes .refl)

theorem execStagFence_changes {a0 : TileId} {s : State} :
    Ends [.nv, .evr, .bbx, .pmc, .clk, .tiles, .heads, .fab, .mesh] s (execStagFence a0 s) := by
  unfold execStagFence
  extract_lets +onlyGivenNames x1
  refine .ite ?_ ?_
  · exact .next .refl
  · exact .next (.step State.issueStores_changes (.modFab .refl))

theorem execGaitVchk_changes {a0 : TileId} {a1 : Fin 64} {a2 : Fin 4} {s : State} :
    Ends [.pmc, .tiles] s (execGaitVchk a0 a1 a2 s) := by
  unfold execGaitVchk
  split
  · exact .next .refl
  · exact .next (.step State.putCtx_changes .refl)

theorem execD3hotTransition_changes {a0 : TileId} {a1 : Bool} {s : State} :
    Ends [.heads] s (execD3hotTransition a0 a1 s) := by
  unfold execD3hotTransition
  refine .ite ?_ ?_
  · exact .next .refl
  · exact .next (.modHead .refl)

theorem execWidarPayloadFlit_changes {a0 : PortId} {a1 : List Byte} {s : State} :
    Ends [.fv, .sys, .pmc, .clk, .fab, .mesh] s (execWidarPayloadFlit a0 a1 s) := by
  unfold execWidarPayloadFlit
  extract_lets +onlyGivenNames x1
  refine .ite ?_ ?_
  · exact .next .refl
  · extract_lets +onlyGivenNames x2 x3
    refine .via (x := x3) ?_ fun h3 => ?_
    · subst x3
      exact .step State.modLink_changes .refl
    clear_value x3
    split
    · exact .next (.step State.badFlit_changes h3)
    · refine .ite ?_ ?_
      · exact .next .refl
      · extract_lets +onlyGivenNames x4
        refine .via (x := x4) ?_ fun h4 => ?_
        · subst x4
          exact .step State.modLink_changes h3
        clear_value x4
        refine .ite ?_ ?_
        · exact .next (.step State.sendReturns_changes h4)
        · extract_lets +onlyGivenNames x5
          refine .via (x := x5) ?_ fun h5 => ?_
          · subst x5
            exact .step State.modLink_changes h4
          clear_value x5
          split
          · exact .next (.step State.sendReturns_changes (.step State.msgsIn_changes (.step State.count_changes h5)))
          · refine .next ?_
            exact .step State.sendReturns_changes (.step State.mmsgsIn_changes (.step State.ungatePkg_changes h5))

theorem execVaonGood_changes {s : State} :
    Ends [.fv, .media, .staged, .aon, .sys, .boot, .cfg, .prm, .evr, .bbx, .pmc, .sec, .seq, .hld, .flush, .pwr, .clk, .thm, .tiles, .heads, .loads, .nextReq, .fab, .guest, .mesh, .svc, .poison, .tcm, .scratch] s (execVaonGood s) := by
  unfold execVaonGood
  refine .ite ?_ ?_
  · exact .next .refl
  · extract_lets +onlyGivenNames x1 x2 x3
    refine .via (x := x3) ?_ fun h3 => ?_
    · subst x3
      exact .upd (t := s) .refl
    exact .next (.step State.startFixed_changes (.step State.packageReset_changes h3))

end Sys2Proof.Machine
end

