-- ==== Sys2Proof/Laws/Changes9.lean ====
section
/-! SUPPORT. Part 9 of the lemmas, one for each operation and each command's meaning, that say which groups of the state it can
change and that it keeps the canonical memories and the bounds. -/

namespace Sys2Proof.Machine

set_option Elab.async false

theorem execVaonLoss_changes {s : State} :
    Ends [.fv, .nv, .media, .staged, .aon, .sys, .boot, .cfg, .prm, .evr, .bbx, .pmc, .sec, .seq, .hld, .flush, .pwr, .clk, .thm, .tiles, .heads, .loads, .nextReq, .fab, .guest, .mesh, .svc, .poison, .prmData, .lsa, .tcm, .velvet, .scratch] s (execVaonLoss s) := by
  unfold execVaonLoss
  refine .ite ?_ ?_
  · exact .next (.step State.powerOff_changes .refl)
  · exact .next .refl

theorem execPkgRstNFall_changes {s : State} :
    Ends [.fv, .nv, .media, .staged, .aon, .sys, .boot, .cfg, .prm, .evr, .bbx, .pmc, .sec, .seq, .hld, .flush, .pwr, .clk, .thm, .tiles, .heads, .loads, .nextReq, .fab, .guest, .mesh, .svc, .poison, .prmData, .lsa, .tcm, .scratch] s (execPkgRstNFall s) := by
  unfold execPkgRstNFall
  extract_lets +onlyGivenNames x1 x2
  refine .via (x := x2) ?_ fun h2 => ?_
  · subst x2
    exact .upd (t := s) .refl
  refine .ite ?_ ?_
  · exact .next h2
  · split
    · exact .next (.upd (t := x2) h2)
    · refine .ite ?_ ?_
      · exact .next (.step State.fixedOff_changes h2)
      · exact .next (.step State.packageReset_changes (.step State.cutStores_changes h2))

theorem execPkgRstNRise_changes {s : State} :
    Ends [.aon, .seq] s (execPkgRstNRise s) := by
  unfold execPkgRstNRise
  exact .next (.step State.startFixed_changes (.upd (t := s) .refl))

theorem execOptionAreaRead_changes {s : State} :
    Ends [.boot, .cfg, .evr, .clk, .tiles, .heads] s (execOptionAreaRead s) := by
  unfold execOptionAreaRead
  refine .ite ?_ ?_
  · exact .next .refl
  · extract_lets +onlyGivenNames x1 x2 x3 x4 x5
    refine .via (x := x5) ?_ fun h5 => ?_
    · subst x5
      refine .forAll ?_ fun a6 x6 h6 => ?_
      · exact .refl
      · exact .step State.raise_changes h6
    clear_value x5
    extract_lets +onlyGivenNames x7
    refine .via (x := x7) ?_ fun h7 => ?_
    · subst x7
      refine .forAll ?_ fun a8 x8 h8 => ?_
      · exact h5
      · exact .modCfl h8
    clear_value x7
    exact .next (.upd (t := x7) h7)

theorem execFirmwareSlotChoice_changes {s : State} :
    Ends [.nv, .aon, .sys, .boot, .prm, .evr, .bbx, .pmc, .sec, .seq, .hld, .clk, .tiles, .heads, .fab, .mesh, .svc, .prmData] s (execFirmwareSlotChoice s) := by
  unfold execFirmwareSlotChoice
  refine .ite ?_ ?_
  · exact .next .refl
  · extract_lets +onlyGivenNames x1 x2 x3 x4
    refine .ite ?_ ?_
    · exact .next (.upd (t := s) .refl)
    · extract_lets +onlyGivenNames x5 x6
      refine .via (x := x6) ?_ fun h6 => ?_
      · subst x6
        exact .upd (t := s) .refl
      extract_lets +onlyGivenNames x7
      split
      · rename_i x8 e8
        refine .via (Changes.ofTriple e8 ?_) fun h8 => ?_
        · split
          · split
            · exact .snd (.step State.twinWrite_changes h6)
            · exact .snd (.step State.supplyRefused_changes h6)
          · split
            · extract_lets +onlyGivenNames x9
              refine .via (x := x9) ?_ fun h9 => ?_
              · subst x9
                refine .ite ?_ ?_
                · exact .step State.twinWrite_changes h6
                · exact .step State.supplyRefused_changes h6
              exact .snd (.step State.raise_changes h9)
            · exact .snd h6
        extract_lets +onlyGivenNames x10
        refine .ite ?_ ?_
        · exact .next (.step State.startFw_changes (.upd (t := x8) h8))
        · refine .ite ?_ ?_
          · extract_lets +onlyGivenNames x11
            refine .via (x := x11) ?_ fun h11 => ?_
            · subst x11
              exact .step State.raise_changes h8
            exact .next (.step State.startFw_changes (.upd (t := x11) h11))
          · extract_lets +onlyGivenNames x12 x13
            refine .via (x := x13) ?_ fun h13 => ?_
            · subst x13
              exact .upd (t := x8) h8
            exact .next (.step State.fail_changes (.step State.phase3_changes h13))

theorem execTileFirmwareVerify_changes {a0 : TileId} {s : State} :
    Ends [.nv, .sys, .evr, .tiles, .heads] s (execTileFirmwareVerify a0 s) := by
  unfold execTileFirmwareVerify
  extract_lets +onlyGivenNames x1
  refine .ite ?_ ?_
  · exact .next .refl
  · refine .ite ?_ ?_
    · exact .next (.step State.startFw_changes .refl)
    · refine .ite ?_ ?_
      · exact .next (.step State.supplyRefused_changes .refl)
      · extract_lets +onlyGivenNames x2 x3 x4
        refine .via (x := x4) ?_ fun h4 => ?_
        · subst x4
          exact .step State.raise_changes .refl
        exact .next (.step State.flashStart_changes h4)

theorem execTileFirmwareRewriteDone_changes {a0 : TileId} {s : State} :
    Ends [.nv, .sys, .tiles, .lsa] s (execTileFirmwareRewriteDone a0 s) := by
  unfold execTileFirmwareRewriteDone
  extract_lets +onlyGivenNames x1 x2
  split
  · refine .ite ?_ ?_
    · exact .next (.step State.startFw_changes (.step State.flashNext_changes (.step State.finishOp_changes .refl)))
    · exact .next .refl
  · exact .next .refl

theorem mailboxReady_end {s u : State} (h : Changes [.nv, .aon, .sys, .boot, .cfg, .prm, .evr, .bbx, .sec, .seq, .hld, .clk, .tiles, .heads, .prmData] s u) :
    Ends [.nv, .aon, .sys, .boot, .cfg, .prm, .evr, .bbx, .sec, .seq, .hld, .clk, .tiles, .heads, .prmData] s
      (if u.boot.holdReason = 1 then .next (u.configHold 1).confirmTrial
       else .next ({ u with boot := { u.boot with phase := 4 } }.setDev .mediaInit)) := by
  refine .ite (.next ?_) (.next ?_)
  · exact .step State.confirmTrial_changes (.step State.configHold_changes h)
  · exact .step State.setDev_changes (.upd (t := u) h)

theorem execMailboxReady_changes {s : State} :
    Ends [.nv, .aon, .sys, .boot, .cfg, .prm, .evr, .bbx, .sec, .seq, .hld, .clk, .tiles, .heads, .prmData] s (execMailboxReady s) := by
  unfold execMailboxReady
  exact .ite (.next .refl) (mailboxReady_end (.step State.phase3_changes .refl))

theorem execRailRampTimeout_changes {a0 : Fin 16} {s : State} :
    Ends [.fv, .nv, .media, .staged, .sys, .evr, .bbx, .pmc, .seq, .clk, .tiles, .heads, .loads, .nextReq, .fab, .mesh, .poison] s (execRailRampTimeout a0 s) := by
  unfold execRailRampTimeout
  extract_lets +onlyGivenNames x1
  refine .ite ?_ ?_
  · exact .next .refl
  · extract_lets +onlyGivenNames x2 x3
    refine .via (x := x3) ?_ fun h3 => ?_
    · subst x3
      exact .upd (t := s) .refl
    extract_lets +onlyGivenNames x4
    refine .via (x := x4) ?_ fun h4 => ?_
    · subst x4
      exact .step State.railRecord_changes (.step State.raise_changes h3)
    refine .ite ?_ ?_
    · refine .ite ?_ ?_
      · exact .next h4
      · exact .next (.step State.shutGroup_changes (.upd (t := x4) h4))
    · exact .next (.step State.holdGroupOff_changes h4)

theorem execRailRunningFault_changes {a0 : Fin 16} {s : State} :
    Ends [.fv, .nv, .media, .staged, .sys, .boot, .evr, .bbx, .pmc, .seq, .hld, .flush, .pwr, .clk, .tiles, .heads, .loads, .nextReq, .fab, .mesh, .svc, .poison] s (execRailRunningFault a0 s) := by
  unfold execRailRunningFault
  refine .ite ?_ ?_
  · exact .next .refl
  · refine .ite ?_ ?_
    · refine .next ?_
      extract_lets +onlyGivenNames x1
      refine .via (x := x1) ?_ fun h1 => ?_
      · subst x1
        exact .step State.fixedOff_changes .refl
      exact .upd (t := x1) h1
    · exact .next (.step State.railFault_changes .refl)

theorem execMediaRailLowerStep_changes {s : State} :
    Ends [.seq, .flush, .clk] s (execMediaRailLowerStep s) := by
  unfold execMediaRailLowerStep
  refine .ite ?_ ?_
  · exact .next .refl
  · extract_lets +onlyGivenNames x4 x5 x6 x7 x8
    refine .via (x := x8) ?_ fun h8 => ?_
    · subst x8
      exact .upd (t := s) .refl
    refine .next ?_
    refine .ite ?_ ?_
    · exact .step State.holdDown_changes h8
    · exact h8

theorem execBoardRstStretchEnd_changes {s : State} :
    Ends [.seq] s (execBoardRstStretchEnd s) := by
  unfold execBoardRstStretchEnd
  refine .ite ?_ ?_
  · exact .next (.upd (t := s) .refl)
  · exact .next .refl

theorem execDieTinitEnd_changes {a0 : TileId} {a1 : ChanId} {a2 : InitStatus} {s : State} :
    Ends [.fv, .nv, .sys, .boot, .cfg, .evr, .pmc, .seq, .clk, .tiles, .heads, .fab, .mesh, .poison, .prmData] s (execDieTinitEnd a0 a1 a2 s) := by
  unfold execDieTinitEnd
  refine .ite ?_ ?_
  · exact .next .refl
  · extract_lets +onlyGivenNames x1 x2
    refine .via (x := x2) ?_ fun h2 => ?_
    · subst x2
      exact .modCh (.step State.initChannel_changes .refl)
    clear_value x2
    refine .ite ?_ ?_
    · exact .next (.step State.judgeChannel_changes h2)
    · extract_lets +onlyGivenNames x3 x4
      refine .via (x := x4) ?_ fun h4 => ?_
      · subst x4
        refine .forAll ?_ fun a5 x5 h5 => ?_
        · exact h2
        · exact .step State.failDie_changes h5
      clear_value x4
      extract_lets +onlyGivenNames x6
      refine .ite ?_ ?_
      · extract_lets +onlyGivenNames x7 x8
        refine .via (x := x8) ?_ fun h8 => ?_
        · subst x8
          refine .upd (t := x4) ?_
          exact h4
        clear_value x8
        extract_lets +onlyGivenNames x9
        refine .next ?_
        refine .ite ?_ ?_
        · exact h8
        · exact .step State.clearCause_changes h8
      · exact .next h4

theorem State.putCopy_changes {s : State} {a1 : TileId} {a2 : Fin 2} {a3 : List Byte} :
    Changes [.nv, .tiles] s (State.putCopy s a1 a2 a3) := by
  unfold State.putCopy
  exact .step State.journalReuse_changes (.modNv .refl)

theorem State.adoptDies_changes {s : State} :
    Changes [.nv, .cfg, .evr, .tiles, .heads] s (State.adoptDies s) := by
  unfold State.adoptDies
  extract_lets +onlyGivenNames x1 x2 x3
  refine .via (x := x3) ?_ fun h3 => ?_
  · subst x3
    refine .forAll ?_ fun a4 x4 h4 => ?_
    · exact .refl
    · exact .step State.putCopy_changes (.step State.putCopy_changes h4)
  exact .step State.raise_changes (.upd (t := x3) h3)

theorem State.repairCopies_changes {s : State} :
    Changes [.nv, .evr, .tiles, .heads] s (State.repairCopies s) := by
  unfold State.repairCopies
  extract_lets +onlyGivenNames x1 x2 x3
  refine .via (x := x3) ?_ fun h3 => ?_
  · subst x3
    refine .forAll ?_ fun a4 x4 h4 => ?_
    · exact .refl
    · refine .ite ?_ ?_
      · extract_lets +onlyGivenNames x5
        refine .via (x := x5) ?_ fun h5 => ?_
        · subst x5
          exact .modCfl (.step State.putCopy_changes h4)
        exact .step State.raise_changes h5
      · exact h4
  extract_lets +onlyGivenNames x6
  refine .via (x := x6) ?_ fun h6 => ?_
  · subst x6
    refine .forAll ?_ fun a7 x7 h7 => ?_
    · exact h3
    · refine .forAll ?_ fun a8 x8 h8 => ?_
      · exact h7
      · refine .ite ?_ ?_
        · exact .modCfl (.step State.putCopy_changes h8)
        · exact h8
  exact .step State.cflRecords_changes h6

theorem execInterruptedEraseCompletion_changes {s : State} :
    Ends [.fv, .nv, .media, .staged, .sys, .boot, .cfg, .evr, .sec, .tiles, .heads, .svc, .poison, .prmData, .lsa] s (execInterruptedEraseCompletion s) := by
  unfold execInterruptedEraseCompletion
  refine .ite ?_ ?_
  · exact .next .refl
  · refine .ite ?_ ?_
    · exact .next (.step State.supplyRefused_changes .refl)
    · extract_lets +onlyGivenNames x1 x2
      refine .via (x := x2) ?_ fun h2 => ?_
      · subst x2
        refine .forAll ?_ fun a3 x3 h3 => ?_
        · exact .refl
        · exact .modD (.step State.loadPlacement_changes h3)
      extract_lets +onlyGivenNames x4
      refine .via (x := x4) ?_ fun h4 => ?_
      · subst x4
        refine .ite ?_ ?_
        · exact .step State.raise_changes (.step State.finishErase_changes h2)
        · exact h2
      extract_lets +onlyGivenNames x5
      refine .via (x := x5) ?_ fun h5 => ?_
      · subst x5
        refine .ite ?_ ?_
        · exact .step State.adoptDies_changes (.step State.discardData_changes (.step State.newScatter_changes h4))
        · exact h4
      extract_lets +onlyGivenNames x6
      refine .via (x := x6) ?_ fun h6 => ?_
      · subst x6
        exact .step State.repairCopies_changes h5
      exact .next (.upd (t := x6) h6)

theorem staticExtent_end {s u : State} (h : Changes [.boot, .tiles, .svc] s u) :
    Ends [.boot, .tiles, .svc] s (.next { u with boot := { u.boot with phase := 10 } }) := .next (.upd (t := u) h)

theorem noExtents_changes {s : State} : Changes [.boot, .tiles, .svc] s { s with svc := { s.svc with extents := [] } } :=
  .upd (t := s) .refl

theorem execStaticExtentCreate_changes {s : State} :
    Ends [.boot, .tiles, .svc] s (execStaticExtentCreate s) := by
  unfold execStaticExtentCreate
  refine .ite ?_ ?_
  · exact .next .refl
  · dsimp only
    refine staticExtent_end ?_
    split
    · exact .step State.resizeArea_changes noExtents_changes
    · exact .step State.addEntry_changes noExtents_changes

theorem State.replayTile_changes {s : State} {a1 : TileId} :
    Changes [.staged, .pmc, .tiles] s (State.replayTile s a1) := by
  unfold State.replayTile
  extract_lets +onlyGivenNames x1
  refine .via (x := x1) ?_ fun h1 => ?_
  · subst x1
    exact .step State.loadPlacement_changes .refl
  extract_lets +onlyGivenNames x2 x3 x4 x5 x6
  refine .via (x := x6) ?_ fun h6 => ?_
  · subst x6
    exact .modStaged h1
  extract_lets +onlyGivenNames x7
  refine .via (x := x7) ?_ fun h7 => ?_
  · subst x7
    exact .modD h6
  extract_lets +onlyGivenNames x8 x9 x10
  refine .via (x := x10) ?_ fun h10 => ?_
  · subst x10
    refine .forAll ?_ fun a11 x11 h11 => ?_
    · exact h7
    · exact .step State.dirInsert_changes h11
  extract_lets +onlyGivenNames x12
  exact .modD h10

theorem State.rescueStripe_changes {s : State} {a1 : TileId} {a2 : Fin 5} {a3 : List StripeEntry} :
    Changes [.fv, .media, .staged, .sys, .evr, .bbx, .pmc, .clk, .tiles, .heads, .loads, .nextReq, .fab, .mesh, .svc, .poison] s (State.rescueStripe s a1 a2 a3).2 := by
  unfold State.rescueStripe
  split
  · rename_i x1 e1
    refine .via (Changes.ofPair e1 ?_) fun h1 => ?_
    · exact .step State.pick_changes .refl
    extract_lets +onlyGivenNames x2 x3 x4
    refine .via (x := x4) ?_ fun h4 => ?_
    · subst x4
      exact .modD h1
    clear_value x4
    extract_lets +onlyGivenNames x5
    refine .via (x := x5) ?_ fun h5 => ?_
    · subst x5
      exact .step State.placeStripe_changes h4
    clear_value x5
    split
    · exact .snd (.step State.stripeVerified_changes h5)
    · exact .snd h5
  · rename_i x6 e6
    refine .via (Changes.ofPair e6 ?_) fun h6 => ?_
    · exact .step State.pick_changes .refl
    exact .snd h6

theorem State.poisonUnsaved_changes {s : State} {a1 : TileId} :
    Changes [.fv, .media, .staged, .sys, .evr, .bbx, .pmc, .clk, .tiles, .heads, .loads, .nextReq, .fab, .mesh, .svc, .poison] s (State.poisonUnsaved s a1) := by
  unfold State.poisonUnsaved
  extract_lets +onlyGivenNames x1 x2
  refine .via (x := x2) ?_ fun h2 => ?_
  · subst x2
    exact .modMedia .refl
  clear_value x2
  refine .forAll ?_ fun a3 x3 h3 => ?_
  · exact h2
  · extract_lets +onlyGivenNames x4
    refine .forAll ?_ fun a5 x5 h5 => ?_
    · exact h3
    · split
      · rename_i x6 e6
        refine .via (Changes.ofPair e6 ?_) fun h6 => ?_
        · exact .step State.rescueStripe_changes h5
        exact h6
      · rename_i x7 e7
        refine .via (Changes.ofPair e7 ?_) fun h7 => ?_
        · exact .step State.rescueStripe_changes h5
        extract_lets +onlyGivenNames x8
        refine .via (x := x8) ?_ fun h8 => ?_
        · subst x8
          exact .modMedia h7
        clear_value x8
        refine .upd (t := x8) ?_
        exact h8

theorem execReplayStart_changes {s : State} :
    Ends [.fv, .media, .staged, .sys, .boot, .evr, .bbx, .pmc, .clk, .tiles, .heads, .loads, .nextReq, .fab, .mesh, .svc, .poison] s (execReplayStart s) := by
  unfold execReplayStart
  refine .ite ?_ ?_
  · exact .next .refl
  · extract_lets +onlyGivenNames x1
    refine .via (x := x1) ?_ fun h1 => ?_
    · subst x1
      exact .step State.setDev_changes .refl
    clear_value x1
    extract_lets +onlyGivenNames x2 x3
    refine .via (x := x3) ?_ fun h3 => ?_
    · subst x3
      refine .upd (t := x1) ?_
      exact h1
    clear_value x3
    extract_lets +onlyGivenNames x4 x5
    refine .via (x := x5) ?_ fun h5 => ?_
    · subst x5
      refine .forAll ?_ fun a6 x6 h6 => ?_
      · exact h3
      · exact .step State.replayReads_changes (.step State.replayTile_changes h6)
    clear_value x5
    extract_lets +onlyGivenNames x7
    refine .via (x := x7) ?_ fun h7 => ?_
    · subst x7
      exact .step State.resizeArea_changes h5
    clear_value x7
    extract_lets +onlyGivenNames x8
    refine .via (x := x8) ?_ fun h8 => ?_
    · subst x8
      refine .forAll ?_ fun a9 x9 h9 => ?_
      · exact h7
      · refine .forAll ?_ fun a10 x10 h10 => ?_
        · exact h9
        · split
          · rename_i x11 e11
            refine .via (Changes.ofPair e11 ?_) fun h11 => ?_
            · exact .step State.draw_changes h10
            exact .step State.learnStamp_changes h11
    clear_value x8
    extract_lets +onlyGivenNames x12
    refine .next ?_
    refine .forAll ?_ fun a13 x13 h13 => ?_
    · refine .upd (t := x8) ?_
      exact h8
    · exact .step State.poisonUnsaved_changes h13

theorem execTileFatalReport_changes {a0 : TileId} {s : State} :
    Ends [.fv, .nv, .media, .staged, .aon, .sys, .boot, .cfg, .prm, .evr, .bbx, .pmc, .sec, .seq, .hld, .flush, .pwr, .clk, .thm, .tiles, .heads, .loads, .nextReq, .fab, .guest, .mesh, .svc, .poison, .prmData, .lsa, .tcm, .scratch] s (execTileFatalReport a0 s) := by
  unfold execTileFatalReport
  exact .next (.step State.internalFatal_changes .refl)

theorem State.rescueFlush_changes {s : State} {a1 : TileId} {a2 : List Nat} :
    Changes [.fv, .media, .staged, .sys, .evr, .bbx, .pmc, .clk, .tiles, .heads, .loads, .nextReq, .fab, .mesh, .svc, .poison] s (State.rescueFlush s a1 a2).2 := by
  unfold State.rescueFlush
  extract_lets +onlyGivenNames x1 x2
  refine .via (x := x2) ?_ fun h2 => ?_
  · subst x2
    exact .modD .refl
  clear_value x2
  refine .foldlPair h2 fun q a hq => ?_
  refine .foldlPair hq fun r g hr => ?_
  exact State.rescueStripe_changes.step hr

theorem execRescueFlushDone_changes {a0 : List Nat} {s : State} :
    Ends [.fv, .nv, .media, .staged, .sys, .boot, .evr, .bbx, .pmc, .hld, .flush, .pwr, .clk, .tiles, .heads, .loads, .nextReq, .fab, .mesh, .svc, .poison] s (execRescueFlushDone a0 s) := by
  unfold execRescueFlushDone
  split
  · exact .next .refl
  · refine .ite ?_ ?_
    · exact .next .refl
    · split
      · rename_i x1 e1
        refine .via (Changes.ofPair e1 ?_) fun h1 => ?_
        · exact .step State.rescueFlush_changes .refl
        extract_lets +onlyGivenNames x2
        refine .via (x := x2) ?_ fun h2 => ?_
        · subst x2
          exact .step State.rescueLost_changes h1
        extract_lets +onlyGivenNames x3 x4
        refine .via (x := x4) ?_ fun h4 => ?_
        · subst x4
          exact .upd (t := x2) h2
        extract_lets +onlyGivenNames x5
        refine .via (x := x5) ?_ fun h5 => ?_
        · subst x5
          exact .step State.addCause_changes h4
        refine .ite ?_ ?_
        · exact .next (.step State.startFlush_changes (.step State.leadLostRecord_changes h5))
        · exact .next h5

theorem State.sendPoison_changes {s : State} {a1 : TileId} {a2 : BitVec 2} {a3 : Nat} :
    Changes [.fv, .heads] s (State.sendPoison s a1 a2 a3) := by
  unfold State.sendPoison
  split
  · rename_i x1 e1
    refine .via (Changes.ofPair e1 ?_) fun h1 => ?_
    · exact .step State.draw_changes .refl
    exact .modHead (.step State.sendData_changes h1)

theorem execMemrd_changes {a0 : TileId} {a1 : BitVec 64} {s : State} :
    Ends [.fv, .sys, .evr, .pmc, .clk, .tiles, .heads, .loads, .nextReq, .fab, .mesh, .poison] s (execMemrd a0 a1 s) := by
  unfold execMemrd
  extract_lets +onlyGivenNames x1
  refine .via (x := x1) ?_ fun h1 => ?_
  · subst x1
    exact .step State.ungate_changes .refl
  clear_value x1
  split
  · exact .next h1
  · exact .next (.step State.sendPoison_changes (.step State.admitMiss_changes h1))
  · exact .next (.step State.sendPoison_changes (.step State.noteLocked_changes (.step State.count_changes h1)))
  · split
    · rename_i x2 e2
      refine .via (Changes.ofTriple e2 ?_) fun h2 => ?_
      · exact .step State.tagStep_changes (.step State.count_changes h1)
      extract_lets +onlyGivenNames x3 x4
      refine .via (x := x4) ?_ fun h4 => ?_
      · subst x4
        refine .upd (t := x2) ?_
        exact h2
      clear_value x4
      extract_lets +onlyGivenNames x5
      refine .via (x := x5) ?_ fun h5 => ?_
      · subst x5
        exact .step State.sendPoison_changes h4
      clear_value x5
      refine .next ?_
      refine .ite ?_ ?_
      · exact .step State.sample_changes h5
      · exact h5
  · split
    · rename_i x6 e6
      refine .via (Changes.ofTriple e6 ?_) fun h6 => ?_
      · exact .step State.tagStep_changes (.step State.count_changes h1)
      extract_lets +onlyGivenNames x7
      refine .ite ?_ ?_
      · exact .next (.step State.newLoad_changes h6)
      · extract_lets +onlyGivenNames x8
        refine .via (x := x8) ?_ fun h8 => ?_
        · subst x8
          exact .step State.sendPoison_changes h6
        clear_value x8
        refine .next ?_
        refine .ite ?_ ?_
        · exact .step State.sample_changes h8
        · exact h8

theorem execMemspecrd_changes {a0 : TileId} {a1 : BitVec 64} {s : State} :
    Ends [.fv, .sys, .evr, .pmc, .clk, .tiles, .heads, .loads, .nextReq, .fab, .mesh, .poison] s (execMemspecrd a0 a1 s) := by
  unfold execMemspecrd
  extract_lets +onlyGivenNames x1
  refine .via (x := x1) ?_ fun h1 => ?_
  · subst x1
    exact .step State.ungate_changes .refl
  split
  · exact .next h1
  · exact .next h1
  · exact .next (.step State.admitMiss_changes h1)
  · exact .next (.step State.noteLocked_changes h1)
  · split
    · rename_i x2 e2
      refine .via (Changes.ofTriple e2 ?_) fun h2 => ?_
      · exact .step State.tagStep_changes h1
      extract_lets +onlyGivenNames x3 x4
      refine .via (x := x4) ?_ fun h4 => ?_
      · subst x4
        refine .ite ?_ ?_
        · exact .step State.sample_changes h2
        · exact h2
      split
      · rename_i x5 e5
        refine .via (Changes.ofPair e5 ?_) fun h5 => ?_
        · exact .step State.pick_changes h4
        refine .ite ?_ ?_
        · exact .next (.step State.newLoad_changes h5)
        · exact .next h5

theorem execForbiddenMemMessage_changes {a0 : TileId} {s : State} :
    Ends [.heads] s (execForbiddenMemMessage a0 s) := by
  unfold execForbiddenMemMessage
  refine .ite ?_ ?_
  · exact .next .refl
  · exact .next (.modHead .refl)

theorem execStripeCloseTimer_changes {a0 : TileId} {a1 : Fin 5} {s : State} :
    Ends [.clk, .tiles] s (execStripeCloseTimer a0 a1 s) := by
  unfold execStripeCloseTimer
  exact .next (.step State.closeStripe_changes .refl)

theorem execPostedHoldRelease_changes {a0 : TileId} {s : State} :
    Ends [.fv, .sys, .evr, .pmc, .clk, .tiles, .heads, .loads, .nextReq, .fab, .mesh, .poison] s (execPostedHoldRelease a0 s) := by
  unfold execPostedHoldRelease
  refine .next ?_
  refine .forAll ?_ fun a1 x1 h1 => ?_
  · exact .refl
  · exact .step State.tryStore_changes h1

theorem execWayWaitRelease_changes {a0 : TileId} {s : State} :
    Ends [.fv, .sys, .evr, .pmc, .clk, .tiles, .heads, .loads, .nextReq, .fab, .mesh, .poison] s (execWayWaitRelease a0 s) := by
  unfold execWayWaitRelease
  refine .next ?_
  refine .forAll ?_ fun a1 x1 h1 => ?_
  · exact .refl
  · exact .step State.tryStore_changes h1

theorem execStoreAcknowledge_changes {a0 : TileId} {a1 : Nat} {s : State} :
    Ends [.fv, .sys, .evr, .pmc, .clk, .tiles, .heads, .loads, .nextReq, .fab, .mesh, .poison] s (execStoreAcknowledge a0 a1 s) := by
  unfold execStoreAcknowledge
  extract_lets +onlyGivenNames x1
  clear_value x1; split
  · exact .next .refl
  · refine .ite ?_ ?_
    · exact .next .refl
    · extract_lets +onlyGivenNames x2 x3
      refine .via (x := x3) ?_ fun h3 => ?_
      · subst x3
        exact .step State.storeAcked_changes .refl
      extract_lets +onlyGivenNames x4
      refine .via (x := x4) ?_ fun h4 => ?_
      · subst x4
        refine .ite ?_ ?_
        · exact .step State.sendCmp_changes h3
        · exact .modHead h3
      extract_lets +onlyGivenNames x5 x6 x7
      refine .via (x := x7) ?_ fun h7 => ?_
      · subst x7
        refine .ite ?_ ?_
        · exact .step State.sample_changes h4
        · exact h4
      exact .next (.step State.wakeLoads_changes h7)

theorem execLoadDeadlineExpiry_changes {a0 : TileId} {a1 : Nat} {a2 : Nat} {s : State} :
    Ends [.fv, .pmc, .heads, .loads] s (execLoadDeadlineExpiry a0 a1 a2 s) := by
  unfold execLoadDeadlineExpiry
  split
  · exact .next .refl
  · extract_lets +onlyGivenNames x1
    refine .via (x := x1) ?_ fun h1 => ?_
    · subst x1
      exact .step State.modLoad_changes .refl
    clear_value x1
    extract_lets +onlyGivenNames x2 x3
    refine .via (x := x3) ?_ fun h3 => ?_
    · subst x3
      refine .ite ?_ ?_
      · exact .step State.sendPoison_changes h1
      · exact h1
    clear_value x3
    extract_lets +onlyGivenNames x4
    refine .via (x := x4) ?_ fun h4 => ?_
    · subst x4
      exact .step State.count_changes (.modHead h3)
    clear_value x4
    refine .next ?_
    refine .ite ?_ ?_
    · exact .step State.sample_changes h4
    · exact h4

theorem execStagingStallTimeout_changes {a0 : TileId} {a1 : Fin 5} {s : State} :
    Ends [.sys, .evr, .pmc, .seq, .clk, .tiles, .heads, .fab, .mesh] s (execStagingStallTimeout a0 a1 s) := by
  unfold execStagingStallTimeout
  extract_lets +onlyGivenNames x1
  refine .via (x := x1) ?_ fun h1 => ?_
  · subst x1
    exact .modD .refl
  refine .ite ?_ ?_
  · refine .next ?_
    refine .ite ?_ ?_
    · exact h1
    · exact .step State.fail_changes .refl
  · exact .next h1

theorem execFoldReadDone_changes {a0 : TileId} {a1 : Nat} {a2 : Nat} {a3 : FoldNoise} {s : State} :
    Ends [.fv, .sys, .evr, .pmc, .seq, .clk, .tiles, .heads, .fab, .mesh, .poison] s (execFoldReadDone a0 a1 a2 a3 s) := by
  unfold execFoldReadDone
  split
  · exact .next .refl
  · refine .ite ?_ ?_
    · exact .next .refl
    · extract_lets +onlyGivenNames x1 x2
      split
      · rename_i x3 e3
        refine .via (Changes.ofPair e3 ?_) fun h3 => ?_
        · split
          · exact .snd .refl
          · exact .step State.pageRead_changes .refl
        split
        · rename_i x4 e4
          refine .via (Changes.ofPair e4 ?_) fun h4 => ?_
          · exact .foldlPair h3 fun q x hq => .step State.foldLine_changes hq
          extract_lets +onlyGivenNames x6 x7
          refine .via (x := x7) ?_ fun h7 => ?_
          · subst x7
            exact .step State.modFold_changes h4
          clear_value x7
          extract_lets +onlyGivenNames x8
          refine .next ?_
          refine .forAll ?_ fun a9 x9 h9 => ?_
          · exact h7
          · exact .step State.append_changes h9

theorem execFoldReadbackDone_changes {a0 : TileId} {a1 : Nat} {a2 : Nat} {a3 : Noise} {s : State} :
    Ends [.fv, .media, .staged, .sys, .evr, .pmc, .clk, .tiles, .heads, .loads, .nextReq, .fab, .mesh, .svc, .poison] s (execFoldReadbackDone a0 a1 a2 a3 s) := by
  unfold execFoldReadbackDone
  split
  · exact .next .refl
  · refine .ite ?_ ?_
    · exact .next .refl
    · extract_lets +onlyGivenNames x1 x2 x3 x4 x5
      refine .via (x := x5) ?_ fun h5 => ?_
      · subst x5
        exact .step State.noteReads_changes .refl
      clear_value x5
      refine .ite ?_ ?_
      · extract_lets +onlyGivenNames x6
        refine .via (x := x6) ?_ fun h6 => ?_
        · subst x6
          refine .ite ?_ ?_
          · exact h5
          · exact .step State.counted_changes h5
        clear_value x6
        extract_lets +onlyGivenNames x7
        refine .via (x := x7) ?_ fun h7 => ?_
        · subst x7
          exact .step State.modFold_changes (.step State.stampNow_changes h6)
        clear_value x7
        extract_lets +onlyGivenNames x8
        refine .via (x := x8) ?_ fun h8 => ?_
        · subst x8
          refine .ite ?_ ?_
          · exact .step State.placementRec_changes h7
          · exact h7
        clear_value x8
        refine .next ?_
        refine .ite ?_ ?_
        · exact .step State.foldRelease_changes h8
        · exact h8
      · exact .next (.step State.foldRepeat_changes h5)

theorem State.movePage_changes {s : State} {a1 : TileId} {a2 : Nat} {a3 : Nat} {a4 : Nat} {a5 : Nat} {a6 : PageNoise} :
    Changes [.fv, .sys, .evr, .pmc, .seq, .clk, .tiles, .heads, .fab, .mesh, .poison] s (State.movePage s a1 a2 a3 a4 a5 a6).2 := by
  unfold State.movePage
  extract_lets +onlyGivenNames x1 x2
  split
  · rename_i x3 e3
    refine .via (Changes.ofPair e3 ?_) fun h3 => ?_
    · exact .step State.pageRead_changes .refl
    exact .foldlPair h3 fun q x hq => .step State.uncorrectable_changes hq

theorem execGapMoveVerify_changes {a0 : TileId} {a1 : Nat} {a2 : PageNoise} {s : State} :
    Ends [.fv, .media, .staged, .sys, .evr, .pmc, .seq, .clk, .tiles, .heads, .fab, .mesh, .poison] s (execGapMoveVerify a0 a1 a2 s) := by
  unfold execGapMoveVerify
  extract_lets +onlyGivenNames x1
  split
  · exact .next .refl
  · refine .ite ?_ ?_
    · exact .next .refl
    · extract_lets +onlyGivenNames x2 x3
      split
      · extract_lets +onlyGivenNames x4 x5 x6
        refine .via (x := x6) ?_ fun h6 => ?_
        · subst x6
          exact .step State.count_changes (.step State.endContexts_changes .refl)
        clear_value x6
        refine .ite ?_ ?_
        · split
          · rename_i x7 e7
            refine .via (Changes.ofPair e7 ?_) fun h7 => ?_
            · exact .step State.movePage_changes h6
            extract_lets +onlyGivenNames x8
            refine .via (x := x8) ?_ fun h8 => ?_
            · subst x8
              exact .step State.putPage_changes h7
            clear_value x8
            extract_lets +onlyGivenNames x9
            refine .via (x := x9) ?_ fun h9 => ?_
            · subst x9
              exact .modIt h8
            clear_value x9
            exact .next (.step State.moveDone_changes (.step State.stampNow_changes h9))
        · extract_lets +onlyGivenNames x10
          refine .via (x := x10) ?_ fun h10 => ?_
          · subst x10
            exact .step State.remapSlot_changes (.step State.noteProgram_changes (.step State.cutPage_changes h6))
          clear_value x10
          extract_lets +onlyGivenNames x11
          refine .via (x := x11) ?_ fun h11 => ?_
          · subst x11
            exact .modPl h10
          clear_value x11
          exact .next (.step State.moveCopy_changes h11)

theorem execExtentReleaseComplete_changes {a0 : Nat} {s : State} :
    Ends [.media, .staged, .pmc, .clk, .tiles, .fab, .mesh, .svc, .poison] s (execExtentReleaseComplete a0 s) := by
  unfold execExtentReleaseComplete
  split
  · exact .next .refl
  · refine .ite ?_ ?_
    · exact .next .refl
    · extract_lets +onlyGivenNames x1 x2
      refine .via (x := x2) ?_ fun h2 => ?_
      · subst x2
        exact .step State.zeroPages_changes (.step State.clearRings_changes (.step State.discardRange_changes .refl))
      extract_lets +onlyGivenNames x3 x4
      refine .via (x := x4) ?_ fun h4 => ?_
      · subst x4
        refine .ite ?_ ?_
        · exact .refl
        · refine .upd (t := x2) ?_
          exact h2
      refine .ite ?_ ?_
      · exact .next h4
      · extract_lets +onlyGivenNames x5 x6
        refine .via (x := x6) ?_ fun h6 => ?_
        · subst x6
          refine .upd (t := x4) ?_
          exact h4
        extract_lets +onlyGivenNames x7
        refine .via (x := x7) ?_ fun h7 => ?_
        · subst x7
          exact .step State.resizeArea_changes h6
        extract_lets +onlyGivenNames x8
        refine .via (x := x8) ?_ fun h8 => ?_
        · subst x8
          refine .ite ?_ ?_
          · split
            · rename_i x9 e9
              refine .via (Changes.ofPair e9 ?_) fun h9 => ?_
              · exact .step State.meshTag_changes h7
              exact .step State.meshSend_changes h9
          · exact h7
        clear_value x8
        extract_lets +onlyGivenNames x10
        refine .via (x := x10) ?_ fun h10 => ?_
        · subst x10
          refine .forAll ?_ fun a11 x11 h11 => ?_
          · exact h8
          · exact .step State.meshReply_changes h11
        clear_value x10
        refine .next ?_
        refine .upd (t := x10) ?_
        exact h10

theorem execAgeSweepStep_changes {a0 : TileId} {a1 : Nat} {s : State} :
    Ends [.tiles] s (execAgeSweepStep a0 a1 s) := by
  unfold execAgeSweepStep
  refine .ite ?_ ?_
  · exact .next .refl
  · refine .next ?_
    refine .modD ?_ (hf := by intros; rfl)
    exact .refl

theorem execQueueRoomFreed_changes {a0 : TileId} {s : State} :
    Ends [.tiles] s (execQueueRoomFreed a0 s) := by
  unfold execQueueRoomFreed
  exact .next (.modEng .refl)

theorem execGaitEnd_changes {a0 : TileId} {a1 : Fin 64} {a2 : Fin 4} {s : State} :
    Ends [.pmc, .tiles] s (execGaitEnd a0 a1 a2 s) := by
  unfold execGaitEnd
  split
  · exact .next .refl
  · extract_lets +onlyGivenNames x1
    exact .next (.step State.count_changes (.step State.endProgram_changes .refl))

theorem State.dieReading_changes {s : State} {a1 : TileId} {a2 : ChanId} {a3 : Fin 9} {a4 : BitVec 16} :
    Changes [.tiles] s (State.dieReading s a1 a2 a3 a4) := by
  unfold State.dieReading
  refine .ite ?_ ?_
  · exact .modEng (.modDie .refl)
  · exact .modEng (.modDie .refl)

theorem State.readOut_changes {s : State} {a1 : TileId} {a2 : Context} {a3 : Fin 9} {a4 : BitVec 16} {a5 : List Nat} {a6 : List Nat} :
    Changes [.fv, .sys, .evr, .pmc, .seq, .clk, .tiles, .heads, .fab, .mesh, .poison] s (State.readOut s a1 a2 a3 a4 a5 a6) := by
  unfold State.readOut
  extract_lets +onlyGivenNames x1 x2 x3 x4 x5
  refine .via (x := x5) ?_ fun h5 => ?_
  · subst x5
    exact .step State.issue_changes .refl
  clear_value x5
  extract_lets +onlyGivenNames x6
  refine .via (x := x6) ?_ fun h6 => ?_
  · subst x6
    refine .ite ?_ ?_
    · exact .step State.burst_changes h5
    · exact h5
  clear_value x6
  refine .ite ?_ ?_
  · extract_lets +onlyGivenNames x7
    refine .via (x := x7) ?_ fun h7 => ?_
    · subst x7
      exact .step State.putCtx_changes h6
    clear_value x7
    refine .ite ?_ ?_
    · exact .step State.dieReading_changes h7
    · exact .step State.paramUnit_changes h7
  · extract_lets +onlyGivenNames x8
    refine .via (x := x8) ?_ fun h8 => ?_
    · subst x8
      exact .step State.noteBurst_changes h6
    clear_value x8
    refine .ite ?_ ?_
    · extract_lets +onlyGivenNames x9
      refine .via (x := x9) ?_ fun h9 => ?_
      · subst x9
        exact .step State.noteCrc_changes (.step State.endCtx_changes h8)
      clear_value x9
      refine .ite ?_ ?_
      · exact .step State.paramUnit_changes h9
      · exact h9
    · exact .step State.putCtx_changes h8

theorem execGaitIssue_changes {a0 : TileId} {a1 : Fin 64} {a2 : Fin 4} {a3 : IssueLine} {s : State} :
    Ends [.fv, .sys, .evr, .pmc, .seq, .clk, .tiles, .heads, .fab, .mesh, .poison] s (execGaitIssue a0 a1 a2 a3 s) := by
  unfold execGaitIssue
  split
  · exact .next .refl
  · extract_lets +onlyGivenNames x1 x2 x3 x4 x5 x6
    refine .ite ?_ ?_
    · exact .next .refl
    · refine .ite ?_ ?_
      · exact .next (.step State.putCtx_changes .refl)
      · subst x3; split
        · extract_lets +onlyGivenNames x7 x8 x9
          refine .next ?_
          refine .forAll ?_ fun a10 x10 h10 => ?_
          · exact .step State.putCtx_changes .refl
          · exact .step State.issue_changes h10
        · exact .next (.step State.readOut_changes (.step State.setCtx_changes .refl))
        · exact .next (.step State.readOut_changes (.step State.setCtx_changes .refl))
        · extract_lets +onlyGivenNames x11 x12
          refine .via (x := x12) ?_ fun h12 => ?_
          · subst x12
            exact .step State.putCtx_changes .refl
          clear_value x12
          extract_lets +onlyGivenNames x13
          refine .via (x := x13) ?_ fun h13 => ?_
          · subst x13
            refine .ite ?_ ?_
            · exact .step State.programStarts_changes h12
            · exact h12
          clear_value x13
          refine .next ?_
          refine .forAll ?_ fun a14 x14 h14 => ?_
          · exact h13
          · exact .step State.issue_changes h14

theorem execGaitWait_changes {a0 : TileId} {a1 : Fin 64} {a2 : Fin 4} {s : State} :
    Ends [.pmc, .tiles] s (execGaitWait a0 a1 a2 s) := by
  unfold execGaitWait
  split
  · exact .next .refl
  · exact .next (.step State.putCtx_changes .refl)

theorem execGaitWaitExpiry_changes {a0 : TileId} {a1 : Fin 64} {a2 : Fin 4} {s : State} :
    Ends [.pmc, .tiles] s (execGaitWaitExpiry a0 a1 a2 s) := by
  unfold execGaitWaitExpiry
  split
  · exact .next .refl
  · refine .ite ?_ ?_
    · exact .next (.step State.pulsesEnd_changes (.step State.putCtx_changes .refl))
    · exact .next .refl

theorem State.fetchEach_changes {s : State} {a1 : TileId} {a2 : Context} {a3 : List Nat} :
    Changes [.fv, .pmc, .tiles] s (State.fetchEach s a1 a2 a3) := by
  unfold State.fetchEach
  exact .foldlPair .refl fun q x hq => .step State.fetchFrom_changes hq

theorem execGaitFetch_changes {a0 : TileId} {a1 : Fin 64} {a2 : Fin 4} {s : State} :
    Ends [.fv, .pmc, .tiles] s (execGaitFetch a0 a1 a2 s) := by
  unfold execGaitFetch
  split
  · exact .next .refl
  · refine .ite ?_ ?_
    · exact .next .refl
    · extract_lets +onlyGivenNames x1 x2 x3
      refine .via (x := x3) ?_ fun h3 => ?_
      · subst x3
        exact .step State.fetchEach_changes (.step State.pulsesEnd_changes (.step State.putCtx_changes .refl))
      clear_value x3
      refine .next ?_
      refine .ite ?_ ?_
      · refine .forAll ?_ fun a4 x4 h4 => ?_
        · exact h3
        · exact .step State.resume_changes h4
      · exact h3

theorem execGaitJump_changes {a0 : TileId} {a1 : Fin 64} {a2 : Fin 4} {s : State} :
    Ends [.pmc, .tiles] s (execGaitJump a0 a1 a2 s) := by
  unfold execGaitJump
  split
  · exact .next .refl
  · exact .next (.step State.putCtx_changes .refl)

theorem execYalertAssert_changes {a0 : TileId} {a1 : YAlert} {s : State} :
    Ends [.media, .staged, .clk, .tiles] s (execYalertAssert a0 a1 s) := by
  unfold execYalertAssert
  extract_lets +onlyGivenNames x1 x2
  refine .via (x := x2) ?_ fun h2 => ?_
  · subst x2
    split
    · exact .step State.abandon_changes .refl
    · exact .refl
  clear_value x2
  refine .ite ?_ ?_
  · exact .next h2
  · refine .next ?_
    refine .forAll ?_ fun a2 x3 h3 => ?_
    · exact h2
    · exact .step State.enqueue_changes h3

theorem execSramScrubVisit_changes {a0 : TileId} {a1 : SramVisit} {s : State} :
    Ends [.fv, .nv, .media, .staged, .aon, .sys, .boot, .cfg, .prm, .evr, .bbx, .pmc, .sec, .seq, .hld, .flush, .pwr, .clk, .thm, .tiles, .heads, .loads, .nextReq, .fab, .guest, .mesh, .svc, .poison, .prmData, .lsa, .tcm, .scratch] s (execSramScrubVisit a0 a1 s) := by
  unfold execSramScrubVisit
  extract_lets +onlyGivenNames x1 x2 x3
  refine .ite ?_ ?_
  · exact .next .refl
  · extract_lets +onlyGivenNames x4
    refine .via (x := x4) ?_ fun h4 => ?_
    · subst x4
      refine .ite ?_ ?_
      · exact .refl
      · exact .modIt .refl
    clear_value x4
    exact .next (.step State.sramVisit_changes h4)

theorem State.spareReads_changes {s : State} {a1 : TileId} {a2 : ChanId} :
    Changes [.clk, .tiles] s (State.spareReads s a1 a2) := by
  unfold State.spareReads
  extract_lets +onlyGivenNames x1
  refine .ite ?_ ?_
  · exact .refl
  · extract_lets +onlyGivenNames x2
    refine .via (x := x2) ?_ fun h2 => ?_
    · subst x2
      exact .modCh .refl
    clear_value x2
    refine .forAll ?_ fun a3 x3 h3 => ?_
    · exact h2
    · exact .step State.enqueue_changes h3

theorem State.passDone_changes {s : State} {a1 : TileId} {a2 : Nat} :
    Changes [.evr, .clk, .tiles, .heads] s (State.passDone s a1 a2) := by
  unfold State.passDone
  extract_lets +onlyGivenNames x1 x2 x3
  refine .via (x := x3) ?_ fun h3 => ?_
  · subst x3
    exact .modIt .refl
  clear_value x3
  refine .ite ?_ ?_
  · extract_lets +onlyGivenNames x4
    refine .via (x := x4) ?_ fun h4 => ?_
    · subst x4
      exact .modIt h3
    clear_value x4
    extract_lets +onlyGivenNames x5
    refine .via (x := x5) ?_ fun h5 => ?_
    · subst x5
      exact .step State.raise_changes h4
    clear_value x5
    refine .forAll ?_ fun a6 x6 h6 => ?_
    · exact h5
    · exact .step State.spareReads_changes h6
  · exact h3

theorem execPatrolVisitStart_changes {a0 : TileId} {a1 : Nat} {s : State} :
    Ends [.evr, .pmc, .clk, .tiles, .heads] s (execPatrolVisitStart a0 a1 s) := by
  unfold execPatrolVisitStart
  extract_lets +onlyGivenNames x1 x2
  refine .ite ?_ ?_
  · exact .next .refl
  · extract_lets +onlyGivenNames x3
    refine .via (x := x3) ?_ fun h3 => ?_
    · subst x3
      exact .step State.checkLate_changes .refl
    clear_value x3
    refine .ite ?_ ?_
    · exact .next (.step State.count_changes (.modIt h3))
    · split
      · exact .next (.step State.passDone_changes (.modIt h3))
      · extract_lets +onlyGivenNames x4
        refine .via (x := x4) ?_ fun h4 => ?_
        · subst x4
          exact .modIt h3
        clear_value x4
        extract_lets +onlyGivenNames x5
        refine .ite ?_ ?_
        · extract_lets +onlyGivenNames x6
          refine .next ?_
          refine .forAll ?_ fun a7 x7 h7 => ?_
          · exact h4
          · exact .step State.enqueue_changes h7
        · extract_lets +onlyGivenNames x8
          refine .next ?_
          refine .forAll ?_ fun a9 x9 h9 => ?_
          · exact h4
          · extract_lets +onlyGivenNames x10 x11
            refine .ite ?_ ?_
            · exact .step State.enqueue_changes h9
            · exact h9

theorem execPatrolVisitDone_changes {a0 : TileId} {a1 : Nat} {a2 : VisitNoise} {s : State} :
    Ends [.fv, .sys, .evr, .pmc, .seq, .clk, .tiles, .heads, .loads, .nextReq, .fab, .mesh, .poison] s (execPatrolVisitDone a0 a1 a2 s) := by
  unfold execPatrolVisitDone
  split
  · exact .next .refl
  · refine .ite ?_ ?_
    · exact .next .refl
    · extract_lets +onlyGivenNames x1
      refine .via (x := x1) ?_ fun h1 => ?_
      · subst x1
        exact .step State.count_changes (.modIt .refl)
      clear_value x1
      extract_lets +onlyGivenNames x2 x3 x4 x5 x6
      refine .via (x := x6) ?_ fun h6 => ?_
      · subst x6
        refine .ite ?_ ?_
        · exact .step State.segmentVisited_changes h1
        · split
          · rename_i x7 e7
            refine .via (Changes.ofPair e7 ?_) fun h7 => ?_
            · exact .step State.pageRead_changes h1
            refine .ite ?_ ?_
            · exact .step State.pageVisited_changes h7
            · exact h7
      clear_value x6
      extract_lets +onlyGivenNames x8
      refine .via (x := x8) ?_ fun h8 => ?_
      · subst x8
        exact .step State.checkLate_changes h6
      clear_value x8
      split
      · exact .next h8
      · exact .next (.step State.passDone_changes (.modIt h8))

theorem execHeadLinkDown_changes {a0 : TileId} {s : State} :
    Ends [.sys, .evr, .heads] s (execHeadLinkDown a0 s) := by
  unfold execHeadLinkDown
  refine .ite ?_ ?_
  · exact .next .refl
  · exact .next (.step State.linkDown_changes .refl)

theorem execHeadTrainRetry_changes {a0 : TileId} {s : State} :
    Ends [.sys, .evr, .heads] s (execHeadTrainRetry a0 s) := by
  unfold execHeadTrainRetry
  exact .next (.step State.headDown_changes .refl)

theorem execHeadRefclkLoss_changes {a0 : TileId} {s : State} :
    Ends [.sys, .evr, .clk, .heads] s (execHeadRefclkLoss a0 s) := by
  unfold execHeadRefclkLoss
  extract_lets +onlyGivenNames x1 x2
  refine .via (x := x2) ?_ fun h2 => ?_
  · subst x2
    exact .upd (t := s) .refl
  refine .ite ?_ ?_
  · exact .next h2
  · exact .next (.step State.linkDown_changes h2)

theorem Head.barWrite_logs {x : Head} {p : HostSpace} {o : Nat} {v : BitVec 32} : (x.barWrite p o v).logs = x.logs := by
  unfold Head.barWrite
  dsimp only
  split
  · rfl
  · split
    · rfl
    · split <;> rfl
  · split <;> rfl

theorem execConfigRequest_changes {a0 : TileId} {a1 : Bool} {a2 : HostAddr} {a3 : BitVec 32} {s : State} :
    Ends [.fv, .heads] s (execConfigRequest a0 a1 a2 a3 s) := by
  unfold execConfigRequest
  dsimp only
  refine .ite (.next .refl) (.ite (.next .refl) (.ite (.next (.modHead .refl)) (.ite ?_ ?_)))
  · refine .next (.modHead .refl (hf := fun x => ?_))
    split
    · rfl
    · exact Head.barWrite_logs
  · split
    all_goals exact .next (.modHead (.step State.readKnown_changes .refl))

end Sys2Proof.Machine
end

