-- ==== Sys2Proof/Laws/Changes10.lean ====
section
/-! SUPPORT. Part 10 of the lemmas, one for each operation and each command's meaning, that say which groups of the state it can
change and that it keeps the canonical memories and the bounds. -/

namespace Sys2Proof.Machine

set_option Elab.async false

theorem execGpfPhase1_changes {a0 : TileId} {s : State} :
    Ends [] s (execGpfPhase1 a0 s) := by
  unfold execGpfPhase1
  exact .next .refl

theorem execIdeIntegrityFailure_changes {a0 : TileId} {a1 : Bool} {s : State} :
    Ends [.heads] s (execIdeIntegrityFailure a0 a1 s) := by
  unfold execIdeIntegrityFailure
  extract_lets +onlyGivenNames x1
  refine .ite ?_ ?_
  · exact .next .refl
  · exact .next (.modHead .refl)

theorem execCxlIdeKm_changes {a0 : TileId} {a1 : Bool} {a2 : Bool} {s : State} :
    Ends [.heads] s (execCxlIdeKm a0 a1 a2 s) := by
  unfold execCxlIdeKm
  refine .ite ?_ ?_
  · exact .next .refl
  · exact .next (.modHead .refl)

theorem execDoeDiscovery_changes {a0 : TileId} {a1 : BitVec 8} {s : State} :
    Ends [.heads] s (execDoeDiscovery a0 a1 s) := by
  unfold execDoeDiscovery
  refine .ite ?_ ?_
  · exact .next .refl
  · split
    · exact .next (.modHead .refl)

theorem execConventionalReset_changes {a0 : TileId} {s : State} :
    Ends [.sys, .evr, .heads] s (execConventionalReset a0 s) := by
  unfold execConventionalReset
  refine .ite ?_ ?_
  · exact .next .refl
  · exact .next (.step State.linkDown_changes .refl)

theorem execFunctionLevelReset_changes {a0 : TileId} {s : State} :
    Ends [.heads] s (execFunctionLevelReset a0 s) := by
  unfold execFunctionLevelReset
  refine .ite ?_ ?_
  · exact .next .refl
  · refine .next ?_
    refine .modHead ?_ (hf := by intros; rfl)
    exact .refl

theorem execIdentify_changes {a0 : Iface} {s : State} :
    Ends [.heads, .svc] s (execIdentify a0 s) := by
  unfold execIdentify
  refine .command fun a1 => ?_
  extract_lets +onlyGivenNames x2 x3 x4
  exact .step State.reply_changes .refl

theorem execSetResponseMessageLimit_changes {a0 : Iface} {s : State} :
    Ends [.heads, .svc] s (execSetResponseMessageLimit a0 s) := by
  unfold execSetResponseMessageLimit
  refine .command fun a1 => ?_
  extract_lets +onlyGivenNames x2
  refine .ite ?_ ?_
  · exact .step State.mbFinish_changes .refl
  · extract_lets +onlyGivenNames x3
    exact .step State.mbFinish_changes (.step State.modMb_changes .refl)

theorem execRequestAbortBackgroundOperation_changes {a0 : Iface} {s : State} :
    Ends [.heads, .svc] s (execRequestAbortBackgroundOperation a0 s) := by
  unfold execRequestAbortBackgroundOperation
  refine .command fun a1 => ?_
  split
  · exact .step State.mbFinish_changes .refl
  · refine .ite ?_ ?_
    · refine .step State.mbFinish_changes ?_
      refine .upd (t := s) ?_
      exact .refl
    · exact .step State.mbFinish_changes .refl

theorem State.logTrim_changes {s : State} {h : TileId} {k : Fin 5} {n : Nat} {rs : List LogRec}
    (hr : rs = s.heads[h].logs[k].recs.drop n ∨ rs = []) :
    Changes [.heads] s (s.modHead h fun x => { x with logs := x.logs.set k { x.logs[k] with
      recs := rs, overflow := 0, firstOver := 0, lastOver := 0 } }) := by
  refine .setHead .refl fun hx => hx.push ?_
  rcases hr with rfl | rfl
  · simp only [List.length_drop]
    exact Nat.le_trans (Nat.sub_le _ _) (hx k)
  · exact Nat.zero_le _

theorem execClearEventRecords_changes {a0 : Iface} {s : State} :
    Ends [.heads, .svc] s (execClearEventRecords a0 s) := by
  unfold execClearEventRecords
  refine .command fun a1 => ?_
  dsimp only
  refine .ite ?_ (.ite (.ite ?_ ?_) (.ite ?_ ?_))
  · exact .step State.mbFinish_changes .refl
  · exact .step State.mbFinish_changes .refl
  · exact .step State.mbFinish_changes (.step (State.logTrim_changes (n := 0) (.inr rfl)) .refl)
  · exact .step State.mbFinish_changes .refl
  · exact .step State.mbFinish_changes (.step (State.logTrim_changes (.inl rfl)) .refl)

theorem execSetEventInterruptPolicy_changes {a0 : Iface} {s : State} :
    Ends [.heads, .svc] s (execSetEventInterruptPolicy a0 s) := by
  unfold execSetEventInterruptPolicy
  refine .command fun a1 => ?_
  refine .ite ?_ ?_
  · exact .step State.mbFinish_changes .refl
  · exact .step State.mbFinish_changes (.modHead' .refl fun x h k => by simpa [vmap] using h k)

theorem execGetMctpEventInterruptPolicy_changes {a0 : Iface} {s : State} :
    Ends [.heads, .svc] s (execGetMctpEventInterruptPolicy a0 s) := by
  unfold execGetMctpEventInterruptPolicy
  refine .ite ?_ ?_
  · exact .next .refl
  · refine .command fun a1 => ?_
    exact .step State.reply_changes .refl

theorem execSetMctpEventInterruptPolicy_changes {a0 : Iface} {s : State} :
    Ends [.heads, .svc] s (execSetMctpEventInterruptPolicy a0 s) := by
  unfold execSetMctpEventInterruptPolicy
  refine .ite ?_ ?_
  · exact .next .refl
  · refine .command fun a1 => ?_
    refine .step State.mbFinish_changes ?_
    refine .upd (t := s) ?_
    exact .refl

theorem execActivateFw_changes {a0 : Iface} {s : State} :
    Ends [.sys, .prm, .evr, .tiles, .heads, .svc] s (execActivateFw a0 s) := by
  unfold execActivateFw
  refine .command fun a1 => ?_
  extract_lets +onlyGivenNames x2
  refine .ite ?_ ?_
  · exact .step State.mbFinish_changes .refl
  · refine .ite ?_ ?_
    · exact .step State.mbFinish_changes .refl
    · refine .ite ?_ ?_
      · exact .step State.mbFinish_changes .refl
      · split
        · exact .step State.mbFinish_changes .refl
        · split
          · extract_lets +onlyGivenNames x3
            exact .step State.mbFinish_changes (.step State.raise_changes .refl)
          · refine .ite ?_ ?_
            · exact .step State.mbFinish_changes (.step State.supplyRefused_changes .refl)
            · extract_lets +onlyGivenNames x4
              refine .via (x := x4) ?_ fun h4 => ?_
              · subst x4
                exact .step State.twinEnqueue_changes .refl
              clear_value x4
              refine .upd (t := x4) ?_
              exact h4

theorem execGetSupportedFeatures_changes {a0 : Iface} {s : State} :
    Ends [.heads, .svc] s (execGetSupportedFeatures a0 s) := by
  unfold execGetSupportedFeatures
  refine .command fun a1 => ?_
  exact .step State.reply_changes .refl

theorem execIdentifyMemoryDevice_changes {a0 : Iface} {s : State} :
    Ends [.fv, .heads, .svc] s (execIdentifyMemoryDevice a0 s) := by
  unfold execIdentifyMemoryDevice
  refine .command fun a1 => ?_
  split
  · rename_i x2 e2
    refine .via (Changes.ofPair e2 ?_) fun h2 => ?_
    · exact .step State.draw_changes .refl
    exact .step State.reply_changes h2

theorem execSetLsa_changes {a0 : Iface} {s : State} :
    Ends [.nv, .sys, .tiles, .heads, .svc] s (execSetLsa a0 s) := by
  unfold execSetLsa
  refine .command fun a1 => ?_
  extract_lets +onlyGivenNames x2 x3 x4 x5
  refine .ite ?_ ?_
  · exact .step State.mbFinish_changes .refl
  · refine .ite ?_ ?_
    · exact .step State.mbFinish_changes (.step State.supplyRefused_changes .refl)
    · extract_lets +onlyGivenNames x6
      refine .via (x := x6) ?_ fun h6 => ?_
      · subst x6
        refine .forAll ?_ fun a7 x7 h7 => ?_
        · exact .refl
        · exact .step State.flashStart_changes h7
      clear_value x6
      refine .upd (t := x6) ?_
      exact h6

theorem execGetHealthInfo_changes {a0 : Iface} {s : State} :
    Ends [.fv, .heads, .svc] s (execGetHealthInfo a0 s) := by
  unfold execGetHealthInfo
  refine .command fun a1 => ?_
  split
  · rename_i x2 e2
    refine .via (Changes.ofPair e2 ?_) fun h2 => ?_
    · exact .step State.draw_changes .refl
    extract_lets +onlyGivenNames x3 x4
    exact .step State.reply_changes h2

theorem execSetAlertConfiguration_changes {a0 : Iface} {s : State} :
    Ends [.heads, .svc] s (execSetAlertConfiguration a0 s) := by
  unfold execSetAlertConfiguration
  refine .command fun a1 => ?_
  extract_lets +onlyGivenNames x2 x3 x4
  exact .step State.mbFinish_changes (.modHead .refl)

theorem execScanMedia_changes {a0 : Iface} {s : State} :
    Ends [.heads, .svc, .poison] s (execScanMedia a0 s) := by
  unfold execScanMedia
  refine .command fun a1 => ?_
  refine .ite ?_ ?_
  · exact .step State.mbFinish_changes .refl
  · refine .ite ?_ ?_
    · exact .step State.mbFinish_changes .refl
    · exact .step State.startBackground_changes (.upd (t := s) .refl)

theorem execUnlock_changes {a0 : Iface} {s : State} :
    Ends [.evr, .sec, .heads, .svc] s (execUnlock a0 s) := by
  unfold execUnlock
  refine .command fun a1 => ?_
  refine .withPw ?_ fun x2 h2 => ?_
  · exact .refl
  · extract_lets +onlyGivenNames x3 x4
    refine .via (x := x4) ?_ fun h4 => ?_
    · subst x4
      refine .upd (t := x2) ?_
      exact h2
    clear_value x4
    exact .step State.mbFinish_changes (.step State.raise_changes h4)

theorem execFreezeSecurityState_changes {a0 : Iface} {s : State} :
    Ends [.sec, .heads, .svc] s (execFreezeSecurityState a0 s) := by
  unfold execFreezeSecurityState
  refine .command fun a1 => ?_
  refine .step State.mbFinish_changes ?_
  refine .upd (t := s) ?_
  exact .refl

theorem State.answerOffer_changes {s : State} {a1 : Offer} {a2 : List (Nat × Nat)} {a3 : Bool} :
    Changes [.svc] s (State.answerOffer s a1 a2 a3) := by
  unfold State.answerOffer
  extract_lets +onlyGivenNames x1 x2
  exact .upd (t := s) .refl

theorem execAddDynamicCapacityResponse_changes {a0 : Iface} {s : State} :
    Ends [.pmc, .clk, .tiles, .heads, .fab, .mesh, .svc] s (execAddDynamicCapacityResponse a0 s) := by
  unfold execAddDynamicCapacityResponse
  refine .command fun a1 => ?_
  extract_lets +onlyGivenNames x2 x3 x4
  split
  · exact .step State.mbFinish_changes .refl
  · refine .ite ?_ ?_
    · exact .step State.mbFinish_changes .refl
    · extract_lets +onlyGivenNames x5
      refine .via (x := x5) ?_ fun h5 => ?_
      · subst x5
        exact .step State.answerOffer_changes .refl
      clear_value x5
      extract_lets +onlyGivenNames x6
      refine .via (x := x6) ?_ fun h6 => ?_
      · subst x6
        refine .forAll ?_ fun a7 x7 h7 => ?_
        · exact h5
        · exact .step State.acceptExtent_changes h7
      clear_value x6
      exact .step State.addProceed_changes (.upd (t := x6) h6)

theorem execGetHostDcRegionConfiguration_changes {a0 : Iface} {s : State} :
    Ends [.heads, .svc] s (execGetHostDcRegionConfiguration a0 s) := by
  unfold execGetHostDcRegionConfiguration
  refine .command fun a1 => ?_
  extract_lets +onlyGivenNames x2 x3 x4
  split
  · exact .step State.mbFinish_changes .refl
  · exact .step State.reply_changes .refl

theorem execSetDcRegionConfiguration_changes {a0 : Iface} {s : State} :
    Ends [.nv, .sys, .cfg, .tiles, .heads, .svc] s (execSetDcRegionConfiguration a0 s) := by
  unfold execSetDcRegionConfiguration
  refine .ite ?_ ?_
  · exact .next .refl
  · refine .command fun a1 => ?_
    extract_lets +onlyGivenNames x2 x3 x4 x5 x6 x7
    refine .ite ?_ ?_
    · exact .step State.mbFinish_changes .refl
    · clear_value x5; split
      · exact .step State.mbFinish_changes .refl
      · refine .ite ?_ ?_
        · exact .step State.mbFinish_changes .refl
        · refine .ite ?_ ?_
          · exact .step State.mbFinish_changes .refl
          · refine .dcrChange ?_ fun x8 h8 => ?_
            · exact .refl
            · unfold id
              exact h8

theorem execGetDcRegionExtentLists_changes {a0 : Iface} {s : State} :
    Ends [.heads, .svc] s (execGetDcRegionExtentLists a0 s) := by
  unfold execGetDcRegionExtentLists
  refine .command fun a1 => ?_
  split
  · exact .step State.mbFinish_changes .refl
  · extract_lets +onlyGivenNames x2 x3
    exact .step State.reply_changes .refl

theorem execGetTileStatus_changes {a0 : Iface} {s : State} :
    Ends [.heads, .svc] s (execGetTileStatus a0 s) := by
  unfold execGetTileStatus
  refine .command fun a1 => ?_
  exact .step State.reply_changes .refl

theorem execCommitCopyReadback_changes {a0 : TileId} {a1 : Bool} {a2 : Bool} {s : State} :
    Ends [.nv, .sys, .boot, .cfg, .evr, .tiles, .heads, .svc] s (execCommitCopyReadback a0 a1 a2 s) := by
  unfold execCommitCopyReadback
  split
  · exact .next .refl
  · extract_lets +onlyGivenNames x1 x2 x3 x4
    refine .ite ?_ ?_
    · exact .next .refl
    · refine .ite ?_ ?_
      · extract_lets +onlyGivenNames x5 x6 x7
        refine .via (x := x7) ?_ fun h7 => ?_
        · subst x7
          exact .upd (t := s) .refl
        split
        · exact .next (.step State.writeCopy_changes h7)
        · exact .next (.step State.commitCheck_changes h7)
      · extract_lets +onlyGivenNames x8
        refine .via (x := x8) ?_ fun h8 => ?_
        · subst x8
          exact .modNv .refl
        refine .ite ?_ ?_
        · exact .next (.step State.commitFailed_changes h8)
        · extract_lets +onlyGivenNames x9 x10
          refine .via (x := x10) ?_ fun h10 => ?_
          · subst x10
            exact .upd (t := x8) h8
          exact .next (.step State.writeCopy_changes h10)

theorem execGetPowerState_changes {a0 : Iface} {s : State} :
    Ends [.heads, .svc] s (execGetPowerState a0 s) := by
  unfold execGetPowerState
  refine .command fun a1 => ?_
  extract_lets +onlyGivenNames x2 x3
  exact .step State.reply_changes .refl

theorem execReadBlackBox_changes {a0 : Iface} {s : State} :
    Ends [.heads, .svc] s (execReadBlackBox a0 s) := by
  unfold execReadBlackBox
  refine .command fun a1 => ?_
  extract_lets +onlyGivenNames x2 x3
  refine .ite ?_ ?_
  · exact .step State.mbFinish_changes .refl
  · refine .ite ?_ ?_
    · exact .step State.mbFinish_changes .refl
    · refine .ite ?_ ?_
      · exact .step State.mbFinish_changes .refl
      · exact .step State.reply_changes .refl

theorem execSetRegionAckPolicy_changes {a0 : Iface} {s : State} :
    Ends [.nv, .sys, .cfg, .tiles, .heads, .svc] s (execSetRegionAckPolicy a0 s) := by
  unfold execSetRegionAckPolicy
  refine .ite ?_ ?_
  · exact .next .refl
  · refine .command fun a1 => ?_
    extract_lets +onlyGivenNames x2 x3
    refine .ite ?_ ?_
    · exact .step State.mbFinish_changes .refl
    · refine .dcrChange ?_ fun x4 h4 => ?_
      · exact .refl
      · refine .upd (t := x4) ?_ (hh := by with_reducible exact fun h => heads_map h)
        exact h4

theorem execGetHoldUpReport_changes {a0 : Iface} {s : State} :
    Ends [.hld, .heads, .svc] s (execGetHoldUpReport a0 s) := by
  unfold execGetHoldUpReport
  refine .command fun a1 => ?_
  extract_lets +onlyGivenNames x2 x3
  refine .via (x := x3) ?_ fun h3 => ?_
  · subst x3
    refine .ite ?_ ?_
    · refine .upd (t := s) ?_
      exact .refl
    · exact .refl
  clear_value x3
  extract_lets +onlyGivenNames x4 x5
  exact .step State.reply_changes h3

theorem execGetMeshTopology_changes {a0 : Iface} {s : State} :
    Ends [.heads, .svc] s (execGetMeshTopology a0 s) := by
  unfold execGetMeshTopology
  refine .command fun a1 => ?_
  extract_lets +onlyGivenNames x2 x3
  exact .step State.reply_changes .refl

theorem execReadParameterStore_changes {a0 : Iface} {s : State} :
    Ends [.heads, .svc] s (execReadParameterStore a0 s) := by
  unfold execReadParameterStore
  refine .command fun a1 => ?_
  extract_lets +onlyGivenNames x2
  refine .ite ?_ ?_
  · exact .step State.mbFinish_changes .refl
  · extract_lets +onlyGivenNames x3
    exact .step State.reply_changes .refl

theorem execCacheWayPower_changes {a0 : Iface} {s : State} :
    Ends [.fv, .nv, .sys, .cfg, .evr, .pmc, .clk, .tiles, .heads, .loads, .nextReq, .fab, .mesh, .svc, .poison, .scratch] s (execCacheWayPower a0 s) := by
  unfold execCacheWayPower
  exact .step State.cacheCommand_changes .refl

theorem execPatrolControl_changes {a0 : Iface} {s : State} :
    Ends [.nv, .sys, .cfg, .tiles, .heads, .svc] s (execPatrolControl a0 s) := by
  unfold execPatrolControl
  refine .ite ?_ ?_
  · exact .next .refl
  · refine .command fun a1 => ?_
    extract_lets +onlyGivenNames x2 x3 x4 x5 x6 x7 x8 x9 x10
    refine .ite ?_ ?_
    · exact .step State.mbFinish_changes .refl
    · extract_lets +onlyGivenNames x11
      refine .dcrChange ?_ fun x12 h12 => ?_
      · exact .refl
      · refine .upd (t := x12) ?_ (ht := by with_reducible exact tiles_vmap)
        exact h12

theorem execRailPolicy_changes {a0 : Iface} {s : State} :
    Ends [.nv, .sys, .cfg, .seq, .tiles, .heads, .svc] s (execRailPolicy a0 s) := by
  unfold execRailPolicy
  refine .ite ?_ ?_
  · exact .next .refl
  · refine .command fun a1 => ?_
    extract_lets +onlyGivenNames x2 x3 x4 x5
    refine .ite ?_ ?_
    · exact .step State.mbFinish_changes .refl
    · refine .ite ?_ ?_
      · exact .step State.mbFinish_changes .refl
      · extract_lets +onlyGivenNames x6
        refine .ite ?_ ?_
        · exact .step State.mbFinish_changes .refl
        · refine .dcrChange ?_ fun x7 h7 => ?_
          · exact .refl
          · refine .upd (t := x7) ?_
            exact h7

theorem execHdcRdLatMaxClear_changes {a0 : Iface} {s : State} :
    Ends [.evr, .pmc, .seq, .tiles, .heads, .fab, .mesh, .svc] s (execHdcRdLatMaxClear a0 s) := by
  unfold execHdcRdLatMaxClear
  refine .ite ?_ ?_
  · exact .next .refl
  · refine .vendorWrite fun a1 b1 x1 h1 => ?_
    exact .step State.plainWrite_changes h1

theorem execMshAckClear_changes {a0 : Iface} {s : State} :
    Ends [.evr, .pmc, .seq, .tiles, .heads, .fab, .mesh, .svc] s (execMshAckClear a0 s) := by
  unfold execMshAckClear
  refine .ite ?_ ?_
  · exact .next .refl
  · refine .vendorWrite fun a1 b1 x1 h1 => ?_
    exact .step State.plainWrite_changes h1

theorem execEvrCtrlClearDrops_changes {a0 : Iface} {s : State} :
    Ends [.evr, .pmc, .seq, .tiles, .heads, .fab, .mesh, .svc] s (execEvrCtrlClearDrops a0 s) := by
  unfold execEvrCtrlClearDrops
  refine .ite ?_ ?_
  · exact .next .refl
  · refine .vendorWrite fun a1 b1 x1 h1 => ?_
    exact .step State.plainWrite_changes h1

theorem execPmcCtrlOvfMsixWrite_changes {a0 : Iface} {s : State} :
    Ends [.evr, .pmc, .seq, .tiles, .heads, .fab, .mesh, .svc] s (execPmcCtrlOvfMsixWrite a0 s) := by
  unfold execPmcCtrlOvfMsixWrite
  refine .ite ?_ ?_
  · exact .next .refl
  · refine .vendorWrite fun a1 b1 x1 h1 => ?_
    exact .step State.plainWrite_changes h1

theorem State.scanDone_changes {s : State} {a1 : List Byte} {a2 : List (Nat × PageNoise)} :
    Changes [.fv, .sys, .evr, .pmc, .seq, .clk, .tiles, .heads, .loads, .nextReq, .fab, .mesh, .poison] s (State.scanDone s a1 a2) := by
  unfold State.scanDone
  extract_lets +onlyGivenNames x1 x2
  refine .forAll ?_ fun a3 x3 h3 => ?_
  · exact .refl
  · exact .step State.scanPage_changes h3

theorem State.eraseRest_changes {s : State} :
    Changes [.fv, .nv, .media, .staged, .sec, .tiles, .svc, .poison, .prmData, .lsa] s (State.eraseRest s) := by
  unfold State.eraseRest
  extract_lets +onlyGivenNames x1
  refine .via (x := x1) ?_ fun h1 => ?_
  · subst x1
    exact .step State.finishErase_changes .refl
  exact .upd (t := x1) h1

theorem execBackgroundOpComplete_changes {a0 : List (Nat × PageNoise)} {s : State} :
    Ends [.fv, .nv, .media, .staged, .sys, .evr, .pmc, .sec, .seq, .clk, .tiles, .heads, .loads, .nextReq, .fab, .mesh, .svc, .poison, .prmData, .lsa] s (execBackgroundOpComplete a0 s) := by
  unfold execBackgroundOpComplete
  split
  · exact .next .refl
  · extract_lets +onlyGivenNames x1
    refine .ite ?_ ?_
    · exact .next (.step State.endBackground_changes (.step State.scanDone_changes .refl))
    · refine .ite ?_ ?_
      · refine .ite ?_ ?_
        · extract_lets +onlyGivenNames x2 x3
          refine .via (x := x3) ?_ fun h3 => ?_
          · subst x3
            exact .upd (t := s) .refl
          exact .next (.step State.endBackground_changes (.step State.sendHeld_changes h3))
        · refine .ite ?_ ?_
          · exact .next .refl
          · exact .next (.step State.endBackground_changes .refl)
      · refine .ite ?_ ?_
        · exact .next .refl
        · refine .ite ?_ ?_
          · exact .next (.step State.supplyRefused_changes .refl)
          · exact .next (.step State.endBackground_changes (.step State.eraseRest_changes .refl))

theorem execStagWatchdogExpiry_changes {a0 : TileId} {s : State} :
    Ends [.fv, .nv, .media, .staged, .aon, .sys, .boot, .cfg, .prm, .evr, .bbx, .pmc, .sec, .seq, .hld, .flush, .pwr, .clk, .thm, .tiles, .heads, .loads, .nextReq, .fab, .guest, .mesh, .svc, .poison, .prmData, .lsa, .tcm, .scratch] s (execStagWatchdogExpiry a0 s) := by
  unfold execStagWatchdogExpiry
  refine .ite ?_ ?_
  · exact .next .refl
  · refine .ite ?_ ?_
    · exact .next (.step State.internalFatal_changes .refl)
    · exact .next (.step State.warmReset_changes .refl)

theorem execDuikerRecoverableFault_changes {a0 : TileId} {s : State} :
    Ends [.fv, .nv, .media, .staged, .aon, .sys, .boot, .cfg, .prm, .evr, .bbx, .pmc, .sec, .seq, .hld, .flush, .pwr, .clk, .thm, .tiles, .heads, .loads, .nextReq, .fab, .guest, .mesh, .svc, .poison, .prmData, .lsa, .tcm, .scratch] s (execDuikerRecoverableFault a0 s) := by
  unfold execDuikerRecoverableFault
  exact .next (.step State.warmReset_changes .refl)

theorem execWarmResetStaged_changes {a0 : TileId} {s : State} :
    Ends [.boot] s (execWarmResetStaged a0 s) := by
  unfold execWarmResetStaged
  refine .ite ?_ ?_
  · exact .next (.upd (t := s) .refl)
  · exact .next .refl

theorem State.reissue_changes {s : State} {a1 : TileId} :
    Changes [.fv, .media, .staged, .sys, .evr, .pmc, .clk, .tiles, .heads, .loads, .nextReq, .fab, .mesh, .poison, .scratch] s (State.reissue s a1) := by
  unfold State.reissue
  extract_lets +onlyGivenNames x1
  refine .via (x := x1) ?_ fun h1 => ?_
  · subst x1
    refine .forAll ?_ fun a2 x2 h2 => ?_
    · exact .refl
    · exact .step State.endCtx_changes h2
  clear_value x1
  extract_lets +onlyGivenNames x3
  refine .via (x := x3) ?_ fun h3 => ?_
  · subst x3
    exact .modEng h1
  clear_value x3
  extract_lets +onlyGivenNames x4
  refine .via (x := x4) ?_ fun h4 => ?_
  · subst x4
    exact .step State.loadGait_changes h3
  clear_value x4
  extract_lets +onlyGivenNames x5
  refine .via (x := x5) ?_ fun h5 => ?_
  · subst x5
    refine .modD' ?_ fun _ _ => rfl
    exact h4
  clear_value x5
  extract_lets +onlyGivenNames x6
  refine .via (x := x6) ?_ fun h6 => ?_
  · subst x6
    exact .modPl h5
  clear_value x6
  extract_lets +onlyGivenNames x7
  refine .via (x := x7) ?_ fun h7 => ?_
  · subst x7
    exact .modIt h6
  clear_value x7
  extract_lets +onlyGivenNames x8
  refine .via (x := x8) ?_ fun h8 => ?_
  · subst x8
    refine .forAll ?_ fun a9 x9 h9 => ?_
    · exact h7
    · exact .step State.enqueueStripe_changes h9
  clear_value x8
  extract_lets +onlyGivenNames x10
  refine .via (x := x10) ?_ fun h10 => ?_
  · subst x10
    refine .forAll ?_ fun a11 x11 h11 => ?_
    · exact h8
    · exact .step State.foldRestart_changes h11
  clear_value x10
  refine .forAll ?_ fun a12 x12 h12 => ?_
  · exact h10
  · exact .step State.startLoad_changes h12

theorem execWarmResetDrainEnd_changes {a0 : TileId} {a1 : Nat} {s : State} :
    Ends [.fv, .media, .staged, .sys, .boot, .evr, .pmc, .clk, .tiles, .heads, .loads, .nextReq, .fab, .mesh, .poison, .scratch] s (execWarmResetDrainEnd a0 a1 s) := by
  unfold execWarmResetDrainEnd
  refine .ite ?_ ?_
  · exact .next .refl
  · extract_lets +onlyGivenNames x1 x2 x3 x4
    refine .via (x := x4) ?_ fun h4 => ?_
    · subst x4
      refine .forAll ?_ fun a5 x5 h5 => ?_
      · exact .refl
      · exact .step State.wRequest_changes h5
    clear_value x4
    extract_lets +onlyGivenNames x6 x7
    refine .via (x := x7) ?_ fun h7 => ?_
    · subst x7
      refine .ite ?_ ?_
      · exact h4
      · exact .step State.raise_changes h4
    clear_value x7
    extract_lets +onlyGivenNames x8
    refine .via (x := x8) ?_ fun h8 => ?_
    · subst x8
      exact .modFab h7
    clear_value x8
    extract_lets +onlyGivenNames x9
    refine .via (x := x9) ?_ fun h9 => ?_
    · subst x9
      exact .step State.reissue_changes h8
    clear_value x9
    exact .next (.upd (t := x9) h9)

theorem execFlashPageProgramDone_changes {a0 : TileId} {a1 : Bool} {s : State} :
    Ends [.nv, .evr, .tiles, .heads, .svc, .lsa] s (execFlashPageProgramDone a0 a1 s) := by
  unfold execFlashPageProgramDone
  extract_lets +onlyGivenNames x1
  split
  · exact .next .refl
  · refine .ite ?_ ?_
    · exact .next .refl
    · extract_lets +onlyGivenNames x2
      refine .via (x := x2) ?_ fun h2 => ?_
      · subst x2
        refine .ite ?_ ?_
        · exact .step State.flushPage_changes .refl
        · exact .refl
      clear_value x2
      refine .ite ?_ ?_
      · exact .next (.modCfl h2)
      · refine .next ?_
        refine .step State.flashCommand_changes ?_
        refine .step State.flashNext_changes ?_
        refine .modNv' ?_ (fun x h => h.opContent) (hp := fun _ _ => opContent_prm)
        exact h2

theorem execSidebandThermalReadout_changes {s : State} :
    Ends [.clk, .svc] s (execSidebandThermalReadout s) := by
  unfold execSidebandThermalReadout
  refine .ite ?_ ?_
  · exact .next (.step State.sbEnd_changes .refl)
  · extract_lets +onlyGivenNames x1 x2 x3
    exact .next (.step State.sbEnd_changes .refl)

theorem execI3cSetdasa_changes {a0 : BitVec 7} {a1 : BitVec 7} {s : State} :
    Ends [.clk, .svc] s (execI3cSetdasa a0 a1 s) := by
  unfold execI3cSetdasa
  refine .ite ?_ ?_
  · exact .next (.step State.sbEnd_changes .refl)
  · exact .next (.step State.sbEnd_changes (.upd (t := s) .refl))

theorem execI3cSetaasa_changes {s : State} :
    Ends [.clk, .svc] s (execI3cSetaasa s) := by
  unfold execI3cSetaasa
  refine .ite ?_ ?_
  · exact .next (.step State.sbEnd_changes .refl)
  · exact .next (.step State.sbEnd_changes (.upd (t := s) .refl))

theorem execWidarLinkTrained_changes {a0 : PortId} {a1 : BitVec 2} {a2 : BitVec 2} {a3 : BitVec 4} {s : State} :
    Ends [.fv, .fab, .mesh] s (execWidarLinkTrained a0 a1 a2 a3 s) := by
  unfold execWidarLinkTrained
  extract_lets +onlyGivenNames x1
  refine .ite ?_ ?_
  · exact .next .refl
  · exact .next (.step State.sendInit_changes (.step State.modLink_changes .refl))

theorem execWidarRetryReq_changes {a0 : PortId} {a1 : List Byte} {s : State} :
    Ends [.fv, .pmc, .fab, .mesh] s (execWidarRetryReq a0 a1 s) := by
  unfold execWidarRetryReq
  extract_lets +onlyGivenNames x1
  refine .ite ?_ ?_
  · exact .next .refl
  · extract_lets +onlyGivenNames x2
    refine .via (x := x2) ?_ fun h2 => ?_
    · subst x2
      exact .step State.modLink_changes .refl
    clear_value x2
    split
    · exact .next (.step State.badFlit_changes h2)
    · refine .ite ?_ ?_
      · exact .next .refl
      · extract_lets +onlyGivenNames x3 x4
        refine .via (x := x4) ?_ fun h4 => ?_
        · subst x4
          exact .step State.modLink_changes h2
        clear_value x4
        refine .ite ?_ ?_
        · exact .next (.step State.modLink_changes h4)
        · extract_lets +onlyGivenNames x5 x6
          refine .via (x := x6) ?_ fun h6 => ?_
          · subst x6
            exact .step State.modLink_changes h4
          clear_value x6
          extract_lets +onlyGivenNames x7
          refine .via (x := x7) ?_ fun h7 => ?_
          · subst x7
            split
            · exact .step State.count_changes h6
            · exact h6
          clear_value x7
          extract_lets +onlyGivenNames x8
          refine .via (x := x8) ?_ fun h8 => ?_
          · subst x8
            exact .step State.modLink_changes h7
          clear_value x8
          exact .next (.step State.pump_changes (.step State.replay_changes h8))

theorem execWidarTxIdleTimer_changes {a0 : PortId} {s : State} :
    Ends [.pmc, .fab, .mesh] s (execWidarTxIdleTimer a0 s) := by
  unfold execWidarTxIdleTimer
  extract_lets +onlyGivenNames x1
  refine .ite ?_ ?_
  · exact .next .refl
  · extract_lets +onlyGivenNames x2
    refine .via (x := x2) ?_ fun h2 => ?_
    · subst x2
      exact .step State.modLink_changes (.step State.modLink_changes .refl)
    split
    · exact .next (.step State.count_changes h2)
    · exact .next h2

theorem execPeerLinkRxTimeout_changes {a0 : Fin 4} {s : State} :
    Ends [.fab, .mesh] s (execPeerLinkRxTimeout a0 s) := by
  unfold execPeerLinkRxTimeout
  exact .next (.step State.rxTimeout_changes .refl)

theorem execFrameNumberExhausted_changes {a0 : PortId} {s : State} :
    Ends [.evr, .heads, .fab, .mesh] s (execFrameNumberExhausted a0 s) := by
  unfold execFrameNumberExhausted
  extract_lets +onlyGivenNames x1
  refine .ite ?_ ?_
  · exact .next .refl
  · extract_lets +onlyGivenNames x2
    refine .via (x := x2) ?_ fun h2 => ?_
    · subst x2
      exact .step State.retrain_changes (.step State.modLink_changes .refl)
    split
    · exact .next (.step State.raise_changes h2)
    · exact .next (.step State.raise_changes h2)

theorem execWidarCmp_changes {a0 : TileId} {a1 : Msg} {s : State} :
    Ends [.nv, .evr, .bbx, .pmc, .clk, .tiles, .heads, .fab, .mesh] s (execWidarCmp a0 a1 s) := by
  unfold execWidarCmp
  refine .ite ?_ ?_
  · exact .next .refl
  · split
    · exact .next .refl
    · rename_i x1 e1
      refine .via (.step (State.wTake_changes e1) ?_) fun h1 => ?_
      · exact .refl
      exact .next (.step State.wResponse_changes h1)

theorem execRouteUpdate_changes {a0 : TileId} {a1 : BitVec 3} {s : State} :
    Ends [.nv, .evr, .bbx, .pmc, .clk, .tiles, .heads, .fab, .mesh] s (execRouteUpdate a0 a1 s) := by
  unfold execRouteUpdate
  refine .ite ?_ ?_
  · exact .next .refl
  · extract_lets +onlyGivenNames x1 x2 x3
    refine .via (x := x3) ?_ fun h3 => ?_
    · subst x3
      exact .modFab .refl
    extract_lets +onlyGivenNames x4
    refine .via (x := x4) ?_ fun h4 => ?_
    · subst x4
      refine .forAll ?_ fun a5 x5 h5 => ?_
      · exact h3
      · refine .ite ?_ ?_
        · exact .step State.guestDead_changes h5
        · exact .step State.wDone_changes h5
    extract_lets +onlyGivenNames x6
    refine .next ?_
    refine .forAll ?_ fun a7 x7 h7 => ?_
    · exact h4
    · extract_lets +onlyGivenNames x8
      refine .forAll ?_ fun a9 x9 h9 => ?_
      · exact .step State.modLink_changes h7
      · exact .step State.wsend_changes h9

theorem execGuestHeartbeatTimeout_changes {s : State} :
    Ends [.nv, .sys, .evr, .bbx, .pmc, .clk, .tiles, .heads, .loads, .fab, .guest, .mesh] s (execGuestHeartbeatTimeout s) := by
  unfold execGuestHeartbeatTimeout
  refine .ite ?_ ?_
  · exact .next (.step State.guestLost_changes .refl)
  · exact .next .refl

theorem execDiscoveryEnd_changes {s : State} :
    Ends [.evr, .pmc, .clk, .heads, .fab, .mesh] s (execDiscoveryEnd s) := by
  unfold execDiscoveryEnd
  refine .ite ?_ ?_
  · exact .next .refl
  · extract_lets +onlyGivenNames x1 x2 x3 x4 x5 x6 x7
    refine .via (x := x7) ?_ fun h7 => ?_
    · subst x7
      exact .upd (t := s) .refl
    extract_lets +onlyGivenNames x8
    refine .via (x := x8) ?_ fun h8 => ?_
    · subst x8
      exact .step State.raise_changes h7
    exact .next (.step State.holdMwrs_changes (.step State.sendHeld_changes h8))

theorem execMwr_changes {a0 : Fin 4} {a1 : MMsg} {s : State} :
    Ends [.fv, .sys, .evr, .pmc, .clk, .tiles, .heads, .loads, .nextReq, .fab, .mesh, .svc, .poison] s (execMwr a0 a1 s) := by
  unfold execMwr
  split
  · rename_i x1 e1
    refine .via (Changes.ofPair e1 ?_) fun h1 => ?_
    · exact .step State.meshArrive_changes .refl
    refine .ite ?_ ?_
    · exact .next h1
    · split
      · exact .next (.step State.meshReject_changes h1)
      · exact .next (.step State.mirrorWrite_changes (.step State.count_changes h1))

theorem execRwr_changes {a0 : Fin 4} {a1 : MMsg} {s : State} :
    Ends [.fv, .sys, .evr, .pmc, .clk, .tiles, .heads, .loads, .nextReq, .fab, .mesh, .svc, .poison] s (execRwr a0 a1 s) := by
  unfold execRwr
  split
  · rename_i x1 e1
    refine .via (Changes.ofPair e1 ?_) fun h1 => ?_
    · exact .step State.meshArrive_changes .refl
    refine .ite ?_ ?_
    · exact .next h1
    · split
      · exact .next (.step State.meshReject_changes h1)
      · extract_lets +onlyGivenNames x2 x3
        refine .via (x := x3) ?_ fun h3 => ?_
        · subst x3
          exact .upd (t := x1) h1
        exact .next (.step State.mirrorWrite_changes (.step State.meshReply_changes h3))

theorem execMrd_changes {a0 : Fin 4} {a1 : MMsg} {s : State} :
    Ends [.fv, .sys, .evr, .pmc, .clk, .tiles, .heads, .loads, .nextReq, .fab, .mesh, .poison] s (execMrd a0 a1 s) := by
  unfold execMrd
  split
  · rename_i x1 e1
    refine .via (Changes.ofPair e1 ?_) fun h1 => ?_
    · exact .step State.meshArrive_changes .refl
    refine .ite ?_ ?_
    · exact .next h1
    · split
      · exact .next (.step State.meshReject_changes h1)
      · extract_lets +onlyGivenNames x2 x3
        exact .next (.step State.newLoad_changes h1)

theorem execMext_changes {a0 : Fin 4} {a1 : MMsg} {s : State} :
    Ends [.media, .staged, .pmc, .clk, .tiles, .fab, .mesh, .svc, .poison] s (execMext a0 a1 s) := by
  unfold execMext
  split
  · rename_i x1 e1
    refine .via (Changes.ofPair e1 ?_) fun h1 => ?_
    · exact .step State.meshArrive_changes .refl
    extract_lets +onlyGivenNames x2 x3 x4 x5 x6
    refine .ite ?_ ?_
    · exact .next h1
    · refine .ite ?_ ?_
      · exact .next (.step State.meshReject_changes h1)
      · split
        · refine .ite ?_ ?_
          · exact .next (.step State.meshReject_changes h1)
          · extract_lets +onlyGivenNames x7
            refine .via (x := x7) ?_ fun h7 => ?_
            · subst x7
              refine .ite ?_ ?_
              · exact h1
              · exact .step State.addEntry_changes h1
            extract_lets +onlyGivenNames x8 x9
            refine .via (x := x9) ?_ fun h9 => ?_
            · subst x9
              exact .upd (t := x7) h7
            exact .next (.step State.replicaProceed_changes h9)
        · refine .ite ?_ ?_
          · exact .next (.step State.meshReject_changes h1)
          · extract_lets +onlyGivenNames x10
            exact .next (.upd (t := x1) h1)
        · extract_lets +onlyGivenNames x11
          refine .next ?_
          refine .step State.meshReply_changes ?_
          refine .forAll ?_ fun a12 x12 h12 => ?_
          · exact h1
          · exact .step State.dropReplica_changes h12
        · exact .next (.step State.meshReject_changes h1)

theorem execMhb_changes {a0 : Fin 4} {a1 : MMsg} {s : State} :
    Ends [.pmc, .clk, .fab, .mesh] s (execMhb a0 a1 s) := by
  unfold execMhb
  split
  · rename_i x1 e1
    refine .via (Changes.ofPair e1 ?_) fun h1 => ?_
    · exact .step State.meshArrive_changes .refl
    refine .ite ?_ ?_
    · exact .next (.step State.meshSend_changes h1)
    · exact .next h1

theorem execMbye_changes {a0 : Fin 4} {a1 : MMsg} {s : State} :
    Ends [.fv, .nv, .sys, .evr, .bbx, .pmc, .clk, .tiles, .heads, .loads, .nextReq, .fab, .mesh, .svc, .poison] s (execMbye a0 a1 s) := by
  unfold execMbye
  split
  · rename_i x1 e1
    refine .via (Changes.ofPair e1 ?_) fun h1 => ?_
    · exact .step State.meshArrive_changes .refl
    refine .ite ?_ ?_
    · exact .next h1
    · split
      · extract_lets +onlyGivenNames x2
        refine .via (x := x2) ?_ fun h2 => ?_
        · subst x2
          exact .step State.degradePair_changes h1
        clear_value x2
        refine .next ?_
        refine .step State.addProceed_changes ?_
        refine .upd (t := x2) ?_
        exact h2
      · extract_lets +onlyGivenNames x3
        refine .via (x := x3) ?_ fun h3 => ?_
        · subst x3
          exact .step State.setPair_changes (.step State.releaseMirrored_changes h1)
        clear_value x3
        refine .next ?_
        refine .step State.addProceed_changes ?_
        refine .upd (t := x3) ?_
        exact h3
      · refine .next ?_
        refine .ite ?_ ?_
        · exact .step State.peerDead_changes h1
        · exact h1
      · refine .next ?_
        refine .ite ?_ ?_
        · exact .step State.peerDead_changes h1
        · exact h1
      · refine .next ?_
        refine .ite ?_ ?_
        · exact .step State.peerDead_changes h1
        · exact h1
      · exact .next h1

theorem execMeshHeartbeatTimer_changes {s : State} :
    Ends [.pmc, .clk, .fab, .mesh] s (execMeshHeartbeatTimer s) := by
  unfold execMeshHeartbeatTimer
  refine .ite ?_ ?_
  · exact .next .refl
  · extract_lets +onlyGivenNames x1 x2 x3
    refine .via (x := x3) ?_ fun h3 => ?_
    · subst x3
      refine .forAll ?_ fun a4 x4 h4 => ?_
      · exact .refl
      · exact .step State.peerPut_changes h4
    refine .next ?_
    refine .ite ?_ ?_
    · exact .upd (t := x3) h3
    · exact h3

theorem execPeerSilenceCheck_changes {s : State} :
    Ends [.fv, .nv, .sys, .evr, .bbx, .pmc, .clk, .tiles, .heads, .loads, .nextReq, .fab, .mesh, .svc, .poison] s (execPeerSilenceCheck s) := by
  unfold execPeerSilenceCheck
  refine .ite ?_ ?_
  · exact .next .refl
  · extract_lets +onlyGivenNames x1 x2
    refine .via (x := x2) ?_ fun h2 => ?_
    · subst x2
      exact .upd (t := s) .refl
    refine .ite ?_ ?_
    · exact .next (.step State.peerDead_changes h2)
    · exact .next h2

theorem execMeshForwardExpiry_changes {a0 : Fin 4} {a1 : MMsg} {s : State} :
    Ends [.pmc, .clk, .fab, .mesh] s (execMeshForwardExpiry a0 a1 s) := by
  unfold execMeshForwardExpiry
  refine .ite ?_ ?_
  · extract_lets +onlyGivenNames x1
    refine .via (x := x1) ?_ fun h1 => ?_
    · subst x1
      exact .step State.modLink_changes .refl
    exact .next (.step State.meshForward_changes h1)
  · refine .ite ?_ ?_
    · exact .next (.step State.meshForward_changes (.upd (t := s) .refl))
    · exact .next .refl

theorem execBrownoutHoldEnd_changes {s : State} :
    Ends [.fv, .nv, .media, .staged, .aon, .sys, .boot, .cfg, .prm, .evr, .bbx, .pmc, .sec, .seq, .hld, .flush, .pwr, .clk, .thm, .tiles, .heads, .loads, .nextReq, .fab, .guest, .mesh, .svc, .poison, .prmData, .lsa, .tcm, .scratch] s (execBrownoutHoldEnd s) := by
  unfold execBrownoutHoldEnd
  split
  · refine .ite ?_ ?_
    · refine .next ?_
      exact .step State.startFixed_changes (.step State.packageReset_changes (.step State.finishStores_changes .refl))
    · exact .next .refl
  · exact .next .refl

theorem execHoldupSinkEnd_changes {a0 : BitVec 32} {a1 : Bool} {s : State} :
    Ends [.fv, .hld] s (execHoldupSinkEnd a0 a1 s) := by
  unfold execHoldupSinkEnd
  refine .ite ?_ ?_
  · exact .next .refl
  · split
    · rename_i x1 e1
      refine .via (Changes.ofPair e1 ?_) fun h1 => ?_
      · exact .step State.draw_changes .refl
      extract_lets +onlyGivenNames x2 x3
      exact .next (.upd (t := x1) h1)

theorem execHoldupMeasurementComplete_changes {a0 : Bool} {a1 : BitVec 16} {s : State} :
    Ends [.fv, .sys, .cfg, .prm, .evr, .pmc, .hld, .clk, .tiles, .heads, .loads, .nextReq, .fab, .mesh, .svc, .poison] s (execHoldupMeasurementComplete a0 a1 s) := by
  unfold execHoldupMeasurementComplete
  refine .ite ?_ ?_
  · exact .next .refl
  · extract_lets +onlyGivenNames x1 x2 x3 x4
    refine .via (x := x4) ?_ fun h4 => ?_
    · subst x4
      exact .upd (t := s) .refl
    extract_lets +onlyGivenNames x5
    refine .via (x := x5) ?_ fun h5 => ?_
    · subst x5
      exact .step State.applyBudgets_changes h4
    extract_lets +onlyGivenNames x6
    refine .via (x := x6) ?_ fun h6 => ?_
    · subst x6
      exact .step State.raise_changes h5
    extract_lets +onlyGivenNames x7 x8
    refine .via (x := x8) ?_ fun h8 => ?_
    · subst x8
      refine .ite ?_ ?_
      · exact .step State.raise_changes h6
      · exact h6
    extract_lets +onlyGivenNames x9
    exact .next (.step State.writeHoldup_changes (.upd (t := x8) h8))

theorem execSleepEntryDrained_changes {s : State} :
    Ends [.fv, .nv, .sys, .evr, .pmc, .seq, .pwr, .clk, .tiles, .heads, .fab, .guest, .mesh, .velvet, .scratch] s (execSleepEntryDrained s) := by
  unfold execSleepEntryDrained
  refine .ite ?_ ?_
  · exact .next .refl
  · extract_lets +onlyGivenNames x1
    refine .via (x := x1) ?_ fun h1 => ?_
    · subst x1
      exact .step State.sleepDrain_changes .refl
    clear_value x1
    refine .ite ?_ ?_
    · exact .next h1
    · extract_lets +onlyGivenNames x2 x3
      refine .via (x := x3) ?_ fun h3 => ?_
      · subst x3
        exact .step State.degradePair_changes (.step State.bye_changes h1)
      clear_value x3
      extract_lets +onlyGivenNames x4 x5
      refine .via (x := x5) ?_ fun h5 => ?_
      · subst x5
        refine .ite ?_ ?_
        · refine .upd (t := x3) ?_
          exact h3
        · exact h1
      clear_value x5
      extract_lets +onlyGivenNames x6 x7
      refine .via (x := x7) ?_ fun h7 => ?_
      · subst x7
        refine .upd (t := x5) ?_
        exact h5
      clear_value x7
      extract_lets +onlyGivenNames x8
      refine .via (x := x8) ?_ fun h8 => ?_
      · subst x8
        exact .step State.setDev_changes h7
      clear_value x8
      extract_lets +onlyGivenNames x9
      refine .via (x := x9) ?_ fun h9 => ?_
      · subst x9
        refine .forAll ?_ fun a10 x10 h10 => ?_
        · exact h8
        · exact .step State.tileSleeps_changes h10
      clear_value x9
      extract_lets +onlyGivenNames x11
      refine .via (x := x11) ?_ fun h11 => ?_
      · subst x11
        exact .step State.lowerMedia_changes (.step State.linksDown_changes h9)
      clear_value x11
      extract_lets +onlyGivenNames x12 x13 x14
      refine .via (x := x14) ?_ fun h14 => ?_
      · subst x14
        refine .ite ?_ ?_
        · exact h9
        · refine .upd (t := x11) ?_
          exact h11
      clear_value x14
      exact .next (.step State.reversal_changes h14)

theorem execTripStaged_changes {s : State} :
    Ends [.sys, .evr, .pmc, .seq, .clk, .thm, .tiles, .heads, .fab, .mesh] s (execTripStaged s) := by
  unfold execTripStaged
  split
  · exact .next .refl
  · extract_lets +onlyGivenNames x1
    refine .ite ?_ ?_
    · refine .next ?_
      refine .forAll ?_ fun a2 x2 h2 => ?_
      · exact .refl
      · exact .step State.stageAll_changes h2
    · extract_lets +onlyGivenNames x3 x4
      refine .via (x := x4) ?_ fun h4 => ?_
      · subst x4
        exact .step State.raise_changes (.upd (t := s) .refl)
      refine .next ?_
      refine .ite ?_ ?_
      · exact h4
      · exact .step State.fail_changes h4

theorem execSecondsTick_changes {s : State} :
    Ends [.aon, .bbx] s (execSecondsTick s) := by
  unfold execSecondsTick
  refine .ite ?_ ?_
  · exact .next .refl
  · exact .next (.upd (t := s) .refl)

theorem execEventEntry_changes {a0 : TileId} {s : State} :
    Ends [.nv, .evr, .bbx, .clk, .tiles] s (execEventEntry a0 s) := by
  unfold execEventEntry
  refine .ite ?_ ?_
  · exact .next .refl
  · split
    · exact .next .refl
    · rename_i heq
      extract_lets +onlyGivenNames x1 x2
      refine .via (x := x2) ?_ fun h2 => ?_
      · subst x2
        refine .upd (t := s) ?_ (he := fun h => h.set (Nat.le_trans (Nat.le_succ _) (by have := h a0; rw [heq] at this; exact this)))
        exact .refl
      clear_value x2
      extract_lets +onlyGivenNames x3
      refine .via (x := x3) ?_ fun h3 => ?_
      · subst x3
        refine .ite ?_ ?_
        · exact .step State.bbWrite_changes h2
        · exact h2
      clear_value x3
      refine .next ?_
      refine .upd (t := x3) ?_ (he := fun h => h.assign)
      exact h3

theorem execDieNotReadyTimeout_changes {a0 : TileId} {a1 : ChanId} {a2 : Fin 9} {s : State} :
    Ends [.sys, .evr, .pmc, .seq, .clk, .tiles, .heads, .fab, .mesh, .poison] s (execDieNotReadyTimeout a0 a1 a2 s) := by
  unfold execDieNotReadyTimeout
  refine .ite ?_ ?_
  · exact .next (.step State.failDie_changes .refl)
  · exact .next .refl

theorem execReadTempHoldExpiry_changes {a0 : TileId} {a1 : ChanId} {a2 : Fin 9} {s : State} :
    Ends [.tiles] s (execReadTempHoldExpiry a0 a1 a2 s) := by
  unfold execReadTempHoldExpiry
  exact .next (.modEng .refl)

end Sys2Proof.Machine
end

