-- ==== Sys2Proof/Laws/Commands.lean ====
section
/-! SUPPORT. What the shared parts of the mailbox commands do: a served command runs, a passphrase that matches is accepted, an output
that fits is posted. -/

namespace Sys2Proof.Machine

/-- A served command whose input has the right length runs. -/
theorem State.command_served {s : State} {m : Iface} {op : Nat} {inp : List Byte} {mgmt bg : Bool} {r : StateRule}
    (h : s.Served m op inp mgmt bg r) {lenOk : List Byte → Bool} (hl : lenOk inp = true) (run : List Byte → State → State) :
    s.command m op r lenOk run mgmt bg = .next (run inp s) := by
  obtain ⟨h1, h2, h3⟩ := h
  unfold State.command
  rw [h1]; dsimp only
  rw [h2]; dsimp only
  rw [if_neg]
  simp [hl]; omega

/-- A command that no mailbox holds for the lead leaves the state as it is. -/
theorem State.command_idle {s : State} {m : Iface} {op : Nat} (h : s.taken m op = none) (r : StateRule) (lenOk : List Byte → Bool)
    (run : List Byte → State → State) (mgmt bg : Bool) : s.command m op r lenOk run mgmt bg = .next s := by
  unfold State.command
  rw [h]

/-- A passphrase command goes on where no erase runs, the state is not frozen, tries are left and the passphrase matches or none is
set. -/
theorem State.withPw_ok {s : State} {m : Iface} {user : Bool} {pw : List Byte} {ok : State → State} (h1 : s.erasing = false)
    (h2 : s.sec.frozen = false) (h3 : s.tries user ≠ 0)
    (h4 : s.keySet.pw user = none ∨ ∃ v, s.keySet.pw user = some v ∧ pwMatches v pw = true) :
    s.withPw m user pw ok = ok s := by
  unfold State.withPw
  rw [if_neg (by simp [h1]), if_neg (by rintro (h | h); · rw [h2] at h; cases h
                                        · exact h3 h)]
  rcases h4 with h4 | ⟨v, h4, h5⟩ <;> rw [h4]
  dsimp only; rw [if_pos h5]

/-- An output within the response limit is posted with Success. -/
theorem State.reply_fits {s : State} {m : Iface} {out : List Byte} (h : out.length ≤ (s.mbox m).limit) :
    s.reply m out = s.mbFinish m .success 0 out := by
  unfold State.reply
  rw [if_neg (by omega)]

end Sys2Proof.Machine
end

