-- ==== Sys2Proof/Laws/State.lean ====
section
/-! SUPPORT. What the operations that change one part of the state leave: one lemma per field and operation, and what the changed
element holds. -/

namespace Sys2Proof.Machine

variable (s : State)

/-! ### Vectors -/

@[simp] theorem vmod_self {α : Type} {n : Nat} (v : Vector α n) (i : Fin n) (f : α → α) : (vmod v i f)[(i : Nat)] = f v[(i : Nat)] := by simp [vmod]
theorem vmod_other {α : Type} {n : Nat} (v : Vector α n) {i j : Fin n} (f : α → α) (h : i ≠ j) : (vmod v i f)[(j : Nat)] = v[(j : Nat)] := by
  have : (i : Nat) ≠ j := fun c => h (Fin.ext c)
  simp [vmod, this]
@[simp] theorem vmap_get {α : Type} {n : Nat} (v : Vector α n) (f : Fin n → α → α) (i : Fin n) : (vmap v f)[(i : Nat)] = f i v[(i : Nat)] := by
  simp [vmap]

/-! ### modTile -/

@[simp] theorem State.modTile_pending (t : TileId) (f : Tile → Tile) : (s.modTile t f).pending = s.pending := rfl
@[simp] theorem State.modTile_fv (t : TileId) (f : Tile → Tile) : (s.modTile t f).fv = s.fv := rfl
@[simp] theorem State.modTile_fuses (t : TileId) (f : Tile → Tile) : (s.modTile t f).fuses = s.fuses := rfl
@[simp] theorem State.modTile_nv (t : TileId) (f : Tile → Tile) : (s.modTile t f).nv = s.nv := rfl
@[simp] theorem State.modTile_media (t : TileId) (f : Tile → Tile) : (s.modTile t f).media = s.media := rfl
@[simp] theorem State.modTile_staged (t : TileId) (f : Tile → Tile) : (s.modTile t f).staged = s.staged := rfl
@[simp] theorem State.modTile_aon (t : TileId) (f : Tile → Tile) : (s.modTile t f).aon = s.aon := rfl
@[simp] theorem State.modTile_sys (t : TileId) (f : Tile → Tile) : (s.modTile t f).sys = s.sys := rfl
@[simp] theorem State.modTile_boot (t : TileId) (f : Tile → Tile) : (s.modTile t f).boot = s.boot := rfl
@[simp] theorem State.modTile_cfg (t : TileId) (f : Tile → Tile) : (s.modTile t f).cfg = s.cfg := rfl
@[simp] theorem State.modTile_prm (t : TileId) (f : Tile → Tile) : (s.modTile t f).prm = s.prm := rfl
@[simp] theorem State.modTile_evr (t : TileId) (f : Tile → Tile) : (s.modTile t f).evr = s.evr := rfl
@[simp] theorem State.modTile_bbx (t : TileId) (f : Tile → Tile) : (s.modTile t f).bbx = s.bbx := rfl
@[simp] theorem State.modTile_pmc (t : TileId) (f : Tile → Tile) : (s.modTile t f).pmc = s.pmc := rfl
@[simp] theorem State.modTile_sec (t : TileId) (f : Tile → Tile) : (s.modTile t f).sec = s.sec := rfl
@[simp] theorem State.modTile_seq (t : TileId) (f : Tile → Tile) : (s.modTile t f).seq = s.seq := rfl
@[simp] theorem State.modTile_hld (t : TileId) (f : Tile → Tile) : (s.modTile t f).hld = s.hld := rfl
@[simp] theorem State.modTile_flush (t : TileId) (f : Tile → Tile) : (s.modTile t f).flush = s.flush := rfl
@[simp] theorem State.modTile_pwr (t : TileId) (f : Tile → Tile) : (s.modTile t f).pwr = s.pwr := rfl
@[simp] theorem State.modTile_clk (t : TileId) (f : Tile → Tile) : (s.modTile t f).clk = s.clk := rfl
@[simp] theorem State.modTile_thm (t : TileId) (f : Tile → Tile) : (s.modTile t f).thm = s.thm := rfl
@[simp] theorem State.modTile_heads (t : TileId) (f : Tile → Tile) : (s.modTile t f).heads = s.heads := rfl
@[simp] theorem State.modTile_loads (t : TileId) (f : Tile → Tile) : (s.modTile t f).loads = s.loads := rfl
@[simp] theorem State.modTile_nextReq (t : TileId) (f : Tile → Tile) : (s.modTile t f).nextReq = s.nextReq := rfl
@[simp] theorem State.modTile_fab (t : TileId) (f : Tile → Tile) : (s.modTile t f).fab = s.fab := rfl
@[simp] theorem State.modTile_guest (t : TileId) (f : Tile → Tile) : (s.modTile t f).guest = s.guest := rfl
@[simp] theorem State.modTile_mesh (t : TileId) (f : Tile → Tile) : (s.modTile t f).mesh = s.mesh := rfl
@[simp] theorem State.modTile_svc (t : TileId) (f : Tile → Tile) : (s.modTile t f).svc = s.svc := rfl
@[simp] theorem State.modTile_poison (t : TileId) (f : Tile → Tile) : (s.modTile t f).poison = s.poison := rfl

/-! ### modHead -/

@[simp] theorem State.modHead_pending (h : TileId) (f : Head → Head) : (s.modHead h f).pending = s.pending := rfl
@[simp] theorem State.modHead_fv (h : TileId) (f : Head → Head) : (s.modHead h f).fv = s.fv := rfl
@[simp] theorem State.modHead_fuses (h : TileId) (f : Head → Head) : (s.modHead h f).fuses = s.fuses := rfl
@[simp] theorem State.modHead_nv (h : TileId) (f : Head → Head) : (s.modHead h f).nv = s.nv := rfl
@[simp] theorem State.modHead_media (h : TileId) (f : Head → Head) : (s.modHead h f).media = s.media := rfl
@[simp] theorem State.modHead_staged (h : TileId) (f : Head → Head) : (s.modHead h f).staged = s.staged := rfl
@[simp] theorem State.modHead_aon (h : TileId) (f : Head → Head) : (s.modHead h f).aon = s.aon := rfl
@[simp] theorem State.modHead_sys (h : TileId) (f : Head → Head) : (s.modHead h f).sys = s.sys := rfl
@[simp] theorem State.modHead_boot (h : TileId) (f : Head → Head) : (s.modHead h f).boot = s.boot := rfl
@[simp] theorem State.modHead_cfg (h : TileId) (f : Head → Head) : (s.modHead h f).cfg = s.cfg := rfl
@[simp] theorem State.modHead_prm (h : TileId) (f : Head → Head) : (s.modHead h f).prm = s.prm := rfl
@[simp] theorem State.modHead_evr (h : TileId) (f : Head → Head) : (s.modHead h f).evr = s.evr := rfl
@[simp] theorem State.modHead_bbx (h : TileId) (f : Head → Head) : (s.modHead h f).bbx = s.bbx := rfl
@[simp] theorem State.modHead_pmc (h : TileId) (f : Head → Head) : (s.modHead h f).pmc = s.pmc := rfl
@[simp] theorem State.modHead_sec (h : TileId) (f : Head → Head) : (s.modHead h f).sec = s.sec := rfl
@[simp] theorem State.modHead_seq (h : TileId) (f : Head → Head) : (s.modHead h f).seq = s.seq := rfl
@[simp] theorem State.modHead_hld (h : TileId) (f : Head → Head) : (s.modHead h f).hld = s.hld := rfl
@[simp] theorem State.modHead_flush (h : TileId) (f : Head → Head) : (s.modHead h f).flush = s.flush := rfl
@[simp] theorem State.modHead_pwr (h : TileId) (f : Head → Head) : (s.modHead h f).pwr = s.pwr := rfl
@[simp] theorem State.modHead_clk (h : TileId) (f : Head → Head) : (s.modHead h f).clk = s.clk := rfl
@[simp] theorem State.modHead_thm (h : TileId) (f : Head → Head) : (s.modHead h f).thm = s.thm := rfl
@[simp] theorem State.modHead_tiles (h : TileId) (f : Head → Head) : (s.modHead h f).tiles = s.tiles := rfl
@[simp] theorem State.modHead_loads (h : TileId) (f : Head → Head) : (s.modHead h f).loads = s.loads := rfl
@[simp] theorem State.modHead_nextReq (h : TileId) (f : Head → Head) : (s.modHead h f).nextReq = s.nextReq := rfl
@[simp] theorem State.modHead_fab (h : TileId) (f : Head → Head) : (s.modHead h f).fab = s.fab := rfl
@[simp] theorem State.modHead_guest (h : TileId) (f : Head → Head) : (s.modHead h f).guest = s.guest := rfl
@[simp] theorem State.modHead_mesh (h : TileId) (f : Head → Head) : (s.modHead h f).mesh = s.mesh := rfl
@[simp] theorem State.modHead_svc (h : TileId) (f : Head → Head) : (s.modHead h f).svc = s.svc := rfl
@[simp] theorem State.modHead_poison (h : TileId) (f : Head → Head) : (s.modHead h f).poison = s.poison := rfl

/-! ### modNv -/

@[simp] theorem State.modNv_pending (t : TileId) (f : TileNv → TileNv) : (s.modNv t f).pending = s.pending := rfl
@[simp] theorem State.modNv_fv (t : TileId) (f : TileNv → TileNv) : (s.modNv t f).fv = s.fv := rfl
@[simp] theorem State.modNv_fuses (t : TileId) (f : TileNv → TileNv) : (s.modNv t f).fuses = s.fuses := rfl
@[simp] theorem State.modNv_media (t : TileId) (f : TileNv → TileNv) : (s.modNv t f).media = s.media := rfl
@[simp] theorem State.modNv_staged (t : TileId) (f : TileNv → TileNv) : (s.modNv t f).staged = s.staged := rfl
@[simp] theorem State.modNv_aon (t : TileId) (f : TileNv → TileNv) : (s.modNv t f).aon = s.aon := rfl
@[simp] theorem State.modNv_sys (t : TileId) (f : TileNv → TileNv) : (s.modNv t f).sys = s.sys := rfl
@[simp] theorem State.modNv_boot (t : TileId) (f : TileNv → TileNv) : (s.modNv t f).boot = s.boot := rfl
@[simp] theorem State.modNv_cfg (t : TileId) (f : TileNv → TileNv) : (s.modNv t f).cfg = s.cfg := rfl
@[simp] theorem State.modNv_prm (t : TileId) (f : TileNv → TileNv) : (s.modNv t f).prm = s.prm := rfl
@[simp] theorem State.modNv_evr (t : TileId) (f : TileNv → TileNv) : (s.modNv t f).evr = s.evr := rfl
@[simp] theorem State.modNv_bbx (t : TileId) (f : TileNv → TileNv) : (s.modNv t f).bbx = s.bbx := rfl
@[simp] theorem State.modNv_pmc (t : TileId) (f : TileNv → TileNv) : (s.modNv t f).pmc = s.pmc := rfl
@[simp] theorem State.modNv_sec (t : TileId) (f : TileNv → TileNv) : (s.modNv t f).sec = s.sec := rfl
@[simp] theorem State.modNv_seq (t : TileId) (f : TileNv → TileNv) : (s.modNv t f).seq = s.seq := rfl
@[simp] theorem State.modNv_hld (t : TileId) (f : TileNv → TileNv) : (s.modNv t f).hld = s.hld := rfl
@[simp] theorem State.modNv_flush (t : TileId) (f : TileNv → TileNv) : (s.modNv t f).flush = s.flush := rfl
@[simp] theorem State.modNv_pwr (t : TileId) (f : TileNv → TileNv) : (s.modNv t f).pwr = s.pwr := rfl
@[simp] theorem State.modNv_clk (t : TileId) (f : TileNv → TileNv) : (s.modNv t f).clk = s.clk := rfl
@[simp] theorem State.modNv_thm (t : TileId) (f : TileNv → TileNv) : (s.modNv t f).thm = s.thm := rfl
@[simp] theorem State.modNv_tiles (t : TileId) (f : TileNv → TileNv) : (s.modNv t f).tiles = s.tiles := rfl
@[simp] theorem State.modNv_heads (t : TileId) (f : TileNv → TileNv) : (s.modNv t f).heads = s.heads := rfl
@[simp] theorem State.modNv_loads (t : TileId) (f : TileNv → TileNv) : (s.modNv t f).loads = s.loads := rfl
@[simp] theorem State.modNv_nextReq (t : TileId) (f : TileNv → TileNv) : (s.modNv t f).nextReq = s.nextReq := rfl
@[simp] theorem State.modNv_fab (t : TileId) (f : TileNv → TileNv) : (s.modNv t f).fab = s.fab := rfl
@[simp] theorem State.modNv_guest (t : TileId) (f : TileNv → TileNv) : (s.modNv t f).guest = s.guest := rfl
@[simp] theorem State.modNv_mesh (t : TileId) (f : TileNv → TileNv) : (s.modNv t f).mesh = s.mesh := rfl
@[simp] theorem State.modNv_svc (t : TileId) (f : TileNv → TileNv) : (s.modNv t f).svc = s.svc := rfl
@[simp] theorem State.modNv_poison (t : TileId) (f : TileNv → TileNv) : (s.modNv t f).poison = s.poison := rfl

/-! ### modMedia -/

@[simp] theorem State.modMedia_pending (t : TileId) (f : Media → Media) : (s.modMedia t f).pending = s.pending := rfl
@[simp] theorem State.modMedia_fv (t : TileId) (f : Media → Media) : (s.modMedia t f).fv = s.fv := rfl
@[simp] theorem State.modMedia_fuses (t : TileId) (f : Media → Media) : (s.modMedia t f).fuses = s.fuses := rfl
@[simp] theorem State.modMedia_nv (t : TileId) (f : Media → Media) : (s.modMedia t f).nv = s.nv := rfl
@[simp] theorem State.modMedia_staged (t : TileId) (f : Media → Media) : (s.modMedia t f).staged = s.staged := rfl
@[simp] theorem State.modMedia_aon (t : TileId) (f : Media → Media) : (s.modMedia t f).aon = s.aon := rfl
@[simp] theorem State.modMedia_sys (t : TileId) (f : Media → Media) : (s.modMedia t f).sys = s.sys := rfl
@[simp] theorem State.modMedia_boot (t : TileId) (f : Media → Media) : (s.modMedia t f).boot = s.boot := rfl
@[simp] theorem State.modMedia_cfg (t : TileId) (f : Media → Media) : (s.modMedia t f).cfg = s.cfg := rfl
@[simp] theorem State.modMedia_prm (t : TileId) (f : Media → Media) : (s.modMedia t f).prm = s.prm := rfl
@[simp] theorem State.modMedia_evr (t : TileId) (f : Media → Media) : (s.modMedia t f).evr = s.evr := rfl
@[simp] theorem State.modMedia_bbx (t : TileId) (f : Media → Media) : (s.modMedia t f).bbx = s.bbx := rfl
@[simp] theorem State.modMedia_pmc (t : TileId) (f : Media → Media) : (s.modMedia t f).pmc = s.pmc := rfl
@[simp] theorem State.modMedia_sec (t : TileId) (f : Media → Media) : (s.modMedia t f).sec = s.sec := rfl
@[simp] theorem State.modMedia_seq (t : TileId) (f : Media → Media) : (s.modMedia t f).seq = s.seq := rfl
@[simp] theorem State.modMedia_hld (t : TileId) (f : Media → Media) : (s.modMedia t f).hld = s.hld := rfl
@[simp] theorem State.modMedia_flush (t : TileId) (f : Media → Media) : (s.modMedia t f).flush = s.flush := rfl
@[simp] theorem State.modMedia_pwr (t : TileId) (f : Media → Media) : (s.modMedia t f).pwr = s.pwr := rfl
@[simp] theorem State.modMedia_clk (t : TileId) (f : Media → Media) : (s.modMedia t f).clk = s.clk := rfl
@[simp] theorem State.modMedia_thm (t : TileId) (f : Media → Media) : (s.modMedia t f).thm = s.thm := rfl
@[simp] theorem State.modMedia_tiles (t : TileId) (f : Media → Media) : (s.modMedia t f).tiles = s.tiles := rfl
@[simp] theorem State.modMedia_heads (t : TileId) (f : Media → Media) : (s.modMedia t f).heads = s.heads := rfl
@[simp] theorem State.modMedia_loads (t : TileId) (f : Media → Media) : (s.modMedia t f).loads = s.loads := rfl
@[simp] theorem State.modMedia_nextReq (t : TileId) (f : Media → Media) : (s.modMedia t f).nextReq = s.nextReq := rfl
@[simp] theorem State.modMedia_fab (t : TileId) (f : Media → Media) : (s.modMedia t f).fab = s.fab := rfl
@[simp] theorem State.modMedia_guest (t : TileId) (f : Media → Media) : (s.modMedia t f).guest = s.guest := rfl
@[simp] theorem State.modMedia_mesh (t : TileId) (f : Media → Media) : (s.modMedia t f).mesh = s.mesh := rfl
@[simp] theorem State.modMedia_svc (t : TileId) (f : Media → Media) : (s.modMedia t f).svc = s.svc := rfl
@[simp] theorem State.modMedia_poison (t : TileId) (f : Media → Media) : (s.modMedia t f).poison = s.poison := rfl

/-! ### modStaged -/

@[simp] theorem State.modStaged_pending (t : TileId) (f : StagedMedia → StagedMedia) : (s.modStaged t f).pending = s.pending := rfl
@[simp] theorem State.modStaged_fv (t : TileId) (f : StagedMedia → StagedMedia) : (s.modStaged t f).fv = s.fv := rfl
@[simp] theorem State.modStaged_fuses (t : TileId) (f : StagedMedia → StagedMedia) : (s.modStaged t f).fuses = s.fuses := rfl
@[simp] theorem State.modStaged_nv (t : TileId) (f : StagedMedia → StagedMedia) : (s.modStaged t f).nv = s.nv := rfl
@[simp] theorem State.modStaged_media (t : TileId) (f : StagedMedia → StagedMedia) : (s.modStaged t f).media = s.media := rfl
@[simp] theorem State.modStaged_aon (t : TileId) (f : StagedMedia → StagedMedia) : (s.modStaged t f).aon = s.aon := rfl
@[simp] theorem State.modStaged_sys (t : TileId) (f : StagedMedia → StagedMedia) : (s.modStaged t f).sys = s.sys := rfl
@[simp] theorem State.modStaged_boot (t : TileId) (f : StagedMedia → StagedMedia) : (s.modStaged t f).boot = s.boot := rfl
@[simp] theorem State.modStaged_cfg (t : TileId) (f : StagedMedia → StagedMedia) : (s.modStaged t f).cfg = s.cfg := rfl
@[simp] theorem State.modStaged_prm (t : TileId) (f : StagedMedia → StagedMedia) : (s.modStaged t f).prm = s.prm := rfl
@[simp] theorem State.modStaged_evr (t : TileId) (f : StagedMedia → StagedMedia) : (s.modStaged t f).evr = s.evr := rfl
@[simp] theorem State.modStaged_bbx (t : TileId) (f : StagedMedia → StagedMedia) : (s.modStaged t f).bbx = s.bbx := rfl
@[simp] theorem State.modStaged_pmc (t : TileId) (f : StagedMedia → StagedMedia) : (s.modStaged t f).pmc = s.pmc := rfl
@[simp] theorem State.modStaged_sec (t : TileId) (f : StagedMedia → StagedMedia) : (s.modStaged t f).sec = s.sec := rfl
@[simp] theorem State.modStaged_seq (t : TileId) (f : StagedMedia → StagedMedia) : (s.modStaged t f).seq = s.seq := rfl
@[simp] theorem State.modStaged_hld (t : TileId) (f : StagedMedia → StagedMedia) : (s.modStaged t f).hld = s.hld := rfl
@[simp] theorem State.modStaged_flush (t : TileId) (f : StagedMedia → StagedMedia) : (s.modStaged t f).flush = s.flush := rfl
@[simp] theorem State.modStaged_pwr (t : TileId) (f : StagedMedia → StagedMedia) : (s.modStaged t f).pwr = s.pwr := rfl
@[simp] theorem State.modStaged_clk (t : TileId) (f : StagedMedia → StagedMedia) : (s.modStaged t f).clk = s.clk := rfl
@[simp] theorem State.modStaged_thm (t : TileId) (f : StagedMedia → StagedMedia) : (s.modStaged t f).thm = s.thm := rfl
@[simp] theorem State.modStaged_tiles (t : TileId) (f : StagedMedia → StagedMedia) : (s.modStaged t f).tiles = s.tiles := rfl
@[simp] theorem State.modStaged_heads (t : TileId) (f : StagedMedia → StagedMedia) : (s.modStaged t f).heads = s.heads := rfl
@[simp] theorem State.modStaged_loads (t : TileId) (f : StagedMedia → StagedMedia) : (s.modStaged t f).loads = s.loads := rfl
@[simp] theorem State.modStaged_nextReq (t : TileId) (f : StagedMedia → StagedMedia) : (s.modStaged t f).nextReq = s.nextReq := rfl
@[simp] theorem State.modStaged_fab (t : TileId) (f : StagedMedia → StagedMedia) : (s.modStaged t f).fab = s.fab := rfl
@[simp] theorem State.modStaged_guest (t : TileId) (f : StagedMedia → StagedMedia) : (s.modStaged t f).guest = s.guest := rfl
@[simp] theorem State.modStaged_mesh (t : TileId) (f : StagedMedia → StagedMedia) : (s.modStaged t f).mesh = s.mesh := rfl
@[simp] theorem State.modStaged_svc (t : TileId) (f : StagedMedia → StagedMedia) : (s.modStaged t f).svc = s.svc := rfl
@[simp] theorem State.modStaged_poison (t : TileId) (f : StagedMedia → StagedMedia) : (s.modStaged t f).poison = s.poison := rfl

/-! ### modFab -/

@[simp] theorem State.modFab_pending (t : TileId) (f : Fabric → Fabric) : (s.modFab t f).pending = s.pending := rfl
@[simp] theorem State.modFab_fv (t : TileId) (f : Fabric → Fabric) : (s.modFab t f).fv = s.fv := rfl
@[simp] theorem State.modFab_fuses (t : TileId) (f : Fabric → Fabric) : (s.modFab t f).fuses = s.fuses := rfl
@[simp] theorem State.modFab_nv (t : TileId) (f : Fabric → Fabric) : (s.modFab t f).nv = s.nv := rfl
@[simp] theorem State.modFab_media (t : TileId) (f : Fabric → Fabric) : (s.modFab t f).media = s.media := rfl
@[simp] theorem State.modFab_staged (t : TileId) (f : Fabric → Fabric) : (s.modFab t f).staged = s.staged := rfl
@[simp] theorem State.modFab_aon (t : TileId) (f : Fabric → Fabric) : (s.modFab t f).aon = s.aon := rfl
@[simp] theorem State.modFab_sys (t : TileId) (f : Fabric → Fabric) : (s.modFab t f).sys = s.sys := rfl
@[simp] theorem State.modFab_boot (t : TileId) (f : Fabric → Fabric) : (s.modFab t f).boot = s.boot := rfl
@[simp] theorem State.modFab_cfg (t : TileId) (f : Fabric → Fabric) : (s.modFab t f).cfg = s.cfg := rfl
@[simp] theorem State.modFab_prm (t : TileId) (f : Fabric → Fabric) : (s.modFab t f).prm = s.prm := rfl
@[simp] theorem State.modFab_evr (t : TileId) (f : Fabric → Fabric) : (s.modFab t f).evr = s.evr := rfl
@[simp] theorem State.modFab_bbx (t : TileId) (f : Fabric → Fabric) : (s.modFab t f).bbx = s.bbx := rfl
@[simp] theorem State.modFab_pmc (t : TileId) (f : Fabric → Fabric) : (s.modFab t f).pmc = s.pmc := rfl
@[simp] theorem State.modFab_sec (t : TileId) (f : Fabric → Fabric) : (s.modFab t f).sec = s.sec := rfl
@[simp] theorem State.modFab_seq (t : TileId) (f : Fabric → Fabric) : (s.modFab t f).seq = s.seq := rfl
@[simp] theorem State.modFab_hld (t : TileId) (f : Fabric → Fabric) : (s.modFab t f).hld = s.hld := rfl
@[simp] theorem State.modFab_flush (t : TileId) (f : Fabric → Fabric) : (s.modFab t f).flush = s.flush := rfl
@[simp] theorem State.modFab_pwr (t : TileId) (f : Fabric → Fabric) : (s.modFab t f).pwr = s.pwr := rfl
@[simp] theorem State.modFab_clk (t : TileId) (f : Fabric → Fabric) : (s.modFab t f).clk = s.clk := rfl
@[simp] theorem State.modFab_thm (t : TileId) (f : Fabric → Fabric) : (s.modFab t f).thm = s.thm := rfl
@[simp] theorem State.modFab_tiles (t : TileId) (f : Fabric → Fabric) : (s.modFab t f).tiles = s.tiles := rfl
@[simp] theorem State.modFab_heads (t : TileId) (f : Fabric → Fabric) : (s.modFab t f).heads = s.heads := rfl
@[simp] theorem State.modFab_loads (t : TileId) (f : Fabric → Fabric) : (s.modFab t f).loads = s.loads := rfl
@[simp] theorem State.modFab_nextReq (t : TileId) (f : Fabric → Fabric) : (s.modFab t f).nextReq = s.nextReq := rfl
@[simp] theorem State.modFab_guest (t : TileId) (f : Fabric → Fabric) : (s.modFab t f).guest = s.guest := rfl
@[simp] theorem State.modFab_mesh (t : TileId) (f : Fabric → Fabric) : (s.modFab t f).mesh = s.mesh := rfl
@[simp] theorem State.modFab_svc (t : TileId) (f : Fabric → Fabric) : (s.modFab t f).svc = s.svc := rfl
@[simp] theorem State.modFab_poison (t : TileId) (f : Fabric → Fabric) : (s.modFab t f).poison = s.poison := rfl

/-! ### modD -/

@[simp] theorem State.modD_pending (t : TileId) (f : TileData → TileData) : (s.modD t f).pending = s.pending := rfl
@[simp] theorem State.modD_fv (t : TileId) (f : TileData → TileData) : (s.modD t f).fv = s.fv := rfl
@[simp] theorem State.modD_fuses (t : TileId) (f : TileData → TileData) : (s.modD t f).fuses = s.fuses := rfl
@[simp] theorem State.modD_nv (t : TileId) (f : TileData → TileData) : (s.modD t f).nv = s.nv := rfl
@[simp] theorem State.modD_media (t : TileId) (f : TileData → TileData) : (s.modD t f).media = s.media := rfl
@[simp] theorem State.modD_staged (t : TileId) (f : TileData → TileData) : (s.modD t f).staged = s.staged := rfl
@[simp] theorem State.modD_aon (t : TileId) (f : TileData → TileData) : (s.modD t f).aon = s.aon := rfl
@[simp] theorem State.modD_sys (t : TileId) (f : TileData → TileData) : (s.modD t f).sys = s.sys := rfl
@[simp] theorem State.modD_boot (t : TileId) (f : TileData → TileData) : (s.modD t f).boot = s.boot := rfl
@[simp] theorem State.modD_cfg (t : TileId) (f : TileData → TileData) : (s.modD t f).cfg = s.cfg := rfl
@[simp] theorem State.modD_prm (t : TileId) (f : TileData → TileData) : (s.modD t f).prm = s.prm := rfl
@[simp] theorem State.modD_evr (t : TileId) (f : TileData → TileData) : (s.modD t f).evr = s.evr := rfl
@[simp] theorem State.modD_bbx (t : TileId) (f : TileData → TileData) : (s.modD t f).bbx = s.bbx := rfl
@[simp] theorem State.modD_pmc (t : TileId) (f : TileData → TileData) : (s.modD t f).pmc = s.pmc := rfl
@[simp] theorem State.modD_sec (t : TileId) (f : TileData → TileData) : (s.modD t f).sec = s.sec := rfl
@[simp] theorem State.modD_seq (t : TileId) (f : TileData → TileData) : (s.modD t f).seq = s.seq := rfl
@[simp] theorem State.modD_hld (t : TileId) (f : TileData → TileData) : (s.modD t f).hld = s.hld := rfl
@[simp] theorem State.modD_flush (t : TileId) (f : TileData → TileData) : (s.modD t f).flush = s.flush := rfl
@[simp] theorem State.modD_pwr (t : TileId) (f : TileData → TileData) : (s.modD t f).pwr = s.pwr := rfl
@[simp] theorem State.modD_clk (t : TileId) (f : TileData → TileData) : (s.modD t f).clk = s.clk := rfl
@[simp] theorem State.modD_thm (t : TileId) (f : TileData → TileData) : (s.modD t f).thm = s.thm := rfl
@[simp] theorem State.modD_heads (t : TileId) (f : TileData → TileData) : (s.modD t f).heads = s.heads := rfl
@[simp] theorem State.modD_loads (t : TileId) (f : TileData → TileData) : (s.modD t f).loads = s.loads := rfl
@[simp] theorem State.modD_nextReq (t : TileId) (f : TileData → TileData) : (s.modD t f).nextReq = s.nextReq := rfl
@[simp] theorem State.modD_fab (t : TileId) (f : TileData → TileData) : (s.modD t f).fab = s.fab := rfl
@[simp] theorem State.modD_guest (t : TileId) (f : TileData → TileData) : (s.modD t f).guest = s.guest := rfl
@[simp] theorem State.modD_mesh (t : TileId) (f : TileData → TileData) : (s.modD t f).mesh = s.mesh := rfl
@[simp] theorem State.modD_svc (t : TileId) (f : TileData → TileData) : (s.modD t f).svc = s.svc := rfl
@[simp] theorem State.modD_poison (t : TileId) (f : TileData → TileData) : (s.modD t f).poison = s.poison := rfl

/-! ### modPl -/

@[simp] theorem State.modPl_pending (t : TileId) (f : Placement → Placement) : (s.modPl t f).pending = s.pending := rfl
@[simp] theorem State.modPl_fv (t : TileId) (f : Placement → Placement) : (s.modPl t f).fv = s.fv := rfl
@[simp] theorem State.modPl_fuses (t : TileId) (f : Placement → Placement) : (s.modPl t f).fuses = s.fuses := rfl
@[simp] theorem State.modPl_nv (t : TileId) (f : Placement → Placement) : (s.modPl t f).nv = s.nv := rfl
@[simp] theorem State.modPl_media (t : TileId) (f : Placement → Placement) : (s.modPl t f).media = s.media := rfl
@[simp] theorem State.modPl_staged (t : TileId) (f : Placement → Placement) : (s.modPl t f).staged = s.staged := rfl
@[simp] theorem State.modPl_aon (t : TileId) (f : Placement → Placement) : (s.modPl t f).aon = s.aon := rfl
@[simp] theorem State.modPl_sys (t : TileId) (f : Placement → Placement) : (s.modPl t f).sys = s.sys := rfl
@[simp] theorem State.modPl_boot (t : TileId) (f : Placement → Placement) : (s.modPl t f).boot = s.boot := rfl
@[simp] theorem State.modPl_cfg (t : TileId) (f : Placement → Placement) : (s.modPl t f).cfg = s.cfg := rfl
@[simp] theorem State.modPl_prm (t : TileId) (f : Placement → Placement) : (s.modPl t f).prm = s.prm := rfl
@[simp] theorem State.modPl_evr (t : TileId) (f : Placement → Placement) : (s.modPl t f).evr = s.evr := rfl
@[simp] theorem State.modPl_bbx (t : TileId) (f : Placement → Placement) : (s.modPl t f).bbx = s.bbx := rfl
@[simp] theorem State.modPl_pmc (t : TileId) (f : Placement → Placement) : (s.modPl t f).pmc = s.pmc := rfl
@[simp] theorem State.modPl_sec (t : TileId) (f : Placement → Placement) : (s.modPl t f).sec = s.sec := rfl
@[simp] theorem State.modPl_seq (t : TileId) (f : Placement → Placement) : (s.modPl t f).seq = s.seq := rfl
@[simp] theorem State.modPl_hld (t : TileId) (f : Placement → Placement) : (s.modPl t f).hld = s.hld := rfl
@[simp] theorem State.modPl_flush (t : TileId) (f : Placement → Placement) : (s.modPl t f).flush = s.flush := rfl
@[simp] theorem State.modPl_pwr (t : TileId) (f : Placement → Placement) : (s.modPl t f).pwr = s.pwr := rfl
@[simp] theorem State.modPl_clk (t : TileId) (f : Placement → Placement) : (s.modPl t f).clk = s.clk := rfl
@[simp] theorem State.modPl_thm (t : TileId) (f : Placement → Placement) : (s.modPl t f).thm = s.thm := rfl
@[simp] theorem State.modPl_heads (t : TileId) (f : Placement → Placement) : (s.modPl t f).heads = s.heads := rfl
@[simp] theorem State.modPl_loads (t : TileId) (f : Placement → Placement) : (s.modPl t f).loads = s.loads := rfl
@[simp] theorem State.modPl_nextReq (t : TileId) (f : Placement → Placement) : (s.modPl t f).nextReq = s.nextReq := rfl
@[simp] theorem State.modPl_fab (t : TileId) (f : Placement → Placement) : (s.modPl t f).fab = s.fab := rfl
@[simp] theorem State.modPl_guest (t : TileId) (f : Placement → Placement) : (s.modPl t f).guest = s.guest := rfl
@[simp] theorem State.modPl_mesh (t : TileId) (f : Placement → Placement) : (s.modPl t f).mesh = s.mesh := rfl
@[simp] theorem State.modPl_svc (t : TileId) (f : Placement → Placement) : (s.modPl t f).svc = s.svc := rfl
@[simp] theorem State.modPl_poison (t : TileId) (f : Placement → Placement) : (s.modPl t f).poison = s.poison := rfl

/-! ### modEng -/

@[simp] theorem State.modEng_pending (t : TileId) (f : Engine → Engine) : (s.modEng t f).pending = s.pending := rfl
@[simp] theorem State.modEng_fv (t : TileId) (f : Engine → Engine) : (s.modEng t f).fv = s.fv := rfl
@[simp] theorem State.modEng_fuses (t : TileId) (f : Engine → Engine) : (s.modEng t f).fuses = s.fuses := rfl
@[simp] theorem State.modEng_nv (t : TileId) (f : Engine → Engine) : (s.modEng t f).nv = s.nv := rfl
@[simp] theorem State.modEng_media (t : TileId) (f : Engine → Engine) : (s.modEng t f).media = s.media := rfl
@[simp] theorem State.modEng_staged (t : TileId) (f : Engine → Engine) : (s.modEng t f).staged = s.staged := rfl
@[simp] theorem State.modEng_aon (t : TileId) (f : Engine → Engine) : (s.modEng t f).aon = s.aon := rfl
@[simp] theorem State.modEng_sys (t : TileId) (f : Engine → Engine) : (s.modEng t f).sys = s.sys := rfl
@[simp] theorem State.modEng_boot (t : TileId) (f : Engine → Engine) : (s.modEng t f).boot = s.boot := rfl
@[simp] theorem State.modEng_cfg (t : TileId) (f : Engine → Engine) : (s.modEng t f).cfg = s.cfg := rfl
@[simp] theorem State.modEng_prm (t : TileId) (f : Engine → Engine) : (s.modEng t f).prm = s.prm := rfl
@[simp] theorem State.modEng_evr (t : TileId) (f : Engine → Engine) : (s.modEng t f).evr = s.evr := rfl
@[simp] theorem State.modEng_bbx (t : TileId) (f : Engine → Engine) : (s.modEng t f).bbx = s.bbx := rfl
@[simp] theorem State.modEng_pmc (t : TileId) (f : Engine → Engine) : (s.modEng t f).pmc = s.pmc := rfl
@[simp] theorem State.modEng_sec (t : TileId) (f : Engine → Engine) : (s.modEng t f).sec = s.sec := rfl
@[simp] theorem State.modEng_seq (t : TileId) (f : Engine → Engine) : (s.modEng t f).seq = s.seq := rfl
@[simp] theorem State.modEng_hld (t : TileId) (f : Engine → Engine) : (s.modEng t f).hld = s.hld := rfl
@[simp] theorem State.modEng_flush (t : TileId) (f : Engine → Engine) : (s.modEng t f).flush = s.flush := rfl
@[simp] theorem State.modEng_pwr (t : TileId) (f : Engine → Engine) : (s.modEng t f).pwr = s.pwr := rfl
@[simp] theorem State.modEng_clk (t : TileId) (f : Engine → Engine) : (s.modEng t f).clk = s.clk := rfl
@[simp] theorem State.modEng_thm (t : TileId) (f : Engine → Engine) : (s.modEng t f).thm = s.thm := rfl
@[simp] theorem State.modEng_heads (t : TileId) (f : Engine → Engine) : (s.modEng t f).heads = s.heads := rfl
@[simp] theorem State.modEng_loads (t : TileId) (f : Engine → Engine) : (s.modEng t f).loads = s.loads := rfl
@[simp] theorem State.modEng_nextReq (t : TileId) (f : Engine → Engine) : (s.modEng t f).nextReq = s.nextReq := rfl
@[simp] theorem State.modEng_fab (t : TileId) (f : Engine → Engine) : (s.modEng t f).fab = s.fab := rfl
@[simp] theorem State.modEng_guest (t : TileId) (f : Engine → Engine) : (s.modEng t f).guest = s.guest := rfl
@[simp] theorem State.modEng_mesh (t : TileId) (f : Engine → Engine) : (s.modEng t f).mesh = s.mesh := rfl
@[simp] theorem State.modEng_svc (t : TileId) (f : Engine → Engine) : (s.modEng t f).svc = s.svc := rfl
@[simp] theorem State.modEng_poison (t : TileId) (f : Engine → Engine) : (s.modEng t f).poison = s.poison := rfl

/-! ### modIt -/

@[simp] theorem State.modIt_pending (t : TileId) (f : Integrity → Integrity) : (s.modIt t f).pending = s.pending := rfl
@[simp] theorem State.modIt_fv (t : TileId) (f : Integrity → Integrity) : (s.modIt t f).fv = s.fv := rfl
@[simp] theorem State.modIt_fuses (t : TileId) (f : Integrity → Integrity) : (s.modIt t f).fuses = s.fuses := rfl
@[simp] theorem State.modIt_nv (t : TileId) (f : Integrity → Integrity) : (s.modIt t f).nv = s.nv := rfl
@[simp] theorem State.modIt_media (t : TileId) (f : Integrity → Integrity) : (s.modIt t f).media = s.media := rfl
@[simp] theorem State.modIt_staged (t : TileId) (f : Integrity → Integrity) : (s.modIt t f).staged = s.staged := rfl
@[simp] theorem State.modIt_aon (t : TileId) (f : Integrity → Integrity) : (s.modIt t f).aon = s.aon := rfl
@[simp] theorem State.modIt_sys (t : TileId) (f : Integrity → Integrity) : (s.modIt t f).sys = s.sys := rfl
@[simp] theorem State.modIt_boot (t : TileId) (f : Integrity → Integrity) : (s.modIt t f).boot = s.boot := rfl
@[simp] theorem State.modIt_cfg (t : TileId) (f : Integrity → Integrity) : (s.modIt t f).cfg = s.cfg := rfl
@[simp] theorem State.modIt_prm (t : TileId) (f : Integrity → Integrity) : (s.modIt t f).prm = s.prm := rfl
@[simp] theorem State.modIt_evr (t : TileId) (f : Integrity → Integrity) : (s.modIt t f).evr = s.evr := rfl
@[simp] theorem State.modIt_bbx (t : TileId) (f : Integrity → Integrity) : (s.modIt t f).bbx = s.bbx := rfl
@[simp] theorem State.modIt_pmc (t : TileId) (f : Integrity → Integrity) : (s.modIt t f).pmc = s.pmc := rfl
@[simp] theorem State.modIt_sec (t : TileId) (f : Integrity → Integrity) : (s.modIt t f).sec = s.sec := rfl
@[simp] theorem State.modIt_seq (t : TileId) (f : Integrity → Integrity) : (s.modIt t f).seq = s.seq := rfl
@[simp] theorem State.modIt_hld (t : TileId) (f : Integrity → Integrity) : (s.modIt t f).hld = s.hld := rfl
@[simp] theorem State.modIt_flush (t : TileId) (f : Integrity → Integrity) : (s.modIt t f).flush = s.flush := rfl
@[simp] theorem State.modIt_pwr (t : TileId) (f : Integrity → Integrity) : (s.modIt t f).pwr = s.pwr := rfl
@[simp] theorem State.modIt_clk (t : TileId) (f : Integrity → Integrity) : (s.modIt t f).clk = s.clk := rfl
@[simp] theorem State.modIt_thm (t : TileId) (f : Integrity → Integrity) : (s.modIt t f).thm = s.thm := rfl
@[simp] theorem State.modIt_heads (t : TileId) (f : Integrity → Integrity) : (s.modIt t f).heads = s.heads := rfl
@[simp] theorem State.modIt_loads (t : TileId) (f : Integrity → Integrity) : (s.modIt t f).loads = s.loads := rfl
@[simp] theorem State.modIt_nextReq (t : TileId) (f : Integrity → Integrity) : (s.modIt t f).nextReq = s.nextReq := rfl
@[simp] theorem State.modIt_fab (t : TileId) (f : Integrity → Integrity) : (s.modIt t f).fab = s.fab := rfl
@[simp] theorem State.modIt_guest (t : TileId) (f : Integrity → Integrity) : (s.modIt t f).guest = s.guest := rfl
@[simp] theorem State.modIt_mesh (t : TileId) (f : Integrity → Integrity) : (s.modIt t f).mesh = s.mesh := rfl
@[simp] theorem State.modIt_svc (t : TileId) (f : Integrity → Integrity) : (s.modIt t f).svc = s.svc := rfl
@[simp] theorem State.modIt_poison (t : TileId) (f : Integrity → Integrity) : (s.modIt t f).poison = s.poison := rfl

/-! ### modCh -/

@[simp] theorem State.modCh_pending (t : TileId) (c : ChanId) (f : Chan → Chan) : (s.modCh t c f).pending = s.pending := rfl
@[simp] theorem State.modCh_fv (t : TileId) (c : ChanId) (f : Chan → Chan) : (s.modCh t c f).fv = s.fv := rfl
@[simp] theorem State.modCh_fuses (t : TileId) (c : ChanId) (f : Chan → Chan) : (s.modCh t c f).fuses = s.fuses := rfl
@[simp] theorem State.modCh_nv (t : TileId) (c : ChanId) (f : Chan → Chan) : (s.modCh t c f).nv = s.nv := rfl
@[simp] theorem State.modCh_media (t : TileId) (c : ChanId) (f : Chan → Chan) : (s.modCh t c f).media = s.media := rfl
@[simp] theorem State.modCh_staged (t : TileId) (c : ChanId) (f : Chan → Chan) : (s.modCh t c f).staged = s.staged := rfl
@[simp] theorem State.modCh_aon (t : TileId) (c : ChanId) (f : Chan → Chan) : (s.modCh t c f).aon = s.aon := rfl
@[simp] theorem State.modCh_sys (t : TileId) (c : ChanId) (f : Chan → Chan) : (s.modCh t c f).sys = s.sys := rfl
@[simp] theorem State.modCh_boot (t : TileId) (c : ChanId) (f : Chan → Chan) : (s.modCh t c f).boot = s.boot := rfl
@[simp] theorem State.modCh_cfg (t : TileId) (c : ChanId) (f : Chan → Chan) : (s.modCh t c f).cfg = s.cfg := rfl
@[simp] theorem State.modCh_prm (t : TileId) (c : ChanId) (f : Chan → Chan) : (s.modCh t c f).prm = s.prm := rfl
@[simp] theorem State.modCh_evr (t : TileId) (c : ChanId) (f : Chan → Chan) : (s.modCh t c f).evr = s.evr := rfl
@[simp] theorem State.modCh_bbx (t : TileId) (c : ChanId) (f : Chan → Chan) : (s.modCh t c f).bbx = s.bbx := rfl
@[simp] theorem State.modCh_pmc (t : TileId) (c : ChanId) (f : Chan → Chan) : (s.modCh t c f).pmc = s.pmc := rfl
@[simp] theorem State.modCh_sec (t : TileId) (c : ChanId) (f : Chan → Chan) : (s.modCh t c f).sec = s.sec := rfl
@[simp] theorem State.modCh_seq (t : TileId) (c : ChanId) (f : Chan → Chan) : (s.modCh t c f).seq = s.seq := rfl
@[simp] theorem State.modCh_hld (t : TileId) (c : ChanId) (f : Chan → Chan) : (s.modCh t c f).hld = s.hld := rfl
@[simp] theorem State.modCh_flush (t : TileId) (c : ChanId) (f : Chan → Chan) : (s.modCh t c f).flush = s.flush := rfl
@[simp] theorem State.modCh_pwr (t : TileId) (c : ChanId) (f : Chan → Chan) : (s.modCh t c f).pwr = s.pwr := rfl
@[simp] theorem State.modCh_clk (t : TileId) (c : ChanId) (f : Chan → Chan) : (s.modCh t c f).clk = s.clk := rfl
@[simp] theorem State.modCh_thm (t : TileId) (c : ChanId) (f : Chan → Chan) : (s.modCh t c f).thm = s.thm := rfl
@[simp] theorem State.modCh_heads (t : TileId) (c : ChanId) (f : Chan → Chan) : (s.modCh t c f).heads = s.heads := rfl
@[simp] theorem State.modCh_loads (t : TileId) (c : ChanId) (f : Chan → Chan) : (s.modCh t c f).loads = s.loads := rfl
@[simp] theorem State.modCh_nextReq (t : TileId) (c : ChanId) (f : Chan → Chan) : (s.modCh t c f).nextReq = s.nextReq := rfl
@[simp] theorem State.modCh_fab (t : TileId) (c : ChanId) (f : Chan → Chan) : (s.modCh t c f).fab = s.fab := rfl
@[simp] theorem State.modCh_guest (t : TileId) (c : ChanId) (f : Chan → Chan) : (s.modCh t c f).guest = s.guest := rfl
@[simp] theorem State.modCh_mesh (t : TileId) (c : ChanId) (f : Chan → Chan) : (s.modCh t c f).mesh = s.mesh := rfl
@[simp] theorem State.modCh_svc (t : TileId) (c : ChanId) (f : Chan → Chan) : (s.modCh t c f).svc = s.svc := rfl
@[simp] theorem State.modCh_poison (t : TileId) (c : ChanId) (f : Chan → Chan) : (s.modCh t c f).poison = s.poison := rfl

/-! ### modDie -/

@[simp] theorem State.modDie_pending (t : TileId) (c : ChanId) (p : Fin 9) (f : Die → Die) : (s.modDie t c p f).pending = s.pending := rfl
@[simp] theorem State.modDie_fv (t : TileId) (c : ChanId) (p : Fin 9) (f : Die → Die) : (s.modDie t c p f).fv = s.fv := rfl
@[simp] theorem State.modDie_fuses (t : TileId) (c : ChanId) (p : Fin 9) (f : Die → Die) : (s.modDie t c p f).fuses = s.fuses := rfl
@[simp] theorem State.modDie_nv (t : TileId) (c : ChanId) (p : Fin 9) (f : Die → Die) : (s.modDie t c p f).nv = s.nv := rfl
@[simp] theorem State.modDie_media (t : TileId) (c : ChanId) (p : Fin 9) (f : Die → Die) : (s.modDie t c p f).media = s.media := rfl
@[simp] theorem State.modDie_staged (t : TileId) (c : ChanId) (p : Fin 9) (f : Die → Die) : (s.modDie t c p f).staged = s.staged := rfl
@[simp] theorem State.modDie_aon (t : TileId) (c : ChanId) (p : Fin 9) (f : Die → Die) : (s.modDie t c p f).aon = s.aon := rfl
@[simp] theorem State.modDie_sys (t : TileId) (c : ChanId) (p : Fin 9) (f : Die → Die) : (s.modDie t c p f).sys = s.sys := rfl
@[simp] theorem State.modDie_boot (t : TileId) (c : ChanId) (p : Fin 9) (f : Die → Die) : (s.modDie t c p f).boot = s.boot := rfl
@[simp] theorem State.modDie_cfg (t : TileId) (c : ChanId) (p : Fin 9) (f : Die → Die) : (s.modDie t c p f).cfg = s.cfg := rfl
@[simp] theorem State.modDie_prm (t : TileId) (c : ChanId) (p : Fin 9) (f : Die → Die) : (s.modDie t c p f).prm = s.prm := rfl
@[simp] theorem State.modDie_evr (t : TileId) (c : ChanId) (p : Fin 9) (f : Die → Die) : (s.modDie t c p f).evr = s.evr := rfl
@[simp] theorem State.modDie_bbx (t : TileId) (c : ChanId) (p : Fin 9) (f : Die → Die) : (s.modDie t c p f).bbx = s.bbx := rfl
@[simp] theorem State.modDie_pmc (t : TileId) (c : ChanId) (p : Fin 9) (f : Die → Die) : (s.modDie t c p f).pmc = s.pmc := rfl
@[simp] theorem State.modDie_sec (t : TileId) (c : ChanId) (p : Fin 9) (f : Die → Die) : (s.modDie t c p f).sec = s.sec := rfl
@[simp] theorem State.modDie_seq (t : TileId) (c : ChanId) (p : Fin 9) (f : Die → Die) : (s.modDie t c p f).seq = s.seq := rfl
@[simp] theorem State.modDie_hld (t : TileId) (c : ChanId) (p : Fin 9) (f : Die → Die) : (s.modDie t c p f).hld = s.hld := rfl
@[simp] theorem State.modDie_flush (t : TileId) (c : ChanId) (p : Fin 9) (f : Die → Die) : (s.modDie t c p f).flush = s.flush := rfl
@[simp] theorem State.modDie_pwr (t : TileId) (c : ChanId) (p : Fin 9) (f : Die → Die) : (s.modDie t c p f).pwr = s.pwr := rfl
@[simp] theorem State.modDie_clk (t : TileId) (c : ChanId) (p : Fin 9) (f : Die → Die) : (s.modDie t c p f).clk = s.clk := rfl
@[simp] theorem State.modDie_thm (t : TileId) (c : ChanId) (p : Fin 9) (f : Die → Die) : (s.modDie t c p f).thm = s.thm := rfl
@[simp] theorem State.modDie_heads (t : TileId) (c : ChanId) (p : Fin 9) (f : Die → Die) : (s.modDie t c p f).heads = s.heads := rfl
@[simp] theorem State.modDie_loads (t : TileId) (c : ChanId) (p : Fin 9) (f : Die → Die) : (s.modDie t c p f).loads = s.loads := rfl
@[simp] theorem State.modDie_nextReq (t : TileId) (c : ChanId) (p : Fin 9) (f : Die → Die) : (s.modDie t c p f).nextReq = s.nextReq := rfl
@[simp] theorem State.modDie_fab (t : TileId) (c : ChanId) (p : Fin 9) (f : Die → Die) : (s.modDie t c p f).fab = s.fab := rfl
@[simp] theorem State.modDie_guest (t : TileId) (c : ChanId) (p : Fin 9) (f : Die → Die) : (s.modDie t c p f).guest = s.guest := rfl
@[simp] theorem State.modDie_mesh (t : TileId) (c : ChanId) (p : Fin 9) (f : Die → Die) : (s.modDie t c p f).mesh = s.mesh := rfl
@[simp] theorem State.modDie_svc (t : TileId) (c : ChanId) (p : Fin 9) (f : Die → Die) : (s.modDie t c p f).svc = s.svc := rfl
@[simp] theorem State.modDie_poison (t : TileId) (c : ChanId) (p : Fin 9) (f : Die → Die) : (s.modDie t c p f).poison = s.poison := rfl

/-! ### modTherm -/

@[simp] theorem State.modTherm_pending (t : TileId) (f : TileThm → TileThm) : (s.modTherm t f).pending = s.pending := rfl
@[simp] theorem State.modTherm_fv (t : TileId) (f : TileThm → TileThm) : (s.modTherm t f).fv = s.fv := rfl
@[simp] theorem State.modTherm_fuses (t : TileId) (f : TileThm → TileThm) : (s.modTherm t f).fuses = s.fuses := rfl
@[simp] theorem State.modTherm_nv (t : TileId) (f : TileThm → TileThm) : (s.modTherm t f).nv = s.nv := rfl
@[simp] theorem State.modTherm_media (t : TileId) (f : TileThm → TileThm) : (s.modTherm t f).media = s.media := rfl
@[simp] theorem State.modTherm_staged (t : TileId) (f : TileThm → TileThm) : (s.modTherm t f).staged = s.staged := rfl
@[simp] theorem State.modTherm_aon (t : TileId) (f : TileThm → TileThm) : (s.modTherm t f).aon = s.aon := rfl
@[simp] theorem State.modTherm_sys (t : TileId) (f : TileThm → TileThm) : (s.modTherm t f).sys = s.sys := rfl
@[simp] theorem State.modTherm_boot (t : TileId) (f : TileThm → TileThm) : (s.modTherm t f).boot = s.boot := rfl
@[simp] theorem State.modTherm_cfg (t : TileId) (f : TileThm → TileThm) : (s.modTherm t f).cfg = s.cfg := rfl
@[simp] theorem State.modTherm_prm (t : TileId) (f : TileThm → TileThm) : (s.modTherm t f).prm = s.prm := rfl
@[simp] theorem State.modTherm_evr (t : TileId) (f : TileThm → TileThm) : (s.modTherm t f).evr = s.evr := rfl
@[simp] theorem State.modTherm_bbx (t : TileId) (f : TileThm → TileThm) : (s.modTherm t f).bbx = s.bbx := rfl
@[simp] theorem State.modTherm_pmc (t : TileId) (f : TileThm → TileThm) : (s.modTherm t f).pmc = s.pmc := rfl
@[simp] theorem State.modTherm_sec (t : TileId) (f : TileThm → TileThm) : (s.modTherm t f).sec = s.sec := rfl
@[simp] theorem State.modTherm_seq (t : TileId) (f : TileThm → TileThm) : (s.modTherm t f).seq = s.seq := rfl
@[simp] theorem State.modTherm_hld (t : TileId) (f : TileThm → TileThm) : (s.modTherm t f).hld = s.hld := rfl
@[simp] theorem State.modTherm_flush (t : TileId) (f : TileThm → TileThm) : (s.modTherm t f).flush = s.flush := rfl
@[simp] theorem State.modTherm_pwr (t : TileId) (f : TileThm → TileThm) : (s.modTherm t f).pwr = s.pwr := rfl
@[simp] theorem State.modTherm_clk (t : TileId) (f : TileThm → TileThm) : (s.modTherm t f).clk = s.clk := rfl
@[simp] theorem State.modTherm_thm (t : TileId) (f : TileThm → TileThm) : (s.modTherm t f).thm = s.thm := rfl
@[simp] theorem State.modTherm_heads (t : TileId) (f : TileThm → TileThm) : (s.modTherm t f).heads = s.heads := rfl
@[simp] theorem State.modTherm_loads (t : TileId) (f : TileThm → TileThm) : (s.modTherm t f).loads = s.loads := rfl
@[simp] theorem State.modTherm_nextReq (t : TileId) (f : TileThm → TileThm) : (s.modTherm t f).nextReq = s.nextReq := rfl
@[simp] theorem State.modTherm_fab (t : TileId) (f : TileThm → TileThm) : (s.modTherm t f).fab = s.fab := rfl
@[simp] theorem State.modTherm_guest (t : TileId) (f : TileThm → TileThm) : (s.modTherm t f).guest = s.guest := rfl
@[simp] theorem State.modTherm_mesh (t : TileId) (f : TileThm → TileThm) : (s.modTherm t f).mesh = s.mesh := rfl
@[simp] theorem State.modTherm_svc (t : TileId) (f : TileThm → TileThm) : (s.modTherm t f).svc = s.svc := rfl
@[simp] theorem State.modTherm_poison (t : TileId) (f : TileThm → TileThm) : (s.modTherm t f).poison = s.poison := rfl

/-! ### modCfl -/

@[simp] theorem State.modCfl_pending (t : TileId) (f : Cfl → Cfl) : (s.modCfl t f).pending = s.pending := rfl
@[simp] theorem State.modCfl_fv (t : TileId) (f : Cfl → Cfl) : (s.modCfl t f).fv = s.fv := rfl
@[simp] theorem State.modCfl_fuses (t : TileId) (f : Cfl → Cfl) : (s.modCfl t f).fuses = s.fuses := rfl
@[simp] theorem State.modCfl_nv (t : TileId) (f : Cfl → Cfl) : (s.modCfl t f).nv = s.nv := rfl
@[simp] theorem State.modCfl_media (t : TileId) (f : Cfl → Cfl) : (s.modCfl t f).media = s.media := rfl
@[simp] theorem State.modCfl_staged (t : TileId) (f : Cfl → Cfl) : (s.modCfl t f).staged = s.staged := rfl
@[simp] theorem State.modCfl_aon (t : TileId) (f : Cfl → Cfl) : (s.modCfl t f).aon = s.aon := rfl
@[simp] theorem State.modCfl_sys (t : TileId) (f : Cfl → Cfl) : (s.modCfl t f).sys = s.sys := rfl
@[simp] theorem State.modCfl_boot (t : TileId) (f : Cfl → Cfl) : (s.modCfl t f).boot = s.boot := rfl
@[simp] theorem State.modCfl_cfg (t : TileId) (f : Cfl → Cfl) : (s.modCfl t f).cfg = s.cfg := rfl
@[simp] theorem State.modCfl_prm (t : TileId) (f : Cfl → Cfl) : (s.modCfl t f).prm = s.prm := rfl
@[simp] theorem State.modCfl_evr (t : TileId) (f : Cfl → Cfl) : (s.modCfl t f).evr = s.evr := rfl
@[simp] theorem State.modCfl_bbx (t : TileId) (f : Cfl → Cfl) : (s.modCfl t f).bbx = s.bbx := rfl
@[simp] theorem State.modCfl_pmc (t : TileId) (f : Cfl → Cfl) : (s.modCfl t f).pmc = s.pmc := rfl
@[simp] theorem State.modCfl_sec (t : TileId) (f : Cfl → Cfl) : (s.modCfl t f).sec = s.sec := rfl
@[simp] theorem State.modCfl_seq (t : TileId) (f : Cfl → Cfl) : (s.modCfl t f).seq = s.seq := rfl
@[simp] theorem State.modCfl_hld (t : TileId) (f : Cfl → Cfl) : (s.modCfl t f).hld = s.hld := rfl
@[simp] theorem State.modCfl_flush (t : TileId) (f : Cfl → Cfl) : (s.modCfl t f).flush = s.flush := rfl
@[simp] theorem State.modCfl_pwr (t : TileId) (f : Cfl → Cfl) : (s.modCfl t f).pwr = s.pwr := rfl
@[simp] theorem State.modCfl_clk (t : TileId) (f : Cfl → Cfl) : (s.modCfl t f).clk = s.clk := rfl
@[simp] theorem State.modCfl_thm (t : TileId) (f : Cfl → Cfl) : (s.modCfl t f).thm = s.thm := rfl
@[simp] theorem State.modCfl_heads (t : TileId) (f : Cfl → Cfl) : (s.modCfl t f).heads = s.heads := rfl
@[simp] theorem State.modCfl_loads (t : TileId) (f : Cfl → Cfl) : (s.modCfl t f).loads = s.loads := rfl
@[simp] theorem State.modCfl_nextReq (t : TileId) (f : Cfl → Cfl) : (s.modCfl t f).nextReq = s.nextReq := rfl
@[simp] theorem State.modCfl_fab (t : TileId) (f : Cfl → Cfl) : (s.modCfl t f).fab = s.fab := rfl
@[simp] theorem State.modCfl_guest (t : TileId) (f : Cfl → Cfl) : (s.modCfl t f).guest = s.guest := rfl
@[simp] theorem State.modCfl_mesh (t : TileId) (f : Cfl → Cfl) : (s.modCfl t f).mesh = s.mesh := rfl
@[simp] theorem State.modCfl_svc (t : TileId) (f : Cfl → Cfl) : (s.modCfl t f).svc = s.svc := rfl
@[simp] theorem State.modCfl_poison (t : TileId) (f : Cfl → Cfl) : (s.modCfl t f).poison = s.poison := rfl

/-! ### The changed element -/

@[simp] theorem State.modTile_self (t : TileId) (f : Tile → Tile) : (s.modTile t f).tiles[(t : Nat)] = f s.tiles[(t : Nat)] := vmod_self _ _ _
@[simp] theorem State.modHead_self (h : TileId) (f : Head → Head) : (s.modHead h f).heads[(h : Nat)] = f s.heads[(h : Nat)] := vmod_self _ _ _
@[simp] theorem State.modNv_self (t : TileId) (f : TileNv → TileNv) : (s.modNv t f).nv[(t : Nat)] = f s.nv[(t : Nat)] := vmod_self _ _ _
@[simp] theorem State.modMedia_self (t : TileId) (f : Media → Media) : (s.modMedia t f).media[(t : Nat)] = f s.media[(t : Nat)] := vmod_self _ _ _
@[simp] theorem State.modStaged_self (t : TileId) (f : StagedMedia → StagedMedia) :
    (s.modStaged t f).staged[(t : Nat)] = f s.staged[(t : Nat)] := vmod_self _ _ _
@[simp] theorem State.modFab_self (t : TileId) (f : Fabric → Fabric) : (s.modFab t f).fab[(t : Nat)] = f s.fab[(t : Nat)] := vmod_self _ _ _
@[simp] theorem State.modD_self (t : TileId) (f : TileData → TileData) :
    (s.modD t f).tiles[(t : Nat)] = { s.tiles[(t : Nat)] with d := f s.tiles[(t : Nat)].d } := vmod_self _ _ _
@[simp] theorem State.modPl_self (t : TileId) (f : Placement → Placement) :
    (s.modPl t f).tiles[(t : Nat)] = { s.tiles[(t : Nat)] with pl := f s.tiles[(t : Nat)].pl } := vmod_self _ _ _
@[simp] theorem State.modEng_self (t : TileId) (f : Engine → Engine) :
    (s.modEng t f).tiles[(t : Nat)] = { s.tiles[(t : Nat)] with eng := f s.tiles[(t : Nat)].eng } := vmod_self _ _ _
@[simp] theorem State.modIt_self (t : TileId) (f : Integrity → Integrity) :
    (s.modIt t f).tiles[(t : Nat)] = { s.tiles[(t : Nat)] with it := f s.tiles[(t : Nat)].it } := vmod_self _ _ _
@[simp] theorem State.modTherm_self (t : TileId) (f : TileThm → TileThm) :
    (s.modTherm t f).tiles[(t : Nat)] = { s.tiles[(t : Nat)] with thm := f s.tiles[(t : Nat)].thm } := vmod_self _ _ _
@[simp] theorem State.modCfl_self (t : TileId) (f : Cfl → Cfl) :
    (s.modCfl t f).tiles[(t : Nat)] = { s.tiles[(t : Nat)] with cfl := f s.tiles[(t : Nat)].cfl } := vmod_self _ _ _
@[simp] theorem State.modCh_self (t : TileId) (c : ChanId) (f : Chan → Chan) :
    (s.modCh t c f).tiles[(t : Nat)] = { s.tiles[(t : Nat)] with ch := vmod s.tiles[(t : Nat)].ch c f } := vmod_self _ _ _

theorem State.modTile_other {t u : TileId} (f : Tile → Tile) (h : t ≠ u) : (s.modTile t f).tiles[(u : Nat)] = s.tiles[(u : Nat)] := vmod_other _ f h
theorem State.modHead_other {t u : TileId} (f : Head → Head) (h : t ≠ u) : (s.modHead t f).heads[(u : Nat)] = s.heads[(u : Nat)] := vmod_other _ f h
theorem State.modNv_other {t u : TileId} (f : TileNv → TileNv) (h : t ≠ u) : (s.modNv t f).nv[(u : Nat)] = s.nv[(u : Nat)] := vmod_other _ f h
theorem State.modFab_other {t u : TileId} (f : Fabric → Fabric) (h : t ≠ u) : (s.modFab t f).fab[(u : Nat)] = s.fab[(u : Nat)] := vmod_other _ f h

end Sys2Proof.Machine
end

