-- ==== Sys2Proof/Laws/Wire.lean ====
section
/-! SUPPORT. What a port reads back of the bytes that another port sends. -/

namespace Sys2Proof.Machine

@[simp] theorem leBytes_length (n v : Nat) : (leBytes n v).length = n := by
  induction n generalizing v with
  | zero => rfl
  | succ n ih => simp [leBytes, ih]

theorem leNat_leBytes (n v : Nat) : leNat (leBytes n v) = v % 256 ^ n := by
  induction n generalizing v with
  | zero => simp [leBytes, leNat, Nat.mod_one]
  | succ n ih =>
    have e : (BitVec.ofNat 8 v).toNat = v % 256 := BitVec.toNat_ofNat v 8
    rw [leBytes, leNat, ih, e, Nat.pow_succ', Nat.mod_mul]

theorem fieldAt_append (b : List Byte) (n v : Nat) (h : v < 256 ^ n) : fieldAt (b ++ leBytes n v) b.length n = v := by
  unfold fieldAt bytesAt
  simp [leNat_leBytes, Nat.mod_eq_of_lt h, List.take_of_length_le]

/-- A sealed flit of 256 bytes passes the CRC check of its receiver. -/
theorem flitOk_sealFlit (h b : List Byte) (n : h.length + b.length = 248) : flitOk (sealFlit h b) = true := by
  have l : (h ++ b ++ [0, 0, 0, 0]).length = 252 := by simp; omega
  have c : (crc32c (h ++ b ++ [0, 0, 0, 0])).toNat < 256 ^ 4 := (crc32c (h ++ b ++ [0, 0, 0, 0])).isLt
  have f := fieldAt_append (h ++ b ++ [0, 0, 0, 0]) 4 _ c
  unfold flitOk sealFlit
  generalize h ++ b ++ [0, 0, 0, 0] = x at *
  rw [l] at f
  simp [l, f]

@[simp] theorem keystreamFrom_length (n : Nat) (s : BitVec 64) : (keystreamFrom n s).length = n := by
  induction n generalizing s with
  | zero => rfl
  | succ n ih => simp [keystreamFrom, ih]

@[simp] theorem keystream_length (key frame : BitVec 64) (n : Nat) : (keystream key frame n).length = n := by
  have e (l : List (BitVec 64)) : (l.flatMap fun w => leBytes 8 w.toNat).length = 8 * l.length := by
    induction l with
    | nil => rfl
    | cons a l ih => simp [List.flatMap_cons, ih]; omega
  unfold keystream
  simp only [List.length_take, e, keystreamFrom_length]
  omega

/-- The receiver's keystream undoes the sender's (R466). -/
theorem scramble_scramble (key frame : BitVec 64) (b : List Byte) : scramble key frame (scramble key frame b) = b := by
  have z (a k : List Byte) (h : k.length = a.length) : (a.zipWith (· ^^^ ·) k).zipWith (· ^^^ ·) k = a := by
    induction a generalizing k with
    | nil => simp
    | cons x a ih =>
      cases k with
      | nil => simp at h
      | cons y k => simp_all [BitVec.xor_assoc]
  have l : (scramble key frame b).length = b.length := by simp [scramble]
  show ((scramble key frame b).zipWith (· ^^^ ·) (keystream key frame (scramble key frame b).length)) = b
  rw [l]
  exact z b _ (by simp)

/-- A port reads from a scrambled sealed flit the fields and messages in its bytes (R459, R461, R466). -/
theorem readFlit_scramble (mesh : Bool) (key frame : BitVec 64) (h b : List Byte) (n : h.length + b.length = 248) :
    readFlit mesh key frame (scramble key frame (sealFlit h b)) = some (flitOf mesh (sealFlit h b)) := by
  unfold readFlit
  simp [scramble_scramble, flitOk_sealFlit h b n]

@[simp] theorem dataSlots_length (n : Nat) (d : List Byte) : (dataSlots n d).length = 16 * n := by
  simp [dataSlots]; omega

/-- The INIT that a port reads is the one that its peer sent (R464). -/
theorem readInit_initBytes (i : InitFlit) : readInit (initBytes i) = some i := by
  have k : flitOk (initBytes i) = true := flitOk_sealFlit _ _ (by simp [flitHeader, bodyOf])
  have f (w n : Nat) (x : BitVec w) (h : 256 ^ n = 2 ^ w) : BitVec.ofNat w (leNat (leBytes n x.toNat)) = x := by
    rw [leNat_leBytes, h, Nat.mod_eq_of_lt x.isLt]; simp
  have w (a b : List Byte) : ∃ q, sealFlit a b = a ++ b ++ q := ⟨_, List.append_assoc ..⟩
  obtain ⟨q, z⟩ := w (flitHeader { type := 3 }) (bodyOf ([i.role, i.position, i.version, i.flags] ++ leBytes 2 i.flitBuf.toNat
    ++ leBytes 2 i.crdReq.toNat ++ leBytes 2 i.crdRsp.toNat ++ leBytes 2 i.expectSeq.toNat ++ leBytes 8 i.key.toNat
    ++ leBytes 4 i.serialCrc.toNat))
  have z : initBytes i = _ := z
  have y : fieldAt (initBytes i) 0 8 = leNat (leBytes 8 0x600000) := by rw [z]; rfl
  have a : fieldAt (initBytes i) 12 2 = leNat (leBytes 2 i.flitBuf.toNat) := by rw [z]; rfl
  have b : fieldAt (initBytes i) 14 2 = leNat (leBytes 2 i.crdReq.toNat) := by rw [z]; rfl
  have c : fieldAt (initBytes i) 16 2 = leNat (leBytes 2 i.crdRsp.toNat) := by rw [z]; rfl
  have d : fieldAt (initBytes i) 18 2 = leNat (leBytes 2 i.expectSeq.toNat) := by rw [z]; rfl
  have e : fieldAt (initBytes i) 20 8 = leNat (leBytes 8 i.key.toNat) := by rw [z]; rfl
  have g : fieldAt (initBytes i) 28 4 = leNat (leBytes 4 i.serialCrc.toNat) := by rw [z]; rfl
  have r : (initBytes i).getD 8 0 = i.role := by rw [z]; rfl
  have p : (initBytes i).getD 9 0 = i.position := by rw [z]; rfl
  have v : (initBytes i).getD 10 0 = i.version := by rw [z]; rfl
  have s : (initBytes i).getD 11 0 = i.flags := by rw [z]; rfl
  have n : (0x600000 : Nat) % 256 ^ 8 / 2 ^ 21 % 4 = 3 := by decide
  unfold readInit
  simp only [k, y, leNat_leBytes 8 0x600000, n, a, b, c, d, e, g, r, p, v, s, f 16 2 _ rfl, f 64 8 _ rfl, f 32 4 _ rfl, Bool.true_and,
    decide_true, if_true]

/-- A port in service reads the fields and messages of a flit that its peer scrambled with the same key and frame number. -/
theorem Link.receive_flitBytes (k : Link) (l : PortId) (f : Flit) :
    k.receive l (scramble k.rxKey k.rxFrame (flitBytes f)) = some (flitOf (onPeer l) (flitBytes f)) :=
  readFlit_scramble _ _ _ _ _ (by simp [flitHeader, bodyOf])

end Sys2Proof.Machine
end

