-- ==== Sys2Proof/WellFormed.lean ====
section
/-! DEFINITION. What makes the operands of a command or event such as the part can meet: the ranges that the spec gives to units, rows,
slots, sectors, payloads and messages. The meanings are total and do not rely on it. -/

namespace Sys2Proof

/-- A payload fits the payload area of a mailbox (R340). -/
def payloadOk (input : List Byte) : Bool := decide (input.length ≤ 65536)

/-- A Widar message as R468 lays it out: 0 to 4 data slots, which hold the data, and at most 64 bytes. -/
def Msg.wellFormed (m : Msg) : Bool := decide (m.dslots.toNat ≤ 4 ∧ m.data.length ≤ 16 * m.dslots.toNat ∧ m.len.toNat ≤ 64)

/-- A mesh message as R506 lays it out: 0 to 4 data slots, which hold the data. -/
def MMsg.wellFormed (m : MMsg) : Bool := decide (m.dslots.toNat ≤ 4 ∧ m.data.length ≤ 16 * m.dslots.toNat)

/-- A flit as a port receives it (R459). -/
def wireOk (wire : List Byte) : Bool := decide (wire.length = 256)

/-- Places of a codeword of 680 bits (R231). -/
def placesOk (l : List Nat) : Bool := l.all fun k => decide (k < 680)

/-- What reads get wrong of lines numbered below `n`. -/
def noiseOk (n : Nat) (x : Noise) : Bool := x.all fun e => decide (e.1 < n) && placesOk e.2

/-- What both reads of a page of 80 lines get wrong (R235). -/
def pageNoiseOk (x : PageNoise) : Bool := noiseOk 80 x.1 && noiseOk 80 x.2

/-- What reads of stripes of eight lines get wrong, by a number below `n` (R157). -/
def stripesOk (n : Nat) (x : List (Nat × Noise)) : Bool := x.all fun e => decide (e.1 < n) && noiseOk 8 e.2

/-- A unit of a tile (R128). -/
def unitOk (u : Nat) : Bool := decide (u < 64)

/-- A page index of a unit: 255 pages in each of 20,376 rings (R112, R117). -/
def pidxOk (p : Nat) : Bool := decide (p < 20376 * 255)

/-- A word of an SRAM array exists: a bucket of the directory, a unit, a stamp index, a page (R128, R166, R209). -/
def SramWord.wellFormed : SramWord → Bool
  | .directory b => decide (b < 131072)
  | .placement u => unitOk u
  | .age i => decide (i < 5242880)
  | .foldBuffer u p => unitOk u && pidxOk p
  | .cacheData _ => true
  | .cacheTag => true
  | .headRange => true
  | .gaitTable _ _ => true
  | .tcm => true
  | .velvet _ => true
  | .other => true

/-- Wrong bits are bits of the word: 39 in the TCM, else 72 (R224). -/
def SramAccess.wellFormed (word : SramWord) (a : SramAccess) : Bool :=
  a.flips.all fun k => decide (k < if word = .tcm then 39 else 72)

/-- The operands of a command or event lie in the ranges of the spec. Rows whose operands have no range beyond their type are well-formed. -/
def Instr.wellFormed : Instr → Bool
  | .foldClaim _ u p => unitOk u && pidxOk p
  | .foldReadDone _ u p x => unitOk u && pidxOk p && stripesOk 64 x.1 && pageNoiseOk x.2
  | .foldCarryVerified _ u p => unitOk u && pidxOk p
  | .foldProgramEnd _ u p _ => unitOk u && pidxOk p
  | .foldReadbackDone _ u p x => unitOk u && pidxOk p && noiseOk 80 x
  | .gapMoveStart _ u => unitOk u
  | .gapMoveVerify _ u x => unitOk u && pageNoiseOk x
  | .unitRecordWrite _ u => unitOk u
  | .placementWordReloaded _ u => unitOk u
  | .patrolVisitStart _ u => unitOk u
  | .patrolVisitDone _ u x => unitOk u && pageNoiseOk x.1 && stripesOk 1280 x.2
  | .rowReclaimDone row => decide (row < 20376)
  | .ageSweepStep _ i => decide (i < 5242880)
  | .recoverySweepVisit _ i x => decide (i < 5242880) && x.all placesOk
  | .directoryBucketRebuilt _ b => decide (b < 131072)
  | .ladderRungDone _ _ x => noiseOk 80 x
  | .stagedLadderRungDone _ _ x => noiseOk 8 x
  | .spareRebuildStep _ _ x => pageNoiseOk x
  | .backgroundOpComplete l => l.all fun e => pageNoiseOk e.2
  | .sramScrubVisit _ v => v.word.wellFormed && v.read.wellFormed v.word && v.twin.wellFormed v.word
  | .configRequest _ _ a _ => decide (a.offset < (if a.space = .bar0 then 524288 else 4096) ∧ a.offset % 4 = 0)
  | .mailboxDoorbell _ _ i => payloadOk i
  | .mctpRequest _ i => payloadOk i
  | .sidebandEepromWrite _ n d => decide (d.length ≤ n.toNat)
  | .widarPayloadFlit _ b => wireOk b
  | .widarNullFlit _ b => wireOk b
  | .widarRetryReq _ b => wireOk b
  | .widarInit _ _ b => wireOk b
  | .meshInit _ b => wireOk b
  | .widarRetrainDone _ ok b => !ok || wireOk b
  | .widarRd _ m => m.wellFormed
  | .widarWr _ m => m.wellFormed
  | .widarBar _ m => m.wellFormed
  | .widarHeartbeat _ m => m.wellFormed
  | .widarHeartbeatReply _ m => m.wellFormed
  | .widarCmp _ m => m.wellFormed
  | .widarRdata _ m => m.wellFormed
  | .hello _ m => m.opcode = 0x21 && m.wellFormed
  | .mwr _ m => m.opcode = 0x22 && m.wellFormed
  | .rwr _ m => m.opcode = 0x23 && m.wellFormed
  | .mrd _ m => m.opcode = 0x24 && m.wellFormed
  | .mbar _ m => m.opcode = 0x25 && m.wellFormed
  | .mext _ m => m.opcode = 0x26 && m.wellFormed
  | .mpair _ m => m.opcode = 0x27 && m.wellFormed
  | .mhb _ m => m.opcode = 0x28 && m.wellFormed
  | .mbye _ m => m.opcode = 0x29 && m.wellFormed
  | .mcmp _ m _ => m.opcode = 0x30 && m.wellFormed
  | .mdata _ m => m.opcode = 0x31 && m.wellFormed
  | .meshForwardExpiry _ m => m.wellFormed
  | .stagStore _ a d => decide (1 ≤ d.length ∧ a.toNat % 64 + d.length ≤ 64)
  | _ => true

end Sys2Proof
end

