-- ==== Sys2Proof/Tests/Slice0.lean ====
section
/-! SUPPORT. Tests of the model, each on a small state: what is ill-formed, worked examples of the spec, and for every statement
with hypotheses a witness that meets them. -/

namespace Sys2Proof.Tests
open Sys2Proof Sys2Proof.Machine

set_option Elab.async false

/-! ### Small states -/

/-- The first 4,092 bytes of a record of a YD-4820: tiles 0 and 1 with four channels, both heads, die identities, one media rail. -/
def body : List Byte :=
  [0x52, 0x43, 0x44, 0x59, 1, 0, 0, 0, 1, 0, 0, 0, 0, 0, 0, 0, 2, 4, 8, 0, 0, 3, 1, 0, 0, 0, 0, 0, 0, 0, 0, 0,
   0, 0, 1, 0] ++ List.replicate 8 0 ++ [1, 5, 14, 10, 5, 0, 168, 0, 72, 0, 0, 0, 80, 98, 0, 0]
  ++ List.replicate 260 0 ++ [1, 0, 0, 0, 0xFF, 0, 0, 0, 0xE8, 3, 0, 0, 0, 0, 0, 0] ++ List.replicate 176 0
  ++ List.replicate 288 1 ++ List.replicate 864 0
  ++ (List.replicate 8 [(0x10 : Byte), 0x32, 0x54, 0x76]).flatten ++ List.replicate 96 0 ++ List.replicate 2300 0

/-- That record with its CRC. -/
def record : List Byte := body ++ leBytes 4 (crc32c body).toNat

/-- A part in service: two tiles, both heads linked, power good, firmware running; the first 256 MiB are granted and mapped. -/
def base : State :=
  { fuses := { variant := .yd4820 }
    aon := { vaon := true, vaonLost := false }
    sys := { state := .active, mbReady := true, passLines := 3, selftestPass := 3, inService := 3, lead := some 0, fwRunning := 3 }
    boot := { released := true, phase := 12, optRead := true, slotChosen := true, slot := 1 }
    cfg := { record := record, chosen := record }
    seq := { en := 0x1F, pg := 0x1F, boardRst := false, medrst := 0 }
    clk := { xtal := true, locked := true }
    svc := { extents := [{ base := 0, blocks := 128, heads := 3, region := 8, isStatic := true }] }
    heads := .replicate 8 { speed := 6, width := 8, flit256 := true, idle := false
                            decoders := #v[{ size := 2 ^ 28, committed := true }, {}, {}, {}] } }

/-! `base` with some fields changed. -/

def onAon (f : Aon → Aon) (s : State := base) : State := { s with aon := f s.aon }
def onSys (f : Sys → Sys) (s : State := base) : State := { s with sys := f s.sys }
def onBoot (f : Boot → Boot) (s : State := base) : State := { s with boot := f s.boot }
def onCfg (f : Cfg → Cfg) (s : State := base) : State := { s with cfg := f s.cfg }
def onPrm (f : Prm → Prm) (s : State := base) : State := { s with prm := f s.prm }
def onEvr (f : Evr → Evr) (s : State := base) : State := { s with evr := f s.evr }
def onPmc (f : Pmc → Pmc) (s : State := base) : State := { s with pmc := f s.pmc }
def onSec (f : Sec → Sec) (s : State := base) : State := { s with sec := f s.sec }
def onSeq (f : Seq → Seq) (s : State := base) : State := { s with seq := f s.seq }
def onHld (f : Hld → Hld) (s : State := base) : State := { s with hld := f s.hld }
def onPwr (f : Pwr → Pwr) (s : State := base) : State := { s with pwr := f s.pwr }
def onClk (f : Clk → Clk) (s : State := base) : State := { s with clk := f s.clk }
def onThm (f : Thm → Thm) (s : State := base) : State := { s with thm := f s.thm }
def onMesh (f : Mesh → Mesh) (s : State := base) : State := { s with mesh := f s.mesh }
def onSvc (f : Svc → Svc) (s : State := base) : State := { s with svc := f s.svc }
def onGuest (f : Guest → Guest) (s : State := base) : State := { s with guest := f s.guest }
def onPoison (f : Poison → Poison) (s : State := base) : State := { s with poison := f s.poison }
def onHead (f : Head → Head) (s : State := base) : State := { s with heads := s.heads.set 0 (f s.heads[(0 : TileId)]) }
def onTile (f : Tile → Tile) (s : State := base) : State := { s with tiles := s.tiles.set 0 (f s.tiles[(0 : TileId)]) }
def onFab (f : Fabric → Fabric) (s : State := base) : State := { s with fab := s.fab.set 0 (f s.fab[(0 : TileId)]) }
def onNv (f : TileNv → TileNv) (s : State := base) : State := { s with nv := s.nv.set 0 (f s.nv[(0 : TileId)]) }
def onD (f : TileData → TileData) (s : State := base) : State := onTile (fun x => { x with d := f x.d }) s
def onIt (f : Integrity → Integrity) (s : State := base) : State := onTile (fun x => { x with it := f x.it }) s
def onEng (f : Engine → Engine) (s : State := base) : State := onTile (fun x => { x with eng := f x.eng }) s
def onCfl (f : Cfl → Cfl) (s : State := base) : State := onTile (fun x => { x with cfl := f x.cfl }) s
def onPl (f : Placement → Placement) (s : State := base) : State := onTile (fun x => { x with pl := f x.pl }) s
def onCh (f : Chan → Chan) (s : State := base) : State := onTile (fun x => { x with ch := x.ch.set 0 (f x.ch[(0 : ChanId)]) }) s



/-! ### Witnesses: states and operands that meet the hypotheses of a statement, clause by clause -/

theorem witness_PowerUpEventsComplete :
    (onAon fun x => { x with vaon := false }).aon.vaon = false ∧ base.aon.vaon = true ∧
    (let s := onBoot fun x => { x with released := false }
     s.aon.vaon = true ∧ s.boot.released = false) ∧
    (let s := onBoot (fun x => { x with released := false }) (onSeq fun x => { x with en := 8, pg := 7 })
     s.seq.en.getLsbD 3 = true ∧ s.seq.pg.getLsbD 3 = false ∧ s.boot.released = false) ∧
    (let s := onSeq fun x => { x with fixedWait := true, en := 0xFFF0 }
     s.seq.fixedWait = true ∧ s.aon.vaon = true ∧ s.inputPresent = true ∧ s.aon.pkgRstN = true ∧ s.seq.en &&& 0xF = 0) ∧
    (base.clk.xtal = true ∧ base.seq.pg &&& 0xF = 0xF ∧ base.clk.holdover = false) ∧
    (let s := onBoot fun x => { x with released := false }
     s.boot.released = false ∧ s.aon.vaon = true ∧ s.seq.pg &&& 0xF = 0xF ∧ s.aon.pkgRstN = true ∧ s.clk.locked = true) ∧
    (base.aon.vaon = true ∧ base.flush = none ∧ base.boot.released = true) ∧
    ({ base with flush := some { trigger := 1, stateAtD := .active } } : State).flush = some { trigger := 1, stateAtD := .active } := by
  decide +kernel

theorem phase3_holdReason (s : State) : s.phase3.boot.holdReason = s.boot.holdReason := by
  have : s.phase3.boot = s.boot := (State.phase3_changes (s := s)).keeps .boot rfl
  rw [this]

set_option maxRecDepth 4000 in
theorem witness_BringUpEventsComplete :
    (let s := onSys fun x => { x with windowOpen := true, passLines := 0 }
     s.sys.windowOpen = true ∧ (fittedMask s.fuses.variant).getLsbD 1 = true ∧ s.sys.passLines = 0) ∧
    (let s := onSys fun x => { x with windowOpen := true, passLines := 2, reported := x.reported.set 1 base.fuses.serials[(0 : TileId)] }
     s.sys.windowOpen = true ∧ (∀ t : TileId, (2 : BitVec 8).getLsbD t =
       (s.sys.passLines.getLsbD t && decide (some s.sys.reported[t] = s.refSerial))) ∧
     (2 : BitVec 8).getLsbD 1 = true ∧ ∀ t : TileId, t < 1 → (2 : BitVec 8).getLsbD t = false) ∧
    (let s := onBoot fun x => { x with optRead := false, phase := 2 }
     s.sys.lead = some 0 ∧ s.boot.optRead = false ∧ s.boot.phase = 2 ∧ sectorDefined s.nv[s.lead] (sectorKey 0 1024) = true ∧
     ∀ i ∈ ([0, 1, 2, 3] : List Nat), optOk s.nv[s.lead].opt i = true) ∧
    (let s := onBoot fun x => { x with slotChosen := false, phase := 2 }
     s.boot.slotChosen = false ∧ s.svc.rdpPending = false ∧ s.bootSelect.getD 0 1 = 1 ∧ s.bootSelect.getD 1 0 = 0 ∧
     s.bootSelect.getD 3 0 ≠ 0xA5 ∧ s.slotOk 0 1 = true) ∧
    (let s := onSys fun x => { x with fwRunning := 1 }
     s.boot.recovery = false ∧ s.inSvc 1 = true ∧ (1 : TileId) ≠ s.lead ∧ s.sys.fwRunning.getLsbD 1 = false ∧
     s.flashBusy isRewrite = false ∧ s.slotOk 1 s.boot.slot.toNat = true) ∧
    (let op : FlashOp := { sector := 0, erasing := false, pages := 1, use := .firmware 1 Factory.firmware }
     let s := onCfl (fun x => { x with ops := x.ops.set 0 (some op) }) (onSys fun x => { x with fwRunning := 2, lead := some 1 })
     s.boot.slot = 1 ∧ s.tiles[(0 : TileId)].cfl.ops[(0 : Fin 2)] = some op ∧ op.use = .firmware 1 ((s.slotImage s.lead 1).getD []) ∧
     s.sys.fwRunning.getLsbD 0 = false ∧ s.boot.recovery = false) ∧
    (let s := onSvc fun x => { x with recoveryRestart := true }
     s.svc.recoveryRestart = true ∧ s.svc.waiting = none) ∧
    (let s := onSys fun x => { x with state := .boot, mbReady := false }
     s.sys.state = .boot ∧ s.sys.mbReady = false ∧ (∀ t ∈ s.svcTiles, s.sys.fwRunning.getLsbD t = true) ∧
     s.phase3.boot.holdReason ≠ 1 ∧ (onBoot (fun x => { x with holdReason := 1 }) s).phase3.boot.holdReason = 1) := by
  simp only [phase3_holdReason]
  decide +kernel

/-- A sealed body is a record copy whose CRC checks. -/
theorem sealed_recCrcOk (b : List Byte) (h : b.length = 4092) : recCrcOk (b ++ leBytes 4 (crc32c b).toNat) = true := by
  have e : (leBytes 4 (crc32c b).toNat).length = 4 := rfl
  have hd : bytesAt (b ++ leBytes 4 (crc32c b).toNat) 4092 4 = leBytes 4 (crc32c b).toNat := by
    unfold bytesAt; rw [← h, List.drop_left]; simp [leBytes]
  have n4 : ∀ v : Nat, v < 2 ^ 32 → leNat (leBytes 4 v) = v := by
    intro v hv; simp [leNat, leBytes]; omega
  unfold recCrcOk fieldAt
  rw [hd, n4 _ (crc32c b).isLt, ← h, List.take_left]; simp [h, e]

/-- `base` in phase `p` of MEDIA_INIT. -/
def initAt (p : BitVec 4) : State := onSys (fun x => { x with state := .mediaInit }) (onBoot fun x => { x with phase := p })

theorem body_length : body.length = 4092 := by decide +kernel
theorem record_length : record.length = 4096 := by decide +kernel
theorem record_seq : recSeq record = 1 := by decide +kernel
theorem record_formatOk : recFormatOk record = true := by decide +kernel
theorem record_contradicts : recContradicts .yd4820 record = false := by decide +kernel
theorem record_names : (allTiles.all fun (t : TileId) => !recNames record t || (3 : BitVec 8).getLsbD t) = true := by decide +kernel

/-- With tiles 0 and 1 in service the record names no absent tile. -/
theorem record_absentTile (s : State) (h : s.sys.inService = 3) : s.recAbsentTile record = false := by
  unfold State.recAbsentTile
  rw [Bool.eq_false_iff]
  intro c
  obtain ⟨t, ht, hc⟩ := List.any_eq_true.mp c
  have := List.all_eq_true.mp record_names t ht
  unfold State.inSvc at hc
  rw [h] at hc
  revert hc this
  cases recNames record t <;> cases (3 : BitVec 8).getLsbD t <;> simp

theorem recordFails_congr {s u : State} (r : List Byte) (h1 : u.fuses = s.fuses) (h2 : u.nv = s.nv) (h3 : u.boot = s.boot)
    (h4 : u.aon = s.aon) (h5 : u.sys = s.sys) (h6 : u.flush = s.flush) : u.recordFails r = s.recordFails r := by
  simp only [State.recordFails, State.prmPage, State.prmBytes, State.lead, State.recAbsentTile, State.inSvc, h1, h2, h3, h4, h5, h6]
  rfl

/-- Copy A of the lead holds a record, copy B is erased: phase 4 chooses copy A. -/
theorem judge_copyA (s : State) (r : List Byte) (l : s.lead = 0) (v : s.nv[(0 : TileId)].copies = #v[r, []])
    (d : sectorDefined s.nv[(0 : TileId)] (sectorKey 0 512) = true) (c : recCrcOk r = true) (i : recIdOk r = true) :
    ∃ u, s.scanJournals.cflRecords.judgeCopies = (.ok r, u) ∧ (u.readKeys r).recordFails r = s.recordFails r := by
  have k : Changes [.evr, .tiles, .heads] s s.scanJournals.cflRecords := State.cflRecords_changes.step State.scanJournals_changes
  have n : s.scanJournals.cflRecords.nv[s.scanJournals.cflRecords.lead] = s.nv[(0 : TileId)] := by
    have e : s.scanJournals.cflRecords.nv = s.nv := k.keeps .nv rfl
    have e1 : s.scanJournals.cflRecords.sys = s.sys := k.keeps .sys rfl
    have l0 : s.scanJournals.cflRecords.lead = 0 := by unfold State.lead at l ⊢; rw [e1]; exact l
    have at0 : ∀ x : TileId, x = 0 → s.nv[x] = s.nv[(0 : TileId)] := fun x hx => by subst hx; rfl
    rw [e]; exact at0 _ l0
  have a : copyValid s.nv[(0 : TileId)] 0 = true := by
    unfold copyValid; rw [v]; simp only [Fin.getElem_fin]; simp [c, i]; exact d
  have b : copyValid s.nv[(0 : TileId)] 1 = false := by
    have i : recIdOk [] = false := by decide +kernel
    unfold copyValid; rw [v]; simp [i]
  refine ⟨s.scanJournals.cflRecords.raise (mkEv 0x7010 .warn s.scanJournals.cflRecords.lead 0), ?_, ?_⟩
  · unfold State.judgeCopies; rw [n]; simp only [a, b]; rw [v]; rfl
  · have q : Changes [.evr, .tiles, .heads, .cfg, .sec] s ((s.scanJournals.cflRecords.raise
        (mkEv 0x7010 .warn s.scanJournals.cflRecords.lead 0)).readKeys r) :=
      State.readKeys_changes.step (State.raise_changes.step (k.step .refl))
    exact recordFails_congr r (q.keeps .fuses rfl) (q.keeps .nv rfl) (q.keeps .boot rfl) (q.keeps .aon rfl) (q.keeps .sys rfl) (q.keeps .flush rfl)

/-- Phase 4 of MEDIA_INIT with the record in copy A of the lead tile. -/
def judged : State := onNv (fun x => { x with copies := #v[record, []] }) (initAt 4)

theorem witness_recordJudge : ∃ (s u : State) (r : List Byte), s.sys.state = .mediaInit ∧ s.boot.phase = 4 ∧
    s.scanJournals.cflRecords.judgeCopies = (.ok r, u) ∧ (u.readKeys r).recordFails r = none := by
  have ⟨u, h, e⟩ := judge_copyA judged record rfl rfl (by decide +kernel) (sealed_recCrcOk body body_length) (by decide +kernel)
  refine ⟨_, u, record, rfl, rfl, h, e.trans ?_⟩
  have c : recContradicts judged.fuses.variant record = false := record_contradicts
  unfold State.recordFails
  rw [record_formatOk, record_absentTile judged rfl, c]
  decide +kernel

theorem initChannel_sys (s : State) (t : TileId) (c : ChanId) (l : List (Nat × Nat)) (f : List (Nat × BitVec 6)) :
    (s.initChannel t c l f).sys = s.sys :=
  (State.initChannel_changes (s := s)).keeps .sys rfl

theorem witness_MediaInitEventsComplete :
    (let s := onCh (fun x => { x with inReset := true }) (initAt 5)
     s.sys.state = .mediaInit ∧ s.boot.phase = 5 ∧ s.seq.lowering = false ∧ s.pwr.padLatched.getLsbD 0 = false ∧
     s.tiles[(0 : TileId)].ch[(0 : ChanId)].inReset = true ∧ s.initChans 0 0 = true) ∧
    (let s := onCh (fun x => { x with inReset := false, tinit := true }) (initAt 6)
     s.tiles[(0 : TileId)].ch[(0 : ChanId)].tinit = true ∧ s.tiles[(0 : TileId)].ch[(0 : ChanId)].inReset = false ∧
     (s.initChannel 0 0 [] []).sys.state = .mediaInit) ∧
    (let s := { initAt 7 with tiles := .replicate 8 { ch := .replicate 4 { up := true } } }
     s.sys.state = .mediaInit ∧ s.boot.phase = 7 ∧ s.chansUp = true ∧ s.seq.raising = false ∧
     ∀ x ∈ s.liveUnits, s.unitDiffers x.1 x.2 = false) ∧
    ((initAt 8).sys.state = .mediaInit ∧ (initAt 8).boot.phase = 8 ∧ (initAt 8).supplyOk 25000 (initAt 8).svcTiles.length = true) ∧
    ((initAt 9).boot.phase = 9 ∧ recRegLen (initAt 9).cfg.record 8 = 0) ∧
    (let s := onCfg (fun x => { x with record := record.take 212 ++ [4] ++ record.drop 213 }) (initAt 9)
     s.boot.phase = 9 ∧ 2 ^ 21 ≤ recRegLen s.cfg.record 8 ∧ s.mesh.takenOver = false) ∧
    ((initAt 10).sys.state = .mediaInit ∧ (initAt 10).boot.phase = 10) ∧
    (let s := onSys fun x => { x with state := .replay }
     s.sys.state = .replay ∧ s.boot.trial = false) := by
  simp only [initChannel_sys]
  decide +kernel

theorem witness_RailEventsComplete :
    (let s := onSeq fun x => { x with en := 4, pg := 3 }
     s.seq.en.getLsbD 2 = true ∧ s.seq.pg.getLsbD 2 = false) ∧
    (let s := onSeq fun x => { x with pg := 0xF }
     s.seq.en.getLsbD 4 = true ∧ s.seq.pg.getLsbD 4 = false ∧ s.seq.retryRail ≠ some 4 ∧ s.seq.ignored.getLsbD 4 = false ∧
     s.flush = none ∧ s.seq.retryRail = none) ∧
    (base.boot.released = true ∧ base.seq.en.getLsbD 4 = true ∧ base.seq.pg.getLsbD 4 = true ∧ base.seq.en.getLsbD 0 = true) ∧
    (let s := onBoot fun x => { x with released := false }
     s.boot.released = false ∧ s.seq.en.getLsbD 3 = true ∧ s.seq.pg.getLsbD 3 = true) ∧
    (let s := onSeq fun x => { x with retryRail := some 4, en := 0xF, retries := 2 }
     s.seq.retryRail = some 4 ∧ s.seq.en.getLsbD 4 = false ∧ s.seq.retries ≠ 3 ∧ s.flush = none) ∧
    (let s := onSeq fun x => { x with lowering := true }
     s.seq.lowering = true ∧ s.flush = none) := by
  decide +kernel

/-- A flush that runs. -/
def flushRun : FlushRun := { trigger := 1, stateAtD := .active }
/-- `base` while a flush runs, with its fields changed. -/
def flushing (f : FlushRun → FlushRun) : State := { base with flush := some (f flushRun) }

theorem witness_FlushEventsComplete :
    (base.aon.vaon = true ∧ base.boot.released = true ∧ base.flush = none ∧ base.sys.state ≠ .failed) ∧
    ((flushing id).flush = some flushRun ∧ flushRun.returned = false) ∧
    (flushRun.workEnded = false ∧ (flushing id).inSvc 0 = true ∧ flushRun.dataEnd.getLsbD 0 = false ∧ (flushing id).flushClean 0 = true ∧
     ∃ x ∈ (flushing id).svcTiles, (bitOn flushRun.dataEnd 0).getLsbD x = false) ∧
    ((flushing id).sys.loneLost = false) ∧
    (let s := onAon (fun x => { x with pwrfailN := false }) (flushing fun f => { f with workEnded := true })
     s.flush = some { flushRun with workEnded := true } ∧ s.aon.vaon = true ∧ s.inputPresent = false) ∧
    (let s := flushing fun f => { f with brownHold := true }
     s.flush = some { flushRun with brownHold := true } ∧ flushRun.pkgRst = false ∧ s.inputPresent = true) ∧
    (let s := onHld fun x => { x with due := true }
     s.hld.due = true ∧ s.hld.measuring = false ∧ s.flush = none ∧ s.sys.state.isSleep = false ∧ s.pwr.transition = 0) ∧
    (onHld fun x => { x with sinking := true }).hld.sinking = true ∧
    (let s := onHld fun x => { x with measuring := true, vrest := 12000 }
     s.hld.measuring = true ∧ s.hld.sinking = false ∧ s.hld.vrest.toNat ≤ (11950 : BitVec 16).toNat + 50) := by
  decide +kernel

theorem witness_PowerClockEventsComplete :
    (let s := onPwr fun x => { x with effective := 2, requested := 1 }
     s.pwr.changing = false ∧ s.pwr.sleep = 0 ∧ s.pwr.transition = 0 ∧ s.thm.trip = false ∧ s.wantedLevel.toNat < s.pwr.effective.toNat) ∧
    (let s := onPwr fun x => { x with effective := 1, requested := 2 }
     s.pwr.effective.toNat < s.wantedLevel.toNat) ∧
    (let s := onPwr fun x => { x with changing := true }
     s.pwr.changing = true ∧ s.seq.pg.getLsbD 0 = true) ∧
    (let s := onPwr fun x => { x with transition := 1, transTarget := 1 }
     s.pwr.transition = 1 ∧ s.flush = none ∧ s.sleepDrain.drained = true ∧ s.sleepDrain.mesh.paired = false ∧
     s.sleepDrain.pwr.transTarget = 1) ∧
    (let s := onSys (fun x => { x with state := .sleepS1 }) (onPwr fun x => { x with transition := 2, sleep := 1 })
     s.pwr.transition = 2 ∧ s.resumed = true ∧ s.pwr.queued = 0 ∧ s.sys.wakeNeeded = false) ∧
    (let s := onPwr fun x => { x with transition := 2, padLatched := 1 }
     s.pwr.padLatched.getLsbD 0 = true ∧ ∀ c : ChanId, ∀ q ∈ chanRails s.cfg.record 0 c, s.seq.pg.getLsbD q = true) ∧
    base.clk.locked = true ∧
    (let s := onClk fun x => { x with holdover := true }
     s.clk.holdover = true ∧ s.clk.holdoverLong = false ∧ (onClk (fun x => { x with holdoverLong := true }) s).clk.holdoverLong = true) ∧
    (base.inSvc 0 = true ∧ ((29 : Fin 37)).val < 30 ∧ 31 ≤ ((31 : Fin 37)).val ∧ base.aon.vaon = true) := by
  decide +kernel

theorem witness_HousekeepingEventsComplete :
    (base.aon.vaon = true ∧ base.sys.state ≠ .sleepS3 ∧ base.sys.lead = some 0) ∧
    (base.thm.trip = false ∧ base.tiles[(0 : TileId)].thm.excluded.getLsbD 0 = false ∧ base.flush = none ∧ base.sys.state ≠ .failed) ∧
    (let s := onThm fun x => { x with trip := true, tripAt := some (0, 11) }
     s.thm.tripAt = some (0, 11) ∧ s.flush = none ∧ ∀ x ∈ s.svcTiles, s.flushClean x = true) := by
  decide +kernel

theorem witness_TileLossEventsComplete :
    (base.sys.lead = some 0 ∧ base.sys.fwRunning.getLsbD 0 = true ∧ base.linksSleep = false ∧ base.sys.loneLost = false ∧ ∃ x ∈ base.svcTiles, x ≠ 0) ∧
    (3 ≤ (onSys fun x => { x with missed := x.missed.set 1 3 }).sys.missed[(1 : TileId)]) ∧
    (let s := onPwr fun x => { x with transition := 2, ctrlDone := true }
     s.pwr.transition = 2 ∧ s.pwr.ctrlDone = true ∧ s.sys.lead ≠ some 1 ∧ (s.routeTo s.lead (1 : TileId).val).1 = 7) ∧
    (let s := onSys fun x => { x with rescueOf := [1] }
     s.sys.rescueOf = [1] ∧ s.flush = none ∧ s.sys.wakeNeeded = false) ∧
    (let s := onClk (fun x => { x with noReport := 10 }) (onSys fun x => { x with inService := 1 })
     s.sys.lead = some 0 ∧ 10 ≤ s.clk.noReport ∧ s.svcTiles = [0] ∧ s.sys.loneLost = false) ∧
    (let s := onAon (fun x => { x with loneLoss := some 0 }) (onSys (fun x => { x with loneLost := true }) (flushing id))
     s.aon.loneLoss = some 0 ∧ s.sys.loneLost = true ∧ s.flush = some flushRun ∧ flushRun.workEnded = false ∧ flushRun.pkgRst = false ∧
     s.inputPresent = true) ∧
    (base.sys.state.isSleep = false ∧ base.sys.lead ≠ some 1 ∧ base.inSvc 0 = true ∧ base.flush = none ∧
     base.boot.warmStep[(0 : TileId)] = 0 ∧ base.boot.warmAt[(0 : TileId)] = none) ∧
    (let s := onBoot fun x => { x with warmStep := #v[2, 3, 0, 0, 0, 0, 0, 0] }
     s.boot.warmStep[(0 : TileId)] = 2 ∧ (∀ l ∈ s.tiles[(0 : TileId)].d.cache, (l.postedDirty && l.inFlight) = false) ∧
     s.boot.warmStep[(1 : TileId)] = 3) := by
  decide +kernel

/-- A decoder that commits: 256 MiB at 256 MiB, two ways of 4,096 bytes. -/
def aDecoder : Decoder := { base := 2 ^ 28, size := 2 ^ 29, ways := 2, gran := 4096, committed := true }

theorem witness_HeadEventsComplete :
    (base.headTrains 0 = true ∧ 3 ≤ (6 : BitVec 4).toNat ∧ (8 : BitVec 4) = 8 ∧ base.heads[(0 : TileId)].speed ≠ 0 ∧
     base.inSvc 0 = true ∧ base.sys.mbReady = true) ∧
    (let s := onHead fun x => { x with config := [(1, 6)] }
     s.heads[(0 : TileId)].barOn = true ∧ s.bar0Word 0 0 = (BitVec.allOnes 32, (s.bar0Word 0 0).2) ∧
     s.heads[(0 : TileId)].bar2Word 0xC = (BitVec.allOnes 32, (s.heads[(0 : TileId)].bar2Word 0xC).2)) ∧
    (onSys fun x => { x with mbReady := false }).sys.mbReady = false ∧
    (base.configWord 0 (0x2C / 4 * 4)).isSome = true ∧
    (base.heads[(0 : TileId)].decoders[(1 : Fin 4)].committed = false ∧ (BitVec.ofNat 64 (2 ^ 28)).toNat = aDecoder.base ∧
     (BitVec.ofNat 64 (2 ^ 29)).toNat = aDecoder.size ∧ aDecoder.skip = 0 ∧ aDecoder.err = false ∧
     decoderOk (base.heads[(0 : TileId)].decoders.toList.take 1) aDecoder base.capacity = true ∧
     ∀ x ∈ base.heads[(0 : TileId)].decoders.toList.drop 2, x.committed = false) ∧
    (let s := onSvc fun x => { x with offers := [⟨0, [(0, 1)]⟩], releases := [⟨0, 0, 1, true⟩] }
     (s.svc.offers.find? fun o => o.head = 0) = some ⟨0, [(0, 1)]⟩ ∧
     (s.svc.releases.find? fun r => r.head = 0 && r.awaitHost) = some ⟨0, 0, 1, true⟩) ∧
    (onHead fun x => { x with ideMem := true }).heads[(0 : TileId)].ideMem = true ∧
    (onHead fun x => { x with spdm := true }).heads[(0 : TileId)].spdm = true ∧
    (let s := onCfg fun x => { x with record := record.take 212 ++ [4] ++ record.drop 213 }
     1 ≤ (s.reportedRegions.flatMap s.cdatRegion).length) := by
  decide +kernel

/-- `base` with a route from tile 0 to tile 1. -/
def routed : State := onFab fun x => { x with route := x.route.set 1 0 }

theorem witness_CxlMemLoadsComplete :
    (let s := routed.ungate 0 7
     let r := (s.count 0 1 1).tagStep 0
     s.judge 0 0xFFFFFC0 = .passed (2 ^ 22 - 1) ∧ r.2.2.ownerUp (r.2.2.home (2 ^ 22 - 1)).tile = true ∧ r.2.2.forwards 0 (r.2.2.home (2 ^ 22 - 1)).tile = true ∧ s.pmc.tagging = false) ∧
    (let s := onSys fun x => { x with inService := 1 }
     (s.ungate 0 7).judge 0 0xFFFFFC0 = .passed (2 ^ 22 - 1) ∧
     (((s.ungate 0 7).count 0 1 1).tagStep 0).2.2.ownerUp (s.home (2 ^ 22 - 1)).tile = false) ∧
    (base.ungate 0 7).judge 0 0x10000000 = .missed ∧
    ((onSec fun x => { x with locked := true }).ungate 0 7).judge 0 64 = .locked 1 ∧
    ((onSys fun x => { x with state := .flushing }).ungate 0 7).judge 0 64 = .notServed 1 := by
  decide +kernel

theorem witness_CxlMemStoresComplete :
    (let s := routed.ungate 0 7
     let r := (s.count 0 1 2).tagStep 0
     s.judge 0 0xFFFFFC0 = .passed (2 ^ 22 - 1) ∧ r.1 = false ∧
     (r.2.2.modHead 0 fun _ => (trackStore r.2.2.heads[(0 : TileId)] (2 ^ 22 - 1)).2).ownerStores (2 ^ 22 - 1) = true ∧
     (r.2.2.modHead 0 fun _ => trackPartial r.2.2.heads[(0 : TileId)] (2 ^ 22 - 1)).ownerStores (2 ^ 22 - 1) = true ∧ s.forwards 0 (s.home (2 ^ 22 - 1)).tile = true) ∧
    (base.ungate 0 7).judge 0 0x10000000 = .missed ∧
    ((onSec fun x => { x with locked := true }).ungate 0 7).judge 0 64 = .locked 1 ∧
    base.heads[(0 : TileId)].speed ≠ 0 := by
  decide +kernel

/-- A store that is ready to be acknowledged, and a load that has its line. -/
def aStore : StoreReq := { id := 5, head := 0, line := 1, data := 7, mask := BitVec.allOnes 64, phase := 4 }
def aLoad : LoadReq := { id := 6, head := 0, owner := 0, line := 1, src := .cache, result := some (7, false) }

theorem witness_ResponsesComplete :
    (let s := onD fun x => { x with stores := [aStore] }
     allTiles.findSome? (fun (t : TileId) =>
       (s.tiles[t].d.stores.find? fun x => x.id = aStore.id && x.head = 0 && x.wid.isNone && x.peer.isNone && !x.internal).map (t, ·)) =
         some (0, aStore) ∧ aStore.phase = 4 ∧ aStore.peerDone = true ∧ aStore.tagged = false) ∧
    (let s : State := { base with loads := [aLoad] }
     (s.loads.find? fun x => x.id = aLoad.id && x.head = 0 && x.wid.isNone && x.peer.isNone && x.forStore.isNone) = some aLoad ∧
     (s.loads.find? fun x => x.id = aLoad.id && x.head = 0 && x.wid.isNone && x.peer.isNone && x.forStore.isNone
       && !x.internal && !x.hint && !x.expired) = some aLoad ∧
     aLoad.result = some (7, false) ∧ aLoad.expired = false ∧ aLoad.tagged = false ∧ s.heads[(0 : TileId)].sends = true) ∧
    (let r : LoadReq := { aLoad with expired := true }
     let s : State := { base with loads := [r] }
     (s.loads.find? fun x => x.id = r.id && x.head = 0 && x.wid.isNone && x.peer.isNone && x.forStore.isNone) = some r ∧
     r.result.isSome = true) ∧
    (onSys fun x => { x with state := .configHold }).sys.state.isServing = false ∧
    (base.sys.state.isServing = true ∧ base.gpfRuns = false) ∧
    (let s := onD (fun x => { x with gpf := some [(1, 0)] }) (onHead fun x => { x with gpfWait := 1 })
     s.gpfRuns = true ∧ s.gpfDone = true ∧ s.heads[(0 : TileId)].gpfWait ≠ 0 ∧ (∀ k : TileId, s.heads[k].gpfNext = 0) ∧
     s.pwr.transition = 0) := by
  decide +kernel

/-- A load that is being read from a home slot, or from a staged stripe. -/
def homeRead (rung : Nat) : LoadReq := { id := 6, head := 0, owner := 0, line := 1, src := .home 0 5, rung := rung }
def stagedRead (rung : Nat) : LoadReq := { id := 6, head := 0, owner := 0, line := 1, src := .staged 0 100 0 0 2, rung := rung }
def anEntry : StripeEntry := { kind := .data, line := 1, val := { data := 9 } }
def aStripe : Stripe :=
  { seq := 4, epoch := 0, area := 0, entries := [anEntry, anEntry, anEntry], unit := 0, ring := 100, t := 0, placed := true, program := true }

/-- A wrong address bit: the line is misdirected (R232). -/
def broken : List Nat := [0]

theorem witness_ReadEventsComplete :
    (∀ r ∈ [homeRead 0, homeRead 5, stagedRead 0, stagedRead 2],
      let s : State := { base with loads := [r] }
      (s.loads.find? fun x => x.id = r.id && x.owner = 0 && x.result.isNone && !x.mirrorWait) = some r ∧
      workLeft s.tiles[(0 : TileId)].eng (.load r.id) = false) ∧
    (readLine false (noiseOf [] (base.home 1).line)).ok = true ∧
    (let s : State := { base with loads := [homeRead 0] }
     let x := readLine false (noiseOf [((base.home 1).line, broken)] (base.home 1).line)
     x.ok = false ∧ foldServes (s.noteRead 0 (toChan (0 / 16)) x).tiles[(0 : TileId)].d 0 (base.home 1).pidx = none) ∧
    stripeGives [] [(0, broken)] 2 = false ∧
    (let s : State := { base with loads := [stagedRead 0], staged := .replicate 8 { stripes := [aStripe] } }
     (s.staged[(0 : TileId)].stripes.reverse.find? fun x => x.unit = 0 ∧ x.ring = 100 ∧ x.t = 5 * 0 + 0) = some aStripe ∧
     aStripe.entries[2]? = some anEntry ∧ (readLine false (noiseOf [] 2)).ok = true ∧ metaWrong (readLine false (noiseOf [] 2)) = false) ∧
    (base.sys.state ≠ .sleepS1 ∧ base.sys.state ≠ .sleepS2 ∧ 5242879 < 5242880) ∧
    ((onD fun x => { x with catchP := 5242879 }).tiles[(0 : TileId)].d.catchP < 5242880 ∧ base.pwr.transition = 0) ∧
    (let s := onD (fun x => { x with recovery := true }) (onPl fun x => { x with written := [(20480 * 63 + 20479, true)] })
     s.tiles[(0 : TileId)].d.recovery = true ∧
     ringWritten s.tiles[(0 : TileId)].pl (5242879 / 4 / 20480) (5242879 / 4 % 20480) = true ∧ stampAt s.tiles[(0 : TileId)].d 5242879 = 0xFF ∧
     s.tiles[(0 : TileId)].d.swept.contains 5242879 = false ∧ s.chanOut 0 (toChan (5242879 / 4 / 20480 / 16)) = false ∧
     fgReadWaits s.tiles[(0 : TileId)].eng (toChan (5242879 / 4 / 20480 / 16)) (5242879 / 4 / 20480) = false) ∧
    ((List.range 16).map fun k => readLine false (([broken] : List (List Nat)).getD k [])).findIdx? (·.ok) = some 1 ∧
    (∀ k ∈ ([0, 3] : List Nat),
      let s := onIt fun x => { x with rebuild := .replicate 4 { active := true, stage := k } }
      s.tiles[(0 : TileId)].it.rebuild[(0 : ChanId)].active = true ∧ s.chanOut 0 0 = false ∧ rebuildNext s.tiles[(0 : TileId)] 0 = none) ∧
    (∀ p ∈ ([(0, false), (254, true), (255, false)] : List (Nat × Bool)),
     let s := onEng (fun x => { x with results := [(.rebuild 0, 0)] }) (onPl (fun x => { x with written := [(7, true)] }) (onIt fun x =>
       { x with rebuild := .replicate 4 { active := true, stage := 3, piece := p.1, busy := p.2 } }))
     rebuildNext s.tiles[(0 : TileId)] 0 = some (0, 7) ∧ s.tiles[(0 : TileId)].d.folds = [] ∧
     s.rebuildPiece 0 0 0 7 = (if p.1 = 255 then none else some p.1) ∧ s.tiles[(0 : TileId)].it.rebuild[(0 : ChanId)].busy = p.2 ∧
     progResult s.tiles[(0 : TileId)].eng (.rebuild 0) = some 0 ∧ workLeft s.tiles[(0 : TileId)].eng (.rebuild 0) = false) := by
  decide +kernel

def aFold (step : Nat) (opens : Bool) : Fold := { unit := 0, pidx := 3, step := step, foldSeq := 9, opens := opens }
def aDir : DirEntry := { line := 1, unit := 0, ring := 100, sslot := 0, spos := 0, sidx := 2 }

/-- Channel 0 of tile 0 is up, with every die. -/
def chanUp (s : State := base) : State := onCh (fun x => { x with up := true, inReset := false, present := 0x1FF }) s

theorem witness_StagingEventsComplete :
    (∀ f ∈ ([0, 1] : List (BitVec 8)),
     let s := onEng (fun x => { x with results := [(.stripe aStripe.seq, f)] }) (onD fun x => { x with closed := [aStripe] })
     (s.tiles[(0 : TileId)].d.closed.find? fun y => y.seq = aStripe.seq && y.program) = some aStripe ∧
     progResult s.tiles[(0 : TileId)].eng (.stripe aStripe.seq) = some f) ∧
    (let s := onD fun x => { x with waiting := [(dirBucket (base.home 1), aDir)] }
     s.tiles[(0 : TileId)].d.waiting = [(dirBucket (base.home 1), aDir)] ∧ s.dirRoom 0 aDir = true) ∧
    (let s := onD fun x => { x with hold := .replicate 5 true, stores := [{ aStore with phase := 1 }] }
     s.areaHolds 0 0 = true ∧ s.inSvc 0 = true ∧ s.tiles[(0 : TileId)].d.lastFold[(0 : Fin 5)] = false) ∧
    base.areaHolds 0 0 = false := by
  decide +kernel

theorem witness_StagingEventsComplete_folds :
    (let s := onD (fun x => { x with dir := [aDir] }) chanUp
     s.mayFold 0 (base.home 1).unit (base.home 1).pidx = true) ∧
    (∀ f ∈ [aFold 1 true, aFold 5 false],
      let s := onD (fun x => { x with folds := [f] }) chanUp
      s.foldOf 0 0 3 = some f ∧ f.carries = [] ∧ workLeft s.tiles[(0 : TileId)].eng (.fold 0 3) = false ∧
      s.tiles[(0 : TileId)].d.remapNext.contains (0, 3) = false) := by
  decide +kernel

theorem witness_StagingEventsComplete_programs :
    (∀ b ∈ ([0, 0x10] : List (BitVec 8)), ∀ o ∈ [true, false],
      let f := { aFold 6 o with started := true, opened := 253 }
      let s := onEng (fun x => { x with results := [(.fold 0 3, b)] }) (onD (fun x => { x with folds := [f] }) chanUp)
      let v := (s.endContexts 0 (.fold 0 3)).count 0 7 3
      s.foldOf 0 0 3 = some f ∧ f.parked = false ∧ f.opened + 1 < 255 ∧ progResult s.tiles[(0 : TileId)].eng (.fold 0 3) = some b ∧
      (o = true → v.foldTarget 0 f ≠ (v.pageHome 0 0 3).jj)) := by
  decide +kernel

theorem witness_StagingEventsComplete_readback :
    (∀ g ∈ [true, false],
      let n : Noise := if g then [] else [(0, (List.range 6).map (100 + ·))]
      let s := onD (fun x => { x with folds := [aFold 7 false] }) chanUp
      let dead := s.deadLines 0 0 (s.slotOf (s.pageHome 0 0 3))
      s.foldOf 0 0 3 = some (aFold 7 false) ∧ workLeft s.tiles[(0 : TileId)].eng (.fold 0 3) = false ∧
      readbackOk dead (readPage dead n) = g) := by
  decide +kernel

theorem witness_StagingEventsComplete_moves :
    (let s := onPl (fun x => { x with due := [(0, 1)] }) chanUp
     s.background = true ∧ Sparse.get 0 s.tiles[(0 : TileId)].pl.due 0 ≠ 0 ∧ s.tiles[(0 : TileId)].pl.moving.contains 0 = false ∧
     movePending s.tiles[(0 : TileId)].d 0 = false ∧ s.chanOut 0 (toChan (0 / 16)) = false ∧ s.tiles[(0 : TileId)].d.folds = [] ∧
     s.tiles[(0 : TileId)].d.lent = [] ∧ ringWritten s.tiles[(0 : TileId)].pl 0 (Sparse.get 0 s.tiles[(0 : TileId)].pl.moves 0 % 20376) = false) ∧
    (let s := onPl (fun x => { x with due := [(0, 1)], written := [(0, true)] }) chanUp
     ringWritten s.tiles[(0 : TileId)].pl 0 (Sparse.get 0 s.tiles[(0 : TileId)].pl.moves 0 % 20376) = true) ∧
    (∀ b ∈ ([0, 1] : List (BitVec 8)),
     let s := onEng (fun x => { x with results := [(.gapMove 0, b)] }) (onPl fun x => { x with moving := [0], copying := [0], recCount := [(0, 1024)] })
     s.tiles[(0 : TileId)].pl.copying.contains 0 = true ∧ progResult s.tiles[(0 : TileId)].eng (.gapMove 0) = some b ∧
     1024 ≤ Sparse.get 0 s.tiles[(0 : TileId)].pl.recCount 0) := by
  decide +kernel

/-- A context of Duiker 0 whose program is the one word given. -/
def aCtx : Context :=
  { duiker := 0, ctx := 0, pslot := 8, item := { id := 1, role := 0, cls := .fgRead, herd := 0, chan := 0, targets := [0], use := .load 6 } }
def running (w : BitVec 32) (f : Context → Context) : State :=
  onEng fun e => { e with ctxs := [f aCtx], programs := [(8, [w])] }

/-- An ISSUE of command `a` to the first target die. -/
def issueWord (a : Nat) : BitVec 32 := BitVec.ofNat 32 (2 ^ 28 + a * 2 ^ 16)

theorem witness_GaitEventsComplete :
    (let w : WorkItem := { id := 1, role := 5, cls := .fgWrite, herd := 0, chan := 0, targets := [0], use := .statusPoll }
     let s := onEng (fun e => { e with queues := vmod e.queues (queueIdx 0 .fgWrite) fun _ => [w] }) chanUp
     (ctxOf s.tiles[(0 : TileId)].eng 0 0).isNone = true ∧ s.inSvc 0 = true ∧ s.tiles[(0 : TileId)].eng.stopDispatch = false ∧
     s.dispatchItem 0 ((0 : Fin 64).val / 16) 0 = some (w, 0) ∧ (0 : Nat) = (0 : Fin 64).val / 16) ∧
    (∀ a ∈ ([0, 1] : List Nat), let w := issueWord a
      ctxStep (running w id).tiles[(0 : TileId)].eng 0 0 1 = some (aCtx, w) ∧ stepA w ≤ 1 ∧ aCtx.item.cls = .fgRead) ∧
    (∀ a ∈ ([2, 3, 4, 5, 6, 7] : List Nat), let w := issueWord a
      let f (x : Context) : Context := { x with item := { x.item with role := 2, cls := .fgWrite, use := .statusPoll } }
      ctxStep (running w f).tiles[(0 : TileId)].eng 0 0 1 = some (f aCtx, w) ∧ stepA w = a ∧ (f aCtx).item.cls ≠ .fgRead ∧
      itemPos (running w f).tiles[(0 : TileId)] (f aCtx).item = (0 : Fin 9) :: [] ∧
      (running w f).issueHeld 0 { f aCtx with cmd := stepA w, arg := stepB w } [0] = false) ∧
    (∀ op ∈ ([0, 2, 4, 7] : List Nat), let w := BitVec.ofNat 32 (op * 2 ^ 28)
      ctxStep (running w id).tiles[(0 : TileId)].eng 0 0 op = some (aCtx, w)) ∧
    (let f (x : Context) : Context := { x with st := .wait }
     ctxOf (running 0 f).tiles[(0 : TileId)].eng 0 0 = some (f aCtx) ∧ (f aCtx).st = .wait ∧ (f aCtx).suspended = []) ∧
    (∀ r ∈ ([0, 3] : List Nat),
     let f (x : Context) : Context := { x with issued := [0], item := { x.item with role := r } }
     ctxStep (running 0x30000000 f).tiles[(0 : TileId)].eng 0 0 3 = some (f aCtx, 0x30000000) ∧ (f aCtx).issued ≠ [] ∧
     (f aCtx).suspended = [] ∧ (f aCtx).item.cls = .fgRead ∧ (f aCtx).item.isRead = decide (r = 0)) ∧
    (∀ op ∈ ([5, 6] : List Nat), ∀ a ∈ ([0, 1] : List Nat), let w := BitVec.ofNat 32 (op * 2 ^ 28 + a * 2 ^ 16 + 15)
      ctxStep (running w id).tiles[(0 : TileId)].eng 0 0 op = some (aCtx, w) ∧ stepA w = a) := by
  decide +kernel

/-- 0x4000 for every partition idle but number 3, which programs, and NOT_READY. -/
def aStatus : List Byte := [0x40, 0, 0, 0, 1, 0, 0, 0]

theorem witness_ChannelEventsComplete :
    (∀ r ∈ [true, false],
     let f (x : Context) : Context := { x with st := .fetch, issued := [0], sent := [(0, aStatus)], retried := if r then [] else [0] }
     let s := running 0 f
     (s.tiles[(0 : TileId)].eng.ctxs.find? fun x => x.duiker = (0 : Fin 64).val && x.ctx = (0 : Fin 4).val && x.st = .fetch
       && fetches x.cmd && x.issued.contains (0 : Fin 9).val && !x.reverify.contains (0 : Fin 9).val) = some (f aCtx) ∧
     burstFails (tabGet (f aCtx).sent (0 : Fin 9).val) [] = false ∧ burstFails (tabGet (f aCtx).sent (0 : Fin 9).val) [7] = true ∧
     (f aCtx).issued.filter (· ≠ (0 : Fin 9).val) = [] ∧ (f aCtx).item.isRead = true ∧ (f aCtx).item.cls = .fgRead ∧
     (f aCtx).retried.contains (0 : Fin 9).val = !r) ∧
    (∀ st ∈ [PartState.idle, PartState.programming],
      let f (x : Context) : Context := { x with pc := 1 }
      let s := onCh (fun x => { x with tinit := false, dies := .replicate 9 { parts := .replicate 16 { st := st } } }) (chanUp (running 0 f))
      (s.tiles[(0 : TileId)].eng.ctxs.find? fun x => atScheduler x (0 : ChanId).val && x.item.part = (0 : Fin 16).val
        && x.item.targets.contains (0 : Fin 8).val) = some (f aCtx) ∧
      itemPos s.tiles[(0 : TileId)] (f aCtx).item = (0 : Fin 9) :: [] ∧
      s.tiles[(0 : TileId)].ch[(0 : ChanId)].dies[(0 : Fin 9)].parts[(0 : Fin 16)].st = st ∧
      s.tiles[(0 : TileId)].ch[(0 : ChanId)].hears (.suspend 0) [] = true ∧
      (st = .programming → (s.suspendSent 0 0 0 0 [] true).1 = true ∧
        (((s.suspendSent 0 0 0 0 [] true).2.modCh 0 0 fun k => { k with suspendCount := k.suspendCount + 1 }).count 0 5 3).tiles[(0 :
          TileId)].ch[(0 : ChanId)].dies[(0 : Fin 9)].parts[(0 : Fin 16)].st = .suspended)) ∧
    (let f (x : Context) : Context := { x with st := .fetch, cmd := 5, issued := [0], sent := [(0, aStatus)] }
     let s := running 0 f
     (s.tiles[(0 : TileId)].eng.ctxs.find? fun x => x.cmd = 5 && x.st = .fetch && x.item.chan = (0 : ChanId).val
       && x.issued.contains (0 : Fin 9).val) = some (f aCtx) ∧ tabGet (f aCtx).sent (0 : Fin 9).val = some aStatus ∧
     burstBad aStatus.length [] = false ∧ burstBad aStatus.length [7] = true ∧ (aStatus.getD 4 0).getLsbD 3 = false ∧
     (f aCtx).retried.contains (0 : Fin 9).val = false) ∧
    chanUp.tiles[(0 : TileId)].ch[(0 : ChanId)].present.getLsbD (8 : Fin 9) = true := by
  decide +kernel

/-- What a visit of the patrol does before it reads: it leaves the list, and the cursor moves on. -/
def visited (s : State) (slot : Nat) : State :=
  (s.modIt 0 fun i =>
    let vs := i.visits.filter fun x => x.unit ≠ 0
    { i with visits := vs, active := vs ≠ [], cursors := Sparse.set 0 i.cursors 0 (BitVec.ofNat 32 (slot + 1)) }).count 0 8 0

set_option maxRecDepth 8000 in
theorem witness_PatrolAndExtentEventsComplete :
    (let s := chanUp
     s.tiles[(0 : TileId)].it.enable = true ∧ s.background = true ∧ 63 < s.unitsPerTile ∧ s.chanOut 0 (toChan (63 / 16)) = false ∧
     s.tiles[(0 : TileId)].it.visits = [] ∧
     waits s.tiles[(0 : TileId)].eng (fun w => w.cls = .fold && w.unit = 63 && s.tiles[(0 : TileId)].d.pressure[areaFin w.area]) = false ∧
     nextVisit s.tiles[(0 : TileId)] 63 (Sparse.get 0 s.tiles[(0 : TileId)].it.cursors 63).toNat = some (256 * 20479)) ∧
    (let s := onIt (fun x => { x with visits := [{ unit := 0, slot := 7 }] }) (onPl (fun x => { x with written := [(0, true)] }) chanUp)
     (s.tiles[(0 : TileId)].it.visits.find? fun v => v.unit = 0) = some { unit := 0, slot := 7 } ∧
     workLeft s.tiles[(0 : TileId)].eng (.patrolVisit 0) = false ∧ 7 < 256 * 20479 ∧
     let v := visited s 7
     let r := v.pageRead 0 0 7 ([], [])
     nextVisit ((r.2.pageVisited 0 0 7 (pageChecks (readPage (v.deadLines 0 0 7) [])) r.1).checkLate 0 0).tiles[(0 : TileId)] 0 (7 + 1) = some 8) ∧
    (let s := onIt (fun x => { x with visits := [{ unit := 0, slot := 2 ^ 23 + 20377 }] })
       (onD (fun x => { x with segs := [{ unit := 0, ring := 20377, area := 0, isOpen := false },
                                        { unit := 0, ring := 20378, area := 0, isOpen := false }] }) chanUp)
     (s.tiles[(0 : TileId)].it.visits.find? fun v => v.unit = 0) = some { unit := 0, slot := 2 ^ 23 + 20377 } ∧
     workLeft s.tiles[(0 : TileId)].eng (.patrolVisit 0) = false ∧
     nextVisit (((visited s (2 ^ 23 + 20377)).segmentVisited 0 0 20377 []).checkLate 0 0).tiles[(0 : TileId)] 0 (2 ^ 23 + 20377 + 1) =
       some (2 ^ 23 + 20378)) ∧
    (base.inSvc 0 = true ∧ base.sys.state.isServing = true ∧ base.sys.state.isSleep = false ∧ base.sramValid 0 (.age 0) = true ∧
     (.age 0 : SramWord) ≠ .cacheTag ∧ sramRead (.age 0) { flips := [71] } = .corrected) ∧
    (let e : Extent := { base := 0, blocks := 1, heads := 1, releasing := true }
     let s := onSvc fun x => { x with extents := [e] }
     let u := ((s.discardRange e.base e.blocks).clearRings e.base e.blocks).zeroPages e.base e.blocks
     (s.svc.extents.find? fun e => e.base = 0 && e.releasing) = some e ∧ s.rangeBusy e.base e.blocks = false ∧ e.cleared = false ∧
     u.clearPending = false ∧ u.zeroPending e.base e.blocks = false ∧ u.mesh.paired = false ∧ u.mesh.relIn = []) ∧
    (∀ t ∈ base.svcTiles, base.tiles[t].d.segs = []) := by
  decide +kernel

theorem witness_StorageEventsComplete :
    (∀ p ∈ ([0, 1, 2] : List Nat), ∀ e ∈ [true, false],
      let op : FlashOp := { sector := 512, erasing := e, pages := p, use := .record [] }
      (onCfl fun x => { x with ops := x.ops.set 0 (some op) }).tiles[(0 : TileId)].cfl.ops[(if false then 1 else 0 : Fin 2)] = some op) ∧
    (let s := onEvr fun x => { x with queues := x.queues.set 0 [{ code := 0x9001 }] }
     s.sys.mbReady = true ∧ s.evr.queues[(0 : TileId)] = [{ code := 0x9001 }]) ∧
    (let s := onEvr fun x => { x with flushDue := true, held := [{ r := { code := 0x9001 } }] }
     s.evr.flushDue = true ∧ s.evr.flushRunning = false ∧ s.flush = none ∧ (s.evr.held.filter fun h => !h.flushed) ≠ [] ∧
     s.supplyOk (100 * (((s.evr.held.filter fun h => !h.flushed).length + 7) / 8 + 1)) 1 = true) ∧
    (let s := onEvr fun x => { x with flushRunning := true }
     s.evr.flushRunning = true ∧ s.evr.batch = [] ∧ s.flush = none) ∧
    (let w : PageWrite := { addr := 65535, bytes := [1], tag := 1 }
     (onPrm fun x => { x with queue := [w, w] }).prm.queue = [w, w] ∧ (∃ x ∈ [w], x.tag = w.tag) ∧
     (onPrm fun x => { x with queue := [w] }).prm.queue = w :: [] ∧ w.tag = 1) ∧
    (let r : CommitRun := { image := [], todo := [0, 1, 2, 3], host := true }
     let s := onCfg fun x => { x with commit := some r }
     s.cfg.commit = some r ∧ (r.todo.filter fun x => x / 2 = (0 : TileId).val) = [0, 1] ∧
     s.tiles[(0 : TileId)].cfl.ops[(0 : Fin 2)] = none ∧ s.tiles[(0 : TileId)].cfl.spare[(0 : Fin 2)] = []) := by
  decide +kernel

/-- A command waits at a mailbox of head 0, or at the sideband's endpoint. -/
def m0 : Iface := .head 0 false
def ask (op : BitVec 16) (i : List Byte) (s : State := base) : State :=
  onHead (fun x => { x with mb := x.mb.set 0 { doorbell := true, cmd := some { opcode := op, input := i } } }) s
def askMctp (op : BitVec 16) (i : List Byte) (s : State := base) : State :=
  onSvc (fun x => { x with mctp := { doorbell := true, cmd := some { opcode := op, input := i } } }) s
/-- Bytes from fields of a length and a value. -/
def fields (l : List (Nat × Nat)) : List Byte := l.flatMap fun p => leBytes p.1 p.2

theorem witness_StandardCommandsComplete :
    (base.heads[(0 : TileId)].speed ≠ 0 ∧ base.heads[(0 : TileId)].d3hot = false ∧ base.sys.mbReady = true ∧ base.inSvc 0 = true ∧
     (base.mbox m0).doorbell = false) ∧
    (let s := ask 0x9999 []
     s.svc.waiting = none ∧ s.sys.lead ≠ none ∧ s.nextMb = some m0 ∧ (s.mbox m0).cmd = some { opcode := 0x9999, input := [] } ∧ s.supports m0 0x9999 = false ∧
     s.sys.state ≠ .flushing ∧ s.svc.rdpPending = false) ∧
    (∀ p ∈ ([(0x0001, []), (0x0002, []), (0x0003, []), (0x0004, [8]), (0x0100, [4]), (0x0101, [0, 0, 0, 0, 0, 0]), (0x0102, []),
        (0x0103, [1, 0, 1, 0, 1]), (0x0300, []), (0x0301, [1, 0, 0, 0, 0, 0, 0, 0x80]), (0x0400, []),
        (0x0401, celUuid ++ [0, 0, 0, 0, 8, 0, 0, 0]), (0x0500, [0, 0, 0, 0, 0, 0, 0, 0])] : List (BitVec 16 × List Byte)),
      (ask p.1 p.2).Served m0 p.1.toNat p.2 false false .identify) ∧
    ((base.heads[(0 : TileId)].logs[(0 : Fin 5)].recs.take 0).map (·.handle) = [] ∧ 0 + 8 ≤ 4 * opcodes.length) ∧
    (let l : EventLog := { recs := [{ handle := 1, kind := 0 }], overflow := 3 }
     let s := onHead (fun x => { x with logs := .replicate 5 l }) (ask 0x0101 [0, 1, 0, 0, 0, 0])
     s.Served m0 0x0101 [0, 1, 0, 0, 0, 0] false false .identify ∧ s.heads[s.headOf m0].logs[toLog 0].overflow ≠ 0) ∧
    (let b : Background := { opcode := 0x4304, head := some 0 }
     let s := onSvc (fun x => { x with bg := some b }) (ask 0x0005 [])
     s.Served m0 0x0005 [] false false .identify ∧ s.svc.bg = some b) ∧
    ((askMctp 0x0104 []).Served .mctp 0x0104 [] false false .identify ∧ (askMctp 0x0105 [7, 0]).Served .mctp 0x0105 [7, 0] false false .identify) := by
  unfold State.Served
  decide +kernel

theorem witness_DeviceCommandsComplete :
    (∀ p ∈ ([(0x4000, []), (0x4100, []), (0x4102, [0xFF, 0xFF, 0, 0, 1, 0, 0, 0]), (0x4200, []), (0x4201, []), (0x4203, [])] :
        List (BitVec 16 × List Byte)), (ask p.1 p.2).Served m0 p.1.toNat p.2 false false .identify) ∧
    (let i : List Byte := [0xFF, 0xFF, 0, 0, 0, 0, 0, 0, 0x55]
     (ask 0x4103 i).Served m0 0x4103 i true false .setShutdown ∧ fieldAt i 0 4 + (i.length - 8) ≤ 65536 ∧
     (ask 0x4103 i).supplyOk (11900 * ((List.range 16).filter fun k =>
       decide (4096 * k < fieldAt i 0 4 + (i.length - 8) ∧ fieldAt i 0 4 < 4096 * (k + 1))).length) 1 = true) ∧
    (ask 0x4202 (List.replicate 12 1)).Served m0 0x4202 (List.replicate 12 1) false false .setAlert ∧
    (ask 0x4204 [1]).Served m0 0x4204 [1] true false .setShutdown := by
  unfold State.Served
  decide +kernel

/-- The record with a Dynamic Capacity region 0 of 256 MiB at 256 MiB, in blocks of 2 MiB. -/
def dcRecord : List Byte := putBytes record 80 (fields [(4, 1), (4, 1), (1, 0), (1, 0), (1, 0), (5, 0)])
def dc : State := onCfg fun x => { x with record := dcRecord }
/-- One extent of 2 MiB at 256 MiB, in a payload whose entries have n bytes. -/
def oneExtent (n : Nat) : List Byte := fields [(8, 2 ^ 28), (8, 2 ^ 21), (n - 16, 0)]

theorem witness_CapacityCommandsComplete :
    (∀ p ∈ ([(0x4800, [8, 0]), (0x4801, fields [(4, 1), (4, 16383)])] : List (BitVec 16 × List Byte)),
      (ask p.1 p.2).Served m0 p.1.toNat p.2 false false .capacity) ∧
    (let i := fields [(4, 1), (4, 0)] ++ oneExtent 24
     let s := onSvc (fun x => { x with offers := [⟨0, [(128, 1)]⟩] }) (ask 0x4802 i dc)
     s.Served m0 0x4802 i false false .capacity ∧ i.length = 32 ∧ fieldAt i 0 4 = 1 ∧ payloadExtents i 8 24 1 = [(128, 1, true)] ∧
     (s.svc.offers.find? fun o => o.head = s.headOf m0) = some ⟨0, [(128, 1)]⟩) ∧
    (let i := fields [(4, 1), (4, 0)] ++ oneExtent 24
     let s := onSvc (fun x => { x with extents := [{ base := 128, blocks := 1, heads := 1, region := 0 }] }) (ask 0x4803 i dc)
     s.Served m0 0x4803 i false false .capacity ∧ i.length = 8 + 24 * fieldAt i 0 4 ∧
     (s.releaseRanges (s.headOf m0) (payloadExtents i 8 24 (fieldAt i 0 4))).toOption.isSome = true) ∧
    (∀ p ∈ ([(0x5600, []), (0x5601, [0, 0, 8, 0]), (0x5603, fields [(4, 0), (4, 16384), (4, 0)])] : List (BitVec 16 × List Byte)),
      (ask p.1 p.2).Served m0 p.1.toNat p.2 true false .capacity) ∧
    base.fmHead 0 = some 0 := by
  unfold State.Served
  decide +kernel

theorem witness_CapacityCommandsComplete_manager :
    (let i := fields [(1, 0), (3, 0), (8, 2 ^ 24), (1, 8), (3, 0)]
     let s := onSvc (fun x => { x with extents := [] }) (ask 0x5602 i dc)
     s.cfg.commit = none ∧ s.Served m0 0x5602 i true false .capacity ∧ s.regionLen 0 ≠ 0 ∧
     ((List.range 4).find? fun c => 2 ^ (21 + 3 * c) = fieldAt i 4 8) = some 1 ∧ s.svc.offers = [] ∧
     recRegLen s.cfg.record 0 % fieldAt i 4 8 = 0 ∧ recRegBase s.cfg.record 0 % fieldAt i 4 8 = 0) ∧
    (let i := fields [(2, 0), (1, 2), (25, 0), (4, 1)] ++ oneExtent 40
     let s := ask 0x5604 i dc
     s.Served m0 0x5604 i true false .capacity ∧ i.length = 32 + 40 * fieldAt i 28 4 ∧ s.fmHead (fieldAt i 0 2) = some 0 ∧
     fieldAt i 2 1 % 16 = 2 ∧ s.checkAdds 0 [] (payloadExtents i 32 40 (fieldAt i 28 4)) = none ∧ s.isGuest 0 = false ∧
     (s.svc.offers.filter fun o => o.head = 0).length < 16) ∧
    (∀ f ∈ ([1, 17] : List Nat),
     let i := fields [(2, 0), (1, f), (25, 0), (4, 1)] ++ oneExtent 40
     let s := onSvc (fun x => { x with extents := [{ base := 128, blocks := 1, heads := 1, region := 0 }] }) (ask 0x5605 i dc)
     s.Served m0 0x5605 i true false .capacity ∧ i.length = 32 + 40 * fieldAt i 28 4 ∧ fieldAt i 2 1 % 16 = 1 ∧ fieldAt i 2 1 / 16 = f / 16 ∧
     (s.releaseRanges 0 (payloadExtents i 32 40 (fieldAt i 28 4))).toOption.isSome = true) := by
  unfold State.Served
  decide +kernel

theorem witness_PoisonCommandsComplete :
    (let i := fields [(8, 2 ^ 28 - 64), (8, 1)]
     (ask 0x4300 i).Served m0 0x4300 i false false .poisonList ∧ (ask 0x4300 i).rangeOk i = true ∧
     inEntries ((ask 0x4300 i).reach m0) (fieldAt i 0 8 / 64) = true ∧ fieldAt i 8 8 ≠ 0 ∧
     (ask 0x4303 i).Served m0 0x4303 i false false .injectPoison ∧ coversRange ((ask 0x4303 i).reach m0) (fieldAt i 0 8 / 64) (fieldAt i 8 8) = true) ∧
    (let i := fields [(8, 0)]
     (ask 0x4301 i).Served m0 0x4301 i false false .injectPoison ∧ (ask 0x4301 i).poison.injected < 256 ∧
     (ask 0x4302 (i ++ List.replicate 64 7)).Served m0 0x4302 (i ++ List.replicate 64 7) false false .injectPoison) ∧
    (let i := fields [(8, 0), (8, 2 ^ 22), (1, 0)]
     (ask 0x4304 i).Served m0 0x4304 i false true .injectPoison ∧ (ask 0x4304 i).rangeOk i = true ∧
     coversRange ((ask 0x4304 i).reach m0) (fieldAt i 0 8 / 64) (fieldAt i 8 8) = true ∧ (ask 0x4304 i).svc.bg = none) ∧
    ((ask 0x4305 []).Served m0 0x4305 [] false false .poisonList ∧ (ask 0x4305 []).poison.scan = []) := by
  unfold State.Served
  decide +kernel

set_option maxRecDepth 8000 in
theorem witness_FirmwareCommandsComplete :
    (ask 0x0200 []).Served m0 0x0200 [] false false .identify ∧
    (let i := fields [(1, 0), (1, 2), (2, 0), (4, 0), (248, 0)]
     let s := ask 0x0201 i
     s.Served m0 0x0201 i true false .identify ∧ 128 < i.length ∧ i.length % 128 = 0 ∧ fieldAt i 4 4 = 0 ∧ fieldAt i 1 1 ≠ s.activeSlot ∧
     s.svc.fwXfer = none) ∧
    (let i := fields [(1, 3), (1, 2), (2, 0), (4, 1), (248, 0)]
     let w : FwImage := List.replicate 128 0
     let s := onSvc (fun x => { x with fwXfer := some (2, w) }) (ask 0x0201 i)
     s.Served m0 0x0201 i true false .identify ∧ 128 * fieldAt i 4 4 + (i.length - 128) ≤ 2 ^ 21 ∧
     s.svc.fwXfer = some (2, w) ∧ w.length = 128 * fieldAt i 4 4) ∧
    (let s := ask 0x0202 [1, 1]
     s.Served m0 0x0202 [1, 1] true false .identify ∧ s.svc.fwXfer = none ∧ s.slotImage s.lead 1 = some Factory.firmware ∧
     s.fwCheck Factory.firmware = none ∧ s.supplyOk 50 s.svcTiles.length = true) := by
  unfold State.Served
  decide +kernel

/-- The lead's keys hold a user passphrase with the verifier given. -/
def withPw (v : BitVec 128 × BitVec 256) (s : State) : State :=
  onNv (fun x => { x with keys := .replicate 2 (some { userPw := some v }) }) s
/-- A passphrase payload: type, new and current passphrase all of one byte. -/
def pwInput (n : Nat) : List Byte := [1] ++ List.replicate 31 0 ++ List.replicate (n - 32) 5

/-- The passphrase of thirty-two bytes 5 meets its own verifier, and does not meet another. -/
theorem pw_witness :
    pwMatches (9, pwTag 9 (bytesAt (pwInput 96) 32 32)) (bytesAt (pwInput 96) 32 32) = true ∧
    pwMatches (9, pwTag 9 (bytesAt (pwInput 96) 32 32) + 1) (bytesAt (pwInput 96) 32 32) = false := by
  constructor
  · simp [pwMatches]
  · simp [pwMatches, eq_comm]

theorem witness_SecurityCommandsComplete :
    (ask 0x4500 []).Served m0 0x4500 [] false false .identify ∧
    ((ask 0x4501 (pwInput 96)).Served m0 0x4501 (pwInput 96) true false .setPassphrase ∧ (ask 0x4501 (pwInput 96)).erasing = false ∧
     (ask 0x4501 (pwInput 96)).sec.frozen = false ∧ (ask 0x4501 (pwInput 96)).tries true ≠ 0 ∧
     (ask 0x4501 (pwInput 96)).keySet.pw true = none) ∧
    (∀ v : BitVec 128 × BitVec 256, (withPw v base).keySet.pw true = some v ∧ (withPw v base).keySet.userPw = some v ∧
      (withPw v (ask 0x4501 (pwInput 96))).Served m0 0x4501 (pwInput 96) true false .setPassphrase ∧
      (withPw v (ask 0x4502 (pwInput 64))).Served m0 0x4502 (pwInput 64) true false .setPassphrase ∧
      (withPw v (ask 0x4503 (List.replicate 32 5))).Served m0 0x4503 (List.replicate 32 5) true false .setPassphrase ∧
      (withPw v (ask 0x4505 (pwInput 64))).Served m0 0x4505 (pwInput 64) true true .injectPoison) ∧
    (bytesAt (pwInput 64) 32 32 = bytesAt (pwInput 96) 32 32 ∧ bytesAt (List.replicate 32 5) 0 32 = bytesAt (pwInput 96) 32 32) ∧
    (ask 0x4504 []).Served m0 0x4504 [] true false .setPassphrase ∧
    ((ask 0x4400 []).Served m0 0x4400 [] true true .injectPoison ∧ (ask 0x4401 []).Served m0 0x4401 [] true true .injectPoison ∧
     base.svc.bg = none ∧ base.sec.locked = false) ∧
    (let b : Background := { opcode := 0x4400, head := some 0 }
     let s := onSvc (fun x => { x with bg := some b }) (onSec fun x => { x with eraseStep := 4 })
     s.svc.bg = some b ∧ b.opcode ≠ 0x4304 ∧ b.opcode ≠ 0xC060 ∧ s.sec.eraseStep = 4 ∧ s.sec.keyWrite = none ∧
     s.supplyOk (2 * keySetUs + 100) s.svcTiles.length = true) ∧
    (let i := fields [(1, 1), (7, 0)]
     (ask 0xC080 i).Served m0 0xC080 i true false .loadConfig ∧ fieldAt i 0 1 = (ask 0xC080 i).rdp) ∧
    (let i := fields [(1, 2), (1, 0), (2, 0x4C32), (4, 0)]
     (ask 0xC080 i).Served m0 0xC080 i true false .loadConfig ∧ (ask 0xC080 i).rdp < fieldAt i 0 1 ∧ fieldAt i 2 2 = 0x4C32) ∧
    (let i := fields [(1, 0), (1, 0), (2, 0x4C30), (4, 0)]
     let s := onSys (fun x => { x with state := .configHold }) (ask 0xC080 i)
     s.Served m0 0xC080 i true false .loadConfig ∧ s.rdp = 1 ∧ s.sys.state.isServing = false ∧ fieldAt i 2 2 = 0x4C30) ∧
    ((onSvc fun x => { x with rdpPending := true }).svc.rdpPending = true) ∧
    (base.aon.vaon = true ∧ (fittedMask base.fuses.variant).getLsbD ((2 : Fin 9).val - 1) = true ∧ base.rdp ≤ 1) := by
  unfold State.Served
  refine ⟨by decide +kernel, by decide +kernel, fun v => ⟨rfl, rfl, ⟨rfl, ?_, by decide⟩, ⟨rfl, ?_, by decide⟩, ⟨rfl, ?_, by decide⟩,
    ⟨rfl, ?_, by decide⟩⟩, ?_⟩
  · exact (by decide +kernel : (ask 0x4501 (pwInput 96)).cmdCheck m0 0x4501 true false .setPassphrase = none)
  · exact (by decide +kernel : (ask 0x4502 (pwInput 64)).cmdCheck m0 0x4502 true false .setPassphrase = none)
  · exact (by decide +kernel : (ask 0x4503 (List.replicate 32 5)).cmdCheck m0 0x4503 true false .setPassphrase = none)
  · exact (by decide +kernel : (ask 0x4505 (pwInput 64)).cmdCheck m0 0x4505 true true .injectPoison = none)
  · decide +kernel

/-- Load and Commit Configuration with a record whose CRC checks, beyond what the lead's (erased) copies hold. -/
def loading (r : List Byte) : State := onNv (fun x => { x with copies := .replicate 2 [] }) (ask 0xC010 r)
def committing (r : List Byte) : State := onCfg (fun x => { x with loaded := some r }) (ask 0xC011 (fields [(4, 0), (4, 1)]))

theorem loading_served (r : List Byte) (h : r.length ≤ 65536) : (loading r).Served m0 0xC010 r true false .loadConfig :=
  ⟨rfl, (by decide +kernel : (loading []).cmdCheck m0 0xC010 true false .loadConfig = none), h⟩

theorem loading_highSeq (r : List Byte) : (loading r).highSeq = 0 := (by decide +kernel : (loading []).highSeq = 0)

theorem witness_loadConfiguration : ∃ (s : State) (i : List Byte), s.Served m0 0xC010 i true false .loadConfig ∧ i.length = 4096 ∧
    recCrcOk i = true ∧ recFormatOk i = true ∧ s.highSeq < recSeq i ∧ recSeq i ≤ 0xFFFFFFFE ∧ s.recInconsistent i = false :=
  ⟨loading record, record, loading_served record (record_length.symm ▸ by decide), record_length, sealed_recCrcOk body body_length,
    record_formatOk, loading_highSeq record ▸ record_seq ▸ by decide, record_seq ▸ by decide,
    Bool.or_eq_false_iff.mpr ⟨record_contradicts, record_absentTile (loading record) rfl⟩⟩

theorem committing_served (r : List Byte) : (committing r).Served m0 0xC011 (fields [(4, 0), (4, 1)]) true false .loadConfig :=
  ⟨rfl, (by decide +kernel : (committing []).cmdCheck m0 0xC011 true false .loadConfig = none), by decide +kernel⟩

theorem witness_commitConfiguration : ∃ (s : State) (i img : List Byte), s.cfg.commit = none ∧ s.Served m0 0xC011 i true false .loadConfig ∧
    i.length = 8 ∧ s.cfg.loaded = some img ∧ fieldAt i 4 4 = recSeq img ∧ s.recInconsistent img = false ∧
    s.supplyOk commitUs s.commitTiles.length = true :=
  ⟨committing record, fields [(4, 0), (4, 1)], record, rfl, committing_served record, by decide, rfl,
    record_seq ▸ by decide +kernel, Bool.or_eq_false_iff.mpr ⟨record_contradicts, record_absentTile (committing record) rfl⟩, rfl⟩

theorem witness_VendorCommandsComplete :
    (∀ p ∈ ([(0xC012, fields [(1, 0), (1, 0), (2, 4095), (2, 1), (2, 0)]), (0xC012, fields [(1, 1), (1, 0), (2, 0), (2, 4096), (2, 0)]),
        (0xC012, fields [(1, 3), (1, 0), (2, 0), (2, 4096), (2, 0)]), (0xC030, fields [(8, 1), (1, 8), (1, 3), (6, 0)]),
        (0xC031, fields [(2, 1023), (1, 1), (5, 0)]), (0xC041, [1, 0, 0, 0])] : List (BitVec 16 × List Byte)),
      (ask p.1 p.2).Served m0 p.1.toNat p.2 false false .identify) ∧
    (ask 0xC001 []).Served m0 0xC001 [] false false .tileStatus ∧ (ask 0xC021 []).Served m0 0xC021 [] false false .tileStatus := by
  unfold State.Served
  decide +kernel

theorem witness_VendorCommandsComplete_manage : base.cfg.chosen.length ≠ 0 ∧ base.bbx.buffer = none ∧
    (onCfg fun x => { x with loaded := some [1] }).cfg.loaded = some [1] ∧
    (ask 0xC020 [3, 3, 0, 0]).Served m0 0xC020 [3, 3, 0, 0] true false .setPower ∧
    (let s := ask 0xC040 [8, 1, 0, 0]
     s.cfg.commit = none ∧ s.Served m0 0xC040 [8, 1, 0, 0] true false .injectPoison) := by
  unfold State.Served
  decide +kernel

theorem witness_VendorCommandsComplete_counters :
    (∀ i ∈ ([[0, 0, 0, 0], [3, 0, 0, 0]] : List (List Byte)), (ask 0xC050 i).Served m0 0xC050 i false false .poisonList) ∧
    (let i : List Byte := [0, 1, 7, 1, 1, 0, 0, 0]
     (ask 0xC051 i).Served m0 0xC051 i false false .poisonList ∧ ((ask 0xC051 i).regTile (fieldAt i 0 1) (fieldAt i 1 1)).toOption = some 0 ∧
     blockKnown (fieldAt i 1 1) = true ∧ fieldAt i 2 1 + fieldAt i 3 1 ≤ ctrCount (fieldAt i 1 1)) ∧
    (∀ i ∈ ([[0, 8, 1, 0xFF, 0, 0, 0, 0], fields [(4, 1), (2, 3072), (2, 1024)], [3, 0, 0, 0, 0, 0, 0, 0]] : List (List Byte)),
      (ask 0xC052 i).Served m0 0xC052 i true false .injectPoison) := by
  unfold State.Served
  decide +kernel

theorem witness_VendorControlCommandsComplete :
    ((ask 0xC060 [1, 0, 0, 0]).Served m0 0xC060 [1, 0, 0, 0] true true .injectPoison ∧ (ask 0xC060 [1, 0, 0, 0]).svc.bg = none) ∧
    (ask 0xC061 []).Served m0 0xC061 [] false false .identify ∧
    (let i := fields [(1, 0), (1, 63), (2, 0x1FF), (1, 3), (3, 0)]
     let s := onMesh (fun x => { x with present := 1 <<< 63 }) (ask 0xC062 i)
     s.cfg.commit = none ∧ s.Served m0 0xC062 i true false .injectPoison ∧
     s.mesh.present.getLsbD (BitVec.ofNat 6 (fieldAt i 1 1)).toNat = true ∧ s.mesh.state = 0 ∧ s.mesh.peerPair = none) ∧
    (let i := fields [(1, 1), (7, 0)]
     (ask 0xC062 i).Served m0 0xC062 i true false .injectPoison) := by
  unfold State.Served
  decide +kernel

set_option maxRecDepth 8000 in
theorem witness_VendorControlCommandsComplete_parameters :
    (let i := fields [(2, 65535), (2, 1), (4, 0)]
     (ask 0xC070 i).Served m0 0xC070 i false false .identify ∧ (ask 0xC070 i).sys.rescueLead = false) ∧
    (let i := fields [(2, 65535), (2, 1), (4, 0), (1, 9)]
     let s := ask 0xC071 i
     s.Served m0 0xC071 i true false .setShutdown ∧ i.length = 8 + fieldAt i 2 2 ∧ s.supplyOk (50 * (fieldAt i 2 2 / 64 + 2)) 1 = true) ∧
    (let i := List.replicate 68 (0 : Byte)
     (ask 0xC072 i).Served m0 0xC072 i true false .setShutdown ∧ (ask 0xC072 i).prm.tries ≠ 0) ∧ base.prmPwSet = false := by
  unfold State.Served
  decide +kernel

theorem witness_VendorControlCommandsComplete_cache :
    (let s := ask 0xC090 [1, 8, 0, 0]
     s.svc.waiting = none ∧ s.cfg.commit = none ∧ s.Served m0 0xC090 [1, 8, 0, 0] true false .injectPoison ∧ s.inSvc 0 = true ∧
     4 + 8 + 2 * s.tiles[(0 : TileId)].d.offPairs.toNat ≤ 16 ∧ s.supplyOk commitUs s.commitTiles.length = true) ∧
    (let s := ask 0xC091 [1, 6, 0, 0]
     s.Served m0 0xC091 [1, 6, 0, 0] true false .injectPoison ∧ 4 + s.tiles[(0 : TileId)].d.scratchWays.toNat + 2 * 6 ≤ 16) ∧
    (let s := onSvc (fun x => { x with waiting := some (m0, .staged [8]) }) (ask 0xC090 [1, 8, 0, 0])
     s.svc.waiting = some (m0, .staged [8]) ∧ (s.mbox m0).cmd.map (fun (c : MbCmd) => c.opcode.toNat) = some 0xC090 ∧ s.leavingClean = true) ∧
    ((ask 0xC0A0 (fields [(1, 1), (11, 0)])).Served m0 0xC0A0 (fields [(1, 1), (11, 0)]) true false .injectPoison ∧ base.sys.state = .active) ∧
    (let i := fields [(1, 4), (1, 3), (2, 0)]
     let s := ask 0xC0B0 i
     s.Served m0 0xC0B0 i true false .setPassphrase ∧ s.sys.state ≠ .configHold ∧ recRailUsed s.cfg.record (fieldAt i 0 1) = true) ∧
    (let i := fields [(1, 0), (1, 7), (2, 4092), (2, 1), (2, 0)]
     (ask 0xC0C0 i).Served m0 0xC0C0 i false false .identify ∧ ((ask 0xC0C0 i).regCheck i).toOption = some 0) := by
  unfold State.Served
  decide +kernel

theorem witness_writeVendorRegister :
    (∀ p ∈ ([(0x0C, 0x004), (0x01, 0x104), (0x10, 0x020), (0x10, 0x024), (0x12, 0x000), (0x0A, 0x014), (0x14, 0x004)] : List (Nat × Nat)),
      let i := fields [(1, 15), (1, p.1), (2, p.2), (4, 1)]
      (ask 0xC0C1 i).Served m0 0xC0C1 i true false .setPassphrase ∧ ((ask 0xC0C1 i).regCheck i).toOption = some 0 ∧
      (fieldAt i 1 1, fieldAt i 2 2) = p) ∧
    ownWrites.contains (0x0C, 0x004) = false ∧ base.sys.lead = some 0 ∧ base.supplyOk 50 1 = true := by
  unfold State.Served
  decide +kernel

theorem witness_SidebandEventsComplete : base.sbUp = true ∧
    (base.sbBusy = false ∧ (2047 : BitVec 16).toNat < 2048 ∧ 1 ≤ (64 : BitVec 8).toNat ∧ (64 : BitVec 8).toNat ≤ (List.replicate 64 (0 : Byte)).length ∧
     (2047 : BitVec 16).toNat - (2047 : BitVec 16).toNat % 64 < protectedFrom base.prm.bp ∧ base.supplyOk 50 1 = true) ∧
    (base.sys.lead ≠ none ∧ base.sys.mbReady = true ∧ base.sys.loneLost = false ∧ base.svc.mctp.doorbell = false ∧ base.svc.i3cMode = false) := by
  decide +kernel

/-- Ports of tile 0, or peer ports, changed alike; a message in a class queue. -/
def onPorts (f : Link → Link) (s : State := base) : State := onFab (fun x => { x with ports := x.ports.map f }) s
def onPeers (f : Link → Link) (s : State := base) : State := onMesh (fun x => { x with ports := x.ports.map f }) s
def linkIsUp (k : Link) : Link := { k with trained := true, up := true, speed := 2, width := 2, init := some { role := 0, position := 1 } }
def arrived (m : Msg) (s : State := base) : State := onFab (fun x => { x with rxq := [(0, m)] }) s
/-- An INIT flit of the neighbour of tile 0. -/
def anInit : InitFlit := { role := 0, position := 1, serialCrc := base.serialCrc 0 }
/-- A YD-4871G, whose guest die sits at position 7. -/
def guestPart : State := { base with fuses := { variant := .yd4871g } }

theorem witness_LinkEventsComplete_up :
    (∀ i : InitFlit, readInit (initBytes i) = some i) ∧ readInit [] = none ∧
    (∀ l ∈ ([.widar 0 0, .peer 3] : List PortId), base.boot.released = true ∧ base.portEnabled l = true ∧ base.linksSleep = false ∧
      (base.link l).up = false ∧ (base.link l).retraining = false) ∧
    (let s := onPorts (fun k => { k with trained := true })
     (s.link (.widar 0 0)).trained = true ∧ (s.link (.widar 0 0)).up = false ∧ s.initRefused 0 0 anInit = false ∧
     s.initDisagrees 0 0 anInit = false ∧ neighbour s.fuses.variant 0 0 ≠ some 7 ∧ s.initRefused 0 0 { anInit with flitBuf := 3 } = true) ∧
    (let s := { guestPart with fab := .replicate 8 { ports := .replicate 4 { trained := true } } }
     let i : InitFlit := { role := 1, position := 7, flags := 3, flitBuf := 4, crdReq := 4095 }
     (s.link (.widar 3 2)).trained = true ∧ (s.link (.widar 3 2)).up = false ∧ s.initRefused 3 2 i = false ∧ s.initDisagrees 3 2 i = false ∧
     s.fuses.variant = .yd4871g ∧ neighbour s.fuses.variant 3 2 = some 7) ∧
    (let s := onPeers (fun k => { k with trained := true })
     let i : InitFlit := { role := 2, position := 63, serialCrc := 1 }
     (s.link (.peer 2)).trained = true ∧ (s.link (.peer 2)).up = false ∧ i.role = 2 ∧ i.serialCrc ≠ s.serialCrc (peerTile s.fuses.variant 2) ∧
     i.position.toNat % 64 ≠ s.pkgId ∧ initRangeOk i = true ∧ i.flags = 0 ∧ initRangeOk { i with version := 2 } = false) := by
  refine ⟨readInit_initBytes, ?_⟩
  decide +kernel

/-- The flits of these tests cross a link scrambled, and are read back as `flitOf` reads their bytes. -/
theorem witness_LinkEventsComplete_wire :
    (∀ (k : Link) (l : PortId) (f : Flit), k.receive l (scramble k.rxKey k.rxFrame (flitBytes f)) = some (flitOf (onPeer l) (flitBytes f))) ∧
    (∀ (k : Link) (l : PortId), k.receive l [] = none) ∧
    (∀ m : Bool, ∀ y ∈ ([0, 1, 2] : List (BitVec 2)), (flitOf m (flitBytes { type := y })).type = y) ∧
    (∀ m : Bool, (flitOf m (flitBytes { type := 1, seq := 1023 })).seq = 1023) := by
  refine ⟨Link.receive_flitBytes, fun _ _ => rfl, ?_⟩
  decide +kernel

theorem witness_LinkEventsComplete_flits :
    (∀ l ∈ ([.widar 0 1, .peer 0] : List PortId),
      let s := onPeers linkIsUp (onPorts linkIsUp)
      (s.link l).up = true ∧ (s.link l).retraining = false) ∧
    (∀ l ∈ ([.widar 0 1, .peer 0] : List PortId), ∀ n ∈ ([1023, 5] : List (BitVec 10)),
     let s := onPeers (fun k => { linkIsUp k with expect := 1023 }) (onPorts (fun k => { linkIsUp k with expect := 1023 }))
     let f : Flit := flitOf (onPeer l) (flitBytes { type := 1, seq := n })
     (s.link l).up = true ∧ (s.link l).retraining = false ∧
     (decide (f.seq = (((s.modLink l fun k => { k with rxFrame := k.rxFrame + 1 }).modLink (s.linkHome l) fun k =>
      { k.takeHeader f with fcrdDue := k.fcrdDue + 1, nullDue := true }).link (s.linkHome l)).expect) = decide (n = 1023))) ∧
    (∀ n ∈ ([5, 6] : List (BitVec 10)),
     let s := onPeers (fun k => { linkIsUp k with unacked := [(4, [], []), (5, [], [])] })
     let h := PortId.peer 0
     let f : Flit := flitOf true (flitBytes { type := 2, seq := n })
     ((((s.modLink h fun k => { k with rxFrame := k.rxFrame + 1 }).modLink h fun k => k.takeHeader f).link h).unacked.any fun x =>
       decide (x.1 = f.seq)) = decide (n = 5)) ∧
    (∀ n ∈ ([3, 4] : List Nat),
      let s := onPorts fun k => { linkIsUp k with discarding := true, retryTries := n }
      (s.link (.widar 0 1)).up = true ∧ (s.link (s.linkHome (.widar 0 1))).discarding = true ∧ (s.link (s.linkHome (.widar 0 1))).retryTries = n) := by
  decide +kernel

theorem witness_LinkEventsComplete_retrain :
    (∀ n ∈ ([2, 3] : List Nat),
     let s := onPorts fun k => { linkIsUp k with retraining := true, recent := List.replicate n 0 }
     (s.link (.widar 0 0)).retraining = true ∧ s.retrainRefused (.widar 0 0) anInit = false ∧
     ((s.retrained (.widar 0 0) anInit).link (.widar 0 0)).recent.length = n + 1 ∧
     s.retrainRefused (.widar 0 0) { anInit with version := 0 } = true) ∧
    (let s := onPorts fun k => { k with outOfService := true }
     (s.link (.widar 0 0)).outOfService = true ∧ (s.link (.widar 0 0)).up = false) ∧
    (let s := onPorts linkIsUp
     s.inSvc 0 = true ∧ (s.routeTo 0 1).1 ≠ 7 ∧ s.fab[(0 : TileId)].dead.getLsbD 1 = false ∧ ∀ p : Fin 4, s.linkOk 0 p = true) ∧
    (let s := { guestPart with guest := { admitted := true, missed := 3 } }
     s.guest.admitted = true ∧ 3 ≤ s.guest.missed.toNat ∧ s.guestLinks = 0) := by
  decide +kernel

/-- The message is taken, and its verdict is `c`. -/
def takes (s : State) (m : Msg) (c : Option Nat) : Bool :=
  match s.wTake 0 m with
  | some (_, u) => u.wJudge 0 m = c
  | none => false

/-- `base` after its firmware has read its tile's identity and self test; a request of the tile itself. -/
def aMsg (op : BitVec 8) (addr : BitVec 52) (len : BitVec 7) : Msg := { opcode := op, addr := addr, len := len, dst := 0, src := 0 }

theorem witness_WidarMessagesComplete :
    (∀ m ∈ ([aMsg 1 0xFFFFFC0 64, aMsg 1 0x8000010000000 64, aMsg 1 0x8000010000000 1, aMsg 1 0x8000000001004 4,
        { aMsg 2 0xFFFFFC0 64 with dslots := 4 }, { aMsg 2 0x800001007FFC0 16 with dslots := 1 }] : List Msg),
      takes (arrived m) m none = true) ∧
    base.window 0 0xFFFFFC0 = .dpa 0xFFFFFC0 ∧ base.window 0 0x800001007FFC0 = .tcm 0x7FFC0 ∧ base.window 0 0x8000000001004 = .regs 1 4 ∧
    (∀ m ∈ ([aMsg 1 0x8000030000000 64, aMsg 2 0x8000030000000 64] : List Msg), takes (arrived m) m (some (if m.opcode = 1 then 3 else 4)) = true) ∧
    (∀ m ∈ ([aMsg 4 0 0, aMsg 5 1 0, aMsg 5 2 0] : List Msg), (((arrived m).wTake 0 m).map fun x => (x.1, x.2.sys.lead, x.2.srcGuest m)) =
      some (0, some 0, false)) ∧
    (let m : Msg := { opcode := 5, addr := 2, src := 7, dst := 0 }
     let s := arrived m guestPart
     ((s.wTake 0 m).map fun x => (x.2.sys.lead, x.2.srcGuest m)) = some (some 0, true)) ∧
    (∀ p ∈ ([(8, 2), (9, 1)] : List (Nat × Nat)),
      let m : Msg := { opcode := BitVec.ofNat 8 p.1, tag := 4095, src := 1 }
      let o : Outst := { tag := 4095, opcode := BitVec.ofNat 8 p.2, dst := 1, addr := 0 }
      let s := onFab (fun x => { x with outst := [o] }) (arrived m)
      ((s.wTake 0 m).bind fun x => x.2.fab[(0 : TileId)].outst.find? fun o => o.tag = m.tag ∧ o.dst = m.src ∧ !o.guest ∧
        if p.1 = 8 then o.opcode ≠ 1 else o.opcode = 1) = some o) ∧
    (base.sys.fwRunning.getLsbD 0 = true ∧ base.inSvc 0 = true ∧ base.fab[(0 : TileId)].fence = false ∧ base.fab[(0 : TileId)].barriers = [] ∧
     base.fab[(0 : TileId)].storeBuf.length < 8 ∧ (0x3F : BitVec 52).toNat % 64 + [(1 : Byte)].length ≤ 64) := by
  decide +kernel

/-- `base` with its own package ID at peer port 0 and one replicated extent (region 0, rows taken) at row 0; the pair is in sync. -/
def paired : State := onMesh (fun x => { x with paired := true, contact := true, state := 2, replica := 1, peer := 5 })
  (onSvc (fun x => { x with extents := [{ base := 0, blocks := 128, heads := 0, region := 0 }] }))
/-- A mesh message of the peer for this package. -/
def mMsg (op : BitVec 8) (ds : BitVec 3) (addr : BitVec 44) (aux : BitVec 16) : MMsg :=
  { opcode := op, dslots := ds, src := 5, dst := BitVec.ofNat 6 paired.pkgId, addr := addr, aux := aux }
/-- The peer's own exchange that fits this package's. -/
def peerData (s : State) : List Byte :=
  let d := s.pairData
  leBytes 4 (fieldAt d 0 4 + 1) ++ bytesAt d 6 2 ++ bytesAt d 4 2 ++ [2, 0x80, BitVec.ofNat 8 s.pkgId, 0] ++ bytesAt d 12 4
theorem witness_MeshMessagesComplete :
    (∀ m ∈ ([mMsg 0x22 4 0xFFFFFC0 0, mMsg 0x23 4 0xFFFFFC0 0, mMsg 0x24 0 0xFFFFFC0 0] : List MMsg),
      (paired.meshArrive 0 m).1 = true ∧ (paired.meshArrive 0 m).2.mirrorCheck m m.dslots.toNat = none) ∧
    ((paired.meshArrive 0 (mMsg 0x22 3 0 0)).2.mirrorCheck (mMsg 0x22 3 0 0) 4 = some 4) ∧
    ((paired.meshArrive 0 (mMsg 0x22 4 0x10000000 0)).2.mirrorCheck (mMsg 0x22 4 0x10000000 0) 4 = some 2) ∧
    (let m := { mMsg 0x26 1 0 2 with data := leBytes 4 0 ++ leBytes 4 128 ++ [0, 0] }
     let u := (paired.meshArrive 0 m).2
     ∀ e ∈ u.svc.extents, e.base = fieldAt m.data 0 4 ∧ e.blocks = fieldAt m.data 4 4 ∧ fieldAt m.data 9 1 / 8 % 2 = 0 ∧
       u.mesh.replica.getLsbD (fieldAt m.data 9 1 % 8) = true) ∧
    (let m := { mMsg 0x27 1 0 0 with data := peerData paired }
     let v := (paired.meshArrive 0 m).2.meshReply m.src m.tag 0
     let w : State := { v with mesh := { v.mesh with peerPair := some (m.src, m.data) } }
     w.mesh.paired = true ∧ m.src = w.mesh.peer ∧ w.mesh.conflict = false ∧ w.pairPasses m.src m.data = true ∧ w.mesh.contact = true ∧
     (w.pairRoles m.data).mesh.state = 2) ∧
    (let m := mMsg 0x29 0 0 1
     let u := (paired.meshArrive 0 m).2
     u.mesh.paired = true ∧ m.src = u.mesh.peer ∧ m.aux ≠ 2 ∧ m.aux ≠ 5 ∧ u.sys.state.isServing = true) ∧
    (let m := mMsg 0x30 0 0 0
     let w : MirrorWait := { tag := 0, owner := 0, line := 0, storeId := 3, port := 0, data := 0 }
     let s := onMesh (fun x => { x with waits := [w] }) paired
     (s.meshArrive 0 m).1 = true ∧ ((s.meshArrive 0 m).2.mesh.waits.find? (·.tag = m.tag)) = some w) ∧
    (let m := mMsg 0x31 4 0 0
     let r : LoadReq := { id := 6, head := 0, owner := 0, line := 1, src := .none }
     let s : State := { onMesh (fun x => { x with repairs := [(0, 6)] }) paired with loads := [r] }
     let u := (s.meshArrive 0 m).2
     (s.meshArrive 0 m).1 = true ∧ (u.mesh.repairs.find? (·.1 = m.tag)) = some (0, 6) ∧ (u.loads.find? (·.id = 6)) = some r) := by
  decide +kernel

theorem witness_MeshTimersComplete :
    (let m : MMsg := { opcode := 0x21, src := BitVec.ofNat 6 base.pkgId, addr := 1 }
     (base.meshTake 0 m).meshTalks = true ∧ m.src.toNat = (base.meshTake 0 m).pkgId ∧
     m.addr.toNat % 2 ^ 32 ≠ (crc32c (leBytes 8 (base.meshTake 0 m).fuses.serials[(base.meshTake 0 m).lead].toNat)).toNat ∧
     (base.meshTake 0 m).mesh.conflict = false) ∧
    (let s := onMesh fun x => { x with discovering := true }
     let m : MMsg := { opcode := 0x21, src := 9, aux := 7 }
     (s.meshTake 0 m).meshTalks = true ∧ m.src.toNat ≠ (s.meshTake 0 m).pkgId ∧ (s.meshTake 0 m).mesh.epochs = [] ∧
     (s.meshTake 0 m).mesh.discovering = true ∧ s.mesh.discovering = true) ∧
    (paired.mesh.paired = true ∧ paired.meshTalks = true ∧ paired.mesh.conflict = false ∧ paired.mesh.dropTable = false) ∧
    (∀ n ∈ ([239, 240] : List Nat),
      let s := onMesh (fun x => { x with silentUs := n }) paired
      s.mesh.paired = true ∧ s.mesh.contact = true ∧ s.sys.state.isServing = true ∧ (if n = 239 then s.mesh.silentUs + 10 < 250 else 250 ≤ s.mesh.silentUs + 10)) ∧
    (let m := mMsg 0x22 4 0 0
     let s := onPeers (fun k => { k with mwaiting := [m] }) paired
     s.mesh.ports[(0 : Fin 4)].mwaiting.contains m = true ∧ m.src.toNat ≠ s.pkgId) ∧
    (onMesh fun x => { x with holdLines := [3] }).mesh.holdLines.contains 3 = true ∧
    (let s := onMesh (fun x => { x with contact := false }) paired
     s.mesh.paired = true ∧ s.mesh.contact = false ∧ s.sys.state.isServing = true) ∧
    (let s := onSvc (fun x => { x with extents := [] }) (onMesh fun x => { x with walks := [{ tile := 0 }] })
     (s.mesh.walks.find? fun w => w.tile = 0 && w.phase = 0) = some { tile := 0 } ∧ s.svc.extents = []) := by
  decide +kernel
/-- `paired` with one resynchronisation walk at its start and the ring of line 0 written. -/
def walking : State :=
  onPl (fun x => { x with written := [(0, true)] }) (onMesh (fun x => { x with regions := 1, walks := [{ tile := 0 }] }) paired)

theorem walking_line : walking.walks 0 0 = true := by decide +kernel
theorem walking_extents : sortBy (fun (a b : Extent) => decide (a.base ≤ b.base)) walking.primaryExtents =
    [{ base := 0, blocks := 128, heads := 0, region := 0 }] := by decide +kernel

theorem first_line (e : Extent) (es : List Extent) (p : Nat → Bool) (b : e.base = 0) (k : e.blocks ≠ 0) (q : p 0 = true) :
    (e :: es).findSome? (fun e => ((List.range (32768 * e.blocks)).map (· + 32768 * e.base)).find? p) = some 0 := by
  obtain ⟨n, h⟩ : ∃ n, 32768 * e.blocks = n + 1 := ⟨32768 * e.blocks - 1, by omega⟩
  simp [h, b, List.range_succ_eq_map, q]

theorem witness_MeshTimersComplete_walk :
    (walking.mesh.walks.find? fun (w : Walk) => w.tile = 0 && w.phase = 0) = some { tile := 0 } ∧ 0 + 1 < 256 ∧
    (sortBy (fun (a b : Extent) => decide (a.base ≤ b.base)) walking.primaryExtents).findSome? (fun e =>
      ((List.range (32768 * e.blocks)).map (· + 32768 * e.base)).find? fun n => decide (n ≥ 0) && walking.walks 0 n) = some 0 := by
  refine ⟨by decide +kernel, by decide, ?_⟩
  rw [walking_extents]
  exact first_line _ _ _ rfl (by decide) (by rw [walking_line]; rfl)

/-- FIPS 197: S-box entries of its figure 7, the MixColumns columns of its example, and the AES-256 vector of appendix C.3. -/
theorem test_aes_parts :
    Aes.sbox 0x53 = 0xED ∧ Aes.sbox 0 = 0x63 ∧
    Aes.mixColumns [0xD4, 0xBF, 0x5D, 0x30, 0xE0, 0xB4, 0x52, 0xAE, 0xB8, 0x41, 0x11, 0xF1, 0x1E, 0x27, 0x98, 0xE5] =
      [0x04, 0x66, 0x81, 0xE5, 0xE0, 0xCB, 0x19, 0x9A, 0x48, 0xF8, 0xD3, 0x7A, 0x28, 0x06, 0x26, 0x4C] := by
  decide +kernel

theorem test_aes_256 :
    Aes.encrypt ((List.range 32).map (BitVec.ofNat 8)) ((List.range 16).map fun i => BitVec.ofNat 8 (17 * i)) =
      [0x8E, 0xA2, 0xB7, 0xCA, 0x51, 0x67, 0x45, 0xBF, 0xEA, 0xFC, 0x49, 0x90, 0x4B, 0x49, 0x60, 0x89] := by
  decide +kernel

/-! ### What holds of every step, memories and labels -/

theorem base_memOk : base.MemOk := by unfold State.MemOk TileNv.MemOk Fabric.MemOk Tile.MemOk; decide +kernel
theorem base_boundsOk : base.BoundsOk := by unfold State.BoundsOk Evr.QueuesOk Head.LogsOk; decide +kernel

theorem witness_StepKeeps : ∃ s t : State, s.MemOk ∧ s.BoundsOk ∧ step s = .next t ∧ s ≠ t :=
  ⟨{ base with pending := [.rootPllLock] }, _, base_memOk, base_boundsOk, rfl, fun h => nomatch congrArg State.pending h⟩

theorem witness_ByteMemoryLaws : Memory.wf (fun _ => 0xFF) [(3, (7 : Byte)), (4, 0)] = true ∧
    Memory.writeBytes (fun _ => 0xFF) [(3, (7 : Byte)), (4, 0)] 2 [9, 0xFF] = [(2, 9), (4, 0)] := by decide +kernel

theorem witness_ParameterPageWrites :
    (let w : PageWrite := { addr := 131008, bytes := List.replicate 64 1 }
     let s := onPrm fun x => { x with queue := [w] }
     s.MemOk ∧ s.prm.queue = w :: [] ∧ w.tag ≠ 5) ∧ base.prm.queue = [] := by
  unfold State.MemOk TileNv.MemOk Fabric.MemOk Tile.MemOk; decide +kernel

theorem witness_LabelSectorWrites :
    ∀ e ∈ ([(true, 16), (false, 1), (false, 2)] : List (Bool × Nat)),
      let bs := List.replicate 4096 (5 : Byte)
      let op : FlashOp := { sector := 516, erasing := e.1, pages := e.2, use := .lsa bs }
      let s := onCfl fun x => { x with ops := #v[some op, none] }
      s.MemOk ∧ s.tiles[(0 : TileId)].cfl.ops[(0 : Fin 2)] = some op ∧ op.use = .lsa bs ∧ bs.length = 4096 ∧ 516 ≤ op.sector ∧
      (op.erasing, op.pages) = e := by
  intro e h
  simp only [List.mem_cons, List.not_mem_nil, or_false] at h
  refine ⟨?_, rfl, rfl, List.length_replicate, Nat.le_refl _, rfl⟩
  rcases h with rfl | rfl | rfl <;> (unfold State.MemOk TileNv.MemOk Fabric.MemOk Tile.MemOk; decide +kernel)

theorem witness_WidarWindowWrites :
    let s := onD (fun x => { x with scratchWays := 4 })
    s.MemOk ∧
    (let m := { aMsg 2 0x800001007FFC0 64 with dslots := 4 }
     takes (arrived m s) m none = true ∧ s.window 0 m.addr = .tcm 0x7FFC0) ∧
    (let m := { aMsg 2 0x800002003FFFF 1 with dslots := 1 }
     takes (arrived m s) m none = true ∧ s.window 0 m.addr = .velvet 0x3FFFF) ∧
    (let m := { aMsg 2 0x8000040C00000 64 with dslots := 4 }
     takes (arrived m s) m none = true ∧ s.window 0 m.addr = .cache 0xC00000) := by
  unfold State.MemOk TileNv.MemOk Fabric.MemOk Tile.MemOk; decide +kernel

/-! ### Addresses, ages and stamps -/

theorem witness_HomesAreBijective : recFieldsOk record = true ∧ 0 ∈ recTiles record ∧ recC record * 16 = 64 ∧ recT record = 2 ∧
    (let p : Placement := { remap := [{ unit := 63, slot := 7, pool := 0 }, { unit := 63, slot := 8, pool := 1 }, { unit := 0, slot := 7, pool := 0 }] }
     ∀ e ∈ p.remap, ∀ e' ∈ p.remap, e.unit = e'.unit → e.pool = e'.pool → e.slot = e'.slot) := by
  decide +kernel

theorem witness_GapMoveShiftsOnePage :
    ∀ m ∈ ([0, 20375, 20376 * 254 + 9, 20376 * 255, 20376 * 65279] : List Nat), ringMoves (m + 20376) 9 = ringMoves m 9 + 1 := by
  decide +kernel

theorem witness_LookupsNameOneLine :
    let h : Home := { tile := 0, unit := 63, pidx := 2 ^ 23 - 1, line := 63, row := 20375, ring := 20375, jj := 254 }
    h.unit < 64 ∧ h.line < 64 ∧ h.pidx < 2 ^ 23 ∧ cacheSet h = cacheSet { h with pidx := 0xFF, line := 63 } ∧ dirBucket h < 131072 := by
  decide +kernel

theorem witness_AgeBuckets : ([4095, 4096, 8191, 8192, 2 ^ 25, 2 ^ 26 - 1, 2 ^ 26, 2 ^ 32 - 1].map bucketOf) = [0, 1, 1, 2, 14, 14, 15, 15] := by
  decide +kernel

theorem witness_StampsKeepTheirTime :
    (([4096 * 111, 4096 * 112, 4096 * 127].map fun c => (tickOf c (stampFor 0 0), stampStep c c (stampFor 0 0))) =
      [(0, stampFor 0 0), (0, 0x80), (0, 0x80)]) ∧
    ([2 ^ 19 * 123, 2 ^ 19 * 124, 2 ^ 19 * 125].map fun c => (coarseOf c 0x80, stampStep c c 0x80)) = [(0, 0x80), (0, 0xFE), (0, 0xFE)] := by
  decide +kernel

/-! ### Device state, events, mailboxes -/

theorem witness_DeviceStateChanges : base.sys.state = .active ∧ base.sys.state ≠ .degraded ∧ base.flush = none ∧
    base.evr.queues[base.lead].length < 32 ∧ base.sys.state ≠ .flushing ∧ (255 : Nat) < 256 := by
  decide +kernel

theorem witness_EventsAreQueued :
    (onSys fun x => { x with state := .flushing }).sys.state = .flushing ∧
    (base.sys.state ≠ .flushing ∧ base.flush = none ∧ base.evr.queues[base.evTile 15].length < 32) ∧
    (let s := onEvr fun x => { x with queues := .replicate 8 (List.replicate 32 {}) }
     s.flush = none ∧ 32 ≤ s.evr.queues[s.evTile 15].length) := by
  decide +kernel

/-- A recorder that holds n records of a severity with SEQ 1 to n. -/
def heldUpTo (n : Nat) (v : Severity) : Evr :=
  { held := (List.range n).map fun i => { r := { seq := i + 1, sev := v } }, nextSeq := n + 1, limit := 65536 }

theorem witness_RecorderEntersInOrder (n : Nat) (v : Severity) : let e := heldUpTo n v
    e.held.Pairwise (fun a b => a.r.seq < b.r.seq) ∧ (∀ h ∈ e.held, h.r.seq < e.nextSeq) ∧ e.held.length = n ∧
    ∀ h ∈ e.held, h.r.sev = v := by
  refine ⟨?_, ?_, by simp [heldUpTo], by simp [heldUpTo]⟩
  · unfold heldUpTo
    rw [List.pairwise_map]
    exact List.pairwise_lt_range.imp (by intro a b h; simpa using h)
  · simp only [heldUpTo, List.mem_map, List.mem_range]
    rintro h ⟨i, hi, rfl⟩
    simpa using hi

theorem witness_MailboxCompletions :
    ∀ d ∈ [false, true], let s := onHead (fun x => { x with mb := .replicate 2 { doorbell := true, dropped := d } })
      ((s.mbox (.head 0 false)).dropped = d ∧ (s.mbox (.head 0 true)).dropped = d) := by
  decide +kernel

theorem witness_CommandsAreJudgedFirst :
    (let s := onSys (fun x => { x with state := .flushing }) (ask 0x4600 [])
     s.taken m0 0x4600 = some [] ∧ s.cfg.commit = none ∧ s.svc.waiting = none) ∧
    ((ask 0x4600 []).taken m0 0x4600 = some [] ∧ base.taken m0 0x4600 = none ∧ base.svc.rdpPending = false ∧ base.boot.recovery = false) ∧
    (let i : Iface := .head 1 false
     let s := { base with heads := base.heads.set 1 (ask 0xC010 []).heads[(0 : TileId)] }
     s.taken i 0xC010 = some [] ∧ s.isMgmt i = false) ∧
    (let i : Iface := .head 0 true
     let s := onHead fun x => { x with mb := x.mb.set 1 { doorbell := true, cmd := some { opcode := 0x4304, input := [] } } }
     s.taken i 0x4304 = some [] ∧ Iface.isSecondary i = true) := by
  decide +kernel

/-! ### Bands, ladders, links, tagging -/

theorem witness_TemperatureBands :
    ([159, 160, 1119, 1120, 1359, 1360].map fun r => (bandStep none r).toNat) = [0, 1, 3, 4, 4, 5] ∧
    ([448, 447, 799, 800, 127].map fun r => (bandStep (some 2) r).toNat) = [2, 1, 2, 3, 0] := by
  decide +kernel

theorem witness_LaddersAndTwins :
    (let bs := List.replicate 128 (0xFF : Byte)
     bs.length = 128 ∧ (ladderRead bs).1 < 2 ^ 48 - 1 ∧ ladderRead (putBytes bs 0 (ladderImage 0 5)) = (5, some 0)) ∧
    (let page := List.replicate 64 (0xFF : Byte)
     page.length = 64 ∧ twinGen page + 1 < 2 ^ 32 ∧ twinValid (List.replicate 32 0xFF) = false) := by
  decide +kernel

theorem witness_LinkSequenceNumbers : newer 512 0 = true ∧ newer 0 512 = true ∧ newer 513 0 = false ∧
    (let k : Link := { unacked := (List.range 256).map fun i => (BitVec.ofNat 10 i, [], []) }
     k.unacked.length ≤ 256 ∧ k.flitCredits = 0 ∧ (k.unacked.map (·.1)).Nodup ∧ newer 255 k.peerAck = true ∧
     (k.unacked[255]?.map (·.1)) = some 255) := by
  decide +kernel

theorem witness_RequestTagging :
    (let s := onPmc fun x => { x with tagging := true, heads := 1, lfsr := .replicate 8 0x80000000, log2n := 31 }
     s.pmc.tagging = true ∧ s.pmc.heads.getLsbD 0 = true ∧ s.pmc.heads.getLsbD 1 = false ∧
     s.pmc.lfsr[(0 : TileId)].toNat % 2 ^ s.pmc.log2n.toNat = 0) ∧ base.pmc.tagging = false ∧ (0x80000000 : BitVec 32) ≠ 0 := by
  decide +kernel

theorem witness_ResponsesCarryLoad : (base.ungate 0 7).judge 0 (0x10000000 : BitVec 64) = .missed ∧
    (∃ t, Runs (.memrd 0 0x10000000) base t) ∧ (∃ t, Runs (.memwr 0 0x10000000 0 false) base t) ∧
    ([49, 50, 74, 75, 94, 95].map devLoad) = [0, 1, 1, 2, 2, 3] :=
  ⟨by decide +kernel, ⟨_, rfl⟩, ⟨_, rfl⟩, by decide⟩

theorem witness_RegisterAccess : base.sys.lead ≠ some 1 ∧ (0x108 : Nat) ≠ 0x104 ∧ (0x008 : Nat) ≠ 0x004 := by decide +kernel

/-! ### Ill-formed terms, and the boundary that is well-formed -/

theorem test_wellFormed_ranges :
    ([.foldClaim 0 63 (20376 * 255 - 1), .gapMoveStart 0 63, .rowReclaimDone 20375, .ageSweepStep 0 5242879, .directoryBucketRebuilt 0 131071,
      .ladderRungDone 0 1 [(79, [0, 679])], .stagedLadderRungDone 0 1 [(7, [679])], .configRequest 0 false ⟨.config, 4092⟩ 0,
      .configRequest 0 true ⟨.bar0, 524284⟩ 0, .mailboxDoorbell m0 1 (List.replicate 64 0), .recoverySweepVisit 0 5242879 [[679]],
      .sidebandEepromWrite 0 2 [1, 2], .stagStore 0 63 [1], .sramScrubVisit 0 ⟨(.age 5242879), { flips := [71] }, {}, false⟩,
      .sramScrubVisit 0 ⟨.tcm, { flips := [38] }, {}, true⟩, .widarNullFlit (.peer 0) (List.replicate 256 0)] : List Instr).all Instr.wellFormed = true ∧
    ([.foldClaim 0 64 0, .foldClaim 0 0 (20376 * 255), .foldReadDone 0 0 0 ([(64, [])], [], []), .foldReadDone 0 0 0 ([], [(80, [])], []),
      .foldReadbackDone 0 0 0 [(3, [680])], .gapMoveStart 0 64, .patrolVisitDone 0 0 (([], [(0, [680])]), []),
      .patrolVisitDone 0 0 (([], []), [(0, [(8, [])])]), .rowReclaimDone 20376, .ageSweepStep 0 5242880, .directoryBucketRebuilt 0 131072,
      .ladderRungDone 0 1 [(80, [])], .stagedLadderRungDone 0 1 [(8, [])], .recoverySweepVisit 0 0 [[680]],
      .sramScrubVisit 0 ⟨(.directory 131072), {}, {}, false⟩, .sramScrubVisit 0 ⟨(.placement 64), {}, {}, false⟩,
      .sramScrubVisit 0 ⟨(.age 5242880), {}, {}, false⟩, .sramScrubVisit 0 ⟨.foldBuffer 0 (20376 * 255), {}, {}, false⟩,
      .sramScrubVisit 0 ⟨.cacheTag, { flips := [72] }, {}, false⟩, .sramScrubVisit 0 ⟨.tcm, {}, { flips := [39] }, false⟩,
      .configRequest 0 false ⟨.config, 4096⟩ 0, .configRequest 0 false ⟨.bar0, 2⟩ 0, .configRequest 0 false ⟨.bar2, 4096⟩ 0,
      .sidebandEepromWrite 0 1 [1, 2], .stagStore 0 63 [1, 2], .stagStore 0 0 [], .widarInit 0 0 [], .meshInit 0 [],
      .widarRetrainDone (.peer 0) true []] : List Instr).all
      (fun i => !i.wellFormed) = true := by
  decide +kernel

theorem test_wellFormed_payload : (Instr.mailboxDoorbell m0 1 (List.replicate 65537 0)).wellFormed = false := by
  show decide ((List.replicate 65537 (0 : Byte)).length ≤ 65536) = false
  rw [List.length_replicate]; decide

theorem test_wellFormed_messages :
    ((Instr.widarRd 0 { opcode := 1, len := 64 }).wellFormed = true ∧ (Instr.widarRd 0 { opcode := 1, len := 65 }).wellFormed = false ∧
     (Instr.widarWr 0 { opcode := 2, dslots := 5 }).wellFormed = false ∧ (Instr.widarWr 0 { opcode := 2, data := [0] }).wellFormed = false) ∧
    ((Instr.mwr 0 { opcode := 0x22, dslots := 5 }).wellFormed = false ∧ (Instr.mrd 0 { opcode := 0x24, data := [0] }).wellFormed = false ∧
     (Instr.mwr 0 { opcode := 0x23 }).wellFormed = false ∧ (Instr.mwr 0 { opcode := 0x22, dslots := 4 }).wellFormed = true) ∧
    ((Instr.widarPayloadFlit (.peer 0) (List.replicate 255 0)).wellFormed = false ∧ (Instr.widarRetryReq (.peer 0) []).wellFormed = false) := by
  decide +kernel

/-! ### The codes -/

/-- SRAM words (R224 to R226): one wrong bit is corrected; two, a wrong word, and copies of the valid bit that disagree are not. -/
theorem test_sramCode :
    (secRead 8 64 [] [] false = .clean ∧ secRead 8 64 [5] [] false = .corrected ∧ secRead 8 64 [71] [] false = .corrected ∧
     secRead 8 64 [5, 6] [] false = .bad ∧ secRead 8 64 [] [0] false = .bad ∧ secRead 8 64 [] [] true = .bad) ∧
    (secRead 7 32 [38] [] false = .corrected ∧ secRead 7 32 [0, 38] [] false = .bad) := by
  decide +kernel

/-- Stored lines (R231, R232): eight wrong bits are corrected, an address bit among them is a misdirected line. -/
theorem test_lineCode :
    readLine false [] = .good 0 [] false ∧ readLine false [40, 41, 42, 43, 44, 45, 46, 679] = .good 8 [] false ∧
    readLine false [0] = .misdirected ∧ readLine true [39, 600] = .misdirected := by
  decide +kernel

/-- A lane of the page code (R235): its 80 symbols have zero syndromes. -/
theorem test_pageCode :
    let lane := [1, 2] ++ List.replicate 61 0 ++ [0xFF]
    ((List.range 16).all fun i => ((lane ++ rsParity lane).foldl (fun a v => mul8 a (exp8 i) ^^^ v) 0) = 0) = true := by
  decide +kernel

/-- Bursts (R70): the cycles of its table, for payloads of 80, 800, 16, 8, 64 and 2 bytes; a wrong bit fails the CRC, one of the padding does not count. -/
theorem test_burst : (burstOf (List.replicate 80 0)).length = 88 ∧ [80, 800, 16, 8, 64, 2].map burstCycles = [11, 101, 3, 2, 9, 1] ∧
    burstBad 8 [3] = true ∧ burstBad 8 [80] = false := by
  decide +kernel

/-! ### Worked examples of the spec -/

/-- The layout fields of card A's record: four tiles, four channels. -/
def cardA : List Byte := List.replicate 16 0 ++ [4, 4, 0x88, 0x06, 0]
def cardKey : Nat := 0x5A3C91E70B6D24F8

/-- "One address on card A" (file 03): DPA 0x12_3456_7000. -/
theorem test_oneAddress_home : homeOf cardA cardKey 0x48D159C0 =
    { tile := 3, unit := 62, pidx := 74565, line := 0, row := 292, ring := 6459, jj := 179 } := by decide +kernel

theorem test_oneAddress_slot : (homeSlot { moves := [(62, 10190000)] } (homeOf cardA cardKey 0x48D159C0) = 1653685) ∧
    gapSlot 10190000 6459 = 11 ∧ lineDie 1653685 0 = 5 ∧ mediaAddress 0 3 3 5 14 1653685 0 = 0x3EF193BB50 ∧
    pageLine cardA 3 62 74565 = 0x48D159C0 := by decide +kernel

/-- The set and bucket of the same line (file 04). -/
theorem test_oneAddress_lookups : cacheSet (homeOf cardA cardKey 0x48D159C0) = 0x2F40 % 16384 ∧
    dirBucket (homeOf cardA cardKey 0x48D159C0) = 0x0D345 := by decide +kernel

/-- The stamp of the same page (file 05): FINE 37 at clk 40,000,000, COARSE 0xCC later, and its age and bucket at 40,864,000. -/
theorem test_stamp : stampFor 40000000 40000000 = 37 ∧ stampStep 40461000 40461000 37 = 0xCC ∧ coarseOf 40864000 0xCC = 76 ∧
    ageOf 40864000 40864000 0xCC = some 786432 ∧ bucketOf 786432 = 8 ∧ bucketOf 36000 = 4 ∧ bucketOf 7776000 = 11 := by decide +kernel

/-- The staging area of the same example: 1,568 and then 1,320 rings. -/
theorem test_stagingRings : stagingRings 20376 12151 = 1568 ∧ stagingRings 20376 10095 = 1320 := by decide

/-- "Two decoders on card A" (file 08). -/
def decodersOf (skip : Nat) (low : Nat) : List Decoder :=
  [{ base := low, size := 2 ^ 41, committed := true }, { base := 0x50000000000, size := 2 ^ 39, skip := skip, ways := 2, gran := 4096, committed := true }]

theorem test_decoders : dpaOf (decodersOf (2 ^ 38) 0x30000000000) 0x5000000B000 = some 0x24000005000 ∧
    dpaOf (decodersOf 0 0x10000000000) 0x5000000A000 = some 0x20000005000 ∧
    dpaOf (decodersOf 0 0x10000000000) (0x10000000000 + 0x1234567000) = some 0x1234567000 ∧
    dpaOf (decodersOf 0 0x10000000000) (0x50000000000 + 258 * 2 ^ 30) = some (2177 * 2 ^ 30) ∧
    dpaOf (decodersOf 0 0x10000000000) (0x10000000000 + 2100 * 2 ^ 30) = none := by decide +kernel

/-- The chord of the worked example of file 12: SEQ 0x000 is newer than 0x3FF. -/
theorem test_seqWraps : newer 0 0x3FF = true ∧ newer 0x3FF 0 = false ∧ newer 0x3FF 0x3FE = true := by decide

/-- The hold-up energy of file 14 and the blend of file 15. -/
theorem test_energy : usableUj 25000 12000 = 1187500 ∧ measuredBudget 1187500 4 = 117760 := by decide +kernel
theorem test_blend : blendOf 720 = (2, 64) ∧ blend 64 1696 1728 = 1704 := by decide +kernel

/-- CRC-16 and CRC-32C of the nine digits: the check values of the named polynomials. -/
theorem test_crc : crc16 [0x31, 0x32, 0x33, 0x34, 0x35, 0x36, 0x37, 0x38, 0x39] = 0x29B1 ∧
    crc32c [0x31, 0x32, 0x33, 0x34, 0x35, 0x36, 0x37, 0x38, 0x39] = 0xE3069283 := by decide +kernel

/-! ### Single steps -/

/-- What a command leaves, read by a function. -/
def after {α : Type} (c : Instr) (s : State) (f : State → α) : Option α :=
  match exec c s with
  | .next t => some (f t)
  | .fault _ => none
  | .refused _ => none

/-- Read Vendor Register of the worked example of file 09: logical die 5 of tile 3, channel 3 has failed. -/
def cardAPart : State :=
  { onSys (fun x => { x with state := .degraded, inService := 0xF }) with
    fuses := { variant := .yd4840 }
    tiles := .replicate 8 { ch := .replicate 4 { present := 0xFF, failed := 0x20 } } }
def reads (input : List Byte) : Option (BitVec 16 × BitVec 16 × List Byte) :=
  after (.readVendorRegister m0) (ask 0xC0C0 input cardAPart) fun t => ((t.mbox m0).status, (t.mbox m0).ext, (t.mbox m0).output)

theorem test_readVendorRegister :
    reads [3, 7, 0x08, 0x03, 0x02, 0, 0, 0] = some (0, 0, [0x10, 0x32, 0x54, 0x76, 0xFF, 0x00, 0x20, 0x00]) ∧
    reads [3, 7, 0x08, 0x03, 0x00, 0, 0, 0] = some (0, 0, []) ∧
    (reads [3, 7, 0x08, 0x03, 0xFF, 0xFF, 0, 0]).map (·.1) = some (BitVec.ofNat 16 Ret.payloadLength.code) ∧
    (reads [3, 7, 0x0A, 0x03, 0x02, 0, 0, 0]).map (fun x => (x.1, x.2.1)) = some (BitVec.ofNat 16 Ret.invalidInput.code, 0x152) := by
  decide +kernel

/-- A management command on head 1 of the same part: Unsupported, NOT_MGMT_HEAD (the record's MGMT_HEADS is 0x01). -/
theorem test_notManagementHead :
    let m : Iface := .head 1 false
    let s := ask 0xC0A0 [] cardAPart
    after (.patrolControl m) { cardAPart with heads := cardAPart.heads.set 1 s.heads[(0 : TileId)] } (fun t => ((t.mbox m).status, (t.mbox m).ext)) =
      some (BitVec.ofNat 16 Ret.unsupported.code, 0x120) := by
  decide +kernel

/-- A waiting command runs before one behind it, and an empty queue idles. -/
theorem test_queue : (match step { base with pending := [.rootPllLock, .pllLockLoss] } with
    | .next t => t.pending
    | .fault _ => []
    | .refused _ => []) = [.pllLockLoss] ∧ step base = .next base :=
  ⟨by decide +kernel, rfl⟩

end Sys2Proof.Tests
end

section
/-! Register access over the vendor-register port (R15, R377, R379): what `State.readReg` returns where the lead tile alone holds a
block, where `State.writeReg` discards a write, and what a write of ones does to a register of flags. -/

namespace Sys2Proof.Machine

/-! ### Reads (R377) -/

theorem State.readReg_of_unassigned (s : State) (t : TileId) {b : Nat} (off : Nat) (hb : b = 0 ∨ 0x16 < b) :
    s.readReg t b off = 0 := by
  obtain rfl | hb := hb
  · rfl
  · obtain ⟨n, rfl⟩ := Nat.exists_eq_add_of_le' hb
    rfl

section LeadOnly
variable (s : State) (t : TileId) (off : Nat)

theorem State.readReg_evr : s.readReg t 0x10 off = if s.sys.lead = some t then s.evr.read off else 0 := rfl
theorem State.readReg_bbx : s.readReg t 0x11 off = if s.sys.lead = some t then s.readBbx off else 0 := rfl
theorem State.readReg_pmc : s.readReg t 0x12 off = if s.sys.lead = some t then s.pmc.read off else 0 := rfl
theorem State.readReg_prm : s.readReg t 0x14 off = if s.sys.lead = some t then s.readPrm off else 0 := rfl
theorem State.readReg_sec : s.readReg t 0x15 off = if s.sys.lead = some t then s.readSec off else 0 := rfl

end LeadOnly

/-- The blocks that the lead tile alone holds: the event recorder, the black box, the counters, the parameter store and security. -/
theorem State.readReg_outside_lead {s : State} {t : TileId} (off : Nat) (ht : s.sys.lead ≠ some t) :
    ∀ b ∈ ([0x10, 0x11, 0x12, 0x14, 0x15] : List Nat), s.readReg t b off = 0 := by
  simp only [List.forall_mem_cons, readReg_evr, readReg_bbx, readReg_pmc, readReg_prm, readReg_sec, if_neg ht, List.not_mem_nil,
    false_implies, implies_true, and_self]

/-! ### Writes (R15, R379) -/

/-- The blocks that hold a register which software may write. -/
def writableBlocks : List Nat := [0x01, 0x07, 0x09, 0x0A, 0x0C, 0x10, 0x12, 0x13]

theorem State.writeReg_of_not_mem_writableBlocks (s : State) (t : TileId) {b : Nat} (off : Nat) (v : BitVec 32)
    (hb : b ∉ writableBlocks) : s.writeReg t b off v = s := by
  unfold State.writeReg
  split
  case h_12 => rfl
  all_goals exact absurd (by decide) hb

/-- HDC_LAT_MAX is the one register of its block that software may write (R98). -/
theorem State.writeReg_hdc_of_ne (s : State) (t : TileId) {off : Nat} (v : BitVec 32) (h : off ≠ 0x104) :
    s.writeReg t 0x01 off v = s := by
  unfold State.writeReg
  split
  case h_12 => rfl
  all_goals contradiction

/-- SEQ_FAULT is the one register of its block that software may write (R575). -/
theorem State.writeReg_seq_of_ne (s : State) (t : TileId) {off : Nat} (v : BitVec 32) (h : off ≠ 0x004) :
    s.writeReg t 0x0C off v = s := by
  unfold State.writeReg
  split
  case h_12 => rfl
  all_goals contradiction

theorem State.writeReg_seqFault (s : State) (t : TileId) (v : BitVec 32) :
    s.writeReg t 0x0C 0x004 v = { s with seq := { s.seq with fault := clearOnes s.seq.fault v } } := rfl

/-- A write of ones clears exactly the flags written, at every width of the flags. -/
@[simp] theorem getLsbD_clearOnes {w : Nat} (x : BitVec w) (v : BitVec 32) (k : Nat) :
    (clearOnes x v).getLsbD k = (x.getLsbD k && !v.getLsbD k) := by
  by_cases hk : k < w
  · simp [clearOnes, hk]
  · simp [BitVec.getLsbD_of_ge _ k (Nat.le_of_not_lt hk)]

/-- Settles O30: each clause is the rule above for the read or the write that it speaks of. -/
theorem registerAccess : Obligations.RegisterAccess := by
  intro s t off v
  refine ⟨fun _ hb => s.readReg_of_unassigned t off hb, fun b hb ht => State.readReg_outside_lead off ht b hb, fun b hb => ?_,
    fun b hb => ?_, s.writeReg_hdc_of_ne t v, s.writeReg_seq_of_ne t v, fun k _ => ?_, ?_⟩
  · have disjoint : ∀ c ∈ writableBlocks,
        c ∉ ([0x00, 0x02, 0x03, 0x04, 0x05, 0x06, 0x08, 0x0B, 0x0D, 0x0E, 0x0F, 0x11, 0x14, 0x15, 0x16] : List Nat) := by decide
    exact s.writeReg_of_not_mem_writableBlocks t off v fun h => disjoint b h hb
  · have bound : ∀ c ∈ writableBlocks, c ≤ 0x16 := by decide
    exact s.writeReg_of_not_mem_writableBlocks t off v fun h => absurd (bound b h) (Nat.not_le_of_lt hb)
  · rw [State.writeReg_seqFault, getLsbD_clearOnes]
  · rw [State.writeReg_seqFault]

end Sys2Proof.Machine
end

section
/-! Changes of the device state (R51): where a raised record goes (R574, R631, R632), and what the records of R51 hold. -/

namespace Sys2Proof.Machine

/-! ### Raised records -/

/-- The record as it is held: the raised one with the number of the boot. -/
def State.stamped (s : State) (e : EventRec) : EventRec := { e with boot := BitVec.ofNat 16 s.boots }

/-- Where a record goes: into Velvet while records are held there, else to queue `q`, which may be full. -/
def Evr.take (v : Evr) (held : Bool) (q : TileId) (e : EventRec) : Evr :=
  if held then { v with velvet := v.velvet ++ [e] }
  else if v.queues[q].length < 32 then { v with queues := vmod v.queues q (· ++ [e]) }
  else v.drop e.sev

theorem Evr.take_held (v : Evr) (q : TileId) (e : EventRec) : v.take true q e = { v with velvet := v.velvet ++ [e] } := rfl

theorem Evr.take_room (v : Evr) {q : TileId} (e : EventRec) (h : v.queues[q].length < 32) :
    v.take false q e = { v with queues := v.queues.set q (v.queues[q] ++ [e]) } := if_pos h

theorem State.raise_evr (s : State) (e : EventRec) :
    (s.raise e).evr =
      s.evr.take (s.sys.state = .flushing || s.flush.isSome) (s.evTile (e.source.toNat % 16)) (s.stamped e) := by
  let u := s.hostLog (s.stamped e)
  have k := State.hostLog_changes (s := s) (a1 := s.stamped e) |>.keeps
  have hy : u.sys = s.sys := k .sys rfl
  have hf : u.flush = s.flush := k .flush rfl
  have hv : u.evr = s.evr := k .evr rfl
  have ht (n : Nat) : u.evTile n = s.evTile n := by simp [State.evTile, State.inSvc, State.lead, hy, hf]
  rw [← hy, ← hf, ← hv, ← ht]
  exact (apply_ite State.evr _ _ _).trans (congrArg _ (apply_ite State.evr _ _ _))

@[simp] theorem State.raise_sys (s : State) (e : EventRec) : (s.raise e).sys = s.sys :=
  State.raise_changes.keeps .sys rfl

/-- A record whose source is no tile joins the queue of the lead. -/
theorem State.evTile_package (s : State) : s.evTile 15 = s.lead := if_neg (by simp)

/-! ### The records of R51 -/

theorem DevState.code_lt (d : DevState) : d.code < 256 := by cases d <;> decide

/-- The two one-byte items of a record's ARGS. -/
theorem mkEv_args_pair (code : Nat) (sev : Severity) {a b : Nat} (ha : a < 256) (hb : b < 256) :
    (mkEv code sev 15 0 [(1, a), (1, b)]).args.toNat = a + 256 * b := by
  change (BitVec.ofNat 48 ((BitVec.ofNat 8 a).toNat + 256 * ((BitVec.ofNat 8 b).toNat + 256 * 0))).toNat = _
  rw [BitVec.toNat_ofNat, BitVec.toNat_ofNat, BitVec.toNat_ofNat]
  omega

/-- The record that entering a state raises: DEGRADED and FAILED name their cause, any other state itself. -/
def changeEvent (old d : DevState) (arg : Nat) : EventRec :=
  match d with
  | .degraded => mkEv 0x9002 .error 15 0 [(1, old.code), (1, arg)]
  | .failed => mkEv 0x9003 .fatal 15 0 [(1, old.code), (1, arg)]
  | _ => mkEv 0x9001 .info 15 0 [(1, old.code), (1, d.code)]

/-- The second item of the record. -/
def changeArg (d : DevState) (arg : Nat) : Nat := if d = .degraded ∨ d = .failed then arg else d.code

theorem changeArg_lt (d : DevState) {arg : Nat} (ha : arg < 256) : changeArg d arg < 256 := by
  unfold changeArg
  split
  · exact ha
  · exact d.code_lt

theorem changeEvent_source (old d : DevState) (arg : Nat) : (changeEvent old d arg).source = 15 := by
  cases d <;> rfl

theorem changeEvent_args (old d : DevState) {arg : Nat} (ha : changeArg d arg < 256) :
    (changeEvent old d arg).args.toNat = old.code + 256 * changeArg d arg := by
  cases d <;> exact mkEv_args_pair _ _ old.code_lt ha

/-! ### Entering a state -/

/-- The state registers once `d` is entered. -/
def Sys.enter (y : Sys) (d : DevState) : Sys := { y with state := d, prev := y.state, changes := y.changes + 1 }

theorem wrapAdd_eq_add {w : Nat} (x : BitVec w) (n : Nat) : wrapAdd x n = x + BitVec.ofNat w n := by
  simp [wrapAdd, BitVec.ofNat_add]

/-- The state in which the record of the change is raised. -/
def State.entered (s : State) (d : DevState) : State := { s with sys := s.sys.enter d }

theorem State.setDev_same (s : State) {d : DevState} (arg : Nat) (h : s.sys.state = d) : s.setDev d arg = s := if_pos h

theorem State.setDev_eq_raise {s : State} {d : DevState} (arg : Nat) (h : s.sys.state ≠ d) :
    s.setDev d arg = (s.entered d).raise (changeEvent s.sys.state d arg) := by
  unfold State.setDev
  rw [if_neg h, wrapAdd_eq_add]
  cases d <;> rfl

theorem State.setDev_sys {s : State} {d : DevState} (arg : Nat) (h : s.sys.state ≠ d) :
    (s.setDev d arg).sys = s.sys.enter d := by
  rw [s.setDev_eq_raise arg h, raise_sys, entered]

theorem State.setDev_evr {s : State} {d : DevState} (arg : Nat) (h : s.sys.state ≠ d) :
    (s.setDev d arg).evr =
      s.evr.take (d = .flushing || s.flush.isSome) s.lead (s.stamped (changeEvent s.sys.state d arg)) := by
  rw [s.setDev_eq_raise arg h, raise_evr, changeEvent_source]
  exact congrArg (s.evr.take _ · _) (s.entered d).evTile_package

/-- Settles O19: the record of a change of state is the one of R51, and R574 and R631 say where it goes. -/
theorem deviceStateChanges : Obligations.DeviceStateChanges := by
  intro s d arg
  refine ⟨s.setDev_same arg, fun h hd hf hr ha => ⟨s.setDev_sys arg h, s.stamped (changeEvent s.sys.state d arg), ?_⟩, ?_⟩
  · have args : (s.stamped (changeEvent s.sys.state d arg)).args.toNat = _ := changeEvent_args _ d (changeArg_lt d ha)
    have old := s.sys.state.code_lt
    have held : (decide (d = .flushing) || s.flush.isSome) = false := by simp [hd, hf]
    refine ⟨by rw [s.setDev_evr arg h, held, Evr.take_room _ _ hr], by omega, rfl, ?_⟩
    have second : (s.stamped (changeEvent s.sys.state d arg)).args.toNat / 256 = changeArg d arg := by omega
    cases d <;> exact ⟨rfl, rfl, second⟩
  · rintro h rfl
    have six : changeArg .flushing arg = 6 := rfl
    have args : (s.stamped (changeEvent s.sys.state .flushing arg)).args.toNat = _ := changeEvent_args _ _ (six ▸ by decide)
    have old := s.sys.state.code_lt
    exact ⟨_, (s.setDev_evr arg h).trans (s.evr.take_held _ _), rfl, by omega⟩

end Sys2Proof.Machine
end

section
/-! The bring-up of phases 1 to 3 (R26 to R33, R385 to R389, R408): one rule for each case of its events. -/

namespace Sys2Proof.Machine

/-! ### Masks of tiles -/

theorem mem_allTiles (t : TileId) : t ∈ allTiles := by revert t; decide

theorem getLsbD_bitOn {w : Nat} (x : BitVec w) {n i : Nat} (hi : i < w) :
    (bitOn x n).getLsbD i = (x.getLsbD i || decide (n = i)) := by
  rw [bitOn, BitVec.getLsbD_or, BitVec.getLsbD_ofNat, Nat.testBit_two_pow, decide_eq_true hi, Bool.true_and]

/-- The mask of the tiles that pass a test, gathered one by one. -/
theorem getLsbD_foldl_bitOn (l : List TileId) (m : BitVec 8) (t : TileId) :
    (l.foldl (fun m t => bitOn m t.val) m).getLsbD t = (m.getLsbD t || l.contains t) := by
  induction l generalizing m with
  | nil => simp
  | cons x l ih =>
    rw [List.foldl_cons, ih, getLsbD_bitOn m t.isLt, List.contains_cons, Bool.or_assoc]
    have same : decide (x.val = t.val) = (t == x) := 
      decide_eq_decide.mpr ⟨fun e => Fin.ext e.symm, fun e => congrArg Fin.val e.symm⟩
    rw [same]

theorem foldl_bitOn_filter (p : TileId → Bool) (m : BitVec 8) (h : ∀ t : TileId, m.getLsbD t = p t) :
    (allTiles.filter p).foldl (fun m t => bitOn m t.val) (0 : BitVec 8) = m := by
  refine BitVec.eq_of_getLsbD_eq fun i hi => ?_
  rw [getLsbD_foldl_bitOn _ _ ⟨i, hi⟩, h ⟨i, hi⟩]
  simp [mem_allTiles]

/-- The lowest tile of a mask. -/
theorem head?_bitsOf {m : BitVec 8} {x : TileId} (hx : m.getLsbD x = true) (hlow : ∀ t : TileId, t < x → m.getLsbD t = false) :
    (bitsOf m).head? = some x.val := by
  rw [bitsOf, List.head?_filter, List.find?_range_eq_some]
  exact ⟨hx, List.mem_range.mpr x.isLt, fun j hj => by rw [hlow ⟨j, by omega⟩ hj]; decide⟩

theorem toTile_val (t : TileId) : toTile t.val = t := Fin.ext (Nat.mod_eq_of_lt t.isLt)

/-! ### Phase 1 (R26 to R33) -/

/-- The tiles whose pass lines are up with the reference serial number (R26). -/
def State.passes (s : State) (t : TileId) : Bool := s.sys.passLines.getLsbD t && decide (some s.sys.reported[t] = s.refSerial)

/-- The state of the package once the self-test window has closed with the mask `pass`. -/
def State.elected (s : State) (pass : BitVec 8) (lead : Option TileId) : State :=
  { s with
    sys := { s.sys with windowOpen := false, selftestPass := pass, inService := pass, lead := lead, noLead := lead.isNone }
    heads := vmap s.heads fun h x => { x with idle := !pass.getLsbD h } }

theorem State.elected_heads (s : State) (pass : BitVec 8) (lead : Option TileId) (h : TileId) :
    (s.elected pass lead).heads[h] = { s.heads[h] with idle := !pass.getLsbD h } := vmap_get s.heads _ h

/-- The ports of a tile that failed self-test are held down. -/
theorem State.portsOff_failed {s : State} {h : TileId} (p : Fin 4) (hw : s.sys.windowOpen = false)
    (hp : s.sys.selftestPass.getLsbD h = false) (hg : s.fuses.variant = .yd4871g → h ≠ 7) :
    s.portsOff.fab[h].ports[p] = s.fab[h].ports[p].disabled := by
  have off : s.portEnabled (.widar h p) = false := by
    have failed : (s.sys.windowOpen || s.sys.selftestPass.getLsbD h || (decide (s.fuses.variant = .yd4871g) && decide (h.val = 7)))
        = false := by
      rw [hw, hp, Bool.false_or, Bool.false_or]
      exact Bool.and_eq_false_imp.mpr fun v => decide_eq_false fun c => hg (of_decide_eq_true v) (Fin.ext c)
    exact congrArg (· && _) failed
  simp [portsOff, off]

theorem runs_tileSelftestDone {s : State} {t : TileId} (hw : s.sys.windowOpen = true)
    (ht : (fittedMask s.fuses.variant).getLsbD t = true) :
    Runs (.tileSelftestDone t true) s { s with sys := { s.sys with
      passLines := bitOn s.sys.passLines t, reported := s.sys.reported.set t s.fuses.serials[t] } } :=
  if_neg (by rw [hw, ht]; decide)

/-- The window closes: the passing tiles are latched, and the lead is the lowest of them. -/
theorem exec_selftestWindowClose {s : State} {pass : BitVec 8} (hw : s.sys.windowOpen = true)
    (hp : ∀ t : TileId, pass.getLsbD t = s.passes t) :
    let lead := (bitsOf pass).head?.map toTile
    let u := (s.elected pass lead).portsOff
    exec .selftestWindowClose s = if lead.isNone then .next u
      else .next { u with
        boot := { u.boot with phase := 2 }
        prm := { u.prm with bp := BitVec.ofNat 2 (((twinRead (u.prmPage 2)).1.getD []).headD 0).toNat } } := by
  intro lead u
  have isOpen : ¬ (!s.sys.windowOpen) = true := by simp [hw]
  have mask := foldl_bitOn_filter s.passes pass hp
  refine (if_neg isOpen).trans ?_
  unfold State.passes at mask
  rw [mask]
  rfl

theorem State.passes_of_none {s : State} (h : s.sys.passLines = 0) (t : TileId) : s.passes t = false := by
  simp [passes, h]

/-! ### Phase 2 (R407, R408) -/

theorem runs_optionAreaRead {s : State} {l : TileId} (hl : s.sys.lead = some l) (hr : s.boot.optRead = false)
    (hp : s.boot.phase = 2) (hd : sectorDefined s.nv[s.lead] (sectorKey 0 1024) = true)
    (hok : ∀ i ∈ ([0, 1, 2, 3] : List Nat), optOk s.nv[s.lead].opt i = true) :
    ∃ t, Runs .optionAreaRead s t ∧ t.boot.optRead = true ∧ t.boot.holdReason = 0 ∧ t.evr = s.evr
      ∧ t.cfg.optWords = #v[(s.nv[s.lead].opt.getD 0 0).truncate 16, (s.nv[s.lead].opt.getD 1 0).truncate 16,
          (s.nv[s.lead].opt.getD 2 0).truncate 16, (s.nv[s.lead].opt.getD 3 0).truncate 16] := by
  have due : ¬ (s.sys.lead.isNone ∨ s.boot.optRead ∨ s.boot.phase ≠ 2) := by simp [hl, hr, hp]
  have good : (([0, 1, 2, 3] : List Nat).filter fun i => !optOk s.nv[s.lead].opt i) = [] :=
    List.filter_eq_nil_iff.mpr fun i hi => by rw [hok i hi]; decide
  change ∃ t, execOptionAreaRead s = _ ∧ _
  unfold execOptionAreaRead
  rw [if_neg due]
  extract_lets v words bad word s₁ s₂
  have words_eq : words = v.opt := if_pos hd
  have bad_nil : bad = [] := by simpa only [bad, words_eq] using good
  have word_eq (i : Nat) : word i = (v.opt.getD i 0).truncate 16 := by simp only [word, bad_nil, words_eq]; rfl
  have evr : s₂.evr = s.evr := by
    have h₁ : s₁ = s := by simp only [s₁, bad_nil]; rfl
    have h₂ : Changes [.tiles] s₁ s₂ := .forAll .refl fun _ _ h => h.modCfl
    rw [h₂.keeps .evr rfl, h₁]
  clear_value s₂
  exact ⟨_, rfl, rfl, if_pos bad_nil, evr, by simp only [word_eq, v]⟩

/-! ### Phase 3 (R385 to R389) -/

theorem runs_firmwareSlotChoice {s : State} {l : TileId} (hl : s.sys.lead = some l) (hr : s.boot.optRead = true)
    (hc : s.boot.slotChosen = false) (hd : s.svc.rdpPending = false) (ha : s.bootSelect.getD 0 1 = 1)
    (hp : s.bootSelect.getD 1 0 = 0) (he : s.bootSelect.getD 3 0 ≠ 0xA5) (hv : s.slotOk l 1 = true) :
    Runs .firmwareSlotChoice s ({ s with boot := { s.boot with
      phase := 3, slotChosen := true, slot := 1, trial := false } }.startFw l 1) := by
  have due : ¬ (s.sys.lead.isNone ∨ !s.boot.optRead ∨ s.boot.slotChosen ∨ s.svc.rdpPending) := by simp [hl, hr, hc, hd]
  obtain rfl : s.lead = l := by simp [State.lead, hl]
  change execFirmwareSlotChoice s = _
  unfold execFirmwareSlotChoice
  rw [if_neg due]
  extract_lets +onlyGivenNames c active pending trial
  have active_eq : active = 1 := by simp only [active, c, ha]; rfl
  have pending_eq : pending = 0 := by simp only [pending, c, hp]; rfl
  rw [if_neg he, active_eq]
  simp only [pending_eq, ne_eq, not_true_eq_false, false_and, if_false]
  exact if_pos hv

theorem runs_tileFirmwareVerify {s : State} {t : TileId} (hc : s.boot.slotChosen = true) (hr : s.boot.recovery = false)
    (ht : s.inSvc t = true) (hl : t ≠ s.lead) (hf : s.sys.fwRunning.getLsbD t = false) (hb : s.flashBusy isRewrite = false)
    (hv : s.slotOk t s.boot.slot.toNat = true) : Runs (.tileFirmwareVerify t) s (s.startFw t s.boot.slot.toNat) := by
  refine (if_neg ?_).trans (if_pos hv)
  simp only [hc, hr, ht, hl, hf, hb, Bool.not_true, Bool.or_self, decide_false, Bool.false_eq_true, not_false_eq_true]

theorem runs_tileFirmwareRewriteDone {s : State} {t : TileId} {op : FlashOp} (hs : s.boot.slot = 1)
    (ho : s.tiles[t].cfl.ops[(0 : Fin 2)] = some op) (hu : op.use = .firmware 1 ((s.slotImage s.lead 1).getD []))
    (hf : s.sys.fwRunning.getLsbD t = false) (hr : s.boot.recovery = false) :
    Runs (.tileFirmwareRewriteDone t) s (((s.finishOp t 0 op).flashNext t 0).startFw t 1) := by
  have slot : s.boot.slot.toNat = 1 := by rw [hs]; rfl
  change execTileFirmwareRewriteDone t s = _
  unfold execTileFirmwareRewriteDone
  have bankA : ¬ (1 : Nat) = 2 := by decide
  simp only [slot, if_neg bankA, ho]
  exact if_pos ⟨hu, by rw [hf]; rfl, by rw [hr]; rfl⟩

theorem runs_recoveryRestartTimer {s : State} (hr : s.svc.recoveryRestart = true) (hw : s.svc.waiting = none) :
    Runs .recoveryRestartTimer s (s.finishStores.packageReset .recoveryRestart) :=
  if_pos (by rw [hr, hw]; rfl)

theorem exec_mailboxReady {s : State} (hs : s.sys.state = .boot) (hm : s.sys.mbReady = false) (hc : s.boot.slotChosen = true)
    (hr : s.boot.recovery = false) (hf : ∀ t ∈ s.svcTiles, s.sys.fwRunning.getLsbD t = true) :
    exec .mailboxReady s =
      if s.phase3.boot.holdReason = 1 then .next (s.phase3.configHold 1).confirmTrial
      else .next ({ s.phase3 with boot := { s.phase3.boot with phase := 4 } }.setDev .mediaInit) := by
  refine if_neg ?_
  have all : (s.svcTiles.any fun t => !s.sys.fwRunning.getLsbD t) = false := 
    List.any_eq_false.mpr fun t ht => by rw [hf t ht]; decide
  rw [hs, hm, hc, hr, all]
  decide

/-- Settles O32: each clause is the rule above for the case of the event that it names. -/
theorem bringUpEventsComplete : Obligations.BringUpEventsComplete := by
  intro s l
  refine ⟨fun t => runs_tileSelftestDone, fun hw hp => ?_, fun pass x hw hp hx hlow => ?_, runs_optionAreaRead, runs_firmwareSlotChoice,
    fun t => runs_tileFirmwareVerify, fun t op => runs_tileFirmwareRewriteDone, runs_recoveryRestartTimer,
    fun hs hm hc hr hf => ?_⟩
  · exact exec_selftestWindowClose (pass := 0) hw fun t => by rw [State.passes_of_none hp]; simp
  · have lead : (bitsOf pass).head?.map toTile = some x := by rw [head?_bitsOf hx hlow, Option.map_some, toTile_val]
    have run := exec_selftestWindowClose hw hp
    simp only [lead] at run
    refine ⟨_, run, rfl, rfl, s.elected_heads pass (some x), fun h p hh hg => ?_⟩
    have off := State.portsOff_failed (s := s.elected pass (some x)) p rfl hh hg
    exact ⟨congrArg Link.up off, congrArg Link.trained off⟩
  · have run := exec_mailboxReady hs hm hc hr hf
    exact ⟨fun h => run.trans (if_neg h), fun h => run.trans (if_pos h)⟩

end Sys2Proof.Machine
end

section
/-! Heartbeats, lost tiles and warm resets (R35 to R37, R398, R399, R485, R573, R712): one rule for each case of their events. -/

namespace Sys2Proof.Machine

/-! ### Heartbeats (R35, R485) -/

@[simp] theorem State.wsend_sys (s : State) (t : TileId) (m : Msg) : (s.wsend t m).2.sys = s.sys :=
  State.wsend_changes.keeps .sys rfl

/-- The heartbeats in a row that a tile has missed once the next is sent. -/
def State.beatsMissed (s : State) (t : TileId) : Nat := if s.sys.awaiting.getLsbD t then s.sys.missed[t] + 1 else 0

/-- Tile `l` sends a heartbeat to a tile in service, whose answer is then awaited. -/
def State.beat (l t : TileId) (s : State) : State :=
  (State.wsend { s with sys := { s.sys with
      missed := s.sys.missed.set t (s.beatsMissed t), awaiting := bitOn s.sys.awaiting t } } l
    { opcode := 5, src := BitVec.ofNat 3 l.val, dst := BitVec.ofNat 3 t.val, addr := 1 }).2

theorem State.beat_changes {s : State} {l t : TileId} : Changes [.sys, .pmc, .fab, .mesh] s (s.beat l t) :=
  .step wsend_changes (.upd (t := s) .refl)

theorem State.beat_sys (s : State) (l t : TileId) : (s.beat l t).sys = { s.sys with
    missed := s.sys.missed.set t (s.beatsMissed t), awaiting := bitOn s.sys.awaiting t } := State.wsend_sys ..

theorem State.beat_self (s : State) (l t : TileId) :
    (s.beat l t).sys.awaiting.getLsbD t = true ∧ (s.beat l t).sys.missed[t] = s.beatsMissed t := by
  rw [beat_sys]
  exact ⟨by simp only [getLsbD_bitOn _ t.isLt, decide_true, Bool.or_true], Vector.getElem_set_self _⟩

theorem State.beat_other (s : State) {l t x : TileId} (h : x ≠ t) :
    (s.beat l x).sys.awaiting.getLsbD t = s.sys.awaiting.getLsbD t ∧ (s.beat l x).sys.missed[t] = s.sys.missed[t] := by
  have hv : x.val ≠ t.val := fun c => h (Fin.ext c)
  rw [beat_sys]
  exact ⟨by simp only [getLsbD_bitOn _ t.isLt, decide_eq_false hv, Bool.or_false], Vector.getElem_set_ne x.isLt t.isLt hv⟩

/-- Heartbeats to different tiles leave each other's counts alone. -/
theorem beats_counts (l : TileId) (ts : List TileId) (nodup : ts.Nodup) (s : State) :
    let u := forAll ts (State.beat l) s
    (∀ t ∈ ts, u.sys.awaiting.getLsbD t = true ∧ u.sys.missed[t] = s.beatsMissed t) ∧
    (∀ t ∉ ts, u.sys.awaiting.getLsbD t = s.sys.awaiting.getLsbD t ∧ u.sys.missed[t] = s.sys.missed[t]) := by
  induction ts generalizing s with
  | nil => exact ⟨fun t h => absurd h (List.not_mem_nil), fun t _ => ⟨rfl, rfl⟩⟩
  | cons x ts ih =>
    obtain ⟨hx, hts⟩ := List.nodup_cons.mp nodup
    obtain ⟨sent, others⟩ := ih hts (s.beat l x)
    refine ⟨fun t ht => ?_, fun t ht => ?_⟩
    · obtain rfl | ht := List.mem_cons.mp ht
      · obtain ⟨a, m⟩ := others t hx
        obtain ⟨a', m'⟩ := s.beat_self l t
        exact ⟨a.trans a', m.trans m'⟩
      · have ne : x ≠ t := fun c => hx (c ▸ ht)
        obtain ⟨a, m⟩ := sent t ht
        obtain ⟨a', m'⟩ := s.beat_other (l := l) ne
        refine ⟨a, m.trans ?_⟩
        unfold State.beatsMissed
        rw [a', m']
    · obtain ⟨ne, ht⟩ := not_or.mp (mt List.mem_cons.mpr ht)
      obtain ⟨a, m⟩ := others t ht
      obtain ⟨a', m'⟩ := s.beat_other (l := l) (Ne.symm ne)
      exact ⟨a.trans a', m.trans m'⟩

theorem State.svcTiles_nodup (s : State) : s.svcTiles.Nodup := List.Pairwise.filter _ (by decide : allTiles.Nodup)

theorem runs_leadHeartbeatTimer {s : State} {l : TileId} (hl : s.sys.lead = some l) (hf : s.sys.fwRunning.getLsbD l = true)
    (hs : s.linksSleep = false) (hn : s.sys.loneLost = false) :
    ∃ u, Runs .leadHeartbeatTimer s u ∧ u.boot = s.boot ∧ u.tiles = s.tiles ∧
      ∀ t ∈ s.svcTiles, t ≠ l → u.sys.awaiting.getLsbD t = true ∧
        u.sys.missed[t] = if s.sys.awaiting.getLsbD t then s.sys.missed[t] + 1 else 0 := by
  let ts := s.svcTiles.filter (· ≠ l)
  let u := forAll ts (State.beat l) s
  have hu : Changes [.sys, .pmc, .fab, .mesh] s u := .forAll .refl fun _ _ h => .step State.beat_changes h
  have counts : ∀ t ∈ s.svcTiles, t ≠ l → u.sys.awaiting.getLsbD t = true ∧ u.sys.missed[t] = s.beatsMissed t := fun t ht ne =>
    (beats_counts l ts (List.Pairwise.filter _ s.svcTiles_nodup) s).1 t (List.mem_filter.mpr ⟨ht, decide_eq_true ne⟩)
  let guest : State := { u with guest := { u.guest with
    missed := if u.guest.awaiting then satAdd u.guest.missed 1 else 0, awaiting := true } }
  let v := if u.guest.admitted then
      (guest.wsend l { opcode := 5, src := BitVec.ofNat 3 l.val, dst := 7, addr := 1 }).2
    else u
  have run : Runs .leadHeartbeatTimer s v := by
    change execLeadHeartbeatTimer s = _
    unfold execLeadHeartbeatTimer
    rw [hl]
    exact if_neg (by rw [hf, hs, hn]; decide)
  have hv : Changes [.pmc, .fab, .guest, .mesh] u v := .ite (.step State.wsend_changes (.upd (t := u) .refl)) .refl
  have all := hv.keeps .sys rfl
  refine ⟨v, run, (hv.keeps .boot rfl).trans (hu.keeps .boot rfl), (hv.keeps .tiles rfl).trans (hu.keeps .tiles rfl), ?_⟩
  rw [show v.sys = u.sys from all]
  exact counts

/-! ### Losing a tile (R35 to R37, R573, R712) -/

theorem runs_tileHeartbeatTimeout_missed {s : State} {t : TileId} (h : 3 ≤ s.sys.missed[t]) :
    Runs (.tileHeartbeatTimeout t) s (s.tileLost t false) :=
  if_pos (by rw [decide_eq_true (p := s.sys.missed[t] ≥ 3) h]; rfl)

theorem runs_tileHeartbeatTimeout_lead {s : State} {t : TileId} (hl : s.sys.lead = some t)
    (hf : s.sys.fwRunning.getLsbD t = true) (hs : s.linksSleep = false) (hx : ∃ x ∈ s.svcTiles, x ≠ t) :
    Runs (.tileHeartbeatTimeout t) s (s.tileLost t false) := by
  obtain ⟨x, hx, ne⟩ := hx
  have others : s.svcTiles.any (· ≠ t) = true := List.any_eq_true.mpr ⟨x, hx, decide_eq_true ne⟩
  refine if_pos ?_
  rw [others, hl, hf, hs, decide_eq_true rfl]
  exact Bool.or_true _

theorem runs_tileRejoinTimeout {s : State} {t : TileId} (ht : s.pwr.transition = 2) (hc : s.pwr.ctrlDone = true)
    (hl : s.sys.lead ≠ some t) (hr : (s.routeTo s.lead t.val).1 = 7) : Runs (.tileRejoinTimeout t) s (s.tileLost t false) :=
  if_pos (by rw [decide_eq_true ht, hc, decide_eq_true hl, decide_eq_true hr]; rfl)

/-- The rescue flush of the oldest lost tile ends; after a lead loss the last one starts the power-fail flush. -/
theorem exec_rescueFlushDone {s : State} {t : TileId} {ts : List TileId} (n : List Nat) (hr : s.sys.rescueOf = t :: ts)
    (hf : s.flush = none) (hw : s.sys.wakeNeeded = false) :
    let r := s.rescueFlush t n
    let u := r.2.rescueLost t r.1.1 r.1.2
    let v := { u with sys := { u.sys with rescueOf := ts } }.addCause .tileLost
    exec (.rescueFlushDone n) s =
      if v.sys.leadLoss && decide (ts = []) then .next ((v.leadLostRecord t r.1.1.length).startFlush 3) else .next v := by
  change execRescueFlushDone n s = _
  unfold execRescueFlushDone
  rw [hr]
  exact if_neg (by rw [hf, hw]; decide)

theorem runs_leadReportAbsent {s : State} {t : TileId} (hl : s.sys.lead = some t) (hn : 10 ≤ s.clk.noReport)
    (hs : s.svcTiles = [t]) (hlone : s.sys.loneLost = false) : Runs .leadReportAbsent s (s.loneLost t false) := by
  have svc : s.inSvc t = true := (List.mem_filter.mp (hs ▸ List.mem_singleton_self t : t ∈ s.svcTiles)).2
  have alone : [t].filter (· ≠ t) = [] :=
    List.filter_cons_of_neg (by rw [decide_eq_false (not_not_intro rfl)]; exact Bool.false_ne_true)
  have lost : s.tileLost t false = s.loneLost t false := by
    unfold State.tileLost
    rw [if_neg (by rw [svc, hlone]; decide), if_pos hl, hs, alone]
  change execLeadReportAbsent s = _
  unfold execLeadReportAbsent
  rw [hl]
  exact (if_pos ⟨hn, hs, by rw [hlone]; rfl⟩).trans (congrArg _ lost)

theorem State.setDev_state (s : State) (d : DevState) (arg : Nat) : (s.setDev d arg).sys.state = d := by
  by_cases h : s.sys.state = d
  · rw [s.setDev_same arg h, h]
  · rw [s.setDev_sys arg h]; rfl

theorem State.setDev_failCause (s : State) (d : DevState) (arg : Nat) : (s.setDev d arg).sys.failCause = s.sys.failCause := by
  by_cases h : s.sys.state = d
  · rw [s.setDev_same arg h]
  · rw [s.setDev_sys arg h]; rfl

theorem State.loneFailed_sys (s : State) : s.loneFailed.sys.state = .failed ∧ s.loneFailed.sys.failCause = .leadTileLost :=
  ⟨setDev_state .., setDev_failCause ..⟩

theorem runs_loneLossFlushEnd {s : State} {t : TileId} {f : FlushRun} (ha : s.aon.loneLoss = some t) (hl : s.sys.loneLost = true)
    (hf : s.flush = some f) (hw : f.workEnded = false) (hp : f.pkgRst = false) (hi : s.inputPresent = true) :
    ∃ u, Runs (.loneLossFlushEnd false) s u ∧ u.flush = none ∧ u.sys.state = .failed ∧ u.sys.failCause = .leadTileLost
      ∧ u.aon.loneSaved = f.dataEnd.getLsbD t := by
  let x : State := { s with aon := { s.aon with loneSaved := f.dataEnd.getLsbD t } }
  have aon : x.loneFailed.aon = x.aon := State.loneFailed_changes.keeps .aon rfl
  have input : x.loneFailed.inputPresent = true := by
    unfold State.inputPresent
    rw [aon]
    exact hi
  obtain ⟨state, cause⟩ := x.loneFailed_sys
  refine ⟨{ x.loneFailed with flush := none }, ?_, rfl, state, cause, congrArg Aon.loneSaved aon⟩
  change execLoneLossFlushEnd false s = _
  unfold execLoneLossFlushEnd
  rw [ha, hf]
  refine (if_neg (by rw [hl, hw]; exact Bool.false_ne_true)).trans ?_
  exact (if_pos input).trans (if_neg (by rw [hp]; decide))

/-! ### Warm resets (R398, R399) -/

theorem runs_stagWatchdogExpiry {s : State} {t : TileId} (hs : s.sys.state.isSleep = false) :
    Runs (.stagWatchdogExpiry t) s (if s.sys.lead = some t then s.internalFatal t else s.warmReset t) := by
  refine (if_neg (by rw [hs]; decide)).trans ?_
  split <;> rfl

/-- A tile that no warm reset has met counts one and begins to stage. -/
theorem runs_duikerRecoverableFault {s : State} {t : TileId} (hs : s.inSvc t = true) (hd : s.sys.state.isSleep = false)
    (hf : s.flush = none) (hw : s.boot.warmStep[t] = 0) (ha : s.boot.warmAt[t] = none) :
    ∃ u, Runs (.duikerRecoverableFault t) s u ∧ u.boot = { s.boot with
        warmResets := satAdd s.boot.warmResets 1, warmAt := s.boot.warmAt.set t (some s.aon.seconds)
        warmStep := s.boot.warmStep.set t 2 } ∧ u.sys = s.sys := by
  let x : State := { s with boot := { s.boot with
    warmResets := satAdd s.boot.warmResets 1, warmAt := s.boot.warmAt.set t (some s.aon.seconds)
    warmStep := s.boot.warmStep.set t 2 } }
  let y := x.modEng t fun e => { e with stopDispatch := true }
  let u := y.stageAll t (((dirtyLines y.tiles[t].d).filter (·.posted)).map (·.line))
  have run : s.warmReset t = u := by
    unfold State.warmReset
    refine (if_neg (by rw [hs, hd, hf, hw]; decide)).trans ?_
    unfold State.warmSoon
    rw [ha]
    rfl
  have hu : Changes [.clk, .tiles] y u := State.stageAll_changes
  exact ⟨u, congrArg _ run, hu.keeps .boot rfl, hu.keeps .sys rfl⟩

theorem runs_warmResetStaged {s : State} {t : TileId} (hw : s.boot.warmStep[t] = 2) (he : s.tiles[t].eng.ctxs = [])
    (hc : ∀ l ∈ s.tiles[t].d.cache, (l.postedDirty && l.inFlight) = false) :
    Runs (.warmResetStaged t) s { s with boot := { s.boot with warmStep := s.boot.warmStep.set t 3 } } := by
  have idle : (s.tiles[t].d.cache.any fun l => l.postedDirty && l.inFlight) = false :=
    List.any_eq_false.mpr fun l hl => by rw [hc l hl]; decide
  exact if_pos ⟨hw, he, by rw [idle]; rfl⟩

/-- The last steps of a warm reset leave no step that runs. -/
theorem runs_warmResetDrainEnd {s : State} {t : TileId} (n : Nat) (hw : s.boot.warmStep[t] = 3) :
    ∃ u, Runs (.warmResetDrainEnd t n) s u ∧ u.boot.warmStep[t] = 0 ∧ u.nv = s.nv ∧ u.cfg = s.cfg := by
  obtain ⟨u, run, hu⟩ := execWarmResetDrainEnd_changes (a0 := t) (a1 := n) (s := s)
  refine ⟨u, run, ?_, hu.keeps .nv rfl, hu.keeps .cfg rfl⟩
  unfold execWarmResetDrainEnd at run
  rw [if_neg (not_not_intro hw)] at run
  injection run with run
  rw [← run]
  exact Vector.getElem_set_self _

/-- Settles O38: each clause is the rule above for the case of the event that it names. -/
theorem tileLossEventsComplete : Obligations.TileLossEventsComplete := by
  intro s
  refine ⟨fun l => runs_leadHeartbeatTimer, fun t => runs_tileHeartbeatTimeout_missed, fun t => runs_tileHeartbeatTimeout_lead,
    fun t => rfl, fun t => runs_tileRejoinTimeout, fun t ts n hr hf hw => ?_, fun t => runs_leadReportAbsent,
    fun t f => runs_loneLossFlushEnd, fun t hs hl => ?_, fun t hs hl => ?_, fun t => runs_duikerRecoverableFault,
    fun t => runs_warmResetStaged, fun t n => runs_warmResetDrainEnd n⟩
  · intro r u v
    have run : exec (.rescueFlushDone n) s = if v.sys.leadLoss && decide (ts = []) then
        .next ((v.leadLostRecord t r.1.1.length).startFlush 3) else .next v := exec_rescueFlushDone n hr hf hw
    clear_value v
    refine ⟨fun h => run.trans (if_neg ?_), fun h ht => run.trans (if_pos ?_)⟩
    · obtain h | h := h
      · rw [h]; exact Bool.false_ne_true
      · rw [decide_eq_false h, Bool.and_false]; exact Bool.false_ne_true
    · rw [h, decide_eq_true ht]; rfl
  · have run := runs_stagWatchdogExpiry (t := t) hs
    rwa [if_neg hl] at run
  · have run := runs_stagWatchdogExpiry (t := t) hs
    rwa [if_pos hl] at run

end Sys2Proof.Machine
end

section
/-! CXL.mem stores (R44, R155, R254, R314, R316): what a store does for each verdict of its head. -/

namespace Sys2Proof.Machine

/-! ### What the trackers see (R155) -/

theorem State.tracked_full (s : State) (h : TileId) (n : Nat) : s.tracked h n (BitVec.allOnes 64) false =
    ((trackStore s.heads[h] n).1, s.modHead h fun x => (trackStore x n).2) := if_neg (by decide)

theorem State.tracked_partial (s : State) (h : TileId) (n : Nat) {m : BitVec 64} (hm : m ≠ 0) :
    s.tracked h n m true = (false, s.modHead h fun x => trackPartial x n) := if_neg hm

theorem State.tracked_empty (s : State) (h : TileId) (n : Nat) (ptl : Bool) : s.tracked h n 0 ptl = (false, s) := if_pos rfl

/-! ### Verdicts -/

section
variable {s : State} {h : TileId} {a : BitVec 64} {n : Nat} (d : Line) (ptl p : Bool)

theorem State.storeAt_missed (m : BitVec 64) (hj : (s.ungate h 7).judge h a = .missed) :
    s.storeAt h a d m ptl p = ((s.ungate h 7).admitMiss h a 1).sendCmp h 0 := by
  unfold storeAt
  extract_lets u
  rw [show u.judge h a = _ from hj]

theorem State.storeAt_locked (m : BitVec 64) (hj : (s.ungate h 7).judge h a = .locked n) :
    s.storeAt h a d m ptl p = (((s.ungate h 7).tracked h n m ptl).2.count h 1 2).noteLocked.sendCmp h
      ((s.ungate h 7).devLoadOf n) := by
  unfold storeAt
  extract_lets u
  rw [show u.judge h a = _ from hj]

/-- A store that passes and whose owner can take it is handed to its owner. -/
theorem State.storeAt_owner {m : BitVec 64} (hj : (s.ungate h 7).judge h a = .passed n) (hm : m ≠ 0) :
    let r := ((s.ungate h 7).count h 1 2).tagStep h
    ∀ {k : Bool × State}, r.2.2.tracked h n m ptl = k →
    k.2.ownerStores n = true → k.2.forwards h (k.2.home n).tile = true →
    s.storeAt h a d m ptl p = k.2.newStore (k.2.home n).tile
      { id := 0, head := h, line := n, data := d, mask := m, stream := k.1, region := k.2.regionOf n, poison := p,
        ptl := ptl, tagged := r.1, t0 := r.2.1 } := by
  rintro r k rfl ho hf
  have taken : ¬ (m = 0 ∨ !(r.2.2.tracked h n m ptl).2.ownerStores n
      ∨ !(r.2.2.tracked h n m ptl).2.forwards h ((r.2.2.tracked h n m ptl).2.home n).tile) := by
    rw [ho, hf]
    rintro (c | c | c)
    · exact hm c
    · exact Bool.false_ne_true c
    · exact Bool.false_ne_true c
  unfold storeAt
  extract_lets u
  rw [show u.judge h a = _ from hj]
  exact if_neg taken

/-- A store that passes with no byte enabled only completes. -/
theorem State.storeAt_empty (hj : (s.ungate h 7).judge h a = .passed n) :
    let r := ((s.ungate h 7).count h 1 2).tagStep h
    r.1 = false → s.storeAt h a d 0 ptl p = r.2.2.sendCmp h (r.2.2.devLoadOf n) := by
  intro r ht
  unfold storeAt
  extract_lets u
  rw [show u.judge h a = _ from hj]
  dsimp only
  rw [tracked_empty]
  refine (if_pos (.inl rfl)).trans ?_
  exact if_neg (ht ▸ Bool.false_ne_true)

end

/-- Settles O41: each clause is the rule above for the verdict that it names. -/
theorem cxlMemStoresComplete : Obligations.CxlMemStoresComplete := by
  intro s h a d
  refine ⟨fun n p hj => ?_, fun n m p hj hm => ?_, fun n p hj ht => congrArg _ (State.storeAt_empty d true p hj ht),
    fun p hj => congrArg _ (State.storeAt_missed d false p _ hj), fun n p hj => ?_, fun hs => if_neg hs⟩
  · exact fun ho hf => congrArg _ (State.storeAt_owner d false p hj (by decide) (State.tracked_full ..) ho hf)
  · exact fun ho hf => congrArg _ (State.storeAt_owner d true p hj hm (State.tracked_partial _ _ _ hm) ho hf)
  · have run := State.storeAt_locked d false p (BitVec.allOnes 64) hj
    rw [State.tracked_full] at run
    exact congrArg _ run

end Sys2Proof.Machine
end

section
/-! Responses and the Global Persistent Flush (R38, R42, R182, R218, R220, R313, R323): one rule for each case of their events. -/

namespace Sys2Proof.Machine

/-! ### Acknowledged stores (R42, R313) -/

/-- A store that its policy lets complete, or that was discarded, is acknowledged by its head. -/
theorem runs_storeAcknowledge {s : State} {h t : TileId} {r : StoreReq}
    (ha : allTiles.findSome? (fun (t : TileId) =>
      (s.tiles[t].d.stores.find? fun x => x.id = r.id && x.head = h && x.wid.isNone && x.peer.isNone && !x.internal).map (t, ·)) =
        some (t, r))
    (hd : r.discarded = true ∨ (r.phase = 4 ∧ r.peerDone = true)) (ht : r.tagged = false) :
    let u := s.storeAcked t r
    Runs (.storeAcknowledge h r.id) s ((if u.heads[h].sends then u.sendCmp h (s.devLoadOf r.line)
      else u.modHead h fun x => { x with dropped := x.dropped + 1 }).wakeLoads t) := by
  intro u
  have done : ¬ (!r.discarded ∧ (r.phase ≠ 4 ∨ !r.peerDone)) := by
    obtain hd | ⟨hp, hq⟩ := hd
    · simp [hd]
    · simp [hp, hq]
  have tag : ¬ r.tagged = true := by simp [ht]
  change execStoreAcknowledge h r.id s = _
  unfold execStoreAcknowledge
  rw [ha]
  exact (if_neg done).trans (congrArg (fun x => Host.Outcome.next (State.wakeLoads x t)) (if_neg tag))

/-! ### Load responses (R38, R218, R220) -/

section
variable {s : State} {h : TileId} {r : LoadReq} {ns : Nat}
  (hr : (s.loads.find? fun x => x.id = r.id && x.head = h && x.wid.isNone && x.peer.isNone && x.forStore.isNone) = some r)
include hr

theorem runs_loadResponseEgress_sent {v : Line} {p : Bool} (hv : r.result = some (v, p)) (he : r.expired = false)
    (ht : r.tagged = false) (hn : ns ≤ 900) (hs : s.heads[h].sends = true) :
    let u : State := { s with loads := s.loads.filter (·.id ≠ r.id) }
    Runs (.loadResponseEgress h r.id ns) s ((u.sendData h (u.devLoadOf r.line) (if p then none else some v)).modHead h fun x =>
      { x with latMax := BitVec.ofNat 14 (min 16383 (max x.latMax.toNat ns)) }) := by
  intro u
  have late : ¬ r.expired = true := by simp [he]
  have tag : ¬ r.tagged = true := by simp [ht]
  change execLoadResponseEgress h r.id ns s = _
  unfold execLoadResponseEgress
  rw [hr]
  dsimp only
  rw [hv]
  refine (if_neg late).trans (congrArg _ ((if_neg tag).trans ?_))
  exact (if_neg (Nat.not_lt.mpr hn)).trans (if_pos hs)

/-- A response that comes after the deadline is discarded. -/
theorem runs_loadResponseEgress_late (hv : r.result.isSome = true) (he : r.expired = true) :
    Runs (.loadResponseEgress h r.id ns) s
      (State.modHead { s with loads := s.loads.filter (·.id ≠ r.id) } h fun x => { x with dropped := x.dropped + 1 }) := by
  obtain ⟨⟨v, p⟩, hv⟩ := Option.isSome_iff_exists.mp hv
  change execLoadResponseEgress h r.id ns s = _
  unfold execLoadResponseEgress
  rw [hr]
  dsimp only
  rw [hv]
  exact if_pos he

end

/-- What a head reports of a deadline that passed at `stage` (R220). -/
def Head.noteDeadline (x : Head) (r : LoadReq) (stage : Nat) : Head :=
  { x with
    rdDeadline := satAdd x.rdDeadline 1
    deadlineFirst := if x.roundDeadline = 0 then BitVec.ofNat 64 (64 * r.line) else x.deadlineFirst
    deadlineOwner := if x.roundDeadline = 0 then r.owner.val else x.deadlineOwner
    deadlineStage := if x.roundDeadline = 0 then stage else x.deadlineStage
    roundDeadline := x.roundDeadline + 1 }

@[simp] theorem State.count_heads (s : State) (t b i n : Nat) : (s.count t b i n).heads = s.heads :=
  State.count_changes.keeps .heads rfl

/-- A head that answers with poison sends data without a line, and counts no deadline by itself. -/
theorem State.sendPoison_head (s : State) (h : TileId) (dl : BitVec 2) (least : Nat) :
    (s.sendPoison h dl least).heads[h].lastData = some none ∧
      (s.sendPoison h dl least).heads[h].rdDeadline = s.heads[h].rdDeadline := by
  simp [sendPoison, sendData, respond, draw]

/-- A deadline that passes is answered with poison and counted. -/
theorem runs_loadDeadlineExpiry {s : State} {h : TileId} {r : LoadReq} (stage : Nat)
    (hr : (s.loads.find? fun x => x.id = r.id && x.head = h && x.wid.isNone && x.peer.isNone && x.forStore.isNone
      && !x.internal && !x.hint && !x.expired) = some r)
    (ht : r.tagged = false) (hs : s.heads[h].sends = true) :
    ∃ u, Runs (.loadDeadlineExpiry h r.id stage) s u ∧ u.heads[h].lastData = some none
      ∧ u.heads[h].rdDeadline = satAdd s.heads[h].rdDeadline 1 := by
  let x := s.modLoad r.id fun r => { r with expired := true }
  let y := x.sendPoison h (x.devLoadOf r.line) 7900
  have tag : ¬ r.tagged = true := by simp [ht]
  have run : Runs (.loadDeadlineExpiry h r.id stage) s ((y.modHead h fun x => x.noteDeadline r stage).count h 1 3) := by
    change execLoadDeadlineExpiry h r.id stage s = _
    unfold execLoadDeadlineExpiry
    rw [hr]
    refine congrArg _ ((if_neg tag).trans ?_)
    exact congrArg (fun (s : State) => (s.modHead h fun x => x.noteDeadline r stage).count h 1 3) (if_pos hs)
  obtain ⟨data, count⟩ := x.sendPoison_head h (x.devLoadOf r.line) 7900
  have head : (y.modHead h fun x => x.noteDeadline r stage).heads[h] = y.heads[h].noteDeadline r stage := State.modHead_self ..
  refine ⟨_, run, ?_⟩
  rw [State.count_heads, head]
  exact ⟨data, congrArg (satAdd · 1) count⟩

/-! ### Global Persistent Flush (R182, R323) -/

section
variable {s : State} {h : TileId}

/-- Outside ACTIVE and DEGRADED the flush completes at once. -/
theorem runs_gpfPhase2_idle (hs : s.heads[h].speed ≠ 0) (hi : s.sys.state.isServing = false) :
    ∃ u, Runs (.gpfPhase2 h) s u ∧ u.heads[h].gpfCount = s.heads[h].gpfCount + 1 ∧ u.heads[h].gpfLast = 0 ∧ u.tiles = s.tiles := by
  let x := s.modHead h fun x => { x with gpfCount := x.gpfCount + 1 }
  let u := x.modHead h fun x => { x with gpfLast := 0 }
  have run : Runs (.gpfPhase2 h) s u := (if_neg hs).trans (if_pos (by rw [show x.sys = s.sys from rfl, hi]; rfl))
  have head : u.heads[h] = { s.heads[h] with gpfCount := s.heads[h].gpfCount + 1, gpfLast := 0 } :=
    (State.modHead_self x h _).trans (congrArg (fun (x : Head) => { x with gpfLast := 0 }) (State.modHead_self s h _))
  exact ⟨u, run, congrArg Head.gpfCount head, congrArg Head.gpfLast head, rfl⟩

/-- While none runs, a flush starts and the head waits for it. -/
theorem runs_gpfPhase2_starts (hs : s.heads[h].speed ≠ 0) (hi : s.sys.state.isServing = true) (hg : s.gpfRuns = false) :
    ∃ u, Runs (.gpfPhase2 h) s u ∧ u.heads[h].gpfWait = s.heads[h].gpfWait + 1
      ∧ u.heads[h].gpfCount = s.heads[h].gpfCount + 1 := by
  let x := s.modHead h fun x => { x with gpfCount := x.gpfCount + 1 }
  let y := x.modHead h fun x => { x with gpfWait := x.gpfWait + 1 }
  have serving : ¬ (!x.sys.state.isServing) = true := by rw [show x.sys = s.sys from rfl, hi]; decide
  have notYet : ¬ x.gpfRuns = true := by rw [show x.gpfRuns = s.gpfRuns from rfl, hg]; decide
  have run : Runs (.gpfPhase2 h) s y.gpfStart := (if_neg hs).trans ((if_neg serving).trans (if_neg notYet))
  have head : y.heads[h] = { s.heads[h] with
      gpfCount := s.heads[h].gpfCount + 1, gpfWait := s.heads[h].gpfWait + 1 } :=
    (State.modHead_self x h _).trans
      (congrArg (fun (x : Head) => { x with gpfWait := x.gpfWait + 1 }) (State.modHead_self s h _))
  have kept : y.gpfStart.heads = y.heads := State.gpfStart_changes.keeps .heads rfl
  refine ⟨_, run, ?_⟩
  rw [kept]
  exact ⟨congrArg Head.gpfWait head, congrArg Head.gpfCount head⟩

/-- What a head reports when the flush that it waits for has ended, `us` after its request; those that came meanwhile wait on. -/
def Head.gpfEnds (x : Head) (us : Nat) : Head :=
  { x with gpfLast := if x.gpfWait = 0 then x.gpfLast else satAdd (0 : BitVec 16) us
           gpfWait := x.gpfNext, gpfNext := 0 }

theorem satAdd_zero (n : Nat) : satAdd (0 : BitVec 16) n = BitVec.ofNat 16 (min n 65535) := by
  simp [satAdd]

theorem runs_gpfFlushDone (us : Vector Nat 8) (hg : s.gpfRuns = true) (hd : s.gpfDone = true) (hw : s.heads[h].gpfWait ≠ 0)
    (hn : ∀ k : TileId, s.heads[k].gpfNext = 0) :
    ∃ u, Runs (.gpfFlushDone us) s u ∧ u.heads[h].gpfLast = BitVec.ofNat 16 (min us[h] 65535) ∧ u.heads[h].gpfWait = 0 := by
  let x := forAll allTiles (fun t s => s.modD t fun d => { d with gpf := none }) s
  have hx : Changes [.tiles] s x := .forAll .refl fun _ _ h => h.modD
  let y : State := { x with heads := vmap x.heads fun h x => x.gpfEnds us[h] }
  have head (k : TileId) : y.heads[k] = s.heads[k].gpfEnds us[k] := by
    rw [show y.heads[k] = _ from vmap_get x.heads _ k]
    exact congrArg (fun (v : Vector Head 8) => v[k].gpfEnds us[k]) (hx.keeps .heads rfl)
  have idle : ¬ y.heads.toList.any (fun x => x.gpfWait ≠ 0) = true := by
    intro waits
    obtain ⟨z, hz, nz⟩ := List.any_eq_true.mp waits
    obtain ⟨k, hk, rfl⟩ := Vector.getElem_of_mem (Vector.mem_toList_iff.mp hz)
    exact of_decide_eq_true nz ((congrArg Head.gpfWait (head ⟨k, hk⟩)).trans (hn ⟨k, hk⟩))
  have due : ¬ (!s.gpfRuns || !s.gpfDone) = true := by rw [hg, hd]; decide
  have run : Runs (.gpfFlushDone us) s y.sleepDrain :=
    (if_neg due).trans (congrArg _ (if_neg idle))
  have kept : y.sleepDrain.heads = y.heads := State.sleepDrain_changes.keeps .heads rfl
  refine ⟨_, run, ?_⟩
  rw [kept, head h]
  exact ⟨(if_neg hw).trans (satAdd_zero _), hn h⟩

end

/-- Settles O42: each clause is the rule above for the case of the event that it names. -/
theorem responsesComplete : Obligations.ResponsesComplete := by
  intro s h
  refine ⟨fun t r => runs_storeAcknowledge, fun r v p ns hr hv => runs_loadResponseEgress_sent hr hv, fun r ns hr hv he => ?_,
    fun r k hr => runs_loadDeadlineExpiry k hr, rfl, runs_gpfPhase2_idle, runs_gpfPhase2_starts,
    fun us hg hd hw hn _ => runs_gpfFlushDone us hg hd hw hn⟩
  exact ⟨_, runs_loadResponseEgress_late hr hv he, rfl, congrArg Head.dropped (State.modHead_self _ h _)⟩

end Sys2Proof.Machine
end

section
/-! Widar messages at their destination (R35, R469 to R483): one rule for each verdict and window of a request, and for each kind of
other message. -/

namespace Sys2Proof.Machine

/-! ### Contents of the windows (R473, R474) -/

theorem State.windowRead_tcm (u : State) (t : TileId) (a n : Nat) :
    u.windowRead t (.tcm a) n = ((List.range n).map fun i => Sparse.get (0 : Byte) u.fab[t].tcm (a + i), u) := rfl

theorem State.windowRead_regs (u : State) (t : TileId) (b o n : Nat) :
    u.windowRead t (.regs b o) n = (leBytes 4 (u.readReg t b o).toNat, u) := rfl

section
variable {s : State} {t : TileId} {m : Msg} {p : Nat} {u : State} (ht : s.wTake t m = some (p, u))
include ht

/-! ### Requests that are performed (R470 to R476) -/

theorem runs_widarRd_dpa {a : Nat} (ho : m.opcode = 1) (hj : u.wJudge t m = none) (hw : u.window t m.addr = .dpa a) :
    Runs (.widarRd t m) s (u.newLoad { id := 0, head := (u.home (a / 64)).tile, owner := (u.home (a / 64)).tile, line := a / 64,
                                       src := .none, wid := some m }) := by
  refine (if_neg (not_not_intro ho)).trans ?_
  rw [ht]
  dsimp only
  rw [hj, hw]

/-- A read outside the DPA window is answered with the bytes of its window. -/
theorem runs_widarRd_window {w : Window} (ho : m.opcode = 1) (hj : u.wJudge t m = none) (hw : u.window t m.addr = w)
    (hd : ∀ a, w ≠ .dpa a) :
    Runs (.widarRd t m) s ((u.windowRead t w m.len.toNat).2.wReply t m 0 (u.windowRead t w m.len.toNat).1) := by
  refine (if_neg (not_not_intro ho)).trans ?_
  rw [ht]
  dsimp only
  rw [hj, hw]
  cases w with
  | dpa a => exact absurd rfl (hd a)
  | _ => rfl

theorem runs_widarRd_tcm {a : Nat} (ho : m.opcode = 1) (hj : u.wJudge t m = none) (hw : u.window t m.addr = .tcm a) :
    Runs (.widarRd t m) s
      (u.wReply t m 0 ((List.range m.len.toNat).map fun i => Sparse.get (0 : Byte) u.fab[t].tcm (a + i))) := by
  have run := runs_widarRd_window ht ho hj hw nofun
  rwa [State.windowRead_tcm] at run

theorem runs_widarRd_regs {b o : Nat} (ho : m.opcode = 1) (hj : u.wJudge t m = none) (hw : u.window t m.addr = .regs b o) :
    Runs (.widarRd t m) s (u.wReply t m 0 (leBytes 4 (u.readReg t b o).toNat)) := by
  have run := runs_widarRd_window ht ho hj hw nofun
  rwa [State.windowRead_regs] at run

theorem runs_widarWr_dpa {a : Nat} (ho : m.opcode = 2) (hj : u.wJudge t m = none) (hw : u.window t m.addr = .dpa a) :
    let x := partLine (a % 64) (bytesAt m.data 0 m.len.toNat)
    Runs (.widarWr t m) s (u.newStore (u.home (a / 64)).tile
      { id := 0, head := (u.home (a / 64)).tile, line := a / 64, data := x.1, mask := x.2, region := u.regionOf (a / 64)
        poison := m.poison, ptl := decide (m.len ≠ 64), wid := some (m.src, m.tag) }) := by
  refine (if_neg (not_not_intro ho)).trans ?_
  rw [ht]
  dsimp only
  rw [hj, hw]

theorem runs_widarWr_tcm {a : Nat} (ho : m.opcode = 2) (hj : u.wJudge t m = none) (hw : u.window t m.addr = .tcm a) :
    Runs (.widarWr t m) s ((u.modFab t fun f => { f with
      tcm := Memory.writeBytes (fun _ => 0) f.tcm a (bytesAt m.data 0 m.len.toNat) }).wReply t m 0) := by
  refine (if_neg (not_not_intro ho)).trans ?_
  rw [ht]
  dsimp only
  rw [hj, hw]
  rfl

/-! ### Requests that are turned away (R471, R474 to R476) -/

theorem runs_widarRd_rejected {c : Nat} (ho : m.opcode = 1) (hj : u.wJudge t m = some c) (hc : c ≠ 0) :
    Runs (.widarRd t m) s (u.wReject t (rxPort p) m c) := by
  refine (if_neg (not_not_intro ho)).trans ?_
  rw [ht]
  dsimp only
  rw [hj]
  cases c with
  | zero => exact absurd rfl hc
  | succ c => rfl

theorem runs_widarWr_rejected {c : Nat} (ho : m.opcode = 2) (hj : u.wJudge t m = some c) (hc : c ≠ 0) :
    Runs (.widarWr t m) s (u.wReject t (rxPort p) m c) := by
  refine (if_neg (not_not_intro ho)).trans ?_
  rw [ht]
  dsimp only
  rw [hj]
  cases c with
  | zero => exact absurd rfl hc
  | succ c => rfl

/-! ### Barriers and heartbeats (R35, R471, R481, R485) -/

omit ht in
/-- A message of length zero with at most four data slots passes the length rules. -/
theorem noData_lengthOk (hl : m.len = 0) (hd : m.dslots.toNat ≤ 4) : ¬ (m.len ≠ 0 ∨ m.dslots.toNat > 4) :=
  not_or.mpr ⟨not_not_intro hl, Nat.not_lt.mpr hd⟩

/-- The requests of a message's source that tile `t` still serves: what its barrier waits for. -/
def State.openRequests (u : State) (t : TileId) (m : Msg) : List Nat :=
  (u.loads.filter fun (r : LoadReq) => r.wid.any fun w => w.src = m.src ∧ w.dst = m.dst).map LoadReq.id
    ++ (u.tiles[t].d.stores.filter fun (r : StoreReq) => r.wid.any fun w => w.1 = m.src).map StoreReq.id

theorem runs_widarBar (ho : m.opcode = 4) (hn : ¬ (m.len ≠ 0 ∨ m.dslots.toNat > 4)) :
    Runs (.widarBar t m) s
      (u.modFab t fun f => { f with barsIn := f.barsIn ++ [(m.src, m.tag, u.openRequests t m)] }).answerWidarBars := by
  refine (if_neg (not_not_intro ho)).trans ?_
  rw [ht]
  exact if_neg hn

theorem runs_widarHeartbeat (ho : m.opcode = 5) (ha : m.addr.toNat % 256 = 1) (hn : ¬ (m.len ≠ 0 ∨ m.dslots.toNat > 4))
    (hf : u.sys.fwRunning.getLsbD t = true) :
    Runs (.widarHeartbeat t m) s (u.wsend t { opcode := 5, src := BitVec.ofNat 3 t.val, dst := m.src, addr := 2 }).2 := by
  have kind : ¬ (m.opcode ≠ 5 ∨ m.addr.toNat % 256 ≠ 1) := by simp [ho, ha]
  refine (if_neg kind).trans ?_
  rw [ht]
  exact (if_neg hn).trans (if_neg (by rw [hf]; decide))

/-- At the lead, a heartbeat's reply clears the missed count of its source. -/
theorem exec_widarHeartbeatReply (ho : m.opcode = 5) (ha : m.addr.toNat % 256 = 2) (hn : ¬ (m.len ≠ 0 ∨ m.dslots.toNat > 4))
    (hl : u.sys.lead = some t) :
    exec (.widarHeartbeatReply t m) s =
      if u.srcGuest m then .next { u with guest := { u.guest with missed := 0, awaiting := false } }
      else .next { u with sys := { u.sys with
        missed := u.sys.missed.set (toTile m.src.toNat) 0, awaiting := bitOff u.sys.awaiting (toTile m.src.toNat) } } := by
  have kind : ¬ (m.opcode ≠ 5 ∨ m.addr.toNat % 256 ≠ 2) := by simp [ho, ha]
  refine (if_neg kind).trans ?_
  rw [ht]
  exact (if_neg hn).trans (if_neg (not_not_intro hl))

/-! ### Responses (R469, R472, R477) -/

omit ht in
theorem State.wResponse_found {o : Outst} {fits : BitVec 8 → Bool} (hf : (u.fab[t].outst.find? fun (o : Outst) =>
      o.tag = m.tag ∧ o.dst = m.src ∧ !o.guest ∧ fits o.opcode) = some o) :
    u.wResponse t p m fits = u.wDone t o m.status.toNat m.early := by
  unfold wResponse
  rw [hf]

theorem runs_widarCmp {o : Outst} (ho : m.opcode = 8)
    (hf : (u.fab[t].outst.find? fun o => o.tag = m.tag ∧ o.dst = m.src ∧ !o.guest ∧ o.opcode ≠ 1) = some o) :
    Runs (.widarCmp t m) s (u.wDone t o m.status.toNat m.early) := by
  refine (if_neg (not_not_intro ho)).trans ?_
  rw [ht]
  exact congrArg _ (State.wResponse_found (by simpa only [decide_eq_true_eq] using hf))

theorem runs_widarRdata {o : Outst} (ho : m.opcode = 9)
    (hf : (u.fab[t].outst.find? fun o => o.tag = m.tag ∧ o.dst = m.src ∧ !o.guest ∧ o.opcode = 1) = some o) :
    Runs (.widarRdata t m) s (u.wDone t o m.status.toNat m.early) := by
  refine (if_neg (not_not_intro ho)).trans ?_
  rw [ht]
  exact congrArg _ (State.wResponse_found (by simpa only [decide_eq_true_eq] using hf))

end

/-! ### The Stag's store buffer (R483) -/

section
variable {s : State} {t : TileId} (hr : s.sys.fwRunning.getLsbD t = true) (hs : s.inSvc t = true) (hf : s.fab[t].fence = false)
  (hb : s.fab[t].barriers = [])
include hr hs hf hb

theorem runs_stagStore {a : BitVec 52} {d : List Byte} (hl : s.fab[t].storeBuf.length < 8) (hd : 1 ≤ d.length)
    (hfit : a.toNat % 64 + d.length ≤ 64) :
    Runs (.stagStore t a d) s ((s.modFab t fun f => { f with storeBuf := f.storeBuf ++ [(a, d)] }).issueStores t) := by
  have fits : decide (1 ≤ d.length ∧ a.toNat % 64 + d.length ≤ 64) = true := decide_eq_true ⟨hd, hfit⟩
  have room : decide (s.fab[t].storeBuf.length ≥ 8) = false := decide_eq_false (Nat.not_le.mpr hl)
  refine if_neg ?_
  rw [hr, hs, hf, hb, room, fits]
  decide

theorem runs_stagFence : Runs (.stagFence t) s ((s.modFab t fun f => { f with fence := true }).issueStores t) := by
  refine if_neg ?_
  rw [hr, hs, hf, hb]
  decide

end

/-- Settles O58: each clause is the rule above for the message, and for its verdict and window, that it names. -/
theorem widarMessagesComplete : Obligations.WidarMessagesComplete := by
  intro s t m
  refine ⟨fun p u a ho ht hj hw => runs_widarRd_dpa ht ho hj hw,
    fun p u a ho ht hj hw => runs_widarRd_tcm ht ho hj hw,
    fun p u b o ho ht hj hw => runs_widarRd_regs ht ho hj hw,
    fun p c u ht hj hc => ⟨fun ho => runs_widarRd_rejected ht ho hj hc, fun ho => runs_widarWr_rejected ht ho hj hc⟩,
    fun p u a ho ht hj hw => runs_widarWr_dpa ht ho hj hw,
    fun p u a ho ht hj hw => runs_widarWr_tcm ht ho hj hw,
    fun p u ho ht hl hd => ?_,
    fun p u ho ha ht hl hd hf => runs_widarHeartbeat ht ho ha (noData_lengthOk hl hd) hf,
    fun p u ho ha ht hl hd hlead => ?_,
    fun p u o ho ht hf => runs_widarCmp ht ho hf,
    fun p u o ho ht hf => runs_widarRdata ht ho hf,
    fun a d hr hs hf hb hl hd hfit => runs_stagStore hr hs hf hb hl hd hfit,
    fun hr hs hf hb => runs_stagFence hr hs hf hb⟩
  · exact ⟨_, runs_widarBar ht ho (noData_lengthOk hl hd), _, congrArg Fabric.barsIn (State.modFab_self _ t _)⟩
  · have run := exec_widarHeartbeatReply ht ho ha (noData_lengthOk hl hd) hlead
    exact ⟨fun h => run.trans (if_neg (h ▸ Bool.false_ne_true)), fun h => run.trans (if_pos h)⟩

end Sys2Proof.Machine
end

section
/-! The age bucket (R87): what the loop of the rule counts, and the ages of each bucket. -/

namespace Sys2Proof.Machine

/-- The loop of R87 goes up to bucket x + 1 where the age, in units of 4,096 s, reaches 2^x. -/
theorem lt_bucketLoop_iff (m n x : Nat) :
    x < (List.range n).foldl (fun b i => if m / 2 ^ i ≠ 0 then b + 1 else b) 0 ↔ x < n ∧ 2 ^ x ≤ m := by
  induction n generalizing x with
  | zero => exact ⟨fun h => absurd h (Nat.not_lt_zero x), fun h => absurd h.1 (Nat.not_lt_zero x)⟩
  | succ n ih =>
    rw [List.range_succ, List.foldl_append, List.foldl_cons, List.foldl_nil]
    by_cases reached : 2 ^ n ≤ m
    · have below {y : Nat} (h : y ≤ n) : 2 ^ y ≤ m := Nat.le_trans (Nat.pow_le_pow_right (by decide) h) reached
      have all : (List.range n).foldl (fun b i => if m / 2 ^ i ≠ 0 then b + 1 else b) 0 = n :=
        Nat.le_antisymm (Nat.le_of_not_lt fun h => Nat.lt_irrefl n ((ih n).mp h).1)
          (Nat.le_of_not_lt fun h => Nat.lt_irrefl _ ((ih _).mpr ⟨h, below (Nat.le_of_lt h)⟩))
      rw [all, if_pos (Nat.pos_iff_ne_zero.mp (Nat.div_pos reached (Nat.two_pow_pos n)))]
      exact ⟨fun h => ⟨h, below (Nat.le_of_lt_succ h)⟩, fun h => h.1⟩
    · rw [if_neg (not_not_intro (Nat.div_eq_of_lt (Nat.lt_of_not_le reached))), ih]
      refine ⟨fun ⟨h, p⟩ => ⟨Nat.lt_succ_of_lt h, p⟩, fun ⟨h, p⟩ => ⟨Nat.lt_of_le_of_ne (Nat.le_of_lt_succ h) ?_, p⟩⟩
      rintro rfl
      exact reached p

theorem bucketOf_le (age : Nat) : bucketOf age ≤ 15 :=
  Nat.le_of_not_lt fun h => Nat.lt_irrefl 15 ((lt_bucketLoop_iff (age / 4096) 15 15).mp h).1

/-- Bucket x ends below 2^(12+x) s. -/
theorem lt_bucketOf_iff {x : Nat} (age : Nat) (hx : x < 15) : x < bucketOf age ↔ 2 ^ (12 + x) ≤ age := by
  have loop : x < bucketOf age ↔ x < 15 ∧ 2 ^ x ≤ age / 4096 := lt_bucketLoop_iff (age / 4096) 15 x
  rw [loop, and_iff_right hx, Nat.le_div_iff_mul_le (by decide), Nat.pow_add, Nat.mul_comm]

/-- Settles O15: a bucket is the one whose lower bound the age has reached and whose upper bound it has not. -/
theorem ageBuckets : Obligations.AgeBuckets := by
  intro age _
  have most := bucketOf_le age
  refine ⟨?_, fun x h1 h2 => ?_, ?_⟩
  · have upper := lt_bucketOf_iff (x := 0) age (by decide)
    omega
  · have lower := lt_bucketOf_iff (x := x - 1) age (by omega)
    have upper := lt_bucketOf_iff age h2
    rw [show 12 + (x - 1) = 11 + x by omega] at lower
    omega
  · have lower := lt_bucketOf_iff (x := 14) age (by decide)
    omega

end Sys2Proof.Machine
end

section
/-! The media channels (R73 to R76, R79, R81, R82, R97, R213, R242, R287, R294, R295): one rule for each case of their events. -/

namespace Sys2Proof.Machine

/-! ### Bursts of a FETCH (R73, R242, R287) -/

/-- The program that waits for the burst of the die at position `p`, with nothing left to verify again on that die. -/
def burstContext (e : Engine) (k : Fin 64) (j : Fin 4) (p : Fin 9) : Option Context :=
  e.ctxs.find? fun x => x.duiker = k.val && x.ctx = j.val && x.st = .fetch && fetches x.cmd && x.issued.contains p.val
    && !x.reverify.contains p.val

/-- The frame counters once a burst that was sent has passed (R96). -/
def State.passed (s : State) (t : TileId) (x : Context) (p : Fin 9) : State :=
  if (tabGet x.sent p.val).isSome then s.burst t (toChan x.item.chan) p else s

theorem isSome_of_burst_good {sent : Option (List Byte)} {dq : List Nat} (h : burstFails sent dq = false) : sent.isSome = true := by
  cases sent with
  | none => exact Bool.noConfusion (show true = false from h)
  | some b => rfl

section
variable {s : State} {t : TileId} {p : Fin 9} {k : Fin 64} {j : Fin 4} {x : Context} {dq : List Nat} (l : List (BitVec 8))
  (hx : burstContext s.tiles[t].eng k j p = some x)
include hx

/-- The last good burst of a read frees its context. -/
theorem runs_fetchBurstReceived_good (hb : burstFails (tabGet x.sent p.val) dq = false)
    (hl : x.issued.filter (· ≠ p.val) = []) (hr : x.item.isRead = true) :
    Runs (.fetchBurstReceived t k j p dq l) s ((s.burst t (toChan x.item.chan) p).endCtx t x) := by
  change execFetchBurstReceived t k j p dq l s = _
  unfold execFetchBurstReceived
  rw [show List.find? _ _ = _ from hx]
  dsimp only
  rw [hb, isSome_of_burst_good hb]
  exact (if_neg Bool.false_ne_true).trans ((if_pos rfl).trans ((if_neg (not_not_intro hl)).trans (if_pos hr)))

/-- After a bad or missing burst the program is repeated once, and ends as failed on the die the second time. -/
theorem exec_fetchBurstReceived_bad (hb : burstFails (tabGet x.sent p.val) dq = true)
    (hw : (x.item.isRead && x.item.cls ≠ .fgRead && !x.retried.contains p.val
      && fgReadWaits s.tiles[t].eng x.item.chan x.item.part) = false) :
    let u := (s.passed t x p).noteBurst t (toChan x.item.chan)
    exec (.fetchBurstReceived t k j p dq l) s =
      if x.retried.contains p.val then
        .next (((u.cutProgram t x).endProgram t x [p.val]).noteCrc t (toChan x.item.chan) p x.item.id)
      else .next (u.commandAgain t x p) := by
  change execFetchBurstReceived t k j p dq l s = _
  unfold execFetchBurstReceived
  rw [show List.find? _ _ = _ from hx]
  dsimp only
  rw [hb, hw]
  rfl

theorem runs_fetchBurstReceived_again (hb : burstFails (tabGet x.sent p.val) dq = true) (hr : x.retried.contains p.val = false)
    (hw : x.item.isRead = false ∨ x.item.cls = .fgRead ∨ fgReadWaits s.tiles[t].eng x.item.chan x.item.part = false) :
    Runs (.fetchBurstReceived t k j p dq l) s
      (((s.passed t x p).noteBurst t (toChan x.item.chan)).commandAgain t x p) := by
  refine (exec_fetchBurstReceived_bad l hx hb ?_).trans (if_neg (hr ▸ Bool.false_ne_true))
  obtain hw | hw | hw := hw
  · simp [hw]
  · simp [hw]
  · rw [hw, Bool.and_false]

theorem runs_fetchBurstReceived_failed (hb : burstFails (tabGet x.sent p.val) dq = true) (hr : x.retried.contains p.val = true) :
    Runs (.fetchBurstReceived t k j p dq l) s
      (((((s.passed t x p).noteBurst t (toChan x.item.chan)).cutProgram t x).endProgram t x [p.val]).noteCrc t
        (toChan x.item.chan) p x.item.id) :=
  (exec_fetchBurstReceived_bad l hx hb (by rw [hr, Bool.not_true, Bool.and_false, Bool.false_and])).trans (if_pos hr)

end

/-! ### Frames at a die (R73, R76, R80) -/

/-- A die that hears SUSPEND takes it. -/
theorem State.dieSample_suspend {s : State} {t : TileId} {c : ChanId} {p : Fin 9} {q : Fin 16} {flips dq : List Nat}
    (payload : List Byte) (h : s.tiles[t].ch[c].hears (.suspend q) flips = true) :
    s.dieSample t c p (.suspend q) payload flips dq = s.modDie t c p (·.suspend q) := by
  simp only [Chan.hears, Bool.and_eq_true, Bool.not_eq_true', decide_eq_true_eq] at h
  obtain ⟨⟨⟨reset, tinit⟩, parity⟩, cmd⟩ := h
  unfold dieSample
  dsimp only
  rw [reset, parity, cmd, tinit]
  rfl

theorem State.modDie_self (s : State) (t : TileId) (c : ChanId) (p : Fin 9) (f : Die → Die) :
    (s.modDie t c p f).tiles[t].ch[c].dies[p] = f s.tiles[t].ch[c].dies[p] := by
  simp [modDie]

theorem Die.suspend_programming {d : Die} {q : Fin 16} (h : d.parts[q].st = .programming) :
    (d.suspend q).parts[q].st = .suspended := by
  have part : toPart q.val = q := Fin.ext (Nat.mod_eq_of_lt q.isLt)
  have st : d.parts[q.val].st = .programming := h
  simp [suspend, modPart, part, st]

/-- A SUSPEND that a programming partition hears is acknowledged, and the partition is suspended. -/
theorem suspendSent_of_hears {s : State} {t : TileId} {c : ChanId} {p : Fin 9} {q : Fin 16}
    (hp : s.tiles[t].ch[c].dies[p].parts[q].st = .programming) (hh : s.tiles[t].ch[c].hears (.suspend q) [] = true) :
    (s.suspendSent t c p q [] true).1 = true ∧
      (s.suspendSent t c p q [] true).2.tiles[t].ch[c].dies[p].parts[q].st = .suspended := by
  have parity : parityGood (sampled (YCmd.suspend q).beats []) = true := by
    simp only [Chan.hears, Bool.and_eq_true] at hh
    exact hh.1.2
  have sent : (s.suspendSent t c p q [] true).2 = s.modDie t c p (·.suspend q) := State.dieSample_suspend [] hh
  refine ⟨parity, ?_⟩
  rw [sent, State.modDie_self]
  exact Die.suspend_programming hp

/-! ### Foreground reads (R79, R213) -/

/-- The foreground read that the scheduler of channel `c` holds for partition `q` of logical die `d`. -/
def scheduledRead (e : Engine) (c : ChanId) (d : Fin 8) (q : Fin 16) : Option Context :=
  e.ctxs.find? fun x => atScheduler x c.val && x.item.part = q.val && x.item.targets.contains d.val

/-- The programs whose partition `q` of the die at position `p` is suspended are marked so. -/
def State.markSuspended (u : State) (t : TileId) (c : ChanId) (p : Fin 9) (q : Fin 16) : State :=
  u.modEng t fun e => { e with
    ctxs := lmod e.ctxs (fun y => y.item.isProgram && y.item.chan = c.val && y.item.part = q.val
        && (itemPos u.tiles[t] y.item).contains p) fun y =>
      { y with suspended := y.suspended ++ [p.val]
               reverify := if y.cmd = 2 && y.st ≠ .fetch && y.issued.contains p.val then y.reverify ++ [p.val]
                           else y.reverify } }

section
variable {s : State} {t : TileId} {c : ChanId} {d : Fin 8} {q : Fin 16} {p : Fin 9} {ps : List (Fin 9)} {x : Context} (ca : List Nat)
  (hx : scheduledRead s.tiles[t].eng c d q = some x) (hp : itemPos s.tiles[t] x.item = p :: ps)
include hx hp

theorem runs_foregroundReadArrival_free (sus : SuspendTry × SuspendTry)
    (hs : s.tiles[t].ch[c].dies[p].parts[q].st ≠ .programming) :
    Runs (.foregroundReadArrival t c d q sus ca) s (s.issueRead t x p ca) := by
  change execForegroundReadArrival t c d q sus ca s = _
  unfold execForegroundReadArrival
  rw [show List.find? _ _ = _ from hx]
  dsimp only
  rw [hp]
  exact if_pos hs

/-- The first SUSPEND is acknowledged: the read follows. -/
theorem runs_foregroundReadArrival_suspended (sus : SuspendTry × SuspendTry)
    (hs : s.tiles[t].ch[c].dies[p].parts[q].st = .programming) (ha : (s.suspendSent t c p q sus.1.flips sus.1.seen).1 = true) :
    let u := ((s.suspendSent t c p q sus.1.flips sus.1.seen).2.modCh t c fun k =>
      { k with suspendCount := k.suspendCount + 1 }).count t 5 3
    u.tiles[t].ch[c].dies[p].parts[q].st = .suspended →
    Runs (.foregroundReadArrival t c d q sus ca) s ((u.markSuspended t c p q).issueRead t x p ca) := by
  intro u hu
  change execForegroundReadArrival t c d q sus ca s = _
  unfold execForegroundReadArrival
  rw [show List.find? _ _ = _ from hx]
  dsimp only
  rw [hp]
  dsimp only
  rw [if_neg (not_not_intro hs), ha]
  exact congrArg (fun (v : State) => Host.Outcome.next (v.issueRead t x p ca)) (if_neg (not_not_intro hu))

/-- Both SUSPENDs are missed: no read is issued. -/
theorem runs_foregroundReadArrival_missed (l m : List Nat) (hs : s.tiles[t].ch[c].dies[p].parts[q].st = .programming) :
    Runs (.foregroundReadArrival t c d q (⟨l, false⟩, ⟨m, false⟩) ca) s
      (((((s.send t c p (.suspend q) [] l).send t c p (.suspend q) [] m).modCh t c fun k => { k with
          suspendCount := k.suspendCount + 2, sackSingle := satAdd k.sackSingle 1, errFlags := bitOn k.errFlags 4 }).count t 5 3 2)
        |>.suspendMissed t c p x d) := by
  change execForegroundReadArrival t c d q (⟨l, false⟩, ⟨m, false⟩) ca s = _
  unfold execForegroundReadArrival
  rw [show List.find? _ _ = _ from hx]
  dsimp only
  rw [hp]
  exact if_neg (not_not_intro hs)

end

/-! ### Alerts and STATUS polls (R73 to R75, R81) -/

/-- The state once a die may have abandoned the program of a partition. -/
def State.abandoned (s : State) (t : TileId) (c : ChanId) : Option (Fin 9 × Fin 16) → State
  | some (p, part) => s.abandon t c p part
  | none => s

/-- Each present die of the channel has a STATUS poll queued. -/
def State.pollDies (s : State) (t : TileId) (c : ChanId) : State :=
  forAll (bitsOf s.tiles[t].ch[c].present) (fun p s =>
    s.enqueue t { id := 0, role := 4, cls := .fgWrite, herd := c.val, chan := c.val, targets := [p], use := .statusPoll }) s

theorem runs_yalertAssert (s : State) (t : TileId) (c : ChanId) (a : Option (Fin 9 × Fin 16)) :
    let u := s.abandoned t c a
    Runs (.yalertAssert t ⟨c, a⟩) s (if u.tiles[t].ch[c].alert then u.pollDies t c else u) := by
  intro u
  have run : exec (.yalertAssert t ⟨c, a⟩) s = if !u.tiles[t].ch[c].alert then .next u else .next (u.pollDies t c) := by
    cases a <;> rfl
  refine run.trans ?_
  cases u.tiles[t].ch[c].alert <;> rfl

/-- The program whose STATUS poll of the die at position `p` waits for its burst. -/
def pollContext (e : Engine) (c : ChanId) (p : Fin 9) : Option Context :=
  e.ctxs.find? fun x => x.cmd = 5 && x.st = .fetch && x.item.chan = c.val && x.issued.contains p.val

section
variable {s : State} {t : TileId} {c : ChanId} {p : Fin 9} {x : Context} {b : List Byte} {dq : List Nat} (ca : List Nat) (us : Nat)
  (hx : pollContext s.tiles[t].eng c p = some x) (hs : tabGet x.sent p.val = some b)
include hx hs

/-- A good STATUS block without ABANDONED ends its poll. -/
theorem runs_statusPollResult_good (hb : burstBad b.length dq = false) (ha : (b.getD 4 0).getLsbD 3 = false) :
    Runs (.statusPollResult t c p dq us ca ()) s (((s.burst t c p).setCtx t x
      { x with st := .ready, pc := x.pc + 1, issued := [], sent := [] }).noteFlags t c (b.getD 4 0)) := by
  change execStatusPollResult t c p dq us ca () s = _
  unfold execStatusPollResult
  rw [show List.find? _ _ = _ from hx]
  dsimp only
  rw [hs]
  refine (if_neg ?_).trans (if_pos ?_)
  · rw [show burstFails (some b) dq = false from hb]; exact Bool.false_ne_true
  · rw [show ((some b).getD []).getD 4 0 = b.getD 4 0 from rfl, ha]; rfl

/-- After a bad STATUS block the poll is issued once more. -/
theorem runs_statusPollResult_again (hb : burstBad b.length dq = true) (hr : x.retried.contains p.val = false) :
    let u := (s.burst t c p).noteBurst t c
    let y := { x with
      retried := x.retried ++ [p.val]
      sent := if u.tiles[t].ch[c].hears .status ca then [(p.val, statusPayload u.tiles[t].ch[c].dies[p])] else [] }
    Runs (.statusPollResult t c p dq us ca ()) s ((u.setCtx t x y).issue t y p ca []) := by
  intro u y
  change execStatusPollResult t c p dq us ca () s = _
  unfold execStatusPollResult
  rw [show List.find? _ _ = _ from hx]
  dsimp only
  rw [hs]
  exact (if_pos hb).trans (if_neg (hr ▸ Bool.false_ne_true))

end

/-- Settles O46: each clause is the rule above for the case of the event that it names. -/
theorem channelEventsComplete : Obligations.ChannelEventsComplete := by
  intro s t c p
  refine ⟨fun k j x dq l => runs_fetchBurstReceived_good l,
    fun k j x dq l hx hb hr hw => runs_fetchBurstReceived_again l hx hb hr hw,
    fun k j x dq l hx hb hr => runs_fetchBurstReceived_failed l hx hb hr,
    fun d q l m ca a b x ps hx hp hs => runs_foregroundReadArrival_free ca hx hp _ hs,
    fun d q l m ca a b x ps hx hp hs ha hu => runs_foregroundReadArrival_suspended ca hx hp _ hs ha hu,
    fun d q l m ca x ps hx hp hs => runs_foregroundReadArrival_missed ca hx hp l m hs,
    fun q => suspendSent_of_hears,
    fun a => ?_,
    fun x b dq ca us hx hs hb ha => runs_statusPollResult_good ca us hx hs hb ha,
    fun x b dq ca us hx hs hb hr => runs_statusPollResult_again ca us hx hs hb hr,
    rfl, rfl, fun h => if_pos h⟩
  cases a <;> exact runs_yalertAssert ..

end Sys2Proof.Machine
end

section
/-! The patrol, scrubbed SRAM words and released extents (R94, R132, R136, R225 to R228, R249, R250, R252, R253): one rule for each case
of their events. -/

namespace Sys2Proof.Machine

/-! ### What a tile's integrity state keeps -/

theorem State.enqueue_it (s : State) (t : TileId) (w : WorkItem) : (s.enqueue t w).tiles[t].it = s.tiles[t].it :=
  (congrArg Tile.it (State.modEng_self s t (Machine.enqueue · w))).trans rfl

theorem forAll_it {α : Type} {l : List α} {f : α → State → State} {s : State} {t : TileId}
    (hf : ∀ a (u : State), (f a u).tiles[t].it = u.tiles[t].it) : (forAll l f s).tiles[t].it = s.tiles[t].it :=
  List.foldlRecOn l _ (motive := fun u : State => u.tiles[t].it = s.tiles[t].it) rfl fun u hu a _ => (hf a u).trans hu

@[simp] theorem State.raise_tiles (s : State) (e : EventRec) : (s.raise e).tiles = s.tiles :=
  State.raise_changes.keeps .tiles rfl

theorem State.checkLate_visits (s : State) (t : TileId) (u : Nat) : (s.checkLate t u).tiles[t].it.visits = s.tiles[t].it.visits := by
  unfold checkLate
  extract_lets i hot period start late
  split
  · have kept := congrArg (fun v : Vector Tile 8 => v[t].it.visits) (late.raise_tiles (mkEv 0x1041 .warn t (u / 16 + 1) [(1, u)]))
    exact kept.trans ((congrArg (fun x : Tile => x.it.visits) (State.modIt_self s t _)).trans rfl)
  · rfl

/-! ### Visits of the patrol (R249, R250, R252, R253) -/

/-- A visit to place `k` of unit `u` is under way. -/
def State.visitStarted (s : State) (t : TileId) (u k : Nat) : State :=
  (s.checkLate t u).modIt t fun i => { i with visits := i.visits ++ [{ unit := u, slot := k }], active := true, yielding := false }

theorem State.visitStarted_it {s : State} {t : TileId} (u k : Nat) (hv : s.tiles[t].it.visits = []) :
    (s.visitStarted t u k).tiles[t].it.visits = [{ unit := u, slot := k }] ∧ (s.visitStarted t u k).tiles[t].it.active = true := by
  have it : (s.visitStarted t u k).tiles[t].it = _ := congrArg Tile.it (State.modIt_self (s.checkLate t u) t _)
  rw [it]
  dsimp only
  refine ⟨?_, rfl⟩
  change (s.checkLate t u).tiles[t].it.visits ++ _ = _
  rw [State.checkLate_visits, hv, List.nil_append]

theorem runs_patrolVisitStart {s : State} {t : TileId} {u k : Nat} (he : s.tiles[t].it.enable = true) (hb : s.background = true)
    (hu : u < s.unitsPerTile) (ho : s.chanOut t (toChan (u / 16)) = false) (hv : s.tiles[t].it.visits = [])
    (hw : waits s.tiles[t].eng (fun w => w.cls = .fold && w.unit = u && s.tiles[t].d.pressure[areaFin w.area]) = false)
    (hk : nextVisit s.tiles[t] u (Sparse.get 0 s.tiles[t].it.cursors u).toNat = some k) :
    ∃ v, Runs (.patrolVisitStart t u) s v ∧ v.tiles[t].it.visits = [{ unit := u, slot := k }] ∧ v.tiles[t].it.active = true := by
  suffices run : ∃ v, Runs (.patrolVisitStart t u) s v ∧ v.tiles[t].it = (s.visitStarted t u k).tiles[t].it by
    obtain ⟨v, run, it⟩ := run
    exact ⟨v, run, it ▸ State.visitStarted_it u k hv⟩
  have due : ¬ (!s.tiles[t].it.enable || !s.background || decide (u ≥ s.unitsPerTile) || s.chanOut t (toChan (u / 16))
      || s.tiles[t].it.visits.any fun v => v.unit = u) = true := by
    rw [he, hb, ho, hv, decide_eq_false (Nat.not_le.mpr hu)]
    exact Bool.false_ne_true
  change ∃ v, execPatrolVisitStart t u s = _ ∧ _
  unfold execPatrolVisitStart
  dsimp only
  rw [if_neg due, if_neg (by rw [hw]; exact Bool.false_ne_true), hk]
  by_cases page : k < 2 ^ 23
  · exact ⟨_, if_pos page, forAll_it fun ld u => u.enqueue_it ..⟩
  · refine ⟨_, if_neg page, forAll_it fun x u => ?_⟩
    split
    · exact u.enqueue_it ..
    · rfl

/-- What the end of a visit does first: it leaves the list, and the cursor of its unit moves on. -/
def State.visitLeft (s : State) (t : TileId) (u slot : Nat) : State :=
  (s.modIt t fun i =>
    let vs := i.visits.filter fun x => x.unit ≠ u
    { i with visits := vs, active := vs ≠ [], cursors := Sparse.set 0 i.cursors u (BitVec.ofNat 32 (slot + 1)) }).count t 8 0

/-- The page of a home slot is read, and what was found decides (R250). -/
def State.homeVisited (v : State) (t : TileId) (u slot : Nat) (page : PageNoise) : State :=
  let place := remapped v.tiles[t].pl.remap u slot
  let dead := v.deadLines t u place
  let first := readPage dead page.1
  let r := v.pageRead t u place page
  r.2.pageVisited t u slot
    (pageChecks first || (dead ≠ [] && (erased first).all (dead.contains ·) && withinCode first 0)) r.1

section
variable {s : State} {t : TileId} {u k : Nat} {x : Visit} {page : PageNoise} {stripes : List (Nat × Noise)}
  (hx : (s.tiles[t].it.visits.find? fun v => v.unit = u) = some x) (hl : workLeft s.tiles[t].eng (.patrolVisit u) = false)
include hx hl

theorem runs_patrolVisitDone_page (hs : x.slot < 256 * 20479) :
    let w := ((s.visitLeft t u x.slot).homeVisited t u x.slot page).checkLate t u
    nextVisit w.tiles[t] u (x.slot + 1) = some k → Runs (.patrolVisitDone t u (page, stripes)) s w := by
  intro w hk
  have home : ¬ x.slot ≥ 2 ^ 23 := by omega
  change execPatrolVisitDone t u (page, stripes) s = _
  unfold execPatrolVisitDone
  rw [hx]
  refine (if_neg (hl ▸ Bool.false_ne_true)).trans ?_
  extract_lets left slot dead first direct visited late
  have late_eq : late = w := congrArg (State.checkLate · t u) ((if_neg home).trans (if_pos hs))
  rw [late_eq, hk]

theorem runs_patrolVisitDone_segment {ring : Nat} (hs : x.slot = 2 ^ 23 + ring) :
    let w := ((s.visitLeft t u x.slot).segmentVisited t u ring stripes).checkLate t u
    nextVisit w.tiles[t] u (x.slot + 1) = some k → Runs (.patrolVisitDone t u (page, stripes)) s w := by
  intro w hk
  have staged : x.slot ≥ 2 ^ 23 := by omega
  have place : x.slot - 2 ^ 23 = ring := by omega
  change execPatrolVisitDone t u (page, stripes) s = _
  unfold execPatrolVisitDone
  rw [hx]
  refine (if_neg (hl ▸ Bool.false_ne_true)).trans ?_
  rw [place]
  extract_lets left slot dead first direct visited late
  have late_eq : late = w := congrArg (State.checkLate · t u) (if_pos staged)
  rw [late_eq, hk]

end

/-! ### SRAM words (R225 to R228) -/

section
variable {s : State} {t : TileId} {w : SramWord} (r q : SramAccess)

theorem runs_sramScrubVisit_scrub (hi : s.inSvc t = true) (hs : s.sys.state.isServing = true) (hv : s.sramValid t w = true) :
    Runs (.sramScrubVisit t ⟨w, r, q, false⟩) s ((s.modIt t fun i => { i with scrubDue := false }).sramVisit t w r q) := by
  refine if_neg ?_
  simp [hi, hs, hv]

theorem runs_sramScrubVisit_access (hi : s.inSvc t = true) (hs : s.sys.state.isSleep = false) (hv : s.sramValid t w = true) :
    Runs (.sramScrubVisit t ⟨w, r, q, true⟩) s (s.sramVisit t w r q) := by
  refine if_neg ?_
  simp [hi, hs, hv]

/-- A corrected word of an array without a second copy is counted, and nothing else follows. -/
theorem State.sramVisit_corrected (hw : w ≠ .cacheTag) (hr : sramRead w r = .corrected) :
    s.sramVisit t w r q = s.modIt t fun i => { i with corrected := satAdd i.corrected 1 } := by
  unfold sramVisit
  simp [hw, hr, b2n]

end

/-! ### Released extents and reclaimed rows (R132, R136) -/

theorem filter_lmod {α : Type} (l : List α) {p : α → Bool} {f : α → α} (h : ∀ x, p (f x) = p x) :
    (lmod l p f).filter (fun x => !p x) = l.filter fun x => !p x := by
  induction l with
  | nil => rfl
  | cons x l ih =>
    change List.filter _ ((if p x then f x else x) :: lmod l p f) = _
    cases hx : p x <;> simp [hx, h, ih]

theorem State.mirroring_unpaired {s : State} (h : s.mesh.paired = false) : s.mirroring = false := by
  simp [mirroring, h]

/-- The mirror peer's releases of the range are answered (R512). -/
def State.answerReleases (s : State) (b : Nat) : State :=
  let u := forAll (s.mesh.relIn.filter fun x => x.2.2 = b) (fun x s => s.meshReply x.1 x.2.1 0) s
  { u with mesh := { u.mesh with relIn := u.mesh.relIn.filter fun x => x.2.2 ≠ b } }

theorem State.answerReleases_svc (s : State) (b : Nat) : (s.answerReleases b).svc = s.svc :=
  (Changes.forAll (gs := [.pmc, .clk, .fab, .mesh]) .refl fun _ _ h => .step State.meshReply_changes h).keeps .svc rfl

theorem runs_extentReleaseComplete {s : State} {b : Nat} {e : Extent}
    (he : (s.svc.extents.find? fun e => e.base = b && e.releasing) = some e) (hb : s.rangeBusy e.base e.blocks = false)
    (hc : e.cleared = false) :
    let u := ((s.discardRange e.base e.blocks).clearRings e.base e.blocks).zeroPages e.base e.blocks
    u.clearPending = false → u.zeroPending e.base e.blocks = false → u.mesh.paired = false →
    ∃ v, Runs (.extentReleaseComplete b) s v ∧ v.svc.extents = u.svc.extents.filter fun x => !(x.base = b && x.releasing) := by
  intro u hp hz hm
  let gone (x : Extent) : Bool := x.base = b && x.releasing
  let cleared : State := { u with svc := { u.svc with extents := lmod u.svc.extents gone fun x => { x with cleared := true } } }
  let removed : State := { cleared with svc := { cleared.svc with extents := cleared.svc.extents.filter fun x => !gone x } }
  let sized := removed.resizeArea
  have resized : Changes [.tiles] removed sized := State.resizeArea_changes
  have unpaired : sized.mesh.paired = false := (congrArg Mesh.paired (resized.keeps .mesh rfl)).trans hm
  have alone : ¬ (sized.mirroring ∧ sized.mesh.regions.getLsbD e.region) := fun h =>
    Bool.false_ne_true ((State.mirroring_unpaired unpaired).symm.trans h.1)
  have durable : ¬ (cleared.clearPending || cleared.zeroPending e.base e.blocks) = true := by
    rw [show cleared.clearPending = false from hp, show cleared.zeroPending e.base e.blocks = false from hz]
    exact Bool.false_ne_true
  have run : Runs (.extentReleaseComplete b) s (sized.answerReleases b) := by
    change execExtentReleaseComplete b s = _
    unfold execExtentReleaseComplete
    rw [he]
    refine (if_neg (hb ▸ Bool.false_ne_true)).trans ?_
    rw [hc]
    exact (if_neg durable).trans (congrArg (fun w : State => Host.Outcome.next (w.answerReleases b)) (if_neg alone))
  refine ⟨_, run, ?_⟩
  rw [State.answerReleases_svc, show sized.svc = removed.svc from resized.keeps .svc rfl]
  exact filter_lmod u.svc.extents fun _ => rfl

theorem runs_rowReclaimDone {s : State} {row : Nat}
    (h : ∀ t ∈ s.svcTiles, ∀ g ∈ s.tiles[t].d.segs, g.area = 0 → g.ring ≠ ringOfRow s.scatterKey row) :
    Runs (.rowReclaimDone row) s s.addProceed.replicaProceed := by
  refine if_neg fun left => ?_
  obtain ⟨t, ht, left⟩ := List.any_eq_true.mp left
  obtain ⟨g, hg, left⟩ := List.any_eq_true.mp left
  obtain ⟨area, ring⟩ := Bool.and_eq_true_iff.mp left
  exact h t ht g hg (of_decide_eq_true area) (of_decide_eq_true ring)

/-- Settles O47: each clause is the rule above for the case of the event that it names. -/
theorem patrolAndExtentEventsComplete : Obligations.PatrolAndExtentEventsComplete := by
  intro s t
  refine ⟨fun u k => runs_patrolVisitStart, fun u k x page stripes hx hl hs => runs_patrolVisitDone_page hx hl hs,
    fun u k ring x page stripes hx hl hs => runs_patrolVisitDone_segment hx hl hs, fun _ => rfl, fun _ => rfl, fun _ => rfl,
    fun w r q => runs_sramScrubVisit_scrub r q, fun w r q => runs_sramScrubVisit_access r q,
    fun w r q hi hs hv hw hr => ?_, fun b e he hb hc hp hz hm _ => runs_extentReleaseComplete he hb hc hp hz hm,
    fun row => runs_rowReclaimDone⟩
  rw [← State.sramVisit_corrected r q hw hr]
  exact runs_sramScrubVisit_access r q hi hs hv

end Sys2Proof.Machine
end

section
/-! The commands on the memory device (R319, R346, R353, R428): one rule for each command that is served. -/

namespace Sys2Proof.Machine

/-! ### Payloads -/

theorem lay_append (a b : List (Nat × Nat)) : lay (a ++ b) = lay a ++ lay b := List.flatMap_append ..

theorem lay_length (fs : List (Nat × Nat)) : (lay fs).length = (fs.map Prod.fst).sum := by
  simp [lay, List.length_flatMap]

/-- The bytes that stand between others in a payload. -/
theorem bytesAt_middle (a b c : List Byte) {o n : Nat} (ho : a.length = o) (hn : b.length = n) :
    bytesAt (a ++ (b ++ c)) o n = b := by
  subst ho hn
  simp [bytesAt]

theorem FwImage.revision_length (x : FwImage) : x.revision.length = 16 := by
  simp only [revision, bytes, List.length_append, List.length_replicate, List.length_take]
  omega

/-! ### Commands that read -/

/-- The revision of the running firmware, zero where none runs. -/
def State.fwRevision (s : State) : List Byte := ((s.runningFw s.lead).map FwImage.revision).getD (List.replicate 16 0)

theorem State.fwRevision_length (s : State) : s.fwRevision.length = 16 := by
  unfold fwRevision
  cases s.runningFw s.lead with
  | none => rfl
  | some x => exact x.revision_length

theorem State.fwRevision_running {s : State} {x : FwImage} (h : s.runningFw s.lead = some x) : s.fwRevision = x.revision := by
  rw [fwRevision, h]
  rfl

/-- The four capacities of Identify Memory Device, in units of 256 MiB. -/
def State.capacities (s : State) : List (Nat × Nat) :=
  [(8, s.capacity / 2 ^ 28), (8, 0), (8, recRegLen s.cfg.record 8 / 2 ^ 28), (8, 0)]

/-- The limits and capabilities that Identify Memory Device reports after the capacities; `v` gives those left free. -/
def identityLimits (v : Nat) : List (Nat × Nat) :=
  [(2, 32), (2, 64), (2, 64), (2, 16), (4, 65536), (3, 8192), (2, 256), (1, v % 4), (1, v / 4 % 4), (2, 64)]

/-- The fields of Get Health Info before life used: health and media status, and the additional status. -/
def State.healthStatus (s : State) (m : Iface) (v : Nat) : List (Nat × Nat) :=
  [(1, v % 16), (1, v / 16 % 9), (1, s.heads[s.headOf m].additionalStatus s.lifeUsed (s.thm.ctrlMax.toInt / 16) (v / 2 ^ 24 % 2 ^ 32))]

/-- Life used, temperature and dirty shutdowns. -/
def State.healthFigures (s : State) : List (Nat × Nat) :=
  [(1, s.lifeUsed), (2, (BitVec.ofInt 16 (s.thm.ctrlMax.toInt / 16)).toNat), (4, (s.ladder 8).1)]

/-- The counts of corrected errors. -/
def healthCounts (v : Nat) : List (Nat × Nat) := [(4, 0), (4, v / 2 ^ 24 % 2 ^ 32)]

section
variable {s : State} {m : Iface} {i : List Byte}

theorem runs_identifyMemoryDevice (h : s.Served m 0x4000 i false false .identify) (hi : i.length = 0) :
    ∃ o : List Byte, Runs (.identifyMemoryDevice m) s (s.draw.2.reply m o) ∧
      (∀ x, s.runningFw s.lead = some x → o.take 16 = x.revision) ∧ bytesAt o 16 32 = lay s.capacities := by
  have run : Runs (.identifyMemoryDevice m) s
      (s.draw.2.reply m (s.fwRevision ++ lay (s.capacities ++ identityLimits s.draw.1))) :=
    show execIdentifyMemoryDevice m s = _ from State.command_served h (decide_eq_true hi) _
  rw [lay_append] at run
  refine ⟨_, run, fun x hx => ?_, bytesAt_middle _ _ _ s.fwRevision_length (lay_length _)⟩
  rw [State.fwRevision_running hx]
  exact List.take_left' x.revision_length

theorem runs_getPartitionInfo (h : s.Served m 0x4100 i false false .identify) (hi : i.length = 0) :
    Runs (.getPartitionInfo m) s (s.reply m (lay [(8, 0), (8, recRegLen s.cfg.record 8 / 2 ^ 28), (8, 0), (8, 0)])) :=
  show execGetPartitionInfo m s = _ from State.command_served h (decide_eq_true hi) _

theorem runs_getLsa (h : s.Served m 0x4102 i false false .identify) (hi : i.length = 8) (hn : fieldAt i 4 4 ≠ 2 ^ 32 - 1)
    (hr : fieldAt i 0 4 + fieldAt i 4 4 ≤ 65536) :
    Runs (.getLsa m) s
      (s.reply m (Memory.readBytes (fun _ => 0xFF) s.nv[s.lead].lsa (fieldAt i 0 4) (fieldAt i 4 4))) := by
  refine show execGetLsa m s = _ from State.command_served h ?_ _
  have known : allOnes 4 (fieldAt i 4 4) = false := decide_eq_false hn
  rw [lenIs, decide_eq_true hi, known, decide_eq_true hr]
  rfl

theorem runs_getHealthInfo (h : s.Served m 0x4200 i false false .identify) (hi : i.length = 0) :
    ∃ o : List Byte, Runs (.getHealthInfo m) s (s.draw.2.reply m o) ∧ o.length = 18 ∧ fieldAt o 0 1 < 16 ∧
      bytesAt o 3 7 = lay s.healthFigures := by
  let v := s.draw.1
  have run : Runs (.getHealthInfo m) s
      (s.draw.2.reply m (lay (s.healthStatus m v ++ (s.healthFigures ++ healthCounts v)))) :=
    show execGetHealthInfo m s = _ from State.command_served h (decide_eq_true hi) _
  refine ⟨_, run, lay_length _, ?_, ?_⟩
  · have status : fieldAt (lay (s.healthStatus m v ++ (s.healthFigures ++ healthCounts v))) 0 1 = v % 16 :=
      fieldAt_append [] 1 _ (by omega)
    rw [status]
    exact Nat.mod_lt _ (by decide)
  · rw [lay_append, lay_append]
    exact bytesAt_middle _ _ _ (lay_length _) (lay_length _)

theorem runs_getAlertConfiguration (h : s.Served m 0x4201 i false false .identify) (hi : i.length = 0) :
    let x := s.heads[s.headOf m]
    let a (k : Nat) : Nat := (x.alerts.getD k 0).toNat
    Runs (.getAlertConfiguration m) s (s.reply m (lay [(1, x.alertEn.toNat), (1, 0x17), (1, (Config.alertLimit 0).toNat), (1, a 0),
      (2, (Config.alertLimit 1).toNat), (2, (Config.alertLimit 2).toNat), (2, a 1), (2, a 2), (2, a 3), (2, a 4)])) :=
  show execGetAlertConfiguration m s = _ from State.command_served h (decide_eq_true hi) _

theorem runs_getShutdownState (h : s.Served m 0x4203 i false false .identify) (hi : i.length = 0) :
    Runs (.getShutdownState m) s (s.reply m [s.heads[s.headOf m].shutdown]) :=
  show execGetShutdownState m s = _ from State.command_served h (decide_eq_true hi) _

/-! ### Commands that write -/

/-- The sectors of the label storage area that a write of `n` bytes from `off` on touches (R428). -/
def lsaSectors (off n : Nat) : List Nat :=
  (List.range 16).filter fun k => decide (4096 * k < off + n ∧ off < 4096 * (k + 1))

/-- The write of each sector is started in the lead's flash, and the command waits for it. -/
theorem runs_setLsa (h : s.Served m 0x4103 i true false .setShutdown) (hi : 8 < i.length)
    (hr : fieldAt i 0 4 + (i.length - 8) ≤ 65536)
    (hs : s.supplyOk (11900 * (lsaSectors (fieldAt i 0 4) (i.length - 8)).length) 1 = true) :
    ∃ t, Runs (.setLsa m) s t ∧ t.svc = { s.svc with waiting := some (m, .flash) } := by
  have fits : (decide (8 ≤ i.length) && decide (fieldAt i 0 4 + (i.length - 8) ≤ 65536)) = true := by
    rw [decide_eq_true (Nat.le_of_lt hi), decide_eq_true hr, Bool.and_self]
  have some_bytes : ¬ i.length - 8 = 0 := by omega
  have supply : ¬ (!s.supplyOk (11900 * (lsaSectors (fieldAt i 0 4) (i.length - 8)).length) 1) = true := by
    rw [hs]
    exact Bool.false_ne_true
  refine ⟨_, (show execSetLsa m s = _ from State.command_served h fits _).trans
    (congrArg _ ((if_neg some_bytes).trans (if_neg supply))), ?_⟩
  have started : ∀ (op : Nat → FlashOp) (l : List Nat),
      Changes [.nv, .tiles] s (forAll l (fun k u => u.flashStart u.lead 0 (op k)) s) :=
    fun op l => .forAll .refl fun _ _ h => .step State.flashStart_changes h
  exact congrArg (fun (v : Svc) => { v with waiting := some (m, .flash) }) ((started _ _).keeps .svc rfl)

theorem runs_setAlertConfiguration (h : s.Served m 0x4202 i false false .setAlert) (hi : i.length = 12) :
    let v := BitVec.ofNat 8 (fieldAt i 0 1) &&& 0x17
    let n : List Nat := [fieldAt i 2 1, fieldAt i 4 2, fieldAt i 6 2, fieldAt i 8 2, fieldAt i 10 2, 0]
    Runs (.setAlertConfiguration m) s ((s.modHead (s.headOf m) fun x => { x with
      alertEn := (x.alertEn &&& ~~~ v) ||| (BitVec.ofNat 8 (fieldAt i 1 1) &&& v)
      alerts := x.alerts.zipIdx.map fun e => if v.getLsbD e.2 then BitVec.ofNat 16 (n.getD e.2 0) else e.1 }).mbFinish m .success) :=
  show execSetAlertConfiguration m s = _ from State.command_served h (decide_eq_true hi) _

theorem runs_setShutdownState (h : s.Served m 0x4204 i true false .setShutdown) (hi : i.length = 1) (hv : fieldAt i 0 1 ≤ 1) :
    Runs (.setShutdownState m) s
      ((s.modHead (s.headOf m) fun x => { x with shutdown := BitVec.ofNat 8 (fieldAt i 0 1) }).mbFinish m .success) :=
  (show execSetShutdownState m s = _ from State.command_served h (decide_eq_true hi) _).trans
    (congrArg _ (if_neg (Nat.not_lt.mpr hv)))

end

/-- Settles O50: each clause is the rule above for the command that it names. -/
theorem deviceCommandsComplete : Obligations.DeviceCommandsComplete := fun _ _ _ =>
  ⟨runs_identifyMemoryDevice, runs_getPartitionInfo, runs_getLsa, runs_setLsa, runs_getHealthInfo, runs_getAlertConfiguration,
    runs_setAlertConfiguration, runs_getShutdownState, runs_setShutdownState⟩

end Sys2Proof.Machine
end

section
/-! The index functions of the cache and the directory (R147, R166): each is one address XORed with a hash of the tag, so its range is
that of the address, and under one tag it is one-to-one. -/

namespace Sys2Proof.Machine

variable {h h' : Home}

/-- XOR with the same word loses nothing. -/
theorem xor_cancel {a b k : Nat} (e : a ^^^ k = b ^^^ k) : a = b := by
  have back (x : Nat) : (x ^^^ k) ^^^ k = x := by rw [Nat.xor_assoc, Nat.xor_self, Nat.xor_zero]
  rw [← back a, e, back b]

theorem cacheSet_lt (hu : h.unit < 64) (hl : h.line < 64) : cacheSet h < 16384 :=
  Nat.xor_lt_two_pow (n := 14) (by omega) (by omega)

theorem dirBucket_lt (hu : h.unit < 64) (hl : h.line < 64) : dirBucket h < 131072 :=
  Nat.xor_lt_two_pow (n := 17) (by omega) (by omega)

/-- A set holds one line of a unit for each value of PIDX[22:8]. -/
theorem cacheSet_tag (hl : h.line < 64) (hl' : h'.line < 64) (set : cacheSet h = cacheSet h') (unit : h.unit = h'.unit)
    (tag : h.pidx / 256 = h'.pidx / 256) : h.pidx = h'.pidx ∧ h.line = h'.line := by
  unfold cacheSet at set
  rw [unit] at set
  have low : h.pidx % 256 * 64 + h.line = h'.pidx % 256 * 64 + h'.line := xor_cancel set
  omega

/-- A bucket holds one page of a unit and line for each value of PIDX_HI. -/
theorem dirBucket_entry (bucket : dirBucket h = dirBucket h') (unit : h.unit = h'.unit) (line : h.line = h'.line)
    (high : h.pidx / 2 ^ 17 = h'.pidx / 2 ^ 17) : h.pidx = h'.pidx := by
  unfold dirBucket at bucket
  rw [unit, line] at bucket
  have low : h.pidx % 2 ^ 17 = h'.pidx % 2 ^ 17 := xor_cancel bucket
  omega

/-- Settles O14: with the tag given, the set and the bucket give back the bits of the page and line that the tag leaves out. -/
theorem lookupsNameOneLine : Obligations.LookupsNameOneLine := fun _ _ hu hl _ _ hl' _ =>
  ⟨⟨cacheSet_lt hu hl, cacheSet_tag hl hl'⟩, dirBucket_lt hu hl, dirBucket_entry⟩

end Sys2Proof.Machine
end

section
/-! The vendor commands on the mesh, the parameter store, the cache ways, the patrol, the rails and the vendor registers (R153, R154,
R368 to R379): one rule for each command that is served. -/

namespace Sys2Proof.Machine

section
variable {s : State} {m : Iface} {i : List Byte}

/-! ### Changes of the record (R354) -/

/-- A served command that waits while a commit is under way runs where none is. -/
theorem State.command_uncommitted {op : Nat} {mgmt bg : Bool} {r : StateRule} (hc : s.cfg.commit = none)
    (h : s.Served m op i mgmt bg r) {lenOk : List Byte → Bool} (hl : lenOk i = true) (run : List Byte → State → State) :
    (if s.cfg.commit.isSome then .next s else s.command m op r lenOk run mgmt bg) = .next (run i s) := by
  rw [hc]
  exact command_served h hl run

theorem supply_held {us n : Nat} (h : s.supplyOk us n = true) : ¬ (!s.supplyOk us n) = true := by
  rw [h]
  exact Bool.false_ne_true

/-- Outside CONFIG_HOLD a change that the supply admits acts at once and is committed. -/
theorem State.dcrChange_commits (hd : s.sys.state ≠ .configHold) (hs : s.supplyOk commitUs s.commitTiles.length = true)
    (f : List Byte → List Byte) (act : State → State) (out : List Byte) :
    s.dcrChange m f act out = (act s).dcrCommit m f out :=
  (if_neg hd).trans (if_neg (supply_held hs))

/-! ### Mesh (R368 to R370, R526) -/

theorem runs_meshDiscover (h : s.Served m 0xC060 i true true .injectPoison) (hi : i.length = 4) (hb : s.svc.bg = none) :
    Runs (.meshDiscover m) s ({ s with mesh := { s.mesh with
      dropTable := s.mesh.dropTable || decide (fieldAt i 0 1 % 2 = 1) } }.startDiscovery.startBackground m 0xC060 i) := by
  refine (show execMeshDiscover m s = _ from State.command_served h (decide_eq_true hi) _).trans (congrArg _ (if_neg ?_))
  rw [hb]
  exact Bool.false_ne_true

/-- Sixteen bytes of the part's own, then one for each of 64 packages. -/
theorem runs_getMeshTopology (h : s.Served m 0xC061 i false false .identify) (hi : i.length = 0) :
    ∃ o : List Byte, Runs (.getMeshTopology m) s (s.reply m o) ∧ o.length = 80 := by
  refine ⟨_, show execGetMeshTopology m s = _ from State.command_served h (decide_eq_true hi) _, ?_⟩
  rw [List.length_append, lay_length, List.length_map, List.length_finRange]
  rfl

/-- The pair settings that forming a pair from the input of Set Mirror Group gives. -/
def Mesh.formed (k : Mesh) (i : List Byte) : Mesh :=
  { k with
    paired := true, peer := BitVec.ofNat 6 (fieldAt i 1 1), regions := BitVec.ofNat 9 (fieldAt i 2 2)
    takeoverHeads := BitVec.ofNat 8 (fieldAt i 4 1)
    pairGen := k.pairGen + 1, contact := false, peerDead := false, resyncStep := 0, alone := false }

/-- The peer is present, no pair stands, and no exchange with it waits to be judged. -/
theorem runs_setMirrorGroup_form (hc : s.cfg.commit = none) (h : s.Served m 0xC062 i true false .injectPoison) (hi : i.length = 8)
    (hop : fieldAt i 0 1 = 0) (hp : s.mesh.present.getLsbD (BitVec.ofNat 6 (fieldAt i 1 1)).toNat = true) (hn : s.mesh.state = 0)
    (hx : s.mesh.peerPair = none) :
    Runs (.setMirrorGroup m) s
      (s.dcrChange m (mirrorField (s.mesh.formed i)) fun s' => { s' with mesh := s.mesh.formed i }.setPair 1) := by
  have run := show execSetMirrorGroup m s = _ from State.command_uncommitted hc h (decide_eq_true hi) _
  have present : ¬ (!s.mesh.present.getLsbD (BitVec.ofNat 6 (fieldAt i 1 1)).toNat) = true := by
    rw [hp]
    exact Bool.false_ne_true
  refine run.trans (congrArg _ ?_)
  rw [hop]
  refine (if_neg present).trans ((if_neg (not_not_intro hn)).trans (if_neg ?_))
  rw [hx]
  exact Bool.false_ne_true

theorem runs_setMirrorGroup_dissolve (hc : s.cfg.commit = none) (h : s.Served m 0xC062 i true false .injectPoison) (hi : i.length = 8)
    (hop : fieldAt i 0 1 = 1) :
    Runs (.setMirrorGroup m) s
      (s.dcrChange m (mirrorField { s.mesh with paired := false, regions := 0, replica := 0 }) State.dissolvePair) := by
  have run := show execSetMirrorGroup m s = _ from State.command_uncommitted hc h (decide_eq_true hi) _
  refine run.trans (congrArg _ ?_)
  rw [hop]
  rfl

/-! ### Parameter store (R371, R372, R440) -/

/-- A lock that is not set, or that is open, does not refuse. -/
theorem not_locked {set opened : Bool} (h : set = false ∨ opened = true) : ¬ (set = true ∧ (!opened) = true) := by
  rintro ⟨rfl, closed⟩
  rw [h.resolve_left Bool.false_ne_true.symm] at closed
  exact Bool.false_ne_true closed

theorem prmSpanOk_intro (hn : fieldAt i 2 2 ≠ 0xFFFF) (hr : fieldAt i 0 2 + fieldAt i 2 2 ≤ 65536) : prmSpanOk i = true := by
  have known : allOnes 2 (fieldAt i 2 2) = false := decide_eq_false hn
  rw [prmSpanOk, known, decide_eq_true hr]
  rfl

theorem runs_readParameterStore (h : s.Served m 0xC070 i false false .identify) (hi : i.length = 8) (hn : fieldAt i 2 2 ≠ 0xFFFF)
    (hr : fieldAt i 0 2 + fieldAt i 2 2 ≤ 65536) (hs : s.sys.rescueLead = false ∨ s.sys.state ≠ .failed) :
    Runs (.readParameterStore m) s (s.reply m ((s.prmBytes s.lead (fieldAt i 0 2) (fieldAt i 2 2)).zipIdx.map fun b =>
      if zeroPage ((fieldAt i 0 2 + b.2) / 64) then 0 else b.1)) := by
  have fits : (lenIs 8 i && prmSpanOk i) = true := by
    rw [lenIs, decide_eq_true hi, prmSpanOk_intro hn hr, Bool.and_self]
  refine (show execReadParameterStore m s = _ from State.command_served h fits _).trans (congrArg _ (if_neg ?_))
  rintro ⟨rescue, failed⟩
  obtain ok | ok := hs
  · exact absurd (ok.symm.trans rescue) Bool.false_ne_true
  · exact ok failed

theorem runs_writeParameterStore (h : s.Served m 0xC071 i true false .setShutdown) (hi : i.length = 8 + fieldAt i 2 2)
    (hn : fieldAt i 2 2 ≠ 0xFFFF) (hr : fieldAt i 0 2 + fieldAt i 2 2 ≤ 65536) (ho : 16384 ≤ fieldAt i 0 2)
    (hl : s.prmPwSet = false ∨ s.prm.unlocked = true) (hz : fieldAt i 2 2 ≠ 0)
    (hs : s.supplyOk (50 * (fieldAt i 2 2 / 64 + 2)) 1 = true) :
    let u := s.prmEnqueue 1 (fieldAt i 0 2) (i.drop 8)
    Runs (.writeParameterStore m) s { u with svc := { u.svc with waiting := some (m, .prm), waitOut := [] } } := by
  have fits : (decide (8 ≤ i.length) && decide (i.length = 8 + fieldAt i 2 2) && prmSpanOk i) = true := by
    rw [decide_eq_true (by omega), decide_eq_true hi, prmSpanOk_intro hn hr]
    rfl
  exact (show execWriteParameterStore m s = _ from State.command_served h fits _).trans (congrArg _
    ((if_neg (Nat.not_lt.mpr ho)).trans <| (if_neg (not_locked hl)).trans <| (if_neg hz).trans (if_neg (supply_held hs))))

/-- OP 0 with tries left is judged by the password alone. -/
theorem exec_parameterStorePassword_unlock (h : s.Served m 0xC072 i true false .setShutdown) (hi : i.length = 68)
    (hop : fieldAt i 0 1 = 0) (ht : s.prm.tries ≠ 0) :
    exec (.parameterStorePassword m) s = .next (if s.prmPwSet ∧ (!s.prmPwOk (bytesAt i 4 32)) = true then
        { s with prm := { s.prm with tries := s.prm.tries - 1 } }.mbFinish m .passphrase 0x132
      else { s with prm := { s.prm with unlocked := s.prmPwSet } }.mbFinish m .success 0
        (prmPwOut s.prmPwSet s.prmPwSet s.prm.tries.toNat)) := by
  refine (show execParameterStorePassword m s = _ from State.command_served h (decide_eq_true hi) _).trans (congrArg _ ?_)
  have known : ¬ (0 > 3 ∨ (0 = 2 ∧ (bytesAt i 36 32).all (· = 0) = true)) := by omega
  rw [hop]
  exact (if_neg known).trans ((if_neg ht).trans (ite_congr (propext (and_iff_right (.inl rfl))) (fun _ => rfl) fun _ => rfl))

theorem runs_parameterStorePassword_unlocked (h : s.Served m 0xC072 i true false .setShutdown) (hi : i.length = 68)
    (hop : fieldAt i 0 1 = 0) (ht : s.prm.tries ≠ 0) (hp : s.prmPwSet = false ∨ s.prmPwOk (bytesAt i 4 32) = true) :
    Runs (.parameterStorePassword m) s ({ s with prm := { s.prm with unlocked := s.prmPwSet } }.mbFinish m .success 0
      (prmPwOut s.prmPwSet s.prmPwSet s.prm.tries.toNat)) :=
  (exec_parameterStorePassword_unlock h hi hop ht).trans (congrArg _ (if_neg (not_locked hp)))

theorem runs_parameterStorePassword_wrong (h : s.Served m 0xC072 i true false .setShutdown) (hi : i.length = 68)
    (hop : fieldAt i 0 1 = 0) (ht : s.prm.tries ≠ 0) (hp : s.prmPwSet = true) (hw : s.prmPwOk (bytesAt i 4 32) = false) :
    Runs (.parameterStorePassword m) s
      ({ s with prm := { s.prm with tries := s.prm.tries - 1 } }.mbFinish m .passphrase 0x132) :=
  (exec_parameterStorePassword_unlock h hi hop ht).trans (congrArg _ (if_pos ⟨hp, by rw [hw]; rfl⟩))

/-! ### Cache ways (R153, R154, R374) -/

/-- The ways that a change of SCRATCH and OFF_PAIRS takes from the cache of a tile are to leave it, and their dirty lines are
staged. -/
def State.startLeaving (f : TileData → Nat × Nat) (t : TileId) (s : State) : State :=
  (s.modD t fun d => { d with leaving := (cacheWays d).filter fun w => !(waysAfter d (f d).1 (f d).2).contains w }).stageLeaving t

theorem State.startLeaving_changes (f : TileData → Nat × Nat) (t : TileId) : Changes [.clk, .tiles] s (s.startLeaving f t) :=
  .step stageLeaving_changes (.modD .refl)

/-- A command of the cache ways waits for the ways that leave, with the CACHE field that is then committed. -/
def Svc.awaitWays (v : Svc) (m : Iface) (cache : List Byte) : Svc := { v with waiting := some (m, .staged cache), waitOut := [] }

theorem exec_cachePartition :
    exec (.cachePartition m) s = s.cacheCommand m 0xC090 8 fun n d => (n, d.offPairs.toNat) := rfl

theorem exec_cacheWayPower :
    exec (.cacheWayPower m) s = s.cacheCommand m 0xC091 6 fun n d => (d.scratchWays.toNat, n) := rfl

/-- A command for tile 0 alone that is not refused: the ways are to leave, and the new CACHE field waits for them. -/
theorem runs_cacheCommand {c : Instr} {op limit : Nat} {f : Nat → TileData → Nat × Nat}
    (row : exec c s = s.cacheCommand m op limit f) (hw : s.svc.waiting = none) (hc : s.cfg.commit = none)
    (h : s.Served m op i true false .injectPoison) (hi : i.length = 4) (hn : fieldAt i 1 1 ≤ limit) (ht : fieldAt i 0 1 = 1)
    (hv : s.inSvc 0 = true)
    (hf : 4 + (f (fieldAt i 1 1) s.tiles[(0 : TileId)].d).1 + 2 * (f (fieldAt i 1 1) s.tiles[(0 : TileId)].d).2 ≤ 16)
    (hs : s.supplyOk commitUs s.commitTiles.length = true) :
    ∃ u, Runs c s u ∧ u.cfg = s.cfg ∧ u.svc = s.svc.awaitWays m (s.cacheField 1 (f (fieldAt i 1 1))) := by
  have named : (allTiles.filter fun (t : TileId) => (BitVec.ofNat 8 1).getLsbD t) = [0] := by decide
  have one {p : TileId → Bool} (hp : p 0 = false) : ¬ [(0 : TileId)].any p = true := by
    rw [List.any_cons, hp]
    exact Bool.false_ne_true
  let u := s.startLeaving (f (fieldAt i 1 1)) 0
  have left : Changes [.clk, .tiles] s u := s.startLeaving_changes _ 0
  have run : s.cacheCommand m op limit f =
      .next { u with svc := u.svc.awaitWays m (s.cacheField 1 (f (fieldAt i 1 1))) } := by
    unfold State.cacheCommand
    rw [hw]
    refine (State.command_uncommitted hc h (decide_eq_true hi) _).trans (congrArg _ ?_)
    dsimp only
    rw [ht, named]
    exact (if_neg (one (by rw [hv]; rfl))).trans <| (if_neg (Nat.not_lt.mpr hn)).trans <|
      (if_neg (one (decide_eq_false (Nat.not_lt.mpr hf)))).trans (if_neg (supply_held hs))
  exact ⟨_, row.trans run, left.keeps .cfg rfl, congrArg (Svc.awaitWays · m _) (left.keeps .svc rfl)⟩

/-- No line of a leaving way is dirty any more, and the ways convert. -/
theorem runs_cachePartition_converts {cache : List Byte} (hw : s.svc.waiting = some (m, .staged cache))
    (ho : (s.mbox m).cmd.map (fun (c : MbCmd) => c.opcode.toNat) = some 0xC090) (hl : s.leavingClean = true)
    (hc : s.cfg.commit = none) : Runs (.cachePartition m) s (s.convertDone m cache) := by
  refine exec_cachePartition.trans ?_
  unfold State.cacheCommand
  rw [hw]
  exact (if_pos ⟨rfl, ho⟩).trans (if_pos ⟨hl, by rw [hc]; rfl⟩)

/-! ### Patrol and rails (R375, R376, R542) -/

/-- Every tile's patrol runs or rests. -/
def State.enablePatrol (on : Bool) (s : State) : State :=
  { s with tiles := vmap s.tiles fun _ x => { x with it := { x.it with enable := on } } }

theorem State.enablePatrol_it (on : Bool) (t : TileId) :
    (s.enablePatrol on).tiles[t].it = { s.tiles[t].it with enable := on } :=
  congrArg Tile.it (vmap_get s.tiles _ t)

/-- FLAGS of 0 or 1 name no value but the enable bit. -/
theorem runs_patrolControl (hc : s.cfg.commit = none) (h : s.Served m 0xC0A0 i true false .injectPoison) (hi : i.length = 12)
    (hb : fieldAt i 0 1 ≤ 1) (hd : s.sys.state = .active) (hs : s.supplyOk commitUs s.commitTiles.length = true) :
    ∃ u : State, Runs (.patrolControl m) s (u.dcrCommit m fun r => putBytes r 44 [BitVec.ofNat 8 (fieldAt i 0 1)]) ∧
      ∀ t : TileId, u.tiles[t].it = { s.tiles[t].it with enable := decide (fieldAt i 0 1 = 1) } := by
  refine ⟨s.enablePatrol (decide (fieldAt i 0 1 = 1)), ?_, s.enablePatrol_it _⟩
  have run := show execPatrolControl m s = _ from State.command_uncommitted hc h (decide_eq_true hi) _
  have running : s.sys.state ≠ .configHold := by
    rw [hd]
    exact DevState.noConfusion
  refine run.trans (congrArg _ ?_)
  dsimp only
  obtain off | on : fieldAt i 0 1 = 0 ∨ fieldAt i 0 1 = 1 := by omega
  · rw [off]
    exact (if_neg Bool.false_ne_true).trans (State.dcrChange_commits running hs _ _ _)
  · rw [on]
    exact (if_neg Bool.false_ne_true).trans (State.dcrChange_commits running hs _ _ _)

theorem runs_railPolicy (hc : s.cfg.commit = none) (h : s.Served m 0xC0B0 i true false .setPassphrase) (hi : i.length = 4)
    (hd : s.sys.state ≠ .configHold) (hq : 4 ≤ fieldAt i 0 1) (hq' : fieldAt i 0 1 ≤ 15)
    (hu : recRailUsed s.cfg.record (fieldAt i 0 1) = true) (hr : fieldAt i 1 1 ≤ 3) :
    let f (r : List Byte) : List Byte := putBytes r (257 + 16 * fieldAt i 0 1) [BitVec.ofNat 8 (fieldAt i 1 1)]
    Runs (.railPolicy m) s (s.dcrChange m f (fun s => { s with seq := { s.seq with
        react := s.seq.react.mapIdx fun k x => if k = fieldAt i 0 1 then BitVec.ofNat 2 (fieldAt i 1 1) else x } })
      (recReactions (f s.cfg.record))) := by
  let q := fieldAt i 0 1
  let re := fieldAt i 1 1
  have run := show execRailPolicy m s = _ from State.command_uncommitted hc h (decide_eq_true hi) _
  have inRange : ¬ (q > 15 ∨ (q ≥ 4 ∧ (!recRailUsed s.cfg.record q) = true) ∨ (re > 3 ∧ re ≠ 0xFF) ∨
      (q < 4 ∧ re ≠ 3 ∧ re ≠ 0xFF)) := by
    rintro (high | ⟨-, unused⟩ | ⟨high, -⟩ | ⟨low, -⟩)
    · exact Nat.not_lt.mpr hq' high
    · rw [hu] at unused
      exact Bool.false_ne_true unused
    · exact Nat.not_lt.mpr hr high
    · exact Nat.not_lt.mpr hq low
  have change : re ≠ 0xFF := by omega
  refine run.trans (congrArg _ ?_)
  rw [decide_eq_false hd]
  exact (if_neg fun hold => Bool.false_ne_true hold.1).trans ((if_neg inRange).trans (if_neg change))

/-! ### Vendor registers (R377 to R379) -/

theorem runs_readVendorRegister {t : TileId} (h : s.Served m 0xC0C0 i false false .identify) (hi : i.length = 8)
    (hn : fieldAt i 4 2 ≠ 0xFFFF) (hr : fieldAt i 2 2 + 4 * fieldAt i 4 2 ≤ 4096) (ht : s.regCheck i = .ok t) :
    Runs (.readVendorRegister m) s (s.reply m ((List.range (fieldAt i 4 2)).flatMap fun k =>
      leBytes 4 (s.readReg t (fieldAt i 1 1) (fieldAt i 2 2 + 4 * k)).toNat)) := by
  have known : allOnes 2 (fieldAt i 4 2) = false := decide_eq_false hn
  have fits : (lenIs 8 i && !allOnes 2 (fieldAt i 4 2) && decide (fieldAt i 2 2 + 4 * fieldAt i 4 2 ≤ 4096)) = true := by
    rw [lenIs, decide_eq_true hi, known, decide_eq_true hr]
    rfl
  refine (show execReadVendorRegister m s = _ from State.command_served h fits _).trans (congrArg _ ?_)
  rw [ht]

section
variable {t : TileId} (h : s.Served m 0xC0C1 i true false .setPassphrase) (hi : i.length = 8) (ht : s.regCheck i = .ok t)
include h

theorem State.writeTarget_served : s.writeTarget m = (fieldAt i 1 1, fieldAt i 2 2) := by
  unfold writeTarget
  rw [h.1]

include hi ht

theorem State.vendorWrite_served (act : TileId → List Byte → State → State) : s.vendorWrite m act = .next (act t i s) := by
  refine (command_served h (decide_eq_true hi) _).trans (congrArg _ ?_)
  rw [ht]

/-- The row of a register that holds its own behaviour acts where the command names that register. -/
theorem State.vendorWrite_target {k : Nat × Nat} (hk : (fieldAt i 1 1, fieldAt i 2 2) = k)
    (act : TileId → List Byte → State → State) :
    (if s.writeTarget m ≠ k then .next s else s.vendorWrite m act) = .next (act t i s) :=
  (if_neg (not_not_intro ((writeTarget_served h).trans hk))).trans (vendorWrite_served h hi ht act)

theorem runs_writeVendorRegister (hk : ownWrites.contains (fieldAt i 1 1, fieldAt i 2 2) = false) :
    Runs (.writeVendorRegister m) s (State.plainWrite m t i s) := by
  refine (if_neg ?_).trans (State.vendorWrite_served h hi ht _)
  rw [State.writeTarget_served h, hk]
  exact Bool.false_ne_true

/-- The low word of the window cursor, one of the two registers of its row (R634). -/
theorem runs_evrWinCursorWrite (hk : (fieldAt i 1 1, fieldAt i 2 2) = (0x10, 0x024)) :
    Runs (.evrWinCursorWrite m) s (State.plainWrite m t i s) :=
  (if_neg fun other => other.1 ((State.writeTarget_served h).trans hk)).trans (State.vendorWrite_served h hi ht _)

/-- In the lead tile the new block protection is stored in page 2. -/
theorem runs_prmProtectBpWrite (hk : (fieldAt i 1 1, fieldAt i 2 2) = (0x14, 0x004)) (hl : s.sys.lead = some t)
    (hs : s.supplyOk 50 1 = true) :
    let bp := BitVec.ofNat 2 (fieldAt i 4 1)
    let u := { s with prm := { s.prm with bp := bp } }.twinEnqueue 1 2 (bp.setWidth 8 :: List.replicate 25 0)
    Runs (.prmProtectBpWrite m) s { u with svc := { u.svc with waiting := some (m, .prm), waitOut := [] } } :=
  (State.vendorWrite_target h hi ht hk _).trans
    (congrArg _ ((if_neg (not_not_intro hl)).trans (if_neg (supply_held hs))))

end

end

/-- Settles O55: each clause is the rule above for the command and the case that it names. -/
theorem vendorControlCommandsComplete : Obligations.VendorControlCommandsComplete := fun _ _ _ =>
  ⟨runs_meshDiscover, runs_getMeshTopology, runs_setMirrorGroup_form, runs_setMirrorGroup_dissolve, runs_readParameterStore,
    runs_writeParameterStore, runs_parameterStorePassword_unlocked, runs_parameterStorePassword_wrong,
    runs_cacheCommand exec_cachePartition, runs_cacheCommand exec_cacheWayPower, fun _ => runs_cachePartition_converts,
    runs_patrolControl, runs_railPolicy, fun _ => runs_readVendorRegister,
    fun _ h hi ht => ⟨runs_writeVendorRegister h hi ht,
      fun hk => State.vendorWrite_target h hi ht hk _, fun hk => State.vendorWrite_target h hi ht hk _,
      fun hk => State.vendorWrite_target h hi ht hk _, runs_evrWinCursorWrite h hi ht,
      fun hk => State.vendorWrite_target h hi ht hk _, runs_prmProtectBpWrite h hi ht⟩⟩

end Sys2Proof.Machine
end

section
/-! Age stamps (R203 to R207): what a FINE and a COARSE stamp name, how old that is, and what the sweep's step makes of them. -/

namespace Sys2Proof.Machine

theorem sub32_of_le {a b : Nat} (h : b ≤ a) (ha : a < 2 ^ 32) : sub32 a b = a - b := by
  unfold sub32
  omega

/-! ### What a stamp names (R206) -/

/-- A tick modulo 128 names the tick itself while fewer than 128 have passed. -/
theorem tickOf_mod {ref x : Nat} (hx : x ≤ ref / 4096) (near : ref / 4096 - x < 128) (hr : ref < 2 ^ 32) :
    tickOf ref (x % 128) = x := by
  have passed : sub32 (ref / 4096) (x % 128) % 128 = ref / 4096 - x := by
    unfold sub32
    omega
  rw [tickOf, passed, sub32_of_le (Nat.sub_le ..) (by omega), Nat.sub_sub_self hx]

/-- A unit modulo 126 names the unit itself while fewer than 126 have passed. -/
theorem coarseOf_mod {ref x : Nat} (hx : x ≤ ref / 2 ^ 19) (near : ref / 2 ^ 19 - x < 126) (hr : ref < 2 ^ 32) :
    coarseOf ref (0x80 + x % 126) = x := by
  have passed : (ref / 2 ^ 19 % 126 + 126 - (0x80 + x % 126 - 0x80)) % 126 = ref / 2 ^ 19 - x := by omega
  rw [coarseOf, passed, sub32_of_le (Nat.sub_le ..) (by omega), Nat.sub_sub_self hx]

theorem stampFor_now (t : Nat) (ht : t < 2 ^ 32) : stampFor t t = t / 4096 % 128 := by
  have fresh : sub32 (t / 4096) (t / 4096) < 112 := by
    rw [sub32_of_le (Nat.le_refl _) (by omega), Nat.sub_self]
    decide
  exact if_pos fresh

/-! ### Ages (R206) -/

section
variable {clk ref st x : Nat}

theorem ageOf_fine (hs : st < 0x80) (hn : tickOf ref st = x) (hx : x ≤ clk / 4096) (hc : clk < 2 ^ 32)
    (near : clk / 4096 - x < 16384) : ageOf clk ref st = some ((clk / 4096 - x) * 4096 + 2048) := by
  have age : sub32 (clk / 4096) x = clk / 4096 - x := sub32_of_le hx (by omega)
  unfold ageOf
  rw [if_neg (by omega), if_neg (by omega), if_pos hs, hn, age]
  exact congrArg some (if_neg (by omega))

theorem ageOf_coarse (hs : 0x80 ≤ st) (hs' : st < 0xFE) (hn : coarseOf ref st = x) (hx : x ≤ clk / 2 ^ 19) (hc : clk < 2 ^ 32)
    (near : clk / 2 ^ 19 - x < 128) : ageOf clk ref st = some ((clk / 2 ^ 19 - x) * 524288 + 262144) := by
  have age : sub32 (clk / 2 ^ 19) x = clk / 2 ^ 19 - x := sub32_of_le hx (by omega)
  unfold ageOf
  rw [if_neg (by omega), if_neg (by omega), if_neg (by omega), hn, age]
  exact congrArg some (if_neg (by omega))

/-! ### The sweep's step (R207) -/

/-- What the step makes of a stamp that is no longer FINE, by the unit that it names. -/
def coarseOrAncient (clk unit : Nat) : Nat := if sub32 (clk / 2 ^ 19) unit ≥ 124 then 0xFE else 0x80 + unit % 126

theorem coarseOrAncient_eq (hx : x ≤ clk / 2 ^ 19) (hc : clk < 2 ^ 32) :
    coarseOrAncient clk x = if clk / 2 ^ 19 - x < 124 then 0x80 + x % 126 else 0xFE := by
  rw [coarseOrAncient, sub32_of_le hx (by omega)]
  by_cases young : clk / 2 ^ 19 - x < 124
  · rw [if_pos young, if_neg (Nat.not_le.mpr young)]
  · rw [if_neg young, if_pos (Nat.le_of_not_lt young)]

theorem stampStep_fine (hs : st < 0x80) :
    stampStep clk ref st = if sub32 (clk / 4096) (tickOf ref st) < 112 then st else coarseOrAncient clk (tickOf ref st / 128) :=
  (if_neg (by omega)).trans (if_pos hs)

theorem stampStep_coarse (hs : 0x80 ≤ st) (hs' : st < 0xFE) : stampStep clk ref st = coarseOrAncient clk (coarseOf ref st) :=
  (if_neg (by omega)).trans (if_neg (by omega))

end

/-- Settles O16: a stamp names its tick or unit long enough for the step to take it over into the next kind of stamp. -/
theorem stampsKeepTheirTime : Obligations.StampsKeepTheirTime := by
  intro t clk ht hc
  dsimp only
  rw [stampFor_now t (by omega)]
  refine ⟨fun near => ?_, fun near => ?_, rfl, rfl, rfl, rfl⟩
  · have fine : t / 4096 % 128 < 0x80 := Nat.mod_lt _ (by decide)
    have past : t / 4096 ≤ clk / 4096 := Nat.div_le_div_right ht
    have tick : tickOf clk (t / 4096 % 128) = t / 4096 := tickOf_mod past near hc
    have unit : t / 4096 / 128 = t / 2 ^ 19 := Nat.div_div_eq_div_mul ..
    have young : clk / 2 ^ 19 - t / 2 ^ 19 < 124 := by omega
    refine ⟨tick, ageOf_fine fine tick past hc (by omega), ?_⟩
    rw [stampStep_fine fine, tick, sub32_of_le past (by omega), unit, coarseOrAncient_eq (Nat.div_le_div_right ht) hc, if_pos young]
  · have coarse : 0x80 + t / 2 ^ 19 % 126 < 0xFE := Nat.add_lt_add_left (Nat.mod_lt _ (by decide)) 0x80
    have past : t / 2 ^ 19 ≤ clk / 2 ^ 19 := Nat.div_le_div_right ht
    have unit : coarseOf clk (0x80 + t / 2 ^ 19 % 126) = t / 2 ^ 19 := coarseOf_mod past near hc
    refine ⟨unit, ageOf_coarse (Nat.le_add_right ..) coarse unit past hc (by omega), ?_⟩
    rw [stampStep_coarse (Nat.le_add_right ..) coarse, unit, coarseOrAncient_eq past hc]

end Sys2Proof.Machine
end

section
/-! The part at reset (R209, R382, R404, R409, R437, R438, R550): what its tiles and stores hold, and what the Boots ladder reads. -/

namespace Sys2Proof.Machine

theorem State.reset_tiles (t : TileId) : State.reset.tiles[t] = {} := Vector.getElem_replicate t.isLt
theorem State.reset_nv (t : TileId) : State.reset.nv[t] = {} := Vector.getElem_replicate t.isLt

/-- A ladder whose slots all hold one value reads as that value in its last slot (R438). -/
theorem ladderRead_of_slots {bs : List Byte} {v : Nat} (h : ∀ k < 16, ladderSlot bs k = some v) : ladderRead bs = (v, some 15) := by
  unfold ladderRead
  rw [List.range_succ, List.foldl_append, List.foldl_cons, List.foldl_nil, h 15 (by decide)]
  refine if_pos (List.foldlRecOn _ _ (motive := fun best : Nat × Option Nat => best.2 = none ∨ v ≥ best.1) (.inl rfl)
    fun best hb k hk => ?_)
  rw [h k (Nat.lt_succ_of_lt (List.mem_range.mp hk))]
  dsimp only
  rw [if_pos hb]
  exact .inr (Nat.le_refl v)

/-- Settles O18: every tile and every store holds the value that its type has at reset, and so does each register. -/
theorem resetState : Obligations.ResetState := by
  have boots : State.reset.ladder 6 = (0, some 15) := ladderRead_of_slots (by decide +kernel)
  refine ⟨⟨rfl, rfl, rfl, rfl⟩, ⟨rfl, rfl, rfl, rfl⟩, ⟨rfl, rfl, rfl, rfl⟩, fun t i => ?_, ⟨rfl, rfl, rfl, rfl⟩, fun t => ?_,
    boots⟩
  · rw [State.reset_tiles]
    exact ⟨rfl, rfl⟩
  · rw [State.reset_nv]
    exact ⟨rfl, rfl, by decide⟩

end Sys2Proof.Machine
end

section
/-! The decode ladder, the age stamps and the rebuild into a spare (R207 to R209, R211, R237 to R239, R245, R246): one rule for each case
of their events. -/

namespace Sys2Proof.Machine

/-! ### The ladder of a home line (R211, R237, R238) -/

/-- The read numbered `id` of tile `t` that has no result yet. -/
def State.openRead (s : State) (t : TileId) (id : Nat) : Option LoadReq :=
  s.loads.find? fun x => x.id = id && x.owner = t && x.result.isNone && !x.mirrorWait

/-- A load whose page no fold serves goes on to its next rung. -/
theorem State.homeRead_next {s : State} {t : TileId} {r : LoadReq} {unit slot : Nat} (next : State → State)
    (hf : foldServes s.tiles[t].d unit (s.home r.line).pidx = none) : s.homeRead t r unit slot next = next s := by
  unfold homeRead
  dsimp only
  rw [hf]

section
variable {s : State} {t : TileId} {r : LoadReq} {unit slot : Nat} (noise : Noise) (hr : s.openRead t r.id = some r)
  (hs : r.src = .home unit slot) (hw : workLeft s.tiles[t].eng (.load r.id) = false)
include hr hs hw

/-- The first read of a home line: it gives the line, or the read is repeated at the next bucket. -/
theorem exec_ladderRungDone_first (h : r.rung = 0) :
    let x := readLine false (noiseOf noise (s.home r.line).line)
    let u := s.noteRead t (toChan (unit / 16)) x
    exec (.ladderRungDone t r.id noise) s = .next (
      if x.ok then (u.learnStamp t unit slot r.bucket).homeGave t r unit slot x
      else u.homeRead t r unit slot fun u =>
        (u.modLoad r.id fun r => { r with rung := r.rung + 1 }).readItem t r.id unit slot ((s.home r.line).line / 8)
          (repeatBucket r.bucket 1) false 0 (lineDie slot (s.home r.line).line)) := by
  change execLadderRungDone t r.id noise s = _
  unfold execLadderRungDone
  rw [show List.find? _ _ = _ from hr]
  dsimp only
  rw [hs]
  refine (if_neg (ne_true_of_eq_false hw)).trans (congrArg _ ?_)
  rw [h]
  rfl

theorem runs_ladderRungDone_decoded (h : r.rung = 0) :
    let x := readLine false (noiseOf noise (s.home r.line).line)
    x.ok = true →
    Runs (.ladderRungDone t r.id noise) s
      (((s.noteRead t (toChan (unit / 16)) x).learnStamp t unit slot r.bucket).homeGave t r unit slot x) := fun hx =>
  (exec_ladderRungDone_first noise hr hs hw h).trans (congrArg _ (if_pos hx))

theorem runs_ladderRungDone_repeat (h : r.rung = 0) :
    let x := readLine false (noiseOf noise (s.home r.line).line)
    let u := s.noteRead t (toChan (unit / 16)) x
    x.ok = false → foldServes u.tiles[t].d unit (u.home r.line).pidx = none →
    Runs (.ladderRungDone t r.id noise) s
      ((u.modLoad r.id fun x => { x with rung := x.rung + 1 }).readItem t r.id unit slot ((s.home r.line).line / 8)
        (repeatBucket r.bucket 1) false 0 (lineDie slot (s.home r.line).line)) := fun hx hf =>
  (exec_ladderRungDone_first noise hr hs hw h).trans
    (congrArg _ ((if_neg (ne_true_of_eq_false hx)).trans (State.homeRead_next _ hf)))

/-- The last rung accepts a page within eight erasures, and gives up on any other. -/
theorem runs_ladderRungDone_last (h : r.rung = 5) :
    Runs (.ladderRungDone t r.id noise) s (if withinCode r.reads 8 then s.pageGave t r unit slot r.reads
      else s.ladderFailed t r unit (s.home r.line).pidx (lineDie slot (s.home r.line).line) 5) := by
  change execLadderRungDone t r.id noise s = _
  unfold execLadderRungDone
  rw [show List.find? _ _ = _ from hr]
  dsimp only
  rw [hs]
  refine (if_neg (ne_true_of_eq_false hw)).trans (congrArg _ ?_)
  rw [h]
  rfl

end

/-! ### The ladder of a staged line (R159, R239) -/

/-- The reads of the other lines of a stripe, one by one, are counted. -/
def State.stripeReads (s : State) (t : TileId) (unit si : Nat) (dead : List Nat) (noise : Noise) : State :=
  forAll ((List.range 8).filter fun k => k ≠ si && !dead.contains k) (fun k s =>
    s.noteRead t (toChan (unit / 16)) (readLine (decide (k = 7)) (noiseOf noise k))) s

section
variable {s : State} {t : TileId} {r : LoadReq} {unit ring ss sp si : Nat} (noise : Noise) (hr : s.openRead t r.id = some r)
  (hs : r.src = .staged unit ring ss sp si) (hw : workLeft s.tiles[t].eng (.load r.id) = false)
include hr hs hw

/-- A line that its stripe does not give either is uncorrectable. -/
theorem runs_stagedLadderRungDone_failed (h : r.rung = 2) :
    let dead := s.deadIndexes t unit (256 * ring + ss) sp r.dead
    stripeGives dead noise si = false →
    Runs (.stagedLadderRungDone t r.id noise) s
      ((s.stripeReads t unit si dead noise).ladderFailed t r (s.home r.line).unit (s.home r.line).pidx
        ((256 * ring + ss + sp + si) % 8) 3) := by
  intro dead lost
  change execStagedLadderRungDone t r.id noise s = _
  unfold execStagedLadderRungDone
  rw [show List.find? _ _ = _ from hr]
  dsimp only
  rw [hs]
  refine (if_neg (ne_true_of_eq_false hw)).trans (congrArg _ ?_)
  rw [h]
  exact if_neg (ne_true_of_eq_false lost)

/-- The first read of a staged line gives the line of its stripe entry. -/
theorem runs_stagedLadderRungDone_decoded {y : Stripe} {e : StripeEntry} (h : r.rung = 0)
    (hy : (s.staged[t].stripes.reverse.find? fun x => x.unit = unit ∧ x.ring = ring ∧ x.t = 5 * ss + sp) = some y)
    (he : y.entries[si]? = some e) :
    let x := readLine false (noiseOf noise si)
    x.ok = true → metaWrong x = false →
    let v := ((s.noteRead t (toChan (unit / 16)) x).learnStamp t unit (256 * ring + ss) r.bucket).asRead e.val x
    Runs (.stagedLadderRungDone t r.id noise) s (v.2.ladderGave r v.1) := by
  intro x hx hm v
  have good : (x.ok && !metaWrong x) = true := by rw [hx, hm]; rfl
  change execStagedLadderRungDone t r.id noise s = _
  unfold execStagedLadderRungDone
  rw [show List.find? _ _ = _ from hr]
  dsimp only
  rw [hs]
  refine (if_neg (ne_true_of_eq_false hw)).trans (congrArg _ ?_)
  rw [h, hy, Option.bind_some, he]
  exact if_pos good

end

/-! ### Age stamps (R207 to R209) -/

section
variable {s : State} {t : TileId} (h1 : s.sys.state ≠ .sleepS1) (h2 : s.sys.state ≠ .sleepS2)
include h1 h2

theorem runs_ageSweepStep {i : Nat} (hi : i < 5242880) :
    Runs (.ageSweepStep t i) s (s.modD t fun d =>
      { setStamp d i (stampStep s.clock (stampRef d s.clock i) (stampAt d i)) with sweepAt := (i + 1) % 5242880 }) :=
  if_neg fun rests => rests.elim h1 (·.elim h2 (Nat.not_le.mpr hi))

/-- While no transition runs, no sleep entry waits for the catch-up. -/
theorem runs_ageCatchupStep (hp : s.tiles[t].d.catchP < 5242880) (ht : s.pwr.transition = 0) :
    Runs (.ageCatchupStep t) s (s.modD t fun d =>
      { setStamp d d.catchP (stampStep s.clock d.eClk.toNat (stampAt d d.catchP)) with catchP := d.catchP + 1 }) := by
  have noEntry (u : State) (hu : u.pwr = s.pwr) : u.sleepDrain = u := if_pos (by simp [hu, ht])
  exact (if_neg fun rests => rests.elim (Nat.not_le.mpr hp) (·.elim h1 h2)).trans (congrArg _ (noEntry _ rfl))

end

/-- The recovery sweep finds the bucket that decodes: the stamp of the page group is learnt from it. -/
theorem runs_recoverySweepVisit_decoded {s : State} {t : TileId} {i k : Nat} (tries : List (List Nat))
    (hr : s.tiles[t].d.recovery = true) (hw : ringWritten s.tiles[t].pl (i / 4 / 20480) (i / 4 % 20480) = true)
    (hu : stampAt s.tiles[t].d i = 0xFF) (hv : s.tiles[t].d.swept.contains i = false)
    (ho : s.chanOut t (toChan (i / 4 / 20480 / 16)) = false)
    (hy : fgReadWaits s.tiles[t].eng (toChan (i / 4 / 20480 / 16)) (i / 4 / 20480) = false) :
    let rs := (List.range 16).map fun k => readLine false (tries.getD k [])
    rs.findIdx? (·.ok) = some k →
    let u := (s.noteReads t (toChan (i / 4 / 20480 / 16)) (k + 1) 0 (rs.take (k + 1))).learnStamp t (i / 4 / 20480)
      (64 * (i % 327680) % 5242880) (repeatBucket (Sparse.get (8 : BitVec 4) s.tiles[t].d.hints (i / 4 / 20480)).toNat k)
    Runs (.recoverySweepVisit t i tries) s (u.modD t fun d => { d with recovery := unknownLeft u.tiles[t].pl d }) := by
  intro rs hk u
  change execRecoverySweepVisit t i tries s = _
  unfold execRecoverySweepVisit
  dsimp only
  refine (if_neg ?_).trans ?_
  · rw [hr, hw, hu, hv, ho, hy]
    decide
  · rw [show List.findIdx? _ _ = _ from hk]

/-! ### The rebuild into a spare (R245, R246) -/

/-- The lines of a piece whose share has been programmed on the spare: those of a stripe in the first stage, of a page later. -/
def State.rebuiltPiece (s : State) (t : TileId) (u ring k : Nat) (rb : Rebuild) (l : PageNoise) : State :=
  if rb.stage = 0 then (s.rebuildStripe t u ring k rb.ldie.toNat l.1).count t 7 2
  else (s.rebuildPage t u (256 * ring + k) l).count t 7 3

theorem State.rebuiltPiece_eq_count (s : State) (t : TileId) (u ring k : Nat) (rb : Rebuild) (l : PageNoise) :
    s.rebuiltPiece t u ring k rb l =
      (if rb.stage = 0 then s.rebuildStripe t u ring k rb.ldie.toNat l.1 else s.rebuildPage t u (256 * ring + k) l).count t 7
        (if rb.stage = 0 then 2 else 3) := by
  unfold rebuiltPiece
  by_cases staging : rb.stage = 0
  · rw [if_pos staging, if_pos staging, if_pos staging]
  · rw [if_neg staging, if_neg staging, if_neg staging]

section
variable {s : State} {t : TileId} {c : ChanId} (l : PageNoise) (ha : s.tiles[t].it.rebuild[c].active = true)
  (ho : s.chanOut t c = false)
include ha ho

/-- A stage with no ring left gives way to the next, and the last one ends the rebuild. -/
theorem exec_spareRebuildStep_stageDone (hn : rebuildNext s.tiles[t] c = none) :
    exec (.spareRebuildStep t c l) s =
      if s.tiles[t].it.rebuild[c].stage < 3 then .next (s.modRebuild t c fun r => { r with stage := r.stage + 1, rings := 0, piece := 0 })
      else .next (s.rebuildDone t c) := by
  change execSpareRebuildStep t c l s = _
  unfold execSpareRebuildStep
  dsimp only
  rw [ha, ho, hn]
  rfl

variable {u ring : Nat} (hn : rebuildNext s.tiles[t] c = some (u, ring))
include hn

theorem runs_spareRebuildStep_ringDone (hp : s.rebuildPiece t c u ring = none) :
    Runs (.spareRebuildStep t c l) s (s.rebuildRing t c u ring) := by
  change execSpareRebuildStep t c l s = _
  unfold execSpareRebuildStep
  dsimp only
  rw [ha, ho, hn]
  dsimp only
  rw [hp]
  rfl

variable {k : Nat} (hp : s.rebuildPiece t c u ring = some k) (hf : s.tiles[t].d.folds = [])
include hp hf

/-- Without an open fold the next piece begins. -/
theorem runs_spareRebuildStep_begin (hb : s.tiles[t].it.rebuild[c].busy = false) :
    Runs (.spareRebuildStep t c l) s (s.rebuildBegin t c u ring k) := by
  change execSpareRebuildStep t c l s = _
  unfold execSpareRebuildStep
  dsimp only
  rw [ha, ho, hn]
  dsimp only
  rw [hp]
  dsimp only
  rw [hb, hf, List.any_nil, Bool.and_false]
  rfl

/-- A piece whose program has succeeded is done. -/
theorem runs_spareRebuildStep_pieceDone (hb : s.tiles[t].it.rebuild[c].busy = true)
    (hg : progResult s.tiles[t].eng (.rebuild c.val) = some 0) (hl : workLeft s.tiles[t].eng (.rebuild c.val) = false) :
    Runs (.spareRebuildStep t c l) s
      (((s.endContexts t (.rebuild c.val)).rebuiltPiece t u ring k s.tiles[t].it.rebuild[c] l).modRebuild t c fun r =>
        { r with busy := false, started := false, piece := k + 1 }) := by
  change execSpareRebuildStep t c l s = _
  unfold execSpareRebuildStep
  dsimp only
  rw [ha, ho, hn]
  dsimp only
  rw [hp]
  dsimp only
  rw [hb, hg, hl, hf, List.any_nil, Bool.and_false, State.rebuiltPiece_eq_count]
  rfl

end

/-- Settles O43: each clause is the rule above for the case of the event that it names. -/
theorem readEventsComplete : Obligations.ReadEventsComplete := by
  intro s t
  refine ⟨fun r unit slot => runs_ladderRungDone_decoded, fun r unit slot => runs_ladderRungDone_last,
    fun r unit slot => runs_ladderRungDone_repeat, fun r unit ring ss sp si => runs_stagedLadderRungDone_failed,
    fun r unit ring ss sp si noise y e hr hs hw h => runs_stagedLadderRungDone_decoded noise hr hs hw h,
    fun i h1 h2 => runs_ageSweepStep h1 h2, runs_ageCatchupStep, fun i k => runs_recoverySweepVisit_decoded,
    fun c l ha ho hn h => (exec_spareRebuildStep_stageDone l ha ho hn).trans (if_pos h),
    fun c l ha ho hn h => (exec_spareRebuildStep_stageDone l ha ho hn).trans (if_neg (Nat.not_lt.mpr h)),
    fun c l u ring ha ho hn hp => runs_spareRebuildStep_ringDone l ha ho hn hp,
    fun c l u ring k ha ho hn hp hf hb => runs_spareRebuildStep_begin l ha ho hn hp hf hb,
    fun c l u ring k ha ho hn hp hf hb hg hl => runs_spareRebuildStep_pieceDone l ha ho hn hp hf hb hg hl⟩

end Sys2Proof.Machine
end

section
/-! The poison, scan and firmware commands (R255 to R258, R309, R346, R349, R353, R386, R387, R412, R682): one rule for each command
that is served. -/

namespace Sys2Proof.Machine

section
variable {s : State} {m : Iface} {i : List Byte}

/-! ### Poison (R255 to R257, R309) -/

theorem not_refused {b : Bool} (h : b = true) : ¬ (!b) = true := by
  rw [h]
  exact Bool.false_ne_true

/-- The length rule of a command with a range: a fixed length, and the range in order. -/
theorem lenIs_rangeOk {n : Nat} (hi : i.length = n) (hr : s.rangeOk i = true) : (lenIs n i && s.rangeOk i) = true := by
  rw [lenIs, decide_eq_true hi, hr, Bool.and_self]

theorem runs_getPoisonList (h : s.Served m 0x4300 i false false .poisonList) (hi : i.length = 16) (hr : s.rangeOk i = true)
    (he : inEntries (s.reach m) (fieldAt i 0 8 / 64) = true) (hn : fieldAt i 8 8 ≠ 0) :
    let l := s.visible m s.poison.list (fieldAt i 0 8 / 64) (fieldAt i 8 8)
    let x := l.take (((s.mbox m).limit - 32) / 16)
    Runs (.getPoisonList m) s (s.mbFinish m .success 0 (lay [(1, b2n (decide (x.length < l.length)) + 2 * b2n s.poison.overflow), (9, 0),
      (2, x.length), (20, 0)] ++ x.flatMap poisonRec)) :=
  (show execGetPoisonList m s = _ from State.command_served h (lenIs_rangeOk hi hr) _).trans
    (congrArg _ ((if_neg (not_refused he)).trans (if_neg hn)))

/-- With fewer than 256 injected lines the limit of R257 refuses none, whether the list holds it or not. -/
theorem runs_injectPoison (h : s.Served m 0x4301 i false false .injectPoison) (hi : i.length = 8)
    (he : inEntries (s.reach m) (fieldAt i 0 8 / 64) = true) (hp : s.poison.injected < 256) :
    Runs (.injectPoison m) s (s.commandStore m (fieldAt i 0 8 / 64) 0 true) :=
  (show execInjectPoison m s = _ from State.command_served h (decide_eq_true hi) _).trans
    (congrArg _ ((if_neg (not_refused he)).trans (if_neg fun full => Nat.not_le.mpr hp full.1)))

theorem runs_clearPoison (h : s.Served m 0x4302 i false false .injectPoison) (hi : i.length = 72)
    (he : inEntries (s.reach m) (fieldAt i 0 8 / 64) = true) :
    Runs (.clearPoison m) s (s.commandStore m (fieldAt i 0 8 / 64) (bytesLine (bytesAt i 8 64)) false) :=
  (show execClearPoison m s = _ from State.command_served h (decide_eq_true hi) _).trans (congrArg _ (if_neg (not_refused he)))

/-! ### Scan Media (R258, R349) -/

theorem runs_getScanMediaCapabilities (h : s.Served m 0x4303 i false false .injectPoison) (hi : i.length = 16)
    (hr : s.rangeOk i = true) (hc : coversRange (s.reach m) (fieldAt i 0 8 / 64) (fieldAt i 8 8) = true) :
    let q := 2000000 * recT s.cfg.record
    Runs (.getScanMediaCapabilities m) s (s.reply m (leBytes 4 ((64 * fieldAt i 8 8 + q - 1) / q))) :=
  (show execGetScanMediaCapabilities m s = _ from State.command_served h (lenIs_rangeOk hi hr) _).trans
    (congrArg _ (if_neg (not_refused hc)))

theorem runs_scanMedia (h : s.Served m 0x4304 i false true .injectPoison) (hi : i.length = 17) (hr : s.rangeOk i = true)
    (hc : coversRange (s.reach m) (fieldAt i 0 8 / 64) (fieldAt i 8 8) = true) (hb : s.svc.bg = none) :
    Runs (.scanMedia m) s
      ({ s with poison := { s.poison with scan := [], scanMore := false, scanRest := (0, 0) } }.startBackground m 0x4304 i) := by
  have idle : ¬ s.svc.bg.isSome = true := by
    rw [hb]
    exact Bool.false_ne_true
  exact (show execScanMedia m s = _ from State.command_served h (lenIs_rangeOk hi hr) _).trans
    (congrArg _ ((if_neg (not_refused hc)).trans (if_neg idle)))

/-- Without results no record is returned and none leaves: the indication of more is what the scan left. -/
theorem runs_getScanMediaResults_none (h : s.Served m 0x4305 i false false .poisonList) (hi : i.length = 0)
    (hs : s.poison.scan = []) :
    Runs (.getScanMediaResults m) s (s.mbFinish m .success 0 (lay [(8, 64 * s.poison.scanRest.1), (8, s.poison.scanRest.2),
      (1, b2n s.poison.scanMore), (1, 0), (2, 0), (12, 0)])) := by
  have kept : { s with poison := { s.poison with scan := [] } } = s := by rw [← hs]
  refine (show execGetScanMediaResults m s = _ from State.command_served h (decide_eq_true hi) _).trans (congrArg _ ?_)
  dsimp only
  rw [hs]
  simp only [List.filter_nil, List.take_nil, List.flatMap_nil, List.append_nil, List.length_nil, kept, Nat.lt_irrefl,
    decide_false, Bool.false_or]

/-! ### Firmware (R353, R386, R387, R412, R682) -/

/-- Two slots, the active and the pending one, and activation at a cold reset only. -/
theorem runs_getFwInfo (h : s.Served m 0x0200 i false false .identify) (hi : i.length = 0) :
    ∃ o : List Byte, Runs (.getFwInfo m) s (s.reply m o) ∧
      bytesAt o 0 3 = [2, BitVec.ofNat 8 (s.activeSlot + 8 * (s.pendingSlot % 4)), 0] :=
  ⟨_, show execGetFwInfo m s = _ from State.command_served h (decide_eq_true hi) _, rfl⟩

/-- The length rule of Transfer FW: a head of 128 bytes and data in units of 128 bytes that end within the slot. -/
theorem transferFits (hl : 128 < i.length) (hu : i.length % 128 = 0) (hn : fieldAt i 4 4 ≠ 2 ^ 32 - 1)
    (he : 128 * fieldAt i 4 4 + (i.length - 128) ≤ 2 ^ 21) :
    (decide (128 ≤ i.length) && decide (i.length % 128 = 0) && !allOnes 4 (fieldAt i 4 4)
      && decide (128 * fieldAt i 4 4 + (i.length - 128) ≤ 2 ^ 21)) = true := by
  have known : allOnes 4 (fieldAt i 4 4) = false := decide_eq_false hn
  rw [decide_eq_true (Nat.le_of_lt hl), decide_eq_true hu, known, decide_eq_true he]
  rfl

theorem transferData_ne_nil (hl : 128 < i.length) : i.drop 128 ≠ [] := fun empty =>
  Nat.not_le.mpr hl (List.drop_eq_nil_iff.mp empty)

/-- A whole image, or the first part of one, goes into a slot that the Stag does not fetch from. -/
theorem runs_transferFw_first (h : s.Served m 0x0201 i true false .identify) (hl : 128 < i.length) (hu : i.length % 128 = 0)
    (ho : fieldAt i 4 4 = 0) (he : i.length - 128 ≤ 2 ^ 21) (ha : fieldAt i 0 1 ≤ 1)
    (hs : fieldAt i 1 1 = 1 ∨ fieldAt i 1 1 = 2) (hf : fieldAt i 1 1 ≠ s.activeSlot) (hx : s.svc.fwXfer = none) :
    Runs (.transferFw m ()) s (s.takePart m (fieldAt i 1 1) 0 (i.drop 128) (fieldAt i 0 1 = 0)) := by
  have idle : ¬ s.svc.fwXfer.isSome = true := by
    rw [hx]
    exact Bool.false_ne_true
  have inOrder : ¬ (128 * fieldAt i 4 4 ≠ 0 ∨ i.drop 128 = []) := by
    rintro (off | empty)
    · exact off (by rw [ho])
    · exact transferData_ne_nil hl empty
  refine (show execTransferFw m () s = _ from State.command_served h ?_ _).trans (congrArg _ ?_)
  · exact transferFits hl hu (by omega) (by omega)
  · exact (if_neg (by omega)).trans <| (if_neg (by omega)).trans <| (if_pos ha).trans <| (if_neg (by omega)).trans <|
      (if_neg hf).trans <| (if_neg idle).trans (if_neg inOrder)

/-- A later part that begins where the image so far ends joins it. -/
theorem runs_transferFw_next {w : FwImage} {sl : Nat} (h : s.Served m 0x0201 i true false .identify) (hl : 128 < i.length)
    (hu : i.length % 128 = 0) (hn : fieldAt i 4 4 ≠ 2 ^ 32 - 1) (he : 128 * fieldAt i 4 4 + (i.length - 128) ≤ 2 ^ 21)
    (ha : fieldAt i 0 1 = 2 ∨ fieldAt i 0 1 = 3) (hx : s.svc.fwXfer = some (sl, w)) (ho : w.length = 128 * fieldAt i 4 4) :
    Runs (.transferFw m ()) s (s.takePart m sl w.length (w ++ i.drop 128) (fieldAt i 0 1 = 3)) := by
  have inOrder : ¬ (w.length ≠ w.length ∨ i.drop 128 = []) := by
    rintro (off | empty)
    · exact off rfl
    · exact transferData_ne_nil hl empty
  refine (show execTransferFw m () s = _ from State.command_served h ?_ _).trans (congrArg _ ?_)
  · exact transferFits hl hu hn he
  · refine (if_neg (by omega)).trans <| (if_neg (by omega)).trans <| (if_neg (by omega)).trans ?_
    rw [hx, ← ho]
    exact if_neg inOrder

/-- A slot that verifies becomes the pending one; the command waits for the parameter store. -/
theorem runs_activateFw {f : FwImage} (h : s.Served m 0x0202 i true false .identify) (hi : i.length = 2) (ha : fieldAt i 0 1 = 1)
    (hs : fieldAt i 1 1 = 1 ∨ fieldAt i 1 1 = 2) (hx : s.svc.fwXfer = none) (hf : s.slotImage s.lead (fieldAt i 1 1) = some f)
    (hv : s.fwCheck f = none) (hp : s.supplyOk 50 s.svcTiles.length = true) :
    let u := s.twinEnqueue 1 1 (putBytes s.bootSelect 1 [BitVec.ofNat 8 (fieldAt i 1 1), 0])
    Runs (.activateFw m) s { u with svc := { u.svc with
      waiting := some (m, .prm), waitOut := [], recoveryRestart := u.svc.recoveryRestart || u.boot.recovery } } := by
  have idle : ¬ (s.svc.fwXfer.any fun x => x.1 = fieldAt i 1 1) = true := by
    rw [hx]
    exact Bool.false_ne_true
  refine (show execActivateFw m s = _ from State.command_served h (decide_eq_true hi) _).trans (congrArg _ ?_)
  refine (if_neg (not_not_intro ha)).trans <| (if_neg (by omega)).trans <| (if_neg idle).trans ?_
  rw [hf]
  dsimp only
  rw [hv]
  exact if_neg (supply_held hp)

end

/-- Settles O52: each clause is the rule above for the command and the case that it names. -/
theorem poisonAndFirmwareCommandsComplete : Obligations.PoisonAndFirmwareCommandsComplete := fun _ _ _ =>
  ⟨runs_getPoisonList, runs_injectPoison, runs_clearPoison, runs_getScanMediaCapabilities, runs_scanMedia,
    runs_getScanMediaResults_none, runs_getFwInfo, runs_transferFw_first, fun _ _ => runs_transferFw_next,
    fun _ => runs_activateFw⟩

end Sys2Proof.Machine
end

section
/-! The dispatch of work and the steps of Gait programs (R274, R276 to R280, R285 to R288): one rule for each event and each case of it. -/

namespace Sys2Proof.Machine

/-! ### Dispatch (R276 to R280) -/

@[simp] theorem State.count_tiles (s : State) (t b i n : Nat) : (s.count t b i n).tiles = s.tiles :=
  State.count_changes.keeps .tiles rfl

theorem ctxOf_isSome_of_mem {e : Engine} {x : Context} (h : x ∈ e.ctxs) (hr : x.released = false) :
    (ctxOf e x.duiker x.ctx).isSome = true :=
  List.find?_isSome.mpr ⟨x, h, by simp [hr]⟩

/-- The context that a dispatched item gets: its program is that of its role in the band of its channel (R283). -/
def State.newContext (u : State) (e : Engine) (t : TileId) (k : Fin 64) (j : Fin 4) (w : WorkItem) : Context :=
  { duiker := k, ctx := j, item := w, pslot := slotOfRole e w.role u.tiles[t].ch[toChan w.chan].band.toNat }

/-- The item numbered `id` leaves its queue, and the context `x` begins. -/
def State.beginContext (u : State) (t : TileId) (id : Nat) (x : Context) : State :=
  (u.modEng t fun e => { e with queues := vmap e.queues fun _ q => q.filter (·.id ≠ id), ctxs := e.ctxs ++ [x] }).count t 5 0

/-- Herd `h` has taken an item from a queue of herd `q` (R280). -/
def State.noteStolen (u : State) (t : TileId) (q h : Nat) : State :=
  (u.modEng t fun e => { e with stolenFrom := vmod e.stolenFrom (toChan q) (satAdd · 1)
                                stolenBy := vmod e.stolenBy (toChan h) (satAdd · 1) }).count t 5 1

theorem State.beginContext_mem (u : State) (t : TileId) (id : Nat) (x : Context) :
    x ∈ (u.beginContext t id x).tiles[t].eng.ctxs := by
  simp [beginContext]

theorem State.noteStolen_ctxs (u : State) (t : TileId) (q h : Nat) : (u.noteStolen t q h).tiles[t].eng.ctxs = u.tiles[t].eng.ctxs := by
  simp [noteStolen]

section
variable {s : State} {t : TileId} {k : Fin 64} {j : Fin 4} {w : WorkItem} {q : Nat}
  (hf : (ctxOf s.tiles[t].eng k j).isNone = true) (hs : s.inSvc t = true) (hd : s.tiles[t].eng.stopDispatch = false)
  (hw : s.dispatchItem t (k.val / 16) j = some (w, q))
include hf hs hd hw

/-- A free context takes the item that the dispatcher gives it; only a stripe is placed before it begins. -/
theorem exec_workDispatch_taken : ∃ (v : WorkItem) (u : State), ((∀ q, w.use ≠ .stripe q) → v = w ∧ u = s) ∧
    exec (.workDispatch t k j) s = .next (
      let b := u.beginContext t w.id (u.newContext s.tiles[t].eng t k j v)
      if q = k.val / 16 then b else b.noteStolen t q (k.val / 16)) := by
  have free : ¬ ((ctxOf s.tiles[t].eng k j).isSome || !s.inSvc t) = true := by
    rw [Option.isNone_iff_eq_none.mp hf, hs]
    exact Bool.false_ne_true
  change ∃ v u, _ ∧ execWorkDispatch t k j s = _
  unfold execWorkDispatch
  dsimp only
  rw [if_neg free, hd, if_neg Bool.false_ne_true, hw]
  dsimp only
  refine ⟨_, _, fun plain => ?_, (apply_ite Host.Outcome.next _ _ _).symm⟩
  split
  · next isStripe => exact absurd isStripe (plain _)
  · exact ⟨rfl, rfl⟩

theorem runs_workDispatch (hu : ∀ q, w.use ≠ .stripe q) (hq : q = k.val / 16) :
    Runs (.workDispatch t k j) s (s.beginContext t w.id (s.newContext s.tiles[t].eng t k j w)) := by
  obtain ⟨v, u, plain, run⟩ := exec_workDispatch_taken hf hs hd hw
  obtain ⟨rfl, rfl⟩ := plain hu
  exact run.trans (congrArg _ (if_pos hq))

/-- The context of any item that was taken, stolen or not, holds a program. -/
theorem runs_workDispatch_occupies : ∃ u, Runs (.workDispatch t k j) s u ∧ (ctxOf u.tiles[t].eng k j).isSome = true := by
  obtain ⟨v, u, -, run⟩ := exec_workDispatch_taken hf hs hd hw
  refine ⟨_, run, ctxOf_isSome_of_mem (x := u.newContext s.tiles[t].eng t k j v) ?_ rfl⟩
  dsimp only
  split
  · exact u.beginContext_mem ..
  · rw [State.noteStolen_ctxs]
    exact u.beginContext_mem ..

end

/-! ### ISSUE (R286, R288) -/

/-- The dies that an ISSUE goes to: all of the item's target dies, or the first. -/
def issuePositions (x : Tile) (i : WorkItem) (w : BitVec 32) : List (Fin 9) :=
  if stepB w / 16 % 2 = 1 then itemPos x i else (itemPos x i).take 1

section
variable {s : State} {t : TileId} {k : Fin 64} {j : Fin 4} {x : Context} {w : BitVec 32} (l : IssueLine)
  (hx : ctxStep s.tiles[t].eng k j 1 = some (x, w))
include hx

/-- A foreground read is handed to the scheduler of its channel: nothing holds it, and no frame goes out yet. -/
theorem runs_gaitIssue_scheduled (ha : stepA w ≤ 1) (hc : x.item.cls = .fgRead) :
    Runs (.gaitIssue t k j l) s (s.putCtx t x fun _ =>
      { x with cmd := stepA w, arg := stepB w, pc := x.pc + 1, issued := [], counts := [], sent := [] }) := by
  change execGaitIssue t k j l s = _
  unfold execGaitIssue
  rw [hx]
  dsimp only
  refine (if_neg ?_).trans (if_pos ⟨by omega, hc⟩)
  have notProg : stepA w ≠ 4 := by omega
  simp [State.issueHeld, hc, notProg]

/-- Any other command of the media, READ_LINE to PROG_STEP, goes to its dies at once. -/
theorem runs_gaitIssue_sent (ha : stepA w ≤ 4) (hc : 2 ≤ stepA w ∨ x.item.cls ≠ .fgRead)
    (hh : s.issueHeld t { x with cmd := stepA w, arg := stepB w } (issuePositions s.tiles[t] x.item w) = false) :
    let pos := issuePositions s.tiles[t] x.item w
    let y := { x with
      cmd := stepA w, arg := stepB w, pc := x.pc + 1, issued := if fetches (stepA w) then pos.map (·.val) else [], counts := [],
      sent := [], progStarted := x.progStarted || decide (stepA w = 4) }
    let v := s.putCtx t x fun _ => y
    Runs (.gaitIssue t k j l) s (forAll pos (fun p s => s.issue t y p (noiseOf l.ca p) (noiseOf l.dq p))
      (if stepA w = 4 && !x.progStarted then v.programStarts t x.item else v)) := by
  change execGaitIssue t k j l s = _
  unfold execGaitIssue
  rw [hx]
  simp only [decide_eq_true_eq]
  refine (if_neg (ne_true_of_eq_false hh)).trans ((if_neg ?_).trans ?_)
  · rintro ⟨read, fg⟩
    obtain two | bg := hc
    · omega
    · exact bg fg
  · split
    · omega
    · omega
    · omega
    · rfl

/-- After STATUS the context waits for the blocks of the dies that heard it. -/
theorem runs_gaitIssue_status (ha : stepA w = 5)
    (hh : s.issueHeld t { x with cmd := 5, arg := stepB w } (issuePositions s.tiles[t] x.item w) = false) :
    let pos := issuePositions s.tiles[t] x.item w
    let y := { x with
      cmd := 5, arg := stepB w, st := .fetch, issued := pos.map (·.val)
      sent := (pos.filter fun (p : Fin 9) => s.tiles[t].ch[toChan x.item.chan].hears .status (noiseOf l.ca p.val)).map
        fun (p : Fin 9) => (p.val, statusPayload s.tiles[t].ch[toChan x.item.chan].dies[p]) }
    Runs (.gaitIssue t k j l) s (forAll pos (fun p s => s.issue t y p (noiseOf l.ca p) []) (s.putCtx t x fun _ => y)) := by
  change execGaitIssue t k j l s = _
  unfold execGaitIssue
  rw [hx]
  simp only [decide_eq_true_eq]
  rw [ha]
  exact (if_neg (ne_true_of_eq_false hh)).trans (if_neg (by omega))

/-- READ_TEMP and READ_PARAM end with the data of one die. -/
theorem runs_gaitIssue_readOut {p : Fin 9} {ps : List (Fin 9)} (ha : stepA w = 6 ∨ stepA w = 7)
    (hp : issuePositions s.tiles[t] x.item w = p :: ps) :
    let y := { x with cmd := stepA w, arg := stepB w }
    s.issueHeld t y (p :: ps) = false →
    Runs (.gaitIssue t k j l) s ((s.setCtx t x y).readOut t y p l.reading (noiseOf l.ca p) (noiseOf l.dq p)) := by
  intro y hh
  have pos : (if stepB w / 16 % 2 = 1 then itemPos s.tiles[t] x.item else (itemPos s.tiles[t] x.item).take 1) = p :: ps := hp
  change execGaitIssue t k j l s = _
  unfold execGaitIssue
  rw [hx]
  simp only [decide_eq_true_eq]
  rw [pos]
  refine (if_neg (ne_true_of_eq_false hh)).trans ((if_neg (by omega)).trans ?_)
  obtain ha | ha := ha
  · simp only [y, ha]
  · simp only [y, ha]

end

/-! ### WAIT and FETCH (R274, R287, R288) -/

section
variable {s : State} {t : TileId} {k : Fin 64} {j : Fin 4} {x : Context} {w : BitVec 32}

theorem runs_gaitWait (hx : ctxStep s.tiles[t].eng k j 2 = some (x, w)) :
    Runs (.gaitWait t k j) s (s.putCtx t x fun x => { x with st := .wait }) := by
  change execGaitWait t k j s = _
  rw [execGaitWait, hx]

theorem runs_gaitWaitExpiry (hx : ctxOf s.tiles[t].eng k j = some x) (hw : x.st = .wait) (hs : x.suspended = []) :
    Runs (.gaitWaitExpiry t k j) s ((s.putCtx t x (fun x => { x with st := .ready, pc := x.pc + 1 }) 0).pulsesEnd t x.item) := by
  change execGaitWaitExpiry t k j s = _
  rw [execGaitWaitExpiry, hx]
  exact if_pos ⟨hw, hs⟩

/-- The results are fetched, and after a read each partition is resumed that no other read waits for. -/
theorem runs_gaitFetch (hx : ctxStep s.tiles[t].eng k j 3 = some (x, w)) (hi : x.issued ≠ []) (hs : x.suspended = [])
    (hf : x.item.cls = .fgRead ∨ fgAtScheduler s.tiles[t].eng (toChan x.item.chan) = false) :
    let y := { x with st := .fetch, released := x.item.isRead, sent := [] }
    let v := ((s.putCtx t x fun _ => y).pulsesEnd t x.item).fetchEach t y x.issued
    Runs (.gaitFetch t k j) s (if x.item.isRead
      then forAll x.issued (fun p s => s.resume t (toChan x.item.chan) (toDie p) x.item.part) v else v) := by
  have goes : ¬ (x.issued = [] ∨ x.suspended ≠ [] ∨
      (x.item.cls ≠ .fgRead ∧ fgAtScheduler s.tiles[t].eng (toChan x.item.chan))) := by
    rintro (none | held | ⟨bg, first⟩)
    · exact hi none
    · exact held hs
    · exact hf.elim bg (ne_true_of_eq_false · first)
  change execGaitFetch t k j s = _
  rw [execGaitFetch, hx]
  exact if_neg goes

/-! ### Counters, jumps and END (R274, R285) -/

theorem runs_gaitVchk (hx : ctxStep s.tiles[t].eng k j 4 = some (x, w)) :
    let exceeding := ((x.counts.filter fun n => n.2 > stepB w % 256).map (·.1)).eraseDups
    Runs (.gaitVchk t k j) s (s.putCtx t x fun x =>
      { x with pc := if exceeding = [] then stepTarget w else x.pc + 1, exceeding := exceeding }) := by
  change execGaitVchk t k j s = _
  rw [execGaitVchk, hx]

theorem runs_gaitSetc_k0 (hx : ctxStep s.tiles[t].eng k j 5 = some (x, w)) (ha : stepA w = 0) :
    Runs (.gaitSetc t k j) s (s.putCtx t x fun x => { x with pc := x.pc + 1, k0 := stepB w % 16 }) := by
  change execGaitSetc t k j s = _
  rw [execGaitSetc, hx]
  simp only [if_pos ha]

theorem runs_gaitSetc_k1 (hx : ctxStep s.tiles[t].eng k j 5 = some (x, w)) (ha : stepA w ≠ 0) :
    Runs (.gaitSetc t k j) s (s.putCtx t x fun x => { x with pc := x.pc + 1, k1 := stepB w % 16 }) := by
  change execGaitSetc t k j s = _
  rw [execGaitSetc, hx]
  simp only [if_neg ha]

theorem runs_gaitDecj_k0 (hx : ctxStep s.tiles[t].eng k j 6 = some (x, w)) (ha : stepA w = 0) :
    Runs (.gaitDecj t k j) s (s.putCtx t x fun x =>
      { x with pc := if x.k0 - 1 ≠ 0 then stepTarget w else x.pc + 1, k0 := x.k0 - 1 }) := by
  change execGaitDecj t k j s = _
  rw [execGaitDecj, hx]
  simp only [if_pos ha]

theorem runs_gaitDecj_k1 (hx : ctxStep s.tiles[t].eng k j 6 = some (x, w)) (ha : stepA w ≠ 0) :
    Runs (.gaitDecj t k j) s (s.putCtx t x fun x =>
      { x with pc := if x.k1 - 1 ≠ 0 then stepTarget w else x.pc + 1, k1 := x.k1 - 1 }) := by
  change execGaitDecj t k j s = _
  rw [execGaitDecj, hx]
  simp only [if_neg ha]

theorem runs_gaitJump (hx : ctxStep s.tiles[t].eng k j 7 = some (x, w)) :
    Runs (.gaitJump t k j) s (s.putCtx t x fun x => { x with pc := stepTarget w }) := by
  change execGaitJump t k j s = _
  rw [execGaitJump, hx]

theorem runs_gaitEnd (hx : ctxStep s.tiles[t].eng k j 0 = some (x, w)) :
    Runs (.gaitEnd t k j) s ((s.endProgram t x (if stepB w % 256 = 0 then []
      else if x.exceeding = [] then (itemPos s.tiles[t] x.item).map (·.val) else x.exceeding)).count t 5 6) := by
  change execGaitEnd t k j s = _
  rw [execGaitEnd, hx]

end

/-- Settles O45: each clause is the rule above for the case of the event that it names. -/
theorem gaitEventsComplete : Obligations.GaitEventsComplete := by
  intro s t k j
  exact ⟨fun _ _ => runs_workDispatch, rfl, fun _ _ => runs_workDispatch_occupies,
    fun _ _ _ _ _ => runs_gaitIssue_scheduled _, fun _ _ _ _ _ => runs_gaitIssue_sent _,
    fun _ _ _ _ _ => runs_gaitIssue_status _, fun _ _ _ _ _ _ _ hx => runs_gaitIssue_readOut _ hx,
    fun _ _ => runs_gaitWait, fun _ => runs_gaitWaitExpiry, fun _ _ => runs_gaitFetch, fun _ _ => runs_gaitVchk,
    fun _ _ => runs_gaitSetc_k0, fun _ _ => runs_gaitSetc_k1, fun _ _ => runs_gaitDecj_k0, fun _ _ => runs_gaitDecj_k1,
    fun _ _ => runs_gaitJump, fun _ _ => runs_gaitEnd⟩

end Sys2Proof.Machine
end

section
/-! Every step: what the command at the front of the queue may change, and that the bounds of R326 and R631 are kept. -/

namespace Sys2Proof.Machine

/-- Every command completes, within the groups that it may write. -/
theorem exec_changes : ∀ (c : Instr) (s : State), Ends (writes c) s (exec c s)
  | .vaonGood, _ => execVaonGood_changes.step .refl
  | .vaonLoss, _ => execVaonLoss_changes.step .refl
  | .xtalStartTimeout, _ => execXtalStartTimeout_changes.step .refl
  | .fixedRailPgTimeout .., _ => execFixedRailPgTimeout_changes.step .refl
  | .fixedRailRestartTimer, _ => execFixedRailRestartTimer_changes.step .refl
  | .rootPllLock, _ => execRootPllLock_changes.step .refl
  | .packageResetRelease, _ => execPackageResetRelease_changes.step .refl
  | .pkgRstNFall, _ => execPkgRstNFall_changes.step .refl
  | .pkgRstNRise, _ => execPkgRstNRise_changes.step .refl
  | .tileSelftestDone .., _ => execTileSelftestDone_changes.step .refl
  | .selftestWindowClose, _ => execSelftestWindowClose_changes.step .refl
  | .optionAreaRead, _ => execOptionAreaRead_changes.step .refl
  | .firmwareSlotChoice, _ => execFirmwareSlotChoice_changes.step .refl
  | .tileFirmwareVerify .., _ => execTileFirmwareVerify_changes.step .refl
  | .tileFirmwareRewriteDone .., _ => execTileFirmwareRewriteDone_changes.step .refl
  | .recoveryRestartTimer, _ => execRecoveryRestartTimer_changes.step .refl
  | .mailboxReady, _ => execMailboxReady_changes.step .refl
  | .recordJudge, _ => execRecordJudge_changes.step .refl
  | .railPowerGood .., _ => execRailPowerGood_changes.step .refl
  | .railRampTimeout .., _ => execRailRampTimeout_changes.step .refl
  | .railRunningFault .., _ => execRailRunningFault_changes.step .refl
  | .railRetryTimer, _ => execRailRetryTimer_changes.step .refl
  | .mediaRailLowerStep, _ => execMediaRailLowerStep_changes.step .refl
  | .medrstStretchEnd .., _ => execMedrstStretchEnd_changes.step .refl
  | .boardRstStretchEnd, _ => execBoardRstStretchEnd_changes.step .refl
  | .dieTinitEnd .., _ => execDieTinitEnd_changes.step .refl
  | .unitRecordCheck, _ => execUnitRecordCheck_changes.step .refl
  | .interruptedEraseCompletion, _ => execInterruptedEraseCompletion_changes.step .refl
  | .staticExtentCreate, _ => execStaticExtentCreate_changes.step .refl
  | .replayStart, _ => execReplayStart_changes.step .refl
  | .replayEnd .., _ => execReplayEnd_changes.step .refl
  | .leadHeartbeatTimer, _ => execLeadHeartbeatTimer_changes.step .refl
  | .tileHeartbeatTimeout .., _ => execTileHeartbeatTimeout_changes.step .refl
  | .tileFatalReport .., _ => execTileFatalReport_changes.step .refl
  | .rescueFlushDone .., _ => execRescueFlushDone_changes.step .refl
  | .leadReportAbsent, _ => execLeadReportAbsent_changes.step .refl
  | .loneLossFlushEnd .., _ => execLoneLossFlushEnd_changes.step .refl
  | .memrd .., _ => execMemrd_changes.step .refl
  | .memspecrd .., _ => execMemspecrd_changes.step .refl
  | .meminv .., _ => execMeminv_changes.step .refl
  | .memclnevct .., _ => execMemclnevct_changes.step .refl
  | .memwr .., _ => execMemwr_changes.step .refl
  | .memwrptl .., _ => execMemwrptl_changes.step .refl
  | .forbiddenMemMessage .., _ => execForbiddenMemMessage_changes.step .refl
  | .stripeCloseTimer .., _ => execStripeCloseTimer_changes.step .refl
  | .stripeProgramEnd _ _ n, _ => (execStripeProgramEnd_changes (a2 := n)).step .refl
  | .bucketSlotFreed .., _ => execBucketSlotFreed_changes.step .refl
  | .postedHoldRelease .., _ => execPostedHoldRelease_changes.step .refl
  | .wayWaitRelease .., _ => execWayWaitRelease_changes.step .refl
  | .storeAcknowledge .., _ => execStoreAcknowledge_changes.step .refl
  | .loadResponseEgress .., _ => execLoadResponseEgress_changes.step .refl
  | .loadDeadlineExpiry .., _ => execLoadDeadlineExpiry_changes.step .refl
  | .gpfFlushDone .., _ => execGpfFlushDone_changes.step .refl
  | .stagingStallTimeout .., _ => execStagingStallTimeout_changes.step .refl
  | .foldClaim .., _ => execFoldClaim_changes.step .refl
  | .foldReadDone .., _ => execFoldReadDone_changes.step .refl
  | .foldCarryVerified .., _ => execFoldCarryVerified_changes.step .refl
  | .foldProgramEnd _ _ _ n, _ => (execFoldProgramEnd_changes (a3 := n)).step .refl
  | .foldReadbackDone .., _ => execFoldReadbackDone_changes.step .refl
  | .gapMoveStart .., _ => execGapMoveStart_changes.step .refl
  | .gapMoveVerify .., _ => execGapMoveVerify_changes.step .refl
  | .unitRecordWrite .., _ => execUnitRecordWrite_changes.step .refl
  | .rowReclaimDone .., _ => execRowReclaimDone_changes.step .refl
  | .extentReleaseComplete .., _ => execExtentReleaseComplete_changes.step .refl
  | .ageSweepStep .., _ => execAgeSweepStep_changes.step .refl
  | .ageCatchupStep .., _ => execAgeCatchupStep_changes.step .refl
  | .recoverySweepVisit .., _ => execRecoverySweepVisit_changes.step .refl
  | .foregroundReadArrival .., _ => execForegroundReadArrival_changes.step .refl
  | .ladderRungDone .., _ => execLadderRungDone_changes.step .refl
  | .stagedLadderRungDone .., _ => execStagedLadderRungDone_changes.step .refl
  | .spareRebuildStep .., _ => execSpareRebuildStep_changes.step .refl
  | .workDispatch .., _ => execWorkDispatch_changes.step .refl
  | .queueRoomFreed .., _ => execQueueRoomFreed_changes.step .refl
  | .gaitEnd .., _ => execGaitEnd_changes.step .refl
  | .gaitIssue .., _ => execGaitIssue_changes.step .refl
  | .gaitWait .., _ => execGaitWait_changes.step .refl
  | .gaitWaitExpiry .., _ => execGaitWaitExpiry_changes.step .refl
  | .gaitFetch .., _ => execGaitFetch_changes.step .refl
  | .fetchBurstReceived .., _ => execFetchBurstReceived_changes.step .refl
  | .gaitVchk .., _ => execGaitVchk_changes.step .refl
  | .gaitSetc .., _ => execGaitSetc_changes.step .refl
  | .gaitDecj .., _ => execGaitDecj_changes.step .refl
  | .gaitJump .., _ => execGaitJump_changes.step .refl
  | .yalertAssert .., _ => execYalertAssert_changes.step .refl
  | .statusPollResult _ _ _ _ _ _ n, _ => (execStatusPollResult_changes (a6 := n)).step .refl
  | .scrambleCounterExhausted .., _ => execScrambleCounterExhausted_changes.step .refl
  | .sramScrubVisit .., _ => execSramScrubVisit_changes.step .refl
  | .directoryBucketRebuilt .., _ => execDirectoryBucketRebuilt_changes.step .refl
  | .placementWordReloaded .., _ => execPlacementWordReloaded_changes.step .refl
  | .patrolVisitStart .., _ => execPatrolVisitStart_changes.step .refl
  | .patrolVisitDone .., _ => execPatrolVisitDone_changes.step .refl
  | .patrolCursorSave, _ => execPatrolCursorSave_changes.step .refl
  | .headLinkUp .., _ => execHeadLinkUp_changes.step .refl
  | .headLinkDown .., _ => execHeadLinkDown_changes.step .refl
  | .headTrainRetry h, _ => (execHeadTrainRetry_changes (a0 := h)).step .refl
  | .headRefclkLoss .., _ => execHeadRefclkLoss_changes.step .refl
  | .configRequest .., _ => execConfigRequest_changes.step .refl
  | .hdmDecoderCommit .., _ => execHdmDecoderCommit_changes.step .refl
  | .d3hotTransition .., _ => execD3hotTransition_changes.step .refl
  | .gpfPhase1 h, _ => (execGpfPhase1_changes (a0 := h)).step .refl
  | .gpfPhase2 .., _ => execGpfPhase2_changes.step .refl
  | .dcOfferTimeout .., _ => execDcOfferTimeout_changes.step .refl
  | .dcReleaseHostTimeout .., _ => execDcReleaseHostTimeout_changes.step .refl
  | .ideIntegrityFailure .., _ => execIdeIntegrityFailure_changes.step .refl
  | .cxlIdeKm .., _ => execCxlIdeKm_changes.step .refl
  | .doeDiscovery .., _ => execDoeDiscovery_changes.step .refl
  | .spdmRequest .., _ => execSpdmRequest_changes.step .refl
  | .cdatTableAccess .., _ => execCdatTableAccess_changes.step .refl
  | .conventionalReset .., _ => execConventionalReset_changes.step .refl
  | .functionLevelReset .., _ => execFunctionLevelReset_changes.step .refl
  | .cxlReset .., _ => execCxlReset_changes.step .refl
  | .mailboxDoorbell .., _ => execMailboxDoorbell_changes.step .refl
  | .unsupportedCommand .., _ => execUnsupportedCommand_changes.step .refl
  | .identify .., _ => execIdentify_changes.step .refl
  | .backgroundOperationStatus .., _ => execBackgroundOperationStatus_changes.step .refl
  | .getResponseMessageLimit .., _ => execGetResponseMessageLimit_changes.step .refl
  | .setResponseMessageLimit .., _ => execSetResponseMessageLimit_changes.step .refl
  | .requestAbortBackgroundOperation .., _ => execRequestAbortBackgroundOperation_changes.step .refl
  | .getEventRecords .., _ => execGetEventRecords_changes.step .refl
  | .clearEventRecords .., _ => execClearEventRecords_changes.step .refl
  | .getEventInterruptPolicy .., _ => execGetEventInterruptPolicy_changes.step .refl
  | .setEventInterruptPolicy .., _ => execSetEventInterruptPolicy_changes.step .refl
  | .getMctpEventInterruptPolicy .., _ => execGetMctpEventInterruptPolicy_changes.step .refl
  | .setMctpEventInterruptPolicy .., _ => execSetMctpEventInterruptPolicy_changes.step .refl
  | .getFwInfo .., _ => execGetFwInfo_changes.step .refl
  | .transferFw _ n, _ => (execTransferFw_changes (a1 := n)).step .refl
  | .activateFw .., _ => execActivateFw_changes.step .refl
  | .getTimestamp .., _ => execGetTimestamp_changes.step .refl
  | .setTimestamp .., _ => execSetTimestamp_changes.step .refl
  | .getSupportedLogs .., _ => execGetSupportedLogs_changes.step .refl
  | .getLog .., _ => execGetLog_changes.step .refl
  | .getSupportedFeatures .., _ => execGetSupportedFeatures_changes.step .refl
  | .identifyMemoryDevice .., _ => execIdentifyMemoryDevice_changes.step .refl
  | .getPartitionInfo .., _ => execGetPartitionInfo_changes.step .refl
  | .getLsa .., _ => execGetLsa_changes.step .refl
  | .setLsa .., _ => execSetLsa_changes.step .refl
  | .getHealthInfo .., _ => execGetHealthInfo_changes.step .refl
  | .getAlertConfiguration .., _ => execGetAlertConfiguration_changes.step .refl
  | .setAlertConfiguration .., _ => execSetAlertConfiguration_changes.step .refl
  | .getShutdownState .., _ => execGetShutdownState_changes.step .refl
  | .setShutdownState .., _ => execSetShutdownState_changes.step .refl
  | .getPoisonList .., _ => execGetPoisonList_changes.step .refl
  | .injectPoison .., _ => execInjectPoison_changes.step .refl
  | .clearPoison .., _ => execClearPoison_changes.step .refl
  | .getScanMediaCapabilities .., _ => execGetScanMediaCapabilities_changes.step .refl
  | .scanMedia .., _ => execScanMedia_changes.step .refl
  | .getScanMediaResults .., _ => execGetScanMediaResults_changes.step .refl
  | .sanitize .., _ => execSanitize_changes.step .refl
  | .secureErase .., _ => execSecureErase_changes.step .refl
  | .getSecurityState .., _ => execGetSecurityState_changes.step .refl
  | .setPassphrase .., _ => execSetPassphrase_changes.step .refl
  | .disablePassphrase .., _ => execDisablePassphrase_changes.step .refl
  | .unlock .., _ => execUnlock_changes.step .refl
  | .freezeSecurityState .., _ => execFreezeSecurityState_changes.step .refl
  | .passphraseSecureErase .., _ => execPassphraseSecureErase_changes.step .refl
  | .getDynamicCapacityConfiguration .., _ => execGetDynamicCapacityConfiguration_changes.step .refl
  | .getDynamicCapacityExtentList .., _ => execGetDynamicCapacityExtentList_changes.step .refl
  | .addDynamicCapacityResponse .., _ => execAddDynamicCapacityResponse_changes.step .refl
  | .releaseDynamicCapacity .., _ => execReleaseDynamicCapacity_changes.step .refl
  | .getDcdInfo .., _ => execGetDcdInfo_changes.step .refl
  | .getHostDcRegionConfiguration .., _ => execGetHostDcRegionConfiguration_changes.step .refl
  | .setDcRegionConfiguration .., _ => execSetDcRegionConfiguration_changes.step .refl
  | .getDcRegionExtentLists .., _ => execGetDcRegionExtentLists_changes.step .refl
  | .initiateDynamicCapacityAdd .., _ => execInitiateDynamicCapacityAdd_changes.step .refl
  | .initiateDynamicCapacityRelease .., _ => execInitiateDynamicCapacityRelease_changes.step .refl
  | .getTileStatus .., _ => execGetTileStatus_changes.step .refl
  | .loadConfiguration .., _ => execLoadConfiguration_changes.step .refl
  | .commitConfiguration .., _ => execCommitConfiguration_changes.step .refl
  | .commitCopyReadback .., _ => execCommitCopyReadback_changes.step .refl
  | .readConfiguration .., _ => execReadConfiguration_changes.step .refl
  | .setPowerState .., _ => execSetPowerState_changes.step .refl
  | .getPowerState .., _ => execGetPowerState_changes.step .refl
  | .readEventWindow .., _ => execReadEventWindow_changes.step .refl
  | .readBlackBox .., _ => execReadBlackBox_changes.step .refl
  | .setRegionAckPolicy .., _ => execSetRegionAckPolicy_changes.step .refl
  | .getHoldUpReport .., _ => execGetHoldUpReport_changes.step .refl
  | .performanceSnapshot .., _ => execPerformanceSnapshot_changes.step .refl
  | .readPerformanceCounters .., _ => execReadPerformanceCounters_changes.step .refl
  | .configureRequestTagging .., _ => execConfigureRequestTagging_changes.step .refl
  | .meshDiscover .., _ => execMeshDiscover_changes.step .refl
  | .getMeshTopology .., _ => execGetMeshTopology_changes.step .refl
  | .setMirrorGroup .., _ => execSetMirrorGroup_changes.step .refl
  | .readParameterStore .., _ => execReadParameterStore_changes.step .refl
  | .writeParameterStore .., _ => execWriteParameterStore_changes.step .refl
  | .parameterStorePassword .., _ => execParameterStorePassword_changes.step .refl
  | .setReadoutProtection .., _ => execSetReadoutProtection_changes.step .refl
  | .rdpEraseDone, _ => execRdpEraseDone_changes.step .refl
  | .cachePartition .., _ => execCachePartition_changes.step .refl
  | .cacheWayPower .., _ => execCacheWayPower_changes.step .refl
  | .patrolControl .., _ => execPatrolControl_changes.step .refl
  | .railPolicy .., _ => execRailPolicy_changes.step .refl
  | .readVendorRegister .., _ => execReadVendorRegister_changes.step .refl
  | .writeVendorRegister .., _ => execWriteVendorRegister_changes.step .refl
  | .hdcRdLatMaxClear .., _ => execHdcRdLatMaxClear_changes.step .refl
  | .mshAckClear .., _ => execMshAckClear_changes.step .refl
  | .evrCtrlClearDrops .., _ => execEvrCtrlClearDrops_changes.step .refl
  | .evrWinCursorWrite .., _ => execEvrWinCursorWrite_changes.step .refl
  | .pmcCtrlOvfMsixWrite .., _ => execPmcCtrlOvfMsixWrite_changes.step .refl
  | .prmProtectBpWrite .., _ => execPrmProtectBpWrite_changes.step .refl
  | .backgroundOpComplete .., _ => execBackgroundOpComplete_changes.step .refl
  | .stagWatchdogExpiry .., _ => execStagWatchdogExpiry_changes.step .refl
  | .duikerRecoverableFault .., _ => execDuikerRecoverableFault_changes.step .refl
  | .warmResetStaged .., _ => execWarmResetStaged_changes.step .refl
  | .warmResetDrainEnd .., _ => execWarmResetDrainEnd_changes.step .refl
  | .flashEraseDone .., _ => execFlashEraseDone_changes.step .refl
  | .flashPageProgramDone .., _ => execFlashPageProgramDone_changes.step .refl
  | .prmPageWriteDone, _ => execPrmPageWriteDone_changes.step .refl
  | .sidebandEepromWrite .., _ => execSidebandEepromWrite_changes.step .refl
  | .sidebandEepromRead .., _ => execSidebandEepromRead_changes.step .refl
  | .sidebandThermalReadout, _ => execSidebandThermalReadout_changes.step .refl
  | .sidebandStatusReadout, _ => execSidebandStatusReadout_changes.step .refl
  | .mctpRequest .., _ => execMctpRequest_changes.step .refl
  | .i3cSetdasa .., _ => execI3cSetdasa_changes.step .refl
  | .i3cSetaasa, _ => execI3cSetaasa_changes.step .refl
  | .i3cRstdaa, _ => execI3cRstdaa_changes.step .refl
  | .smbusClockLowTimeout, _ => execSmbusClockLowTimeout_changes.step .refl
  | .widarLinkTrained .., _ => execWidarLinkTrained_changes.step .refl
  | .widarInit .., _ => execWidarInit_changes.step .refl
  | .widarPayloadFlit .., _ => execWidarPayloadFlit_changes.step .refl
  | .widarNullFlit .., _ => execWidarNullFlit_changes.step .refl
  | .widarRetryReq .., _ => execWidarRetryReq_changes.step .refl
  | .retryReqResendTimer .., _ => execRetryReqResendTimer_changes.step .refl
  | .widarTxIdleTimer .., _ => execWidarTxIdleTimer_changes.step .refl
  | .widarRxTimeout .., _ => execWidarRxTimeout_changes.step .refl
  | .peerLinkRxTimeout .., _ => execPeerLinkRxTimeout_changes.step .refl
  | .widarRetrainDone .., _ => execWidarRetrainDone_changes.step .refl
  | .widarTrainRetryTimer .., _ => execWidarTrainRetryTimer_changes.step .refl
  | .frameNumberExhausted .., _ => execFrameNumberExhausted_changes.step .refl
  | .widarRd .., _ => execWidarRd_changes.step .refl
  | .widarWr .., _ => execWidarWr_changes.step .refl
  | .widarBar .., _ => execWidarBar_changes.step .refl
  | .widarHeartbeat .., _ => execWidarHeartbeat_changes.step .refl
  | .widarHeartbeatReply .., _ => execWidarHeartbeatReply_changes.step .refl
  | .widarCmp .., _ => execWidarCmp_changes.step .refl
  | .widarRdata .., _ => execWidarRdata_changes.step .refl
  | .routeUpdate .., _ => execRouteUpdate_changes.step .refl
  | .stagStore .., _ => execStagStore_changes.step .refl
  | .stagFence .., _ => execStagFence_changes.step .refl
  | .guestHeartbeatTimeout, _ => execGuestHeartbeatTimeout_changes.step .refl
  | .meshInit .., _ => execMeshInit_changes.step .refl
  | .hello .., _ => execHello_changes.step .refl
  | .discoveryEnd, _ => execDiscoveryEnd_changes.step .refl
  | .mwr .., _ => execMwr_changes.step .refl
  | .rwr .., _ => execRwr_changes.step .refl
  | .mrd .., _ => execMrd_changes.step .refl
  | .mbar .., _ => execMbar_changes.step .refl
  | .mext .., _ => execMext_changes.step .refl
  | .mpair .., _ => execMpair_changes.step .refl
  | .mhb .., _ => execMhb_changes.step .refl
  | .mbye .., _ => execMbye_changes.step .refl
  | .mcmp .., _ => execMcmp_changes.step .refl
  | .mdata .., _ => execMdata_changes.step .refl
  | .meshHeartbeatTimer, _ => execMeshHeartbeatTimer_changes.step .refl
  | .peerSilenceCheck, _ => execPeerSilenceCheck_changes.step .refl
  | .meshForwardExpiry .., _ => execMeshForwardExpiry_changes.step .refl
  | .mwrRouteHoldEnd .., _ => execMwrRouteHoldEnd_changes.step .refl
  | .pairContactTimeout, _ => execPairContactTimeout_changes.step .refl
  | .resyncWalkStep .., _ => execResyncWalkStep_changes.step .refl
  | .powerFailDetect .., _ => execPowerFailDetect_changes.step .refl
  | .inputReturn, _ => execInputReturn_changes.step .refl
  | .flushTileDataEnd .., _ => execFlushTileDataEnd_changes.step .refl
  | .flushWatchdog, _ => execFlushWatchdog_changes.step .refl
  | .vholdCollapse, _ => execVholdCollapse_changes.step .refl
  | .brownoutHoldEnd, _ => execBrownoutHoldEnd_changes.step .refl
  | .holdupMeasurementStart, _ => execHoldupMeasurementStart_changes.step .refl
  | .holdupSinkEnd .., _ => execHoldupSinkEnd_changes.step .refl
  | .holdupMeasurementComplete .., _ => execHoldupMeasurementComplete_changes.step .refl
  | .plevelChange, _ => execPlevelChange_changes.step .refl
  | .plevelVcoreSettled, _ => execPlevelVcoreSettled_changes.step .refl
  | .sleepEntryDrained, _ => execSleepEntryDrained_changes.step .refl
  | .resumeEnd .., _ => execResumeEnd_changes.step .refl
  | .pwrPadRelease .., _ => execPwrPadRelease_changes.step .refl
  | .pmbAlert, _ => execPmbAlert_changes.step .refl
  | .thermalTrip .., _ => execThermalTrip_changes.step .refl
  | .tripStaged, _ => execTripStaged_changes.step .refl
  | .pllLockLoss, _ => execPllLockLoss_changes.step .refl
  | .pllHoldoverTimeout, _ => execPllHoldoverTimeout_changes.step .refl
  | .pllRelock, _ => execPllRelock_changes.step .refl
  | .clockDomainIdleGate .., _ => execClockDomainIdleGate_changes.step .refl
  | .secondsTick, _ => execSecondsTick_changes.step .refl
  | .housekeepingStrobe .., _ => execHousekeepingStrobe_changes.step .refl
  | .sensorResultHold .., _ => execSensorResultHold_changes.step .refl
  | .housekeepingDecide, _ => execHousekeepingDecide_changes.step .refl
  | .delayRecalibration .., _ => execDelayRecalibration_changes.step .refl
  | .eventEntry .., _ => execEventEntry_changes.step .refl
  | .eventFlushStart, _ => execEventFlushStart_changes.step .refl
  | .eventFlushDone, _ => execEventFlushDone_changes.step .refl
  | .jtagAccess _ _ a, _ => (execJtagAccess_changes (a2 := a)).step .refl
  | .tileRejoinTimeout .., _ => execTileRejoinTimeout_changes.step .refl
  | .dieNotReadyTimeout .., _ => execDieNotReadyTimeout_changes.step .refl
  | .readTempHoldExpiry .., _ => execReadTempHoldExpiry_changes.step .refl

/-- What one step does: nothing on an empty queue, and else what the front command does on the queue's rest. -/
theorem step_next {s t : State} (run : step s = .next t) :
    s.pending = [] ∧ t = s ∨ ∃ c rest, s.pending = c :: rest ∧ Changes (writes c) { s with pending := rest } t := by
  unfold step at run
  split at run
  next empty =>
    cases run
    exact .inl ⟨empty, rfl⟩
  next c rest front =>
    obtain ⟨u, hu, changes⟩ := exec_changes c { s with pending := rest }
    cases hu.symm.trans run
    exact .inr ⟨c, rest, front, changes⟩

/-- Settles O5: an idle step changes nothing, and what a command changes keeps the bounds. -/
theorem stepKeepsBounds : Obligations.StepKeepsBounds := by
  intro s t ok run
  obtain ⟨-, rfl⟩ | ⟨c, rest, -, changes⟩ := step_next run
  · exact ok
  · exact changes.bounds ok

end Sys2Proof.Machine
end

section
/-! The part at reset: its byte memories are in canonical form, and its queues and logs are empty (R326, R409, R430, R631). -/

namespace Sys2Proof.Machine

theorem TileNv.memOk_reset : ({} : TileNv).MemOk := ⟨rfl, rfl⟩
theorem Fabric.memOk_reset : ({} : Fabric).MemOk := ⟨rfl, rfl⟩
theorem Tile.memOk_reset : ({} : Tile).MemOk := rfl

theorem State.memOk_reset : State.reset.MemOk :=
  ⟨replicate_all TileNv.memOk_reset, replicate_all Fabric.memOk_reset, replicate_all Tile.memOk_reset⟩

theorem State.boundsOk_reset : State.reset.BoundsOk := ⟨.nil, replicate_all Head.LogsOk.fresh⟩

/-- Settles O6: every element of the state is the one that its type has at reset. -/
theorem resetMeetsInvariants : Obligations.ResetMeetsInvariants := by
  refine ⟨State.memOk_reset, State.boundsOk_reset, fun t => Vector.getElem_replicate t.isLt, fun h k => ?_⟩
  have head : State.reset.heads[h] = {} := Vector.getElem_replicate h.isLt
  have log : ({} : Head).logs[k] = {} := Vector.getElem_replicate k.isLt
  rw [head, log]

end Sys2Proof.Machine
end

section
/-! How a mailbox command is judged (R308, R340, R342, R349, R380, R388). -/

namespace Sys2Proof.Machine

/-! ### The checks of R342 -/

section
variable {s : State} {m : Iface} {op : Nat} {mgmt bg : Bool} {r : StateRule}

theorem State.not_waiting_of_taken {inp : List Byte} (ht : s.taken m op = some inp) : s.svc.waiting = none := by
  cases hw : s.svc.waiting with
  | none => rfl
  | some w =>
    unfold taken at ht
    rw [hw] at ht
    cases ht

/-- A command that the checks turn away returns their code and extended status. -/
theorem State.command_refused {inp : List Byte} {code : Ret} {ext : Nat} (ht : s.taken m op = some inp)
    (he : s.cmdCheck m op mgmt bg r = some (code, ext)) (lenOk : List Byte → Bool) (run : List Byte → State → State) :
    s.command m op r lenOk run mgmt bg = .next (s.mbFinish m code ext) := by
  unfold command
  rw [ht]
  dsimp only
  rw [he]

theorem State.cmdCheck_flushing (h : s.sys.state = .flushing) : s.cmdCheck m op mgmt bg r = some (.busy, 0x116) := by
  simp [cmdCheck, inState, h, DevState.code]

/-- The return code and extended status that a field of R380 gives; none where the command executes. -/
def Legal.answer (ext : Nat) : Legal → Option (Ret × Nat)
  | .y => none
  | .b => some (.busy, ext)
  | .i => some (.invalidInput, ext)

variable (hf : s.sys.state ≠ .flushing) (hp : s.svc.rdpPending = false)
include hf hp

theorem State.cmdCheck_notMgmt (hm : s.isMgmt m = false) : s.cmdCheck m op true bg r = some (.unsupported, 0x120) := by
  simp [cmdCheck, hf, hp, hm]

theorem State.cmdCheck_secondary (hm : mgmt = true → s.isMgmt m = true) (hb : Iface.isSecondary m = true) :
    s.cmdCheck m op mgmt true r = some (.wrongMailbox, 0) := by
  have head : (mgmt && !s.isMgmt m) = false := by
    rw [Bool.and_eq_false_imp]
    exact fun h => by rw [hm h]; rfl
  simp [cmdCheck, hf, hp, hb, head]

/-- Past the checks on the head and the mailbox the row of R380 decides. -/
theorem State.cmdCheck_rule (hm : mgmt = true → s.isMgmt m = true) (hb : bg = true → Iface.isSecondary m = false)
    (hr : s.boot.recovery = false) : s.cmdCheck m op mgmt bg r = (r.judge s.sys.state).answer s.inState := by
  have head : (mgmt && !s.isMgmt m) = false := by
    rw [Bool.and_eq_false_imp]
    exact fun h => by rw [hm h]; rfl
  have mailbox : (bg && Iface.isSecondary m) = false := by
    rw [Bool.and_eq_false_imp]
    exact hb
  simp only [cmdCheck, hf, hp, hr, head, mailbox]
  cases r.judge s.sys.state <;> rfl

end

/-! ### The rows of R380 -/

/-- In state `s` the command `c` is taken and judged with the opcode and the marks of `i`, and by its row of R380. -/
def JudgedAs (c : Instr) (i : CommandInfo) (s : State) : Prop :=
  ∃ (r : StateRule) (lenOk : List Byte → Bool) (run : List Byte → State → State),
    exec c s = s.command i.m i.op r lenOk run i.mgmt i.bg ∧ ∀ d, r.judge d = legality i.op i.row d

theorem JudgedAs.of {c : Instr} {i : CommandInfo} {s : State} {r : StateRule} {lenOk : List Byte → Bool}
    {run : List Byte → State → State} (e : exec c s = s.command i.m i.op r lenOk run i.mgmt i.bg)
    (h : ∀ d, r.judge d = legality i.op i.row d := by intro d; cases d <;> rfl) : JudgedAs c i s :=
  ⟨r, lenOk, run, e, h⟩

theorem State.cacheCommand_command {s : State} (hw : s.svc.waiting = none) (hc : s.cfg.commit = none) (m : Iface) (op limit : Nat)
    (f : Nat → TileData → Nat × Nat) :
    ∃ run, s.cacheCommand m op limit f = s.command m op .injectPoison (lenIs 4) run (mgmt := true) := by
  unfold cacheCommand
  rw [hw]
  exact ⟨_, if_neg (by rw [hc]; exact Bool.false_ne_true)⟩

/-- While no commit is under way and no command waits for the end of its own work, every mailbox command is judged by its row. -/
theorem judgedAs_of_commandOf {c : Instr} {i : CommandInfo} {s : State} (hi : commandOf c = some i) (hc : s.cfg.commit = none)
    (hm : i.op = 0x0104 ∨ i.op = 0x0105 → i.m = .mctp) (hw : s.svc.waiting = none) : JudgedAs c i s := by
  have settled : ¬ s.cfg.commit.isSome = true := by rw [hc]; exact Bool.false_ne_true
  cases c
  case getMctpEventInterruptPolicy => cases hi; exact .of (if_neg (not_not_intro (hm (.inl rfl))))
  case setMctpEventInterruptPolicy => cases hi; exact .of (if_neg (not_not_intro (hm (.inr rfl))))
  case commitConfiguration | setRegionAckPolicy | setMirrorGroup | patrolControl | railPolicy | setDcRegionConfiguration =>
    cases hi
    exact .of (if_neg settled)
  case cachePartition =>
    cases hi
    obtain ⟨run, e⟩ := State.cacheCommand_command hw hc ..
    exact .of (exec_cachePartition.trans e)
  case cacheWayPower =>
    cases hi
    obtain ⟨run, e⟩ := State.cacheCommand_command hw hc ..
    exact .of (exec_cacheWayPower.trans e)
  all_goals cases hi
  all_goals
    unfold JudgedAs exec
    refine ⟨_, _, _, rfl, fun d => ?_⟩
    cases d <;> rfl

/-- Settles O23: the checks of R342 come in the order of the clauses, and the row of a command is the one of R380. -/
theorem commandsAreJudgedFirst : Obligations.CommandsAreJudgedFirst := by
  intro c i s hi hc hm
  refine ⟨fun idle hw => ?_, fun inp ht => ?_⟩
  · obtain ⟨r, lenOk, run, e, -⟩ := judgedAs_of_commandOf hi hc hm hw
    exact e.trans (State.command_idle idle ..)
  · obtain ⟨r, lenOk, run, e, rule⟩ := judgedAs_of_commandOf hi hc hm (State.not_waiting_of_taken ht)
    have refused {code : Ret} {ext : Nat} (h : s.cmdCheck i.m i.op i.mgmt i.bg r = some (code, ext)) :
        Runs c s (s.mbFinish i.m code ext) := e.trans (State.command_refused ht h ..)
    refine ⟨fun hf => refused (State.cmdCheck_flushing hf), fun hf hp => ⟨fun marked other => refused ?_, fun head =>
      ⟨fun marked secondary => refused ?_, fun primary hr => ⟨fun h => refused ?_, fun h => refused ?_⟩⟩⟩⟩
    · rw [marked]
      exact State.cmdCheck_notMgmt hf hp other
    · rw [marked]
      exact State.cmdCheck_secondary hf hp head secondary
    · rw [State.cmdCheck_rule hf hp head primary hr, rule, h]
      rfl
    · rw [State.cmdCheck_rule hf hp head primary hr, rule, h]
      rfl

end Sys2Proof.Machine
end

section
/-! DevLoad (R315), and the CXL.mem requests that are no stores (R314, R316): one rule for each verdict of the head. -/

namespace Sys2Proof.Machine

/-! ### The bands of R315 -/

theorem devLoad_light {occ : Nat} (h : occ < 50) : devLoad occ = 0 := by
  unfold devLoad
  rw [if_neg (by omega), if_neg (by omega), if_neg (by omega)]

theorem devLoad_optimal {occ : Nat} (h : 50 ≤ occ) (h' : occ < 75) : devLoad occ = 1 := by
  unfold devLoad
  rw [if_neg (by omega), if_neg (by omega), if_pos h]

theorem devLoad_moderate {occ : Nat} (h : 75 ≤ occ) (h' : occ < 95) : devLoad occ = 2 := by
  unfold devLoad
  rw [if_neg (by omega), if_pos h]

theorem devLoad_severe {occ : Nat} (h : 95 ≤ occ) : devLoad occ = 3 := if_pos h

/-! ### Responses -/

section
variable (s : State) (h : TileId) (dl : BitVec 2)

/-- The head after a response: its load is the last that it sent, and the highest of the round. -/
def Head.responded (x : Head) (dl : BitVec 2) : Head :=
  { x with lastDevLoad := dl, devLoadRound := if dl.toNat > x.devLoadRound.toNat then dl else x.devLoadRound }

theorem State.sendData_head (d : Option Line) :
    (s.sendData h dl d).heads[h] = { s.heads[h].responded dl with lastData := some d } := State.modHead_self ..

theorem State.sendCmp_head :
    (s.sendCmp h dl).heads[h] = { s.heads[h].responded dl with cmps := s.heads[h].cmps + 1 } := State.modHead_self ..

theorem State.sendPoison_lastDevLoad (least : Nat) : (s.sendPoison h dl least).heads[h].lastDevLoad = dl := by
  simp [sendPoison, sendData, respond, draw]

theorem State.admitMiss_cmps (a : BitVec 64) (k : Nat) : (s.admitMiss h a k).heads[h].cmps = s.heads[h].cmps := by
  simp [admitMiss]
end

/-! ### Requests that are not admitted (R316) -/

section
variable {s : State} {h : TileId} {a : BitVec 64} (hj : (s.ungate h 7).judge h a = .missed)
include hj

theorem runs_memrd_missed : Runs (.memrd h a) s (((s.ungate h 7).admitMiss h a 0).sendPoison h 0) := by
  change execMemrd h a s = _
  unfold execMemrd
  extract_lets u
  rw [show u.judge h a = _ from hj]

theorem runs_memwr_missed (d : Line) (p : Bool) :
    Runs (.memwr h a d p) s (((s.ungate h 7).admitMiss h a 1).sendCmp h 0) :=
  congrArg _ (State.storeAt_missed d false p _ hj)
end

/-- Settles O29: a load is answered by the band of its occupancy, and a request that is not admitted by Light Load. -/
theorem responsesCarryLoad : Obligations.ResponsesCarryLoad := by
  intro s h
  refine ⟨fun n => ⟨devLoad_light, devLoad_optimal, devLoad_moderate, devLoad_severe⟩, fun dl d => ?_,
    fun a d p t hj => ⟨fun run => ?_, fun run => ?_⟩⟩
  · rw [State.sendData_head, State.sendCmp_head]
    exact ⟨rfl, rfl, rfl, rfl⟩
  · cases (runs_memrd_missed hj).symm.trans run
    exact ⟨State.sendPoison_lastDevLoad .., (State.sendPoison_head ..).1⟩
  · cases (runs_memwr_missed hj d p).symm.trans run
    have kept : Changes [.fv, .sys, .pmc, .clk, .heads] s (((s.ungate h 7).admitMiss h a 1).sendCmp h 0) :=
      .step State.sendCmp_changes (.step State.admitMiss_changes (.step State.ungate_changes .refl))
    refine ⟨?_, ?_, kept.keeps .tiles rfl⟩
    · rw [State.sendCmp_head]; rfl
    · rw [State.sendCmp_head]
      exact congrArg (· + 1) (State.admitMiss_cmps ..)

section
variable {s : State} {h : TileId} {a : BitVec 64} {n : Nat}

/-! ### Loads (R314, R316) -/

theorem runs_memrd_locked (hj : (s.ungate h 7).judge h a = .locked n) :
    Runs (.memrd h a) s (((s.ungate h 7).count h 1 1).noteLocked.sendPoison h ((s.ungate h 7).devLoadOf n)) := by
  change execMemrd h a s = _
  unfold execMemrd
  extract_lets u
  rw [show u.judge h a = _ from hj]

section
variable (hj : (s.ungate h 7).judge h a = .passed n)
include hj

/-- A load that passes is served by its owner, where a route leads to it. -/
theorem runs_memrd_served :
    let r := ((s.ungate h 7).count h 1 1).tagStep h
    r.2.2.ownerUp (r.2.2.home n).tile = true → r.2.2.forwards h (r.2.2.home n).tile = true →
    Runs (.memrd h a) s (r.2.2.newLoad
      { id := 0, head := h, owner := (r.2.2.home n).tile, line := n, src := .none, tagged := r.1, t0 := r.2.1 }) := by
  intro r up route
  have served : (r.2.2.ownerUp (r.2.2.home n).tile && r.2.2.forwards h (r.2.2.home n).tile) = true := by
    rw [up, route]
    rfl
  change execMemrd h a s = _
  unfold execMemrd
  extract_lets u
  rw [show u.judge h a = _ from hj]
  exact if_pos served

theorem runs_memrd_unreachable :
    let r := ((s.ungate h 7).count h 1 1).tagStep h
    r.1 = false → (r.2.2.ownerUp (r.2.2.home n).tile = false ∨ r.2.2.forwards h (r.2.2.home n).tile = false) →
    Runs (.memrd h a) s (r.2.2.sendPoison h (r.2.2.devLoadOf n)) := by
  intro r untagged away
  have unserved : ¬ (r.2.2.ownerUp (r.2.2.home n).tile && r.2.2.forwards h (r.2.2.home n).tile) = true := by
    rw [Bool.not_eq_true, Bool.and_eq_false_iff]
    exact away
  have unsampled : ¬ r.1 = true := by
    rw [untagged]
    exact Bool.false_ne_true
  change execMemrd h a s = _
  unfold execMemrd
  extract_lets u
  rw [show u.judge h a = _ from hj]
  exact (if_neg unserved).trans (congrArg _ (if_neg unsampled))

end

/-! ### Requests that leave their line unchanged (R314) -/

theorem State.tagStep_off (h : TileId) (ht : s.pmc.tagging = false) : s.tagStep h = (false, 0, s) := by
  unfold tagStep
  rw [ht]
  rfl

theorem State.cmpOnly_untagged (hj : (s.ungate h 7).judge h a = .passed n ∨ (s.ungate h 7).judge h a = .notServed n)
    (ht : s.pmc.tagging = false) : s.cmpOnly h a = (s.ungate h 7).sendCmp h ((s.ungate h 7).devLoadOf n) := by
  have untagged : (s.ungate h 7).tagStep h = (false, 0, s.ungate h 7) := State.tagStep_off h ht
  unfold cmpOnly
  extract_lets u
  obtain hj | hj := hj <;>
  · rw [show u.judge h a = _ from hj]
    dsimp only
    rw [untagged]
    rfl

end

/-- Settles O40: each clause is the rule above for the verdict that it names; of a hint, what MEMSPECRD may write. -/
theorem cxlMemLoadsComplete : Obligations.CxlMemLoadsComplete := by
  intro s h a
  refine ⟨fun n => runs_memrd_served, fun n => runs_memrd_unreachable, runs_memrd_missed, fun n => runs_memrd_locked, fun n _ _ => ?_,
    fun n hj ht => ⟨congrArg _ (State.cmpOnly_untagged hj ht), congrArg _ (State.cmpOnly_untagged hj ht)⟩⟩
  obtain ⟨t, run, changes⟩ := exec_changes (.memspecrd h a) s
  exact ⟨t, run, changes.keeps .media rfl, changes.keeps .staged rfl, changes.keeps .nv rfl⟩

end Sys2Proof.Machine
end

section
/-! The CXL heads outside CXL.mem (R306, R310 to R313, R317, R318, R321, R328 to R331, R333, R334, R400, R401, R593, R684): one rule for
each event and each case of it. -/

namespace Sys2Proof.Machine

/-- What becomes of a programmed decoder once its Commit has been judged (R317). -/
def Decoder.judged (d : Decoder) (ok : Bool) : Decoder := { d with committed := ok, err := !ok, lock := d.lock && ok }

theorem Decoder.judged_true (d : Decoder) : d.judged true = { d with committed := true, err := false } := by
  rw [judged, Bool.and_true]
  rfl

theorem State.modHead_head (s : State) (h : TileId) (f : Head → Head) : (s.modHead h f).heads[h] = f s.heads[h] :=
  State.modHead_self ..

section
variable {s : State} {h : TileId}

/-! ### The link (R310 to R313, R400, R593) -/

theorem runs_headLinkUp {sp w : BitVec 4} {f l : Bool} (ht : s.headTrains h = true) (h3 : 3 ≤ sp.toNat) (h6 : sp.toNat ≤ 6)
    (hw : w = 4 ∨ w = 8) (hf : f = true ∨ sp.toNat < 6) (hl : f = true ∨ l = false) :
    Runs (.headLinkUp h sp w f l) s ((({ s with clk := { s.clk with refclk := bitOn s.clk.refclk h } } : State).modHead h fun x =>
      { x with speed := sp, width := w, flit256 := f, lopt := l }).headDown) := by
  have inMode : (decide (3 ≤ sp.toNat ∧ sp.toNat ≤ 6) && (w = 4 || w = 8) && (f || sp.toNat < 6) && (f || !l)) = true := by
    simpa [h3, h6, hf, hl] using hw
  refine if_neg ?_
  rw [ht, inMode]
  decide

theorem runs_headRefclkLoss (hs : s.heads[h].speed ≠ 0) :
    Runs (.headRefclkLoss h) s (({ s with clk := { s.clk with refclk := bitOff s.clk.refclk h } } : State).linkDown h) := if_neg hs

theorem runs_conventionalReset (hv : s.inSvc h = true) : Runs (.conventionalReset h) s (s.linkDown h) := by
  refine if_neg ?_
  rw [hv]
  decide

/-! ### Dynamic Capacity timeouts (R321) -/

theorem runs_dcOfferTimeout {o : Offer} (ho : (s.svc.offers.find? fun o => o.head = h) = some o) :
    Runs (.dcOfferTimeout h) s { s with svc := { s.svc with
      offers := s.svc.offers.erase o, dcReports := s.svc.dcReports ++ [(h, true)] } } := by
  change execDcOfferTimeout h s = _
  rw [execDcOfferTimeout, ho]

theorem runs_dcReleaseHostTimeout {r : Release} (hr : (s.svc.releases.find? fun r => r.head = h && r.awaitHost) = some r) :
    Runs (.dcReleaseHostTimeout h) s { s with svc := { s.svc with
      releases := s.svc.releases.erase r, dcReports := s.svc.dcReports ++ [(h, false)] } } := by
  change execDcReleaseHostTimeout h s = _
  rw [execDcReleaseHostTimeout, hr]

/-! ### Containment (R329) -/

theorem runs_ideIntegrityFailure {m : Bool} (hi : (if m then s.heads[h].ideMem else s.heads[h].ideIo) = true) :
    Runs (.ideIntegrityFailure h m) s (s.modHead h fun x => { x with
      ideIo := false, ideMem := false, ideFailed := true, aerErrors := satAdd x.aerErrors 1 }) := by
  refine if_neg ?_
  rw [hi]
  decide

/-! ### Requests to a head that serves them (R47) -/

/-- Once the mailbox is ready, configuration space and a BAR that is on can be reached. -/
theorem space_passes {a : HostAddr} (hr : s.sys.mbReady = true) (hb : a.space ≠ .config → s.heads[h].barOn = true) :
    ¬ (a.space ≠ .config ∧ ((!s.sys.mbReady) = true ∨ (!s.heads[h].barOn) = true)) := by
  rintro ⟨bar, out⟩
  rw [hr, hb bar] at out
  simp at out

theorem State.configKnown_of_configWord {o : Nat} {w : BitVec 32} (hw : s.configWord h o = some w) :
    s.configKnown h o = (BitVec.allOnes 32, w) := by
  unfold configWord at hw
  dsimp only at hw
  split at hw
  next hk => exact Prod.ext hk (Option.some.inj hw)
  next => cases hw

section
variable (hs : s.heads[h].speed ≠ 0)
include hs

/-- Before the mailbox is ready a configuration request is to be tried again. -/
theorem runs_configRequest_retry (w : Bool) (o : Nat) (v : BitVec 32) (hr : s.sys.mbReady = false) :
    Runs (.configRequest h w ⟨.config, o⟩ v) s (s.modHead h fun x => { x with cfgRetry := true }) := by
  have notBar : ¬ (HostSpace.config ≠ .config ∧ ((!s.sys.mbReady) = true ∨ (!s.heads[h].barOn) = true)) := fun hb => hb.1 rfl
  exact (if_neg hs).trans ((if_neg notBar).trans (if_pos (by rw [hr]; rfl)))

variable (hr : s.sys.mbReady = true)
include hr

theorem head_serves : ¬ (s.heads[h].speed = 0 ∨ (!s.sys.mbReady) = true) := by
  rw [hr]
  rintro (h0 | hn)
  · exact hs h0
  · cases hn

theorem doeUp_of_serves : s.doeUp h = true := by
  rw [State.doeUp, decide_eq_true hs, hr]
  rfl

theorem doe_answers : ¬ (!s.doeUp h) = true := by
  rw [doeUp_of_serves hs hr]
  decide

/-! ### Configuration space and BARs (R306, R317, R333, R334) -/

/-- What is known of the dword that a host address names. -/
def State.hostWord (s : State) (h : TileId) (a : HostAddr) : Known :=
  match a.space with
  | .config => s.configKnown h (a.offset / 4 * 4)
  | .bar0 => s.bar0Word h (a.offset / 4 * 4)
  | .bar2 => s.heads[h].bar2Word (a.offset / 4 * 4)

section
variable {a : HostAddr} (v : BitVec 32) (hb : a.space ≠ .config → s.heads[h].barOn = true)
include hb

theorem runs_configRequest_write :
    Runs (.configRequest h true a v) s (s.modHead h fun x =>
      if a.space = .config then { x with cfgRetry := false, config := tabPut x.config (a.offset / 4) v }.sendPending
      else x.barWrite a.space (a.offset / 4 * 4) v) :=
  (if_neg hs).trans ((if_neg (space_passes hr hb)).trans (if_neg (by rw [hr]; decide)))

theorem runs_barWrite (hc : a.space ≠ .config) :
    Runs (.configRequest h true a v) s (s.modHead h fun x => x.barWrite a.space (a.offset / 4 * 4) v) := by
  have run := runs_configRequest_write hs hr v hb
  simpa only [if_neg hc] using run

/-- A read of a dword that is known whole gives it. -/
theorem runs_configRequest_read {w : BitVec 32} (hw : s.hostWord h a = (BitVec.allOnes 32, w)) :
    Runs (.configRequest h false a v) s (s.modHead h fun x => { x with cfgRetry := false, cfgData := w }) := by
  have known : s.readKnown (s.hostWord h a) = (w, s) := by
    rw [State.readKnown, hw]
    rfl
  refine (if_neg hs).trans ((if_neg (space_passes hr hb)).trans ((if_neg (by rw [hr]; decide)).trans ?_))
  change (match s.readKnown (s.hostWord h a) with
    | (v, s) => Host.Outcome.next (s.modHead h fun x => { x with cfgRetry := false, cfgData := v })) = _
  rw [known]
end

/-! ### Decoders (R317, R318) -/

/-- A decoder that is free, within the capabilities and above those committed, commits as it is programmed. -/
theorem runs_hdmDecoderCommit {n : Fin 4} {d : Decoder} {b z k : BitVec 64}
    (hd : s.heads[h].decoders[n].committed = false ∨ s.heads[h].decoders[n].lock = false) (hb : d.base = b.toNat)
    (hz : d.size = z.toNat) (hk : d.skip = k.toNat) (hc : d.committed = true) (he : d.err = false)
    (ho : decoderOk (s.heads[h].decoders.toList.take n.val) d s.capacity = true)
    (ha : ∀ x ∈ s.heads[h].decoders.toList.drop (n.val + 1), x.committed = false) :
    Runs (.hdmDecoderCommit h n b z k d.ways d.gran d.lock) s (s.modHead h fun x => { x with decoders := x.decoders.set n d }) := by
  have free : ¬ (s.heads[h].speed = 0 ∨ (!s.sys.mbReady) = true ∨
      (s.heads[h].decoders[n].committed = true ∧ s.heads[h].decoders[n].lock = true)) := by
    rw [hr]
    rintro (down | unready | ⟨committed, locked⟩)
    · exact hs down
    · cases unready
    · obtain hd | hd := hd
      · cases hd.symm.trans committed
      · cases hd.symm.trans locked
  have top : (s.heads[h].decoders.toList.drop (n.val + 1)).any (·.committed) = false := by
    rw [List.any_eq_false]
    exact fun x hx => by rw [ha x hx]; exact Bool.false_ne_true
  have ok : (decoderOk (s.heads[h].decoders.toList.take n.val) d s.capacity
      && !(s.heads[h].decoders.toList.drop (n.val + 1)).any (·.committed)) = true := by
    rw [ho, top]
    rfl
  obtain ⟨_, _, _, ways, gran, lock, _, _⟩ := d
  cases hb; cases hz; cases hk; cases hc; cases he
  let programmed : Decoder := { base := b.toNat, size := z.toNat, skip := k.toNat, ways := ways, gran := gran, lock := lock }
  exact (if_neg free).trans (congrArg
    (fun y => Host.Outcome.next (s.modHead h fun x => { x with decoders := x.decoders.set n y }))
    ((congrArg programmed.judged ok).trans programmed.judged_true))

/-! ### Keys, discovery, measurements and the CDAT (R328 to R330, R684) -/

theorem runs_cxlIdeKm (i m : Bool) (hk : s.heads[h].spdm = true) :
    Runs (.cxlIdeKm h i m) s (s.modHead h fun x => { x with
      ideIo := x.ideIo || i, ideMem := x.ideMem || m, ideFailed := x.ideFailed && !m }) := by
  refine if_neg ?_
  rw [doeUp_of_serves hs hr, hk]
  decide

theorem runs_doeDiscovery_cdat : Runs (.doeDiscovery h 3) s (s.modHead h fun x => { x with doe := [0x98, 0x1E, 0x02, 0x00] }) :=
  if_neg (doe_answers hs hr)

theorem runs_doeDiscovery_pcie {i : BitVec 8} (hi : i.toNat < 3) :
    Runs (.doeDiscovery h i) s (s.modHead h fun x => { x with doe := [0x01, 0x00, i, i + 1] }) := by
  have index : i = 0 ∨ i = 1 ∨ i = 2 := by bv_omega
  obtain rfl | rfl | rfl := index <;> exact if_neg (doe_answers hs hr)

theorem runs_spdmRequest_measurements :
    ∃ u, Runs (.spdmRequest h 0xE0) s u ∧ ∃ l, u.heads[h].doe = [0x12, 0x60] ++ s.measurements ++ l := by
  refine ⟨_, (if_neg (doe_answers hs hr)).trans (if_neg Bool.false_ne_true), leBytes 96 s.draw.1, ?_⟩
  rw [State.modHead_head, List.append_assoc]
  rfl

theorem runs_cdatTableAccess {n : Nat} (hn : 1 ≤ n) :
    ∃ u, Runs (.cdatTableAccess h n) s u ∧ u.heads[h].cdatChanged = false ∧
      (u.heads[h].doe).drop 4 = (s.reportedRegions.flatMap s.cdatRegion).getD (n - 1) [] := by
  have entry : ¬ n = 0 := by omega
  refine ⟨_, if_neg (doe_answers hs hr), ?_⟩
  rw [State.modHead_head]
  refine ⟨rfl, ?_⟩
  dsimp only
  rw [if_neg entry]
  rfl

end
end

/-- Settles O39: each clause is the rule above for the event that it names. -/
theorem headEventsComplete : Obligations.HeadEventsComplete := by
  intro s h
  have bar {b : HostSpace} (hc : b = .config) (hb : b ≠ .config) : s.heads[h].barOn = true := absurd hc hb
  exact ⟨fun _ _ _ _ => runs_headLinkUp, fun hs => if_neg hs, rfl, runs_headRefclkLoss,
    fun w o v hs => runs_configRequest_retry hs w o v,
    fun _ v hs hr => runs_configRequest_write hs hr v (bar rfl),
    fun v _ hs hr _ hw => runs_configRequest_read hs hr v (bar rfl) (State.configKnown_of_configWord hw),
    fun _ _ v hc hs hr hb => runs_barWrite hs hr v (fun _ => hb) hc,
    fun _ v _ hs hr hb hw => runs_configRequest_read hs hr v (fun _ => hb) hw,
    fun _ v _ hs hr hb hw => runs_configRequest_read hs hr v (fun _ => hb) hw,
    fun _ hs hr => if_neg (head_serves hs hr), fun _ _ _ _ _ hs hr => runs_hdmDecoderCommit hs hr,
    fun _ => runs_dcOfferTimeout, fun _ => runs_dcReleaseHostTimeout, fun _ => runs_ideIntegrityFailure,
    fun i m hs hr => runs_cxlIdeKm hs hr i m, runs_doeDiscovery_cdat, fun _ hs hr => runs_doeDiscovery_pcie hs hr,
    runs_spdmRequest_measurements, fun _ hs hr hn _ => runs_cdatTableAccess hs hr hn, runs_conventionalReset,
    fun hs hr => if_neg (head_serves hs hr), fun hs hr => if_neg (head_serves hs hr)⟩

end Sys2Proof.Machine
end

section
/-! The standard commands that describe the part, its logs, limits and timestamps (R306, R326, R327, R341, R342, R346, R349, R351, R353):
one rule for each command that is served. -/

namespace Sys2Proof.Machine

/-! ### Taking a command (R341, R342) -/

section
variable {s : State} {m : Iface} {i : List Byte}

/-- A head whose link is up, in D0 and in service takes a command where its doorbell is clear. -/
theorem runs_mailboxDoorbell {h : TileId} {sec : Bool} (op : BitVec 16) (i : List Byte) (hl : s.heads[h].speed ≠ 0)
    (hd : s.heads[h].d3hot = false) (hr : s.sys.mbReady = true) (hs : s.inSvc h = true)
    (hb : (s.mbox (.head h sec)).doorbell = false) :
    Runs (.mailboxDoorbell (.head h sec) op i) s (s.modMb (.head h sec) fun b =>
      { b with doorbell := true, cmd := some { opcode := op, input := i } }) := by
  refine if_neg ?_
  rw [decide_eq_false hl, hd, hr, hs, hb]
  decide

theorem runs_unsupportedCommand {c : MbCmd} (hw : s.svc.waiting = none) (hl : s.sys.lead ≠ none) (hn : s.nextMb = some m)
    (hc : (s.mbox m).cmd = some c) (hs : s.supports m c.opcode.toNat = false) (hf : s.sys.state ≠ .flushing)
    (hp : s.svc.rdpPending = false) : Runs (.unsupportedCommand m) s (s.mbFinish m .unsupported) := by
  have takes : ¬ (s.svc.waiting.isSome || s.sys.lead.isNone || s.nextMb ≠ some m) = true := by
    simp [hw, hl, hn]
  have unsupported : ¬ s.supports m c.opcode.toNat = true := by
    rw [hs]
    exact Bool.false_ne_true
  have serves : ¬ (s.sys.state = .flushing || s.svc.rdpPending) = true := by
    simp [hf, hp]
  change execUnsupportedCommand m s = _
  unfold execUnsupportedCommand
  rw [if_neg takes, hc]
  exact (if_neg unsupported).trans (if_neg serves)

/-! ### Information and background operations (R306, R349, R351, R353) -/

theorem runs_identify (h : s.Served m 0x0001 i false false .identify) (hi : i.length = 0) :
    ∃ o : List Byte, Runs (.identify m) s (s.reply m o) ∧ o.length = 18 ∧
      bytesAt o 0 4 = leBytes 2 Config.vendorId.toNat ++ leBytes 2 (deviceId s.fuses.variant) :=
  ⟨_, show execIdentify m s = _ from State.command_served h (decide_eq_true hi) _, lay_length _, rfl⟩

theorem runs_backgroundOperationStatus (h : s.Served m 0x0002 i false false .identify) (hi : i.length = 0) :
    let u := s.draw.2.modMb m fun x =>
      { x with bgPercent := if x.bgActive then BitVec.ofNat 7 (max x.bgPercent.toNat (s.draw.1 % 100)) else x.bgPercent }
    let b := u.mbox m
    Runs (.backgroundOperationStatus m) s (u.reply m (lay [(1, b2n b.bgActive + 2 * b.bgPercent.toNat), (1, 0),
      (2, b.bgOpcode.toNat), (2, b.bgStatus.toNat), (2, b.bgExt.toNat)])) :=
  show execBackgroundOperationStatus m s = _ from State.command_served h (decide_eq_true hi) _

theorem runs_getResponseMessageLimit (h : s.Served m 0x0003 i false false .identify) (hi : i.length = 0) :
    Runs (.getResponseMessageLimit m) s (s.reply m [BitVec.ofNat 8 (log2Limit (s.mbox m).limit)]) :=
  show execGetResponseMessageLimit m s = _ from State.command_served h (decide_eq_true hi) _

theorem runs_setResponseMessageLimit (h : s.Served m 0x0004 i false false .identify) (hi : i.length = 1) (hn : 8 ≤ fieldAt i 0 1) :
    Runs (.setResponseMessageLimit m) s ((s.modMb m fun b => { b with limit := 2 ^ min (fieldAt i 0 1) 16 }).mbFinish m .success 0
      [BitVec.ofNat 8 (min (fieldAt i 0 1) 16)]) :=
  (show execSetResponseMessageLimit m s = _ from State.command_served h (decide_eq_true hi) _).trans
    (congrArg _ (if_neg (Nat.not_lt.mpr hn)))

/-- Scan Media and Mesh Discover are asked to end (R351). -/
theorem runs_requestAbortBackgroundOperation {b : Background} (h : s.Served m 0x0005 i false false .identify) (hi : i.length = 0)
    (hb : s.svc.bg = some b) (ho : b.opcode = 0x4304 ∨ b.opcode = 0xC060) :
    Runs (.requestAbortBackgroundOperation m) s
      (({ s with svc := { s.svc with bg := some { b with abortReq := true } } } : State).mbFinish m .success) := by
  refine (show execRequestAbortBackgroundOperation m s = _ from State.command_served h (decide_eq_true hi) _).trans (congrArg _ ?_)
  dsimp only
  rw [hb]
  exact if_pos ho

/-! ### Event logs (R326, R327) -/

theorem runs_getEventRecords (h : s.Served m 0x0100 i false false .identify) (hi : i.length = 1) (hn : fieldAt i 0 1 ≤ 4) :
    let l := s.heads[s.headOf m].logs[toLog (fieldAt i 0 1)]
    let n := min l.recs.length (((s.mbox m).limit - 32) / 128)
    let r := s.logsBytes (toLog (fieldAt i 0 1)) (l.recs.take n)
    Runs (.getEventRecords m) s (r.2.mbFinish m .success 0 (lay [(1, b2n (l.overflow ≠ 0) + 2 * b2n (decide (n < l.recs.length))), (1, 0),
      (2, l.overflow.toNat), (8, l.firstOver.toNat), (8, l.lastOver.toNat), (2, n), (10, 0)] ++ r.1)) :=
  (show execGetEventRecords m s = _ from State.command_served h (decide_eq_true hi) _).trans
    (congrArg _ (if_neg (Nat.not_lt.mpr hn)))

/-- Log `k` holds `rs` after Clear Event Records, and its overflow is forgotten. -/
def Head.clearLog (x : Head) (k : Fin 5) (rs : List LogRec) : Head :=
  { x with logs := x.logs.set k { x.logs[k] with recs := rs, overflow := 0, firstOver := 0, lastOver := 0 } }

section
variable (h : s.Served m 0x0101 i false false .identify) (hi : i.length = 6 + 2 * fieldAt i 2 1) (hc : fieldAt i 2 1 ≠ 0xFF)
  (hn : fieldAt i 0 1 ≤ 4)
include hi hc

theorem clearEventRecords_lenOk : (decide (i.length = 6 + 2 * fieldAt i 2 1) && decide (fieldAt i 2 1 ≠ 0xFF)) = true := by
  rw [decide_eq_true hi, decide_eq_true hc]
  rfl

include h hn

/-- Records leave a log by the handles of its oldest ones. -/
theorem runs_clearEventRecords_handles (hf : fieldAt i 1 1 % 2 = 0) :
    let k := toLog (fieldAt i 0 1)
    let l := s.heads[s.headOf m].logs[k]
    ((List.range (fieldAt i 2 1)).map fun j => BitVec.ofNat 16 (fieldAt i (6 + 2 * j) 2)) =
      (l.recs.take (fieldAt i 2 1)).map (·.handle) →
    Runs (.clearEventRecords m) s
      ((s.modHead (s.headOf m) fun x => x.clearLog k (l.recs.drop (fieldAt i 2 1))).mbFinish m .success) := by
  intro k l hh
  have count : ((List.range (fieldAt i 2 1)).map fun j => BitVec.ofNat 16 (fieldAt i (6 + 2 * j) 2)).length = fieldAt i 2 1 := by
    rw [List.length_map, List.length_range]
  have notAll : ¬ fieldAt i 1 1 % 2 = 1 := by omega
  refine (show execClearEventRecords m s = _ from State.command_served h (clearEventRecords_lenOk hi hc) _).trans (congrArg _ ?_)
  dsimp only
  rw [if_neg (Nat.not_lt.mpr hn), if_neg notAll, count, if_neg (not_not_intro hh)]
  rfl

/-- All records leave an overflowed log. -/
theorem runs_clearEventRecords_all (hf : fieldAt i 1 1 % 2 = 1) :
    let k := toLog (fieldAt i 0 1)
    s.heads[s.headOf m].logs[k].overflow ≠ 0 →
    Runs (.clearEventRecords m) s ((s.modHead (s.headOf m) fun x => x.clearLog k []).mbFinish m .success) := by
  intro k ho
  exact (show execClearEventRecords m s = _ from State.command_served h (clearEventRecords_lenOk hi hc) _).trans
    (congrArg _ ((if_neg (Nat.not_lt.mpr hn)).trans ((if_pos hf).trans (if_neg ho))))

end

theorem runs_getEventInterruptPolicy (h : s.Served m 0x0102 i false false .identify) (hi : i.length = 0) :
    Runs (.getEventInterruptPolicy m) s (s.reply m ((List.finRange 5).map fun k =>
      BitVec.ofNat 8 (b2n s.heads[s.headOf m].logs[k].msix + 16 * (k.val + 1)))) :=
  show execGetEventInterruptPolicy m s = _ from State.command_served h (decide_eq_true hi) _

/-- Each log is set to MSI/MSI-X or to none. -/
theorem runs_setEventInterruptPolicy (h : s.Served m 0x0103 i false false .identify) (hi : i.length = 5)
    (hp : ∀ b ∈ i, b.toNat % 4 ≤ 1) :
    Runs (.setEventInterruptPolicy m) s ((s.modHead (s.headOf m) fun x => { x with
      logs := vmap x.logs fun k l => { l with msix := decide (fieldAt i k.val 1 % 4 = 1) } }).mbFinish m .success) := by
  have noFirmware : ¬ (i.any fun b => b.toNat % 4 > 1) = true := by
    rw [List.any_eq_true]
    rintro ⟨b, hb, hv⟩
    exact Nat.not_lt.mpr (hp b hb) (of_decide_eq_true hv)
  exact (show execSetEventInterruptPolicy m s = _ from State.command_served h (decide_eq_true hi) _).trans
    (congrArg _ (if_neg noFirmware))

theorem runs_getMctpEventInterruptPolicy (h : s.Served .mctp 0x0104 i false false .identify) (hi : i.length = 0) :
    Runs (.getMctpEventInterruptPolicy .mctp) s (s.reply .mctp [s.svc.mctpPolicy, 0]) :=
  (show execGetMctpEventInterruptPolicy .mctp s = _ from if_neg (not_not_intro rfl)).trans
    (State.command_served h (decide_eq_true hi) _)

theorem runs_setMctpEventInterruptPolicy (h : s.Served .mctp 0x0105 i false false .identify) (hi : i.length = 2) :
    Runs (.setMctpEventInterruptPolicy .mctp) s
      (({ s with svc := { s.svc with mctpPolicy := BitVec.ofNat 8 (fieldAt i 0 1) } } : State).mbFinish .mctp .success) :=
  (show execSetMctpEventInterruptPolicy .mctp s = _ from if_neg (not_not_intro rfl)).trans
    (State.command_served h (decide_eq_true hi) _)

/-! ### Timestamp, logs and features (R346, R353) -/

theorem runs_getTimestamp (h : s.Served m 0x0300 i false false .identify) (hi : i.length = 0) :
    Runs (.getTimestamp m) s (s.reply m (leBytes 8 s.heads[s.headOf m].stamp.toNat)) :=
  show execGetTimestamp m s = _ from State.command_served h (decide_eq_true hi) _

theorem runs_setTimestamp (h : s.Served m 0x0301 i false false .identify) (hi : i.length = 8) :
    Runs (.setTimestamp m) s
      ((s.modHead (s.headOf m) fun x => { x with stamp := BitVec.ofNat 64 (fieldAt i 0 8) }).mbFinish m .success) :=
  show execSetTimestamp m s = _ from State.command_served h (decide_eq_true hi) _

theorem runs_getSupportedLogs (h : s.Served m 0x0400 i false false .identify) (hi : i.length = 0) :
    Runs (.getSupportedLogs m) s (s.reply m (lay [(2, 1), (6, 0)] ++ celUuid ++ leBytes 4 (4 * opcodes.length))) :=
  show execGetSupportedLogs m s = _ from State.command_served h (decide_eq_true hi) _

/-- Part of the Command Effects Log. -/
theorem runs_getLog (h : s.Served m 0x0401 i false false .identify) (hi : i.length = 24) (hn : fieldAt i 20 4 ≠ 2 ^ 32 - 1)
    (hr : fieldAt i 16 4 + fieldAt i 20 4 ≤ 4 * opcodes.length) (hu : i.take 16 = celUuid) :
    Runs (.getLog m) s (s.reply m (bytesAt celBytes (fieldAt i 16 4) (fieldAt i 20 4))) := by
  refine (show execGetLog m s = _ from State.command_served h ?_ _).trans (congrArg _ (if_neg (not_not_intro hu)))
  have known : allOnes 4 (fieldAt i 20 4) = false := decide_eq_false hn
  rw [lenIs, decide_eq_true hi, known, decide_eq_true hr]
  rfl

/-- There are no features. -/
theorem runs_getSupportedFeatures (h : s.Served m 0x0500 i false false .identify) (hi : i.length = 8)
    (hn : fieldAt i 0 4 ≠ 2 ^ 32 - 1) : Runs (.getSupportedFeatures m) s (s.reply m (List.replicate 8 0)) := by
  refine show execGetSupportedFeatures m s = _ from State.command_served h ?_ _
  have known : allOnes 4 (fieldAt i 0 4) = false := decide_eq_false hn
  rw [lenIs, decide_eq_true hi, known]
  rfl

end

/-- Settles O49: each clause is the rule above for the command that it names. -/
theorem standardCommandsComplete : Obligations.StandardCommandsComplete := fun _ _ _ =>
  ⟨fun _ _ _ => runs_mailboxDoorbell _ _, fun _ => runs_unsupportedCommand, runs_identify, runs_backgroundOperationStatus,
    runs_getResponseMessageLimit, runs_setResponseMessageLimit, fun _ => runs_requestAbortBackgroundOperation, runs_getEventRecords,
    runs_clearEventRecords_handles, runs_clearEventRecords_all, runs_getEventInterruptPolicy, runs_setEventInterruptPolicy,
    runs_getMctpEventInterruptPolicy, runs_setMctpEventInterruptPolicy, runs_getTimestamp, runs_setTimestamp, runs_getSupportedLogs,
    runs_getLog, runs_getSupportedFeatures⟩

end Sys2Proof.Machine
end

section
/-! The step (R341, R342), and the completion of a mailbox command (R341, R343, R344, R400). -/

namespace Sys2Proof.Machine

/-! ### The step -/

/-- Settles O1: by the two cases of the queue. -/
theorem stepTakesFront : Obligations.StepTakesFront := by
  refine ⟨fun _ _ _ => rfl, fun s idle => ?_⟩
  unfold step
  rw [idle]

/-- Settles O2: what a command changes, it changes in a next state. -/
theorem everyCommandCompletes : Obligations.EveryCommandCompletes := by
  intro c s
  obtain ⟨t, run, -⟩ := exec_changes c s
  exact ⟨t, run⟩

/-! ### Completion of a mailbox command -/

/-- The place of a mailbox in its head: primary, then secondary. -/
def mbSlot (sec : Bool) : Fin 2 := if sec then 1 else 0

theorem mbSlot_not (sec : Bool) : mbSlot sec ≠ mbSlot (!sec) := by cases sec <;> decide

theorem State.mbox_head (s : State) (h : TileId) (sec : Bool) : s.mbox (.head h sec) = s.heads[h].mb[mbSlot sec] := by
  cases sec <;> rfl

/-- The mailbox after a completion: it is free, and holds the answer unless a reset of the head discards it. -/
def Mailbox.finish (b : Mailbox) (code : Ret) (ext : Nat) (out : List Byte) : Mailbox :=
  if b.dropped then { b with doorbell := false, cmd := none, dropped := false }
  else { b with doorbell := false, cmd := none, status := BitVec.ofNat 16 code.code, ext := BitVec.ofNat 16 ext, output := out }

section
variable (b : Mailbox) (code : Ret) (ext : Nat) (out : List Byte)

theorem Mailbox.finish_free :
    (b.finish code ext out).doorbell = false ∧ (b.finish code ext out).cmd = none ∧ (b.finish code ext out).dropped = false := by
  unfold finish
  split
  next => exact ⟨rfl, rfl, rfl⟩
  next kept => exact ⟨rfl, rfl, Bool.eq_false_iff.mpr kept⟩

theorem Mailbox.finish_posted (hd : b.dropped = false) :
    (b.finish code ext out).status = BitVec.ofNat 16 code.code ∧ (b.finish code ext out).ext = BitVec.ofNat 16 ext ∧
      (b.finish code ext out).output = out := by
  unfold finish
  rw [hd]
  exact ⟨rfl, rfl, rfl⟩

theorem Mailbox.finish_discarded (hd : b.dropped = true) :
    (b.finish code ext out).status = b.status ∧ (b.finish code ext out).ext = b.ext ∧ (b.finish code ext out).output = b.output := by
  unfold finish
  rw [hd]
  exact ⟨rfl, rfl, rfl⟩

end

/-- The head after a completion at one of its mailboxes: vector 0 is signalled where the answer is posted and the host asked for it. -/
def Head.finish (x : Head) (sec : Bool) (code : Ret) (ext : Nat) (out : List Byte) : Head :=
  let y := { x with mb := vmod x.mb (mbSlot sec) fun b => b.finish code ext out }
  if !x.mb[mbSlot sec].dropped && x.mb[mbSlot sec].irq then y.signal 0 else y

section
variable (x : Head) (sec : Bool) (code : Ret) (ext : Nat) (out : List Byte)

theorem Head.finish_mb : (x.finish sec code ext out).mb = vmod x.mb (mbSlot sec) fun b => b.finish code ext out := by
  unfold finish
  dsimp only
  split <;> rfl

theorem Head.finish_msix : (x.finish sec code ext out).msix =
    if !x.mb[mbSlot sec].dropped && x.mb[mbSlot sec].irq then bitOn x.msix 0 else x.msix :=
  apply_ite Head.msix _ _ _

end

theorem vmod_vmod {α : Type} {n : Nat} (v : Vector α n) (i : Fin n) (f g : α → α) :
    vmod (vmod v i f) i g = vmod v i fun x => g (f x) := by
  simp [vmod]

section
variable (s : State) (h : TileId) (sec : Bool) (code : Ret) (ext : Nat) (out : List Byte)

theorem State.mbFinish_heads : (s.mbFinish (.head h sec) code ext out).heads =
    vmod s.heads h fun x => x.finish sec code ext out := by
  let put (x : Head) : Head := { x with mb := vmod x.mb (mbSlot sec) fun b => b.finish code ext out }
  let b := s.heads[h].mb[mbSlot sec]
  have posted : (s.mbFinish (.head h sec) code ext out).heads =
      if !b.dropped && b.irq then vmod (vmod s.heads h put) h (·.signal 0) else vmod s.heads h put := by
    unfold mbFinish
    rw [mbox_head]
    dsimp only
    split <;> split <;> rfl
  rw [posted, vmod_vmod]
  exact (apply_ite (s.heads.set h) _ _ _).symm

theorem State.mbFinish_head : (s.mbFinish (.head h sec) code ext out).heads[h] = s.heads[h].finish sec code ext out := by
  rw [mbFinish_heads]
  exact vmod_self ..

theorem State.mbFinish_head_other {x : TileId} (hx : x ≠ h) : (s.mbFinish (.head h sec) code ext out).heads[x] = s.heads[x] := by
  rw [mbFinish_heads]
  exact vmod_other _ _ hx.symm

theorem State.mbFinish_mbox :
    (s.mbFinish (.head h sec) code ext out).mbox (.head h sec) = (s.mbox (.head h sec)).finish code ext out := by
  rw [mbox_head, mbox_head, mbFinish_head, Head.finish_mb]
  exact vmod_self ..

theorem State.mbFinish_mbox_other : (s.mbFinish (.head h sec) code ext out).mbox (.head h !sec) = s.mbox (.head h !sec) := by
  rw [mbox_head, mbox_head, mbFinish_head, Head.finish_mb]
  exact vmod_other _ _ (mbSlot_not sec)

theorem State.mbFinish_msix : (s.mbFinish (.head h sec) code ext out).heads[h].msix =
    if !(s.mbox (.head h sec)).dropped && (s.mbox (.head h sec)).irq then bitOn s.heads[h].msix 0 else s.heads[h].msix := by
  rw [mbFinish_head, mbox_head]
  exact Head.finish_msix ..

theorem State.mbFinish_mctp : (s.mbFinish (.head h sec) code ext out).svc.mctp = s.svc.mctp := by
  unfold mbFinish
  dsimp only
  split <;> split <;> rfl

end

/-- Settles O22: the head is finished, and with it the mailbox that the command came through. -/
theorem mailboxCompletions : Obligations.MailboxCompletions := by
  intro s h sec code ext out m t
  have mailbox : t.mbox m = (s.mbox m).finish code ext out := s.mbFinish_mbox h sec code ext out
  have signal := s.mbFinish_msix h sec code ext out
  rw [mailbox]
  refine ⟨Mailbox.finish_free .., fun hd => ?_, fun hd => ?_, s.mbFinish_mbox_other h sec code ext out,
    fun x hx => s.mbFinish_head_other h sec code ext out hx, State.mbFinish_changes.keeps, s.mbFinish_mctp h sec code ext out⟩
  · obtain ⟨status, extended, output⟩ := Mailbox.finish_posted _ code ext out hd
    rw [hd] at signal
    exact ⟨status, extended, output, signal⟩
  · obtain ⟨status, extended, output⟩ := Mailbox.finish_discarded _ code ext out hd
    rw [hd] at signal
    exact ⟨status, extended, output, signal⟩

end Sys2Proof.Machine
end

section
/-! The security commands, readout protection and debug access (R373, R676 to R680, R687, R688, R708): one rule for each command and
each case of it. -/

namespace Sys2Proof.Machine

theorem not_isSome {α : Type} {o : Option α} (h : o = none) : ¬ o.isSome = true := by
  rw [h]
  exact Bool.false_ne_true

theorem not_true_of_eq_false {b : Bool} (h : b = false) : ¬ b = true := Bool.eq_false_iff.mp h

section
variable {s : State} {m : Iface} {i : List Byte} {v : BitVec 128 × BitVec 256}

/-! ### Passphrases (R676 to R678, R688) -/

theorem runs_getSecurityState (h : s.Served m 0x4500 i false false .identify) (hi : i.length = 0) :
    let k := s.keySet
    Runs (.getSecurityState m) s (s.reply m (leBytes 4 (b2n k.userPw.isSome + 2 * b2n k.masterPw.isSome + 4 * b2n s.sec.locked
      + 8 * b2n s.sec.frozen + 16 * b2n (decide (s.sec.userTries = 0)) + 32 * b2n (decide (s.sec.masterTries = 0))))) :=
  show execGetSecurityState m s = _ from State.command_served h (decide_eq_true hi) _

/-- A passphrase that does not match the one that is set is a wrong one. -/
theorem State.withPw_wrong {user : Bool} {pw : List Byte} {ok : State → State} (he : s.erasing = false) (hf : s.sec.frozen = false)
    (ht : s.tries user ≠ 0) (hv : s.keySet.pw user = some v) (hp : pwMatches v pw = false) :
    s.withPw m user pw ok = s.wrongPw m user := by
  have admitted : ¬ (s.sec.frozen = true ∨ s.tries user = 0) := by
    rintro (frozen | none)
    · exact Bool.false_ne_true (hf.symm.trans frozen)
    · exact ht none
  unfold withPw
  rw [if_neg (not_true_of_eq_false he), if_neg admitted, hv]
  exact if_neg (not_true_of_eq_false hp)

/-- Set Passphrase of a type that exists is what becomes of its passphrase. -/
theorem exec_setPassphrase (h : s.Served m 0x4501 i true false .setPassphrase) (hi : i.length = 96) (hy : fieldAt i 0 1 ≤ 1) :
    exec (.setPassphrase m) s = .next (s.withPw m (decide (fieldAt i 0 1 = 1)) (bytesAt i 32 32) fun s =>
      let salt := BitVec.ofNat 128 s.draw.1
      s.draw.2.storeKeySet m
        (s.draw.2.keySet.setPw (decide (fieldAt i 0 1 = 1)) (some (salt, pwTag salt (bytesAt i 64 32))))) :=
  (show execSetPassphrase m s = _ from State.command_served h (decide_eq_true hi) _).trans
    (congrArg _ (if_neg (Nat.not_lt.mpr hy)))

section
variable (h : s.Served m 0x4501 i true false .setPassphrase) (hi : i.length = 96) (hy : fieldAt i 0 1 ≤ 1) (he : s.erasing = false)
  (hf : s.sec.frozen = false)
include h hi hy he hf

theorem runs_setPassphrase :
    let user := decide (fieldAt i 0 1 = 1)
    s.tries user ≠ 0 → (s.keySet.pw user = none ∨ ∃ v, s.keySet.pw user = some v ∧ pwMatches v (bytesAt i 32 32) = true) →
    let salt := BitVec.ofNat 128 s.draw.1
    Runs (.setPassphrase m) s (s.draw.2.storeKeySet m (s.draw.2.keySet.setPw user (some (salt, pwTag salt (bytesAt i 64 32))))) :=
  fun ht hp => (exec_setPassphrase h hi hy).trans (congrArg _ (State.withPw_ok he hf ht hp))

theorem runs_setPassphrase_wrong :
    let user := decide (fieldAt i 0 1 = 1)
    s.tries user ≠ 0 → s.keySet.pw user = some v → pwMatches v (bytesAt i 32 32) = false →
    Runs (.setPassphrase m) s (s.wrongPw m user) :=
  fun ht hv hp => (exec_setPassphrase h hi hy).trans (congrArg _ (State.withPw_wrong he hf ht hv hp))

end

theorem runs_disablePassphrase (h : s.Served m 0x4502 i true false .setPassphrase) (hi : i.length = 64) (hy : fieldAt i 0 1 ≤ 1)
    (he : s.erasing = false) (hf : s.sec.frozen = false) :
    let user := decide (fieldAt i 0 1 = 1)
    s.tries user ≠ 0 → s.keySet.pw user = some v → pwMatches v (bytesAt i 32 32) = true →
    Runs (.disablePassphrase m) s (s.storeKeySet m (s.keySet.setPw user none)) := by
  intro user ht hv hp
  have isSet : ¬ (s.keySet.pw user).isNone = true := by
    rw [hv]
    exact Bool.false_ne_true
  exact (show execDisablePassphrase m s = _ from State.command_served h (decide_eq_true hi) _).trans (congrArg _
    ((if_neg (Nat.not_lt.mpr hy)).trans <| (State.withPw_ok he hf ht (.inr ⟨v, hv, hp⟩)).trans (if_neg isSet)))

theorem runs_unlock (h : s.Served m 0x4503 i true false .setPassphrase) (hi : i.length = 32) (he : s.erasing = false)
    (hf : s.sec.frozen = false) (ht : s.sec.userTries ≠ 0) (hv : s.keySet.userPw = some v)
    (hp : pwMatches v (bytesAt i 0 32) = true) :
    Runs (.unlock m) s
      (({ s with sec := { s.sec with locked := false } }.raise (mkEv 0x8001 .info s.lead 0)).mbFinish m .success) :=
  (show execUnlock m s = _ from State.command_served h (decide_eq_true hi) _).trans
    (congrArg _ (State.withPw_ok (user := true) he hf ht (.inr ⟨v, hv, hp⟩)))

theorem runs_freezeSecurityState (h : s.Served m 0x4504 i true false .setPassphrase) (hi : i.length = 0) :
    Runs (.freezeSecurityState m) s (({ s with sec := { s.sec with frozen := true } } : State).mbFinish m .success) :=
  show execFreezeSecurityState m s = _ from State.command_served h (decide_eq_true hi) _

/-! ### Erase (R679, R680) -/

theorem runs_sanitize (h : s.Served m 0x4400 i true true .injectPoison) (hi : i.length = 0) (hb : s.svc.bg = none)
    (hl : s.sec.locked = false) : Runs (.sanitize m) s (s.startErase m 0x4400 1 i) :=
  (show execSanitize m s = _ from State.command_served h (decide_eq_true hi) _).trans
    (congrArg _ ((if_neg (not_isSome hb)).trans (if_neg (not_true_of_eq_false hl))))

theorem runs_secureErase (h : s.Served m 0x4401 i true true .injectPoison) (hi : i.length = 0) (hb : s.svc.bg = none)
    (hl : s.sec.locked = false) : Runs (.secureErase m) s (s.startErase m 0x4401 2 i) :=
  (show execSecureErase m s = _ from State.command_served h (decide_eq_true hi) _).trans
    (congrArg _ ((if_neg (not_isSome hb)).trans (if_neg (not_true_of_eq_false hl))))

theorem runs_passphraseSecureErase (h : s.Served m 0x4505 i true true .injectPoison) (hi : i.length = 64)
    (hy : fieldAt i 0 1 ≤ 1) (hb : s.svc.bg = none) (he : s.erasing = false) (hf : s.sec.frozen = false) :
    let user := decide (fieldAt i 0 1 = 1)
    s.tries user ≠ 0 → s.keySet.pw user = some v → pwMatches v (bytesAt i 32 32) = true →
    Runs (.passphraseSecureErase m) s (s.startErase m 0x4505 3 i) := by
  intro user ht hv hp
  have isSet : ¬ (s.sec.locked = true ∧ (s.keySet.pw user).isNone = true) := by
    rw [hv]
    exact fun none => Bool.false_ne_true none.2
  exact (show execPassphraseSecureErase m s = _ from State.command_served h (decide_eq_true hi) _).trans (congrArg _
    ((if_neg (Nat.not_lt.mpr hy)).trans <| (if_neg (not_isSome hb)).trans <| (if_neg isSet).trans
      (State.withPw_ok he hf ht (.inr ⟨v, hv, hp⟩))))

section
variable {b : Background} (l : List (Nat × PageNoise)) (hb : s.svc.bg = some b)
include hb

/-- A scan ends with what it found, aborted or not (R258, R351). -/
theorem runs_backgroundOpComplete_scan (ho : b.opcode = 0x4304) :
    Runs (.backgroundOpComplete l) s
      ((s.scanDone b.input l).endBackground b (if b.abortReq then .aborted else .success) 0) := by
  change execBackgroundOpComplete l s = _
  unfold execBackgroundOpComplete
  rw [hb]
  exact if_pos ho

/-- An erase ends once its key sets are written and the supply check of its last steps passes (R680). -/
theorem runs_backgroundOpComplete_erase (ho : b.opcode ≠ 0x4304) (ho' : b.opcode ≠ 0xC060) (he : s.sec.eraseStep = 4)
    (hk : s.sec.keyWrite = none) (hs : s.supplyOk (2 * keySetUs + 100) s.svcTiles.length = true) :
    Runs (.backgroundOpComplete l) s (s.eraseRest.endBackground b .success 0) := by
  have written : ¬ (s.sec.eraseStep ≠ 4 ∨ s.sec.keyWrite.isSome = true) := by
    rintro (step | pending)
    · exact step he
    · exact not_isSome hk pending
  change execBackgroundOpComplete l s = _
  unfold execBackgroundOpComplete
  rw [hb]
  exact (if_neg ho).trans <| (if_neg ho').trans <| (if_neg written).trans (if_neg (supply_held hs))

end

/-! ### Readout protection (R373) -/

theorem exec_setReadoutProtection (h : s.Served m 0xC080 i true false .loadConfig) (hi : i.length = 8) (hl : fieldAt i 0 1 ≤ 2) :
    exec (.setReadoutProtection m) s = .next
      (if fieldAt i 0 1 = s.rdp then s.mbFinish m .success
      else if s.rdp = 2 then s.mbFinish m .invalidInput 0x140
      else if fieldAt i 0 1 < s.rdp ∧ s.sys.state.isServing then s.mbFinish m .invalidInput s.inState
      else if fieldAt i 2 2 ≠ (if fieldAt i 0 1 = 2 then 0x4C32 else if fieldAt i 0 1 < s.rdp then 0x4C30 else 0) then
        s.mbFinish m .invalidInput 0x141
      else if fieldAt i 0 1 < s.rdp then s.markRdp.mbFinish m .success
      else s.raiseRdp m (fieldAt i 0 1)) :=
  (show execSetReadoutProtection m s = _ from State.command_served h (decide_eq_true hi) _).trans
    (congrArg _ (if_neg (Nat.not_lt.mpr hl)))

section
variable (h : s.Served m 0xC080 i true false .loadConfig) (hi : i.length = 8)
include h hi

theorem runs_setReadoutProtection_same (hc : fieldAt i 0 1 = s.rdp) (hl : s.rdp ≤ 2) :
    Runs (.setReadoutProtection m) s (s.mbFinish m .success) :=
  (exec_setReadoutProtection h hi (Nat.le_trans (Nat.le_of_eq hc) hl)).trans (congrArg _ (if_pos hc))

theorem runs_setReadoutProtection_raise (hc : s.rdp < fieldAt i 0 1) (hl : fieldAt i 0 1 ≤ 2)
    (hk : fieldAt i 2 2 = if fieldAt i 0 1 = 2 then 0x4C32 else 0) :
    Runs (.setReadoutProtection m) s (s.raiseRdp m (fieldAt i 0 1)) := by
  have up : ¬ fieldAt i 0 1 < s.rdp := Nat.not_lt.mpr (Nat.le_of_lt hc)
  refine (exec_setReadoutProtection h hi hl).trans (congrArg _ ?_)
  rw [if_neg (Nat.ne_of_gt hc), if_neg (by omega), if_neg fun down => up down.1, if_neg up, if_neg (not_not_intro hk), if_neg up]

/-- Level 1 is lowered outside service, where it is marked for the erase that follows. -/
theorem runs_setReadoutProtection_lower (hc : s.rdp = 1) (hl : fieldAt i 0 1 = 0) (hv : s.sys.state.isServing = false)
    (hk : fieldAt i 2 2 = 0x4C30) : Runs (.setReadoutProtection m) s (s.markRdp.mbFinish m .success) := by
  refine (exec_setReadoutProtection h hi (by omega)).trans (congrArg _ ?_)
  have idle : ¬ (0 < 1 ∧ s.sys.state.isServing = true) := fun serving => not_true_of_eq_false hv serving.2
  rw [hc, hl, hk]
  exact (if_neg Nat.zero_ne_one).trans <| (if_neg (by decide)).trans <| (if_neg idle).trans <| (if_neg (by decide)).trans
    (if_pos Nat.one_pos)

end

/-! ### The erase of the config flash (R373) -/

theorem State.prmPut_opt (s : State) (t x : TileId) (a : Nat) (bs : List Byte) : (s.prmPut t a bs).nv[x].opt = s.nv[x].opt := by
  by_cases ht : t = x
  · subst ht
    exact (congrArg TileNv.opt (modNv_self s t _)).trans rfl
  · exact congrArg TileNv.opt (modNv_other s _ ht)

theorem State.prmWrite_opt (s : State) (x : TileId) (a : Nat) (bs : List Byte) : (s.prmWrite a bs).nv[x].opt = s.nv[x].opt := by
  have lead := s.prmPut_opt s.lead x a bs
  unfold prmWrite
  dsimp only
  split
  · exact List.foldlRecOn _ _ (motive := fun u : State => u.nv[x].opt = s.nv[x].opt) lead
      fun u hu t _ => (u.prmPut_opt t x a bs).trans hu
  · exact lead

theorem State.twinWrite_opt (s : State) (x : TileId) (p : Nat) (bs : List Byte) : (s.twinWrite p bs).nv[x].opt = s.nv[x].opt :=
  s.prmWrite_opt x _ _

/-- The part resets with the option area of the lead at level 0 and the defaults. -/
theorem runs_rdpEraseDone (hp : s.svc.rdpPending = true) :
    ∃ t : State, Runs .rdpEraseDone s (t.packageReset .recoveryRestart)
      ∧ t.nv[s.lead].opt = [optEntry 1, optEntry (rdpWord 0), optEntry 0x6250, optEntry 0] := by
  let erased : State := { s with nv := vmap s.nv fun _ v => eraseAll v }
  let w := erased.modNv s.lead fun v => { v with opt := [optEntry 1, optEntry (rdpWord 0), optEntry 0x6250, optEntry 0] }
  let u := w.raise (mkEv 0x8040 .info s.lead 0 [(1, 1), (1, 0)])
  have raised : u.nv = w.nv := State.raise_changes.keeps .nv rfl
  refine ⟨_, if_neg (not_refused hp), (u.twinWrite_opt ..).trans ?_⟩
  rw [raised]
  exact congrArg TileNv.opt (erased.modNv_self s.lead _)

/-! ### Debug (R687, R708) -/

theorem runs_jtagAccess_idcode {tap : Fin 9} (a : Nat) (hv : s.aon.vaon = true)
    (ht : tap.val = 0 ∨ (fittedMask s.fuses.variant).getLsbD (tap.val - 1) = true) (hl : s.rdp ≤ 1) :
    let r := leBytes 4 (Config.jep106.toNat + 4096 * s.tapPart tap + 2 ^ 28 * Config.idVersion.toNat)
    Runs (.jtagAccess tap .idcode a) s { s with svc := { s.svc with jtag := some r } } := by
  have there : (decide (tap.val = 0) || (fittedMask s.fuses.variant).getLsbD (tap.val - 1)) = true := by
    rw [Bool.or_eq_true, decide_eq_true_eq]
    exact ht
  have reached : ¬ (!s.aon.vaon || !(decide (tap.val = 0) || (fittedMask s.fuses.variant).getLsbD (tap.val - 1))) = true := by
    rw [hv, there]
    exact Bool.false_ne_true
  have opened : ¬ (!(decide (s.rdp = 0) || (decide (s.rdp = 1) && true))) = true := by
    obtain level | level : s.rdp = 0 ∨ s.rdp = 1 := by omega
    all_goals
      rw [level]
      decide
  exact (if_neg reached).trans ((if_neg opened).trans (if_pos rfl))

end

/-- Settles O53: each clause is the rule above for the command and the case that it names. -/
theorem securityCommandsComplete : Obligations.SecurityCommandsComplete := fun _ _ _ =>
  ⟨runs_getSecurityState, runs_setPassphrase, fun _ => runs_setPassphrase_wrong, fun _ => runs_disablePassphrase,
    fun _ => runs_unlock, runs_freezeSecurityState, runs_sanitize, runs_secureErase, fun _ => runs_passphraseSecureErase,
    fun _ => runs_backgroundOpComplete_scan, fun _ => runs_backgroundOpComplete_erase, runs_setReadoutProtection_same,
    runs_setReadoutProtection_raise, runs_setReadoutProtection_lower, runs_rdpEraseDone, fun _ => runs_jtagAccess_idcode⟩

end Sys2Proof.Machine
end

section
/-! The vendor commands on configuration, power, events, black box, policy, hold-up, counters and tagging (R355 to R367, R420 to R422,
R542, R633, R644, R647 to R652): one rule for each command and each case of it. -/

namespace Sys2Proof.Machine

theorem flatMap_leBytes_length {α : Type} (n : Nat) (f : α → Nat) (l : List α) :
    (l.flatMap fun x => leBytes n (f x)).length = n * l.length := by
  induction l with
  | nil => rfl
  | cons x l ih =>
    rw [List.flatMap_cons, List.length_append, leBytes_length, ih, List.length_cons, Nat.mul_succ, Nat.add_comm]

section
variable {s : State} {m : Iface} {i img : List Byte}

theorem runs_getTileStatus (h : s.Served m 0xC001 i false false .tileStatus) (hi : i.length = 0) :
    Runs (.getTileStatus m) s (s.reply m s.tileStatus) :=
  show execGetTileStatus m s = _ from State.command_served h (decide_eq_true hi) _

/-! ### Configuration (R356 to R358, R420 to R422) -/

theorem runs_loadConfiguration (h : s.Served m 0xC010 i true false .loadConfig) (hi : i.length = 4096) (hc : recCrcOk i = true)
    (hf : recFormatOk i = true) (hs : s.highSeq < recSeq i) (hs' : recSeq i ≤ 0xFFFFFFFE) (hk : s.recInconsistent i = false) :
    Runs (.loadConfiguration m) s (({ s with cfg := { s.cfg with loaded := some i } } : State).mbFinish m .success) := by
  have format : ¬ (!recFormatOk i || decide (recSeq i ≤ s.highSeq ∨ recSeq i > 0xFFFFFFFE)) = true := by
    rw [hf, decide_eq_false (by omega)]
    exact Bool.false_ne_true
  exact (show execLoadConfiguration m s = _ from State.command_served h (decide_eq_true hi) _).trans
    (congrArg _ ((if_neg (not_refused hc)).trans <| (if_neg format).trans (if_neg (not_true_of_eq_false hk))))

/-- A loaded image that is named by its number is committed, and the command waits for the copies. -/
theorem runs_commitConfiguration (hc : s.cfg.commit = none) (h : s.Served m 0xC011 i true false .loadConfig)
    (hi : i.length = 8) (hl : s.cfg.loaded = some img) (hn : fieldAt i 4 4 = recSeq img) (hk : s.recInconsistent img = false)
    (hs : s.supplyOk commitUs s.commitTiles.length = true) :
    let u := s.startCommit img true (fieldAt i 0 1 % 2 = 1) 0
    Runs (.commitConfiguration m) s { u with svc := { u.svc with waiting := some (m, .commit), waitOut := [] } } := by
  have run := show execCommitConfiguration m s = _ from State.command_uncommitted hc h (decide_eq_true hi) _
  refine run.trans (congrArg _ ?_)
  rw [hl]
  exact (if_neg (not_not_intro hn)).trans <| (if_neg (not_true_of_eq_false hk)).trans (if_neg (supply_held hs))

/-- What Read Configuration returns where WHICH is not refused: the copy in force, a copy as stored, or the loaded image. -/
def State.whichConfiguration (s : State) : Nat → List Byte × State
  | 0 => (s.cfg.chosen, s)
  | 1 => s.copyBytes 0
  | 2 => s.copyBytes 1
  | _ => (s.cfg.loaded.getD [], s)

section
variable (h : s.Served m 0xC012 i false false .identify) (hi : i.length = 8) (hn : fieldAt i 4 2 ≠ 0xFFFF)
  (hr : fieldAt i 2 2 + fieldAt i 4 2 ≤ 4096) (ho : fieldAt i 2 2 ≤ 4095)
include h hi hn hr ho

theorem runs_readConfiguration (hw : fieldAt i 0 1 ≤ 3) (hc : fieldAt i 0 1 = 0 → s.cfg.chosen ≠ [])
    (hl : fieldAt i 0 1 = 3 → s.cfg.loaded ≠ none) :
    let r := s.whichConfiguration (fieldAt i 0 1)
    Runs (.readConfiguration m) s (r.2.reply m (bytesAt r.1 (fieldAt i 2 2) (fieldAt i 4 2))) := by
  have known : allOnes 2 (fieldAt i 4 2) = false := decide_eq_false hn
  have fits : (lenIs 8 i && !allOnes 2 (fieldAt i 4 2) && decide (fieldAt i 2 2 + fieldAt i 4 2 ≤ 4096)) = true := by
    rw [lenIs, decide_eq_true hi, known, decide_eq_true hr]
    rfl
  exact (show execReadConfiguration m s = _ from State.command_served h fits _).trans (congrArg _
    ((if_neg (by omega)).trans <| (if_neg fun none => hc none.1 none.2).trans (if_neg fun none => hl none.1 none.2)))

theorem runs_readConfiguration_chosen (hw : fieldAt i 0 1 = 0) (hc : s.cfg.chosen ≠ []) :
    Runs (.readConfiguration m) s (s.reply m (bytesAt s.cfg.chosen (fieldAt i 2 2) (fieldAt i 4 2))) := by
  have run := runs_readConfiguration h hi hn hr ho (by omega) (fun _ => hc) (by omega)
  rw [hw] at run
  exact run

theorem runs_readConfiguration_copy (hw : fieldAt i 0 1 = 1) :
    Runs (.readConfiguration m) s ((s.copyBytes 0).2.reply m (bytesAt (s.copyBytes 0).1 (fieldAt i 2 2) (fieldAt i 4 2))) := by
  have run := runs_readConfiguration h hi hn hr ho (by omega) (by omega) (by omega)
  rw [hw] at run
  exact run

theorem runs_readConfiguration_loaded (hw : fieldAt i 0 1 = 3) (hl : s.cfg.loaded = some img) :
    Runs (.readConfiguration m) s (s.reply m (bytesAt img (fieldAt i 2 2) (fieldAt i 4 2))) := by
  have image : s.cfg.loaded.getD [] = img := by rw [hl, Option.getD_some]
  have run := runs_readConfiguration h hi hn hr ho (by omega) (by omega) fun _ none => Option.some_ne_none img (hl.symm.trans none)
  rw [hw] at run
  rw [← image]
  exact run

end

/-! ### Power (R359, R360) -/

theorem runs_setPowerState (h : s.Served m 0xC020 i true false .setPower) (hi : i.length = 4) (hs : fieldAt i 0 1 ≤ 3)
    (hp : fieldAt i 1 1 ≤ 3) :
    Runs (.setPowerState m) s
      ((s.setPower (BitVec.ofNat 2 (fieldAt i 0 1)) (BitVec.ofNat 2 (fieldAt i 1 1))).mbFinish m .success) :=
  (show execSetPowerState m s = _ from State.command_served h (decide_eq_true hi) _).trans (congrArg _ (if_neg (by omega)))

theorem runs_getPowerState (h : s.Served m 0xC021 i false false .tileStatus) (hi : i.length = 0) :
    let p := s.pwr
    Runs (.getPowerState m) s (s.reply m (lay [(1, p.sleep.toNat), (1, p.requested.toNat),
      (1, if p.transition ≠ 0 then p.transition.toNat else if p.changing then 3 else 0), (1, p.queued.toNat),
      (1, if s.thm.active then s.thm.imposed.toNat else 0xFF), (3, 0), (4, p.lastResumeUs.toNat), (4, 0)])) :=
  show execGetPowerState m s = _ from State.command_served h (decide_eq_true hi) _

/-! ### Events and the black box (R361, R362, R633, R644) -/

theorem runs_readEventWindow (h : s.Served m 0xC030 i false false .identify) (hi : i.length = 16) (hn : 1 ≤ fieldAt i 8 1)
    (hn' : fieldAt i 8 1 ≤ 8) (hv : fieldAt i 9 1 ≤ 3) :
    let r := ((s.evr.held.map HeldRec.r).filter fun (r : EventRec) =>
      decide (fieldAt i 0 6 ≤ r.seq ∧ fieldAt i 9 1 ≤ r.sev.code)).take (fieldAt i 8 1)
    Runs (.readEventWindow m) s (s.reply m (lay [(8, s.evr.oldest), (8, s.evr.newest),
      (8, (r.getLast?.map fun (x : EventRec) => x.seq + 1).getD (fieldAt i 0 6))]
      ++ (s.evr.drops.toList.flatMap fun d => leBytes 2 d.toNat) ++ lay [(1, r.length), (7, 0)] ++ r.flatMap evBytes)) := by
  have known : allOnes 1 (fieldAt i 8 1) = false := decide_eq_false (by omega)
  have fits : (lenIs 16 i && !allOnes 1 (fieldAt i 8 1)) = true := by
    rw [lenIs, decide_eq_true hi, known]
    rfl
  exact (show execReadEventWindow m s = _ from State.command_served h fits _).trans
    (congrArg _ ((if_neg (by omega)).trans (if_neg (by omega))))

/-- Without a rescue buffer the governing flash copy is read in every state. -/
theorem runs_readBlackBox (h : s.Served m 0xC031 i false false .identify) (hi : i.length = 8) (hn : fieldAt i 2 1 ≤ 64)
    (hr : fieldAt i 0 2 + fieldAt i 2 1 ≤ 1024) (ho : fieldAt i 0 2 ≤ 1023) (hs : fieldAt i 3 1 = 0) (hb : s.bbx.buffer = none) :
    Runs (.readBlackBox m) s (s.reply m (s.bbSlots 0 (fieldAt i 0 2) (fieldAt i 2 1))) := by
  have known : allOnes 1 (fieldAt i 2 1) = false := decide_eq_false (by omega)
  have fits : (lenIs 8 i && !allOnes 1 (fieldAt i 2 1) && decide (fieldAt i 0 2 + fieldAt i 2 1 ≤ 1024)) = true := by
    rw [lenIs, decide_eq_true hi, known, decide_eq_true hr]
    rfl
  refine (show execReadBlackBox m s = _ from State.command_served h fits _).trans (congrArg _ ?_)
  rw [hs, hb]
  exact (if_neg (by omega)).trans <| (if_neg fun rescue => Bool.false_ne_true rescue.1).trans
    (if_neg fun media => Nat.zero_ne_one media.2.1)

/-! ### Acknowledgement and hold-up (R363, R364) -/

theorem runs_setRegionAckPolicy (hc : s.cfg.commit = none) (h : s.Served m 0xC040 i true false .injectPoison) (hi : i.length = 4)
    (hr : fieldAt i 0 1 = 8 ∨ (fieldAt i 0 1 < 8 ∧ recRegLen s.cfg.record (fieldAt i 0 1) ≠ 0)) (hp : fieldAt i 1 1 ≤ 1) :
    let r := fieldAt i 0 1
    let strict := decide (fieldAt i 1 1 = 1)
    Runs (.setRegionAckPolicy m) s (s.dcrChange m
      (fun img => putBytes img (89 + 16 * r) [BitVec.ofNat 8 (recRegFlags img r / 2 * 2 + b2n strict)])
      fun s => { s with
        svc := { s.svc with policies := s.svc.policies.mapIdx fun k x => if k = r then strict else x }
        heads := s.heads.map fun (x : Head) => { x with cdatChanged := true } }) := by
  have run := show execSetRegionAckPolicy m s = _ from State.command_uncommitted hc h (decide_eq_true hi) _
  have defined : ¬ (fieldAt i 0 1 > 8 ∨ (fieldAt i 0 1 < 8 ∧ recRegLen s.cfg.record (fieldAt i 0 1) = 0) ∨ fieldAt i 1 1 > 1) := by
    omega
  exact run.trans (congrArg _ (if_neg defined))

/-- The hold-up state after a report that may ask for a new measurement. -/
theorem hld_due (s : State) (ask : Prop) [Decidable ask] :
    (if ask then { s with hld := { s.hld with due := true } } else s).hld = { s.hld with due := s.hld.due || decide ask } := by
  split
  next asked => rw [decide_eq_true asked, Bool.or_true]
  next unasked => rw [decide_eq_false unasked, Bool.or_false]

theorem runs_getHoldUpReport (h : s.Served m 0xC041 i false false .identify) (hi : i.length = 4) :
    ∃ (u : State) (o : List Byte), Runs (.getHoldUpReport m) s (u.reply m o) ∧ o.length = 80 ∧
      u.hld = { s.hld with due := s.hld.due || decide (fieldAt i 0 1 % 2 = 1) } := by
  refine ⟨_, _, show execGetHoldUpReport m s = _ from State.command_served h (decide_eq_true hi) _, ?_, hld_due s _⟩
  rw [List.length_append, List.length_append, lay_length, flatMap_leBytes_length, flatMap_leBytes_length]
  rfl

/-! ### Performance counters (R365, R366, R647, R648) -/

theorem runs_performanceSnapshot {c : Nat} (h : s.Served m 0xC050 i false false .poisonList) (hi : i.length = 4)
    (hc : c = fieldAt i 0 1) (hc' : c ≤ 3) :
    let p := { s.draw.2.pmc with edge := s.draw.2.pmc.edge + BitVec.ofNat 64 s.draw.1 }
    let q := if c = 0 then { p with snap := p.ctr } else if c = 1 then { p with frozen := true }
      else if c = 2 then { p with frozen := false } else { p with ovf := [] }
    Runs (.performanceSnapshot m) s
      (({ s.draw.2 with pmc := q } : State).mbFinish m .success 0 (lay [(8, p.edge.toNat), (8, 0)])) := by
  refine (show execPerformanceSnapshot m s = _ from State.command_served h (decide_eq_true hi) _).trans (congrArg _ ?_)
  dsimp only
  rw [← hc]
  obtain rfl | rfl | rfl | rfl : c = 0 ∨ c = 1 ∨ c = 2 ∨ c = 3 := by omega
  all_goals rfl

/-- Eight bytes for each counter. -/
theorem runs_readPerformanceCounters {t : TileId} (h : s.Served m 0xC051 i false false .poisonList) (hi : i.length = 8)
    (hn : fieldAt i 3 1 ≤ 8) (hs : fieldAt i 4 1 ≤ 1) (ht : s.regTile (fieldAt i 0 1) (fieldAt i 1 1) = .ok t)
    (hb : blockKnown (fieldAt i 1 1) = true) (hr : fieldAt i 2 1 + fieldAt i 3 1 ≤ ctrCount (fieldAt i 1 1)) :
    ∃ o : List Byte, Runs (.readPerformanceCounters m) s (s.reply m o) ∧ o.length = 8 * fieldAt i 3 1 := by
  have known : allOnes 1 (fieldAt i 3 1) = false := decide_eq_false (by omega)
  have fits : (lenIs 8 i && !allOnes 1 (fieldAt i 3 1) &&
      (!blockKnown (fieldAt i 1 1) || decide (fieldAt i 2 1 + fieldAt i 3 1 ≤ ctrCount (fieldAt i 1 1)))) = true := by
    rw [lenIs, decide_eq_true hi, known, hb, decide_eq_true hr]
    rfl
  have run := show execReadPerformanceCounters m s = _ from State.command_served h fits _
  dsimp only at run
  rw [ht] at run
  refine ⟨_, run.trans (congrArg _ ((if_neg (not_refused hb)).trans (if_neg (by omega)))), ?_⟩
  rw [flatMap_leBytes_length, List.length_map, List.length_range]

/-! ### Request tagging (R367, R649, R652) -/

/-- The length rule of Configure Request Tagging: a read stays within the samples that a ring can hold. -/
theorem tagging_lenOk (hi : i.length = 8) (hn : fieldAt i 6 2 ≤ 1024)
    (hr : fieldAt i 0 1 = 1 → fieldAt i 4 2 + fieldAt i 6 2 ≤ 4096) :
    (lenIs 8 i && !allOnes 2 (fieldAt i 6 2)
      && (decide (fieldAt i 0 1 ≠ 1) || decide (fieldAt i 4 2 + fieldAt i 6 2 ≤ 4096))) = true := by
  have known : allOnes 2 (fieldAt i 6 2) = false := decide_eq_false (by omega)
  have span : (decide (fieldAt i 0 1 ≠ 1) || decide (fieldAt i 4 2 + fieldAt i 6 2 ≤ 4096)) = true := by
    rw [Bool.or_eq_true, decide_eq_true_eq, decide_eq_true_eq]
    omega
  rw [lenIs, decide_eq_true hi, known, span]
  rfl

/-- Tagging starts with the settings of the input: new seeds, and no sample (R649). -/
def State.startTagging (s : State) (i : List Byte) : State :=
  { s.seeds.2 with pmc := { s.pmc with
      tagging := true, wrapMode := decide (fieldAt i 2 1 = 1), wrapped := false
      log2n := BitVec.ofNat 5 (fieldAt i 1 1), heads := BitVec.ofNat 8 (fieldAt i 3 1), lfsr := s.seeds.1, samples := []
      sampleSeq := 0 } }

section
variable (h : s.Served m 0xC052 i true false .injectPoison) (hi : i.length = 8)
include h hi

theorem runs_configureRequestTagging_start (hop : fieldAt i 0 1 = 0) (hn : 8 ≤ fieldAt i 1 1) (hn' : fieldAt i 1 1 ≤ 20)
    (hw : fieldAt i 2 1 ≤ 1) (hr : fieldAt i 4 4 = 0) (hc : fieldAt i 6 2 = 0) :
    ∃ u : State, Runs (.configureRequestTagging m) s (u.mbFinish m .success) ∧ u.pmc.tagging = true ∧ u.pmc.samples = [] ∧
      u.pmc.log2n = BitVec.ofNat 5 (fieldAt i 1 1) ∧ u.pmc.heads = BitVec.ofNat 8 (fieldAt i 3 1) := by
  have run := show execConfigureRequestTagging m s = _ from
    State.command_served h (tagging_lenOk hi (by omega) (by omega)) _
  refine ⟨s.startTagging i, run.trans (congrArg _ ?_), rfl, rfl, rfl, rfl⟩
  dsimp only
  rw [hop]
  exact if_neg (by omega)

/-- Samples from INDEX on, as many as are held (R651). -/
theorem runs_configureRequestTagging_read (hop : fieldAt i 0 1 = 1) (hz : fieldAt i 1 3 = 0) (ho : fieldAt i 4 2 ≤ 4095)
    (hc : fieldAt i 6 2 ≤ 1024) (hr : fieldAt i 4 2 + fieldAt i 6 2 ≤ 4096) :
    Runs (.configureRequestTagging m) s
      (s.reply m (((s.pmc.samples.drop (fieldAt i 4 2)).take (fieldAt i 6 2)).flatMap sampleBytes)) := by
  refine (show execConfigureRequestTagging m s = _ from
    State.command_served h (tagging_lenOk hi hc fun _ => hr) _).trans (congrArg _ ?_)
  dsimp only
  rw [hop]
  exact if_neg (by omega)

theorem runs_configureRequestTagging_stop (hop : fieldAt i 0 1 = 3) (hz : fieldAt i 1 3 = 0) (hr : fieldAt i 4 4 = 0)
    (hc : fieldAt i 6 2 = 0) :
    Runs (.configureRequestTagging m) s (({ s with pmc := { s.pmc with tagging := false } } : State).mbFinish m .success) := by
  refine (show execConfigureRequestTagging m s = _ from
    State.command_served h (tagging_lenOk hi (by omega) (by omega)) _).trans (congrArg _ ?_)
  dsimp only
  rw [hop]
  exact if_neg (by omega)

end

end

/-- Settles O54: each clause is the rule above for the command and the case that it names. -/
theorem vendorCommandsComplete : Obligations.VendorCommandsComplete := fun _ _ _ =>
  ⟨runs_getTileStatus, runs_loadConfiguration, fun _ => runs_commitConfiguration, runs_readConfiguration_chosen,
    runs_readConfiguration_copy, fun _ => runs_readConfiguration_loaded, runs_setPowerState, runs_getPowerState,
    runs_readEventWindow, runs_readBlackBox, runs_setRegionAckPolicy, runs_getHoldUpReport, fun _ => runs_performanceSnapshot,
    fun _ => runs_readPerformanceCounters, runs_configureRequestTagging_start, runs_configureRequestTagging_read,
    runs_configureRequestTagging_stop⟩

end Sys2Proof.Machine
end

section
/-! The sideband (R348, R407, R434, R435, R440, R603, R604, R707): one rule for each of its events. -/

namespace Sys2Proof.Machine

section
variable {s : State} (up : s.sbUp = true)
include up

/-! ### EEPROM emulation (R348, R434, R435, R440) -/

/-- Where neither the sideband, a running write, the offset nor the count refuses a transfer. -/
theorem eeprom_admits {w : BitVec 16} (hb : s.sbBusy = false) (hw : w.toNat < 2048) {refused : Prop} [Decidable refused]
    (hn : ¬ refused) : ¬ (!s.sbUp || s.sbBusy || decide (w.toNat ≥ 2048) || decide refused) = true := by
  rw [up, hb, decide_eq_false (Nat.not_le.mpr hw), decide_eq_false hn]
  decide

/-- One page write, where the page is not protected. -/
theorem runs_sidebandEepromWrite (w : BitVec 16) (n : BitVec 8) (d : List Byte) (hb : s.sbBusy = false) (hw : w.toNat < 2048)
    (hn : 1 ≤ n.toNat) (hn' : n.toNat ≤ 64) (hd : n.toNat ≤ d.length) (hp : w.toNat - w.toNat % 64 < protectedFrom s.prm.bp)
    (hs : s.supplyOk 50 1 = true) :
    Runs (.sidebandEepromWrite w n d) s ((s.prmEnqueue 2 (64 * (992 + w.toNat / 64))
      (pageWrap (s.pageAfter (992 + w.toNat / 64)) (w.toNat % 64) (d.take n.toNat))).sbEnd true) :=
  (if_neg (eeprom_admits up hb hw (Nat.not_lt.mpr hn'))).trans <| (if_neg (Nat.ne_of_gt hn)).trans <|
    (if_neg (Nat.not_lt.mpr hd)).trans <| (if_neg (Nat.not_le.mpr hp)).trans (if_neg (supply_held hs))

theorem runs_sidebandEepromRead (w : BitVec 16) (n : BitVec 8) (hb : s.sbBusy = false) (hw : w.toNat < 2048) (hn : n.toNat ≠ 255) :
    Runs (.sidebandEepromRead w n) s (s.sbEnd true ((List.range n.toNat).map fun k =>
      (s.prmBytes s.lead 0xF800 2048).getD ((w.toNat + k) % 2048) 0)) :=
  if_neg (eeprom_admits up hb hw hn)

/-! ### Readouts (R603, R604) -/

/-- The thermal readout begins with the two maxima. -/
theorem runs_sidebandThermalReadout :
    ∃ o : List Byte, Runs .sidebandThermalReadout s (s.sbEnd true o) ∧ o.length = 8 ∧ bytesAt o 0 4 =
      lay [(2, s.thm.ctrlMax.toNat), (2, s.thm.mediaMax.toNat)] :=
  ⟨_, if_neg (not_refused up), lay_length _, rfl⟩

theorem runs_sidebandStatusReadout : Runs .sidebandStatusReadout s (s.sbEnd true s.statusReadout) :=
  congrArg _ (if_pos up)

/-! ### Requests over MCTP (R25, R340) -/

theorem runs_mctpRequest (op : BitVec 16) (i : List Byte) (hl : s.sys.lead ≠ none) (hr : s.sys.mbReady = true)
    (hn : s.sys.loneLost = false) (hb : s.svc.mctp.doorbell = false) :
    Runs (.mctpRequest op i) s ((s.sbEnd true).modMb .mctp fun b =>
      { b with doorbell := true, cmd := some { opcode := op, input := i } }) := by
  have serves : ¬ (s.sys.lead.isNone || !s.sys.mbReady || s.sys.loneLost) = true := by
    rw [hr, hn]
    simpa using hl
  exact (if_neg (not_refused up)).trans <| (if_neg serves).trans (if_neg (not_true_of_eq_false hb))

/-! ### I3C addresses (R407, R707) -/

theorem runs_i3cSetdasa (d : BitVec 7) : Runs (.i3cSetdasa s.mctpAddr d) s
    (({ s with svc := { s.svc with i3cAddr := some d, i3cMode := true } } : State).sbEnd true) := by
  have named : ¬ (!s.sbUp || decide (s.mctpAddr ≠ s.mctpAddr)) = true := by
    rw [up, decide_eq_false (not_not_intro rfl)]
    decide
  exact if_neg named

theorem runs_i3cSetaasa : Runs .i3cSetaasa s
    (({ s with svc := { s.svc with i3cAddr := some s.mctpAddr, i3cMode := true } } : State).sbEnd true) :=
  if_neg (not_refused up)

theorem runs_i3cRstdaa : Runs .i3cRstdaa s
    (({ s with svc := { s.svc with i3cAddr := none, i3cMode := false } } : State).sbEnd true) :=
  if_neg (not_refused up)

/-- A clock held low ends a transfer of SMBus. -/
theorem runs_smbusClockLowTimeout (hm : s.svc.i3cMode = false) : Runs .smbusClockLowTimeout s (s.sbEnd false) := by
  have smbus : ¬ (!s.sbUp || s.svc.i3cMode) = true := by
    rw [up, hm]
    decide
  exact if_neg smbus

end

/-- Settles O56: each clause is the rule above for the event that it names. -/
theorem sidebandEventsComplete : Obligations.SidebandEventsComplete := fun _ up =>
  ⟨runs_sidebandEepromWrite up, runs_sidebandEepromRead up, runs_sidebandThermalReadout up, runs_sidebandStatusReadout up,
    runs_mctpRequest up, runs_i3cSetdasa up, runs_i3cSetaasa up, runs_i3cRstdaa up, runs_smbusClockLowTimeout up⟩

end Sys2Proof.Machine
end

section
/-! What a package reset clears and what it keeps (R382, R401), beside the programs that it cuts short (R65). -/

namespace Sys2Proof.Machine

/-- What `f` keeps for every element, a pass over the list keeps. -/
theorem forAll_same {α β : Type} (p : State → β) {l : List α} {f : α → State → State} (hf : ∀ a u, p (f a u) = p u) (s : State) :
    p (forAll l f s) = p s :=
  List.foldlRecOn l _ (motive := fun u => p u = p s) rfl fun u hu a _ => (hf a u).trans hu

/-! ### Programs cut short leave the dies as they are (R65) -/

/-- The dies of tile `x`: of its media what no program changes. -/
def State.diesOf (x : TileId) (s : State) : Vector (Vector DieNv 9) 4 := s.media[x].dies

variable (x t : TileId)

theorem State.modMedia_diesOf {f : Media → Media} (hf : ∀ m, (f m).dies = m.dies) (s : State) :
    (s.modMedia t f).diesOf x = s.diesOf x := by
  by_cases h : t = x
  · subst h
    exact (congrArg Media.dies (vmod_self s.media t f)).trans (hf _)
  · exact congrArg Media.dies (vmod_other s.media f h)

theorem State.putPage_diesOf (unit slot : Nat) (p : Page) (s : State) : (s.putPage t unit slot p).diesOf x = s.diesOf x :=
  modMedia_diesOf x t (f := fun m => { m with pages := tabPut m.pages (pageKey unit slot) p }) (fun _ => rfl) s

theorem State.cutProgram_diesOf (c : Context) (s : State) : (s.cutProgram t c).diesOf x = s.diesOf x := by
  rw [cutProgram, apply_ite (diesOf x), State.cutPage, putPage_diesOf, ite_self]

theorem State.cutPrograms_diesOf (s : State) : s.cutPrograms.diesOf x = s.diesOf x := by
  refine forAll_same (diesOf x) (fun t u => ?_) s
  refine (forAll_same (diesOf x) (fun q v => ?_) _).trans (forAll_same (diesOf x) (cutProgram_diesOf x t) u)
  dsimp only
  split <;> rfl

/-! ### The reset itself (R382, R401) -/

/-- Settles O17: beside the programs cut short, every group holds what the reset names or its value at reset. -/
theorem packageResetClears : Obligations.PackageResetClears := by
  intro s c b
  have cut : Changes [.fv, .media, .staged] s s.cutPrograms := State.cutPrograms_changes
  have dies (x : TileId) : s.cutPrograms.diesOf x = s.diesOf x := s.cutPrograms_diesOf x
  unfold State.packageReset
  generalize s.cutPrograms = u at cut dies
  have bbx : u.bbx.media = s.bbx.media := congrArg Bbx.media (cut.keeps .bbx rfl)
  have evr : u.evr.velvet = s.evr.velvet := congrArg Evr.velvet (cut.keeps .evr rfl)
  have seconds : u.aon.seconds = s.aon.seconds := congrArg Aon.seconds (cut.keeps .aon rfl)
  have seq : u.seq = s.seq := cut.keeps .seq rfl
  intro t
  have fab (x : TileId) : t.fab[x] = { velvet := u.fab[x].velvet } := Vector.getElem_ofFn x.isLt
  have velvet (x : TileId) : t.fab[x].velvet = s.fab[x].velvet := by rw [fab x, cut.keeps .fab rfl]
  have tile (x : TileId) : t.tiles[x] = {} := Vector.getElem_replicate x.isLt
  have stamps (x : TileId) (i : Nat) : stampAt t.tiles[x].d i = 0xFF := by rw [tile x]; rfl
  exact ⟨⟨rfl, rfl, rfl⟩,
    ⟨cut.keeps .nv rfl, cut.keeps .fuses rfl, bbx, evr, seconds, fun x => ⟨velvet x, dies x⟩⟩,
    fun x => ⟨tile x, Vector.getElem_replicate x.isLt, congrArg Fabric.tcm (fab x), stamps x, Vector.getElem_replicate x.isLt⟩,
    ⟨rfl, rfl, rfl, rfl, rfl, rfl, rfl, rfl, rfl, rfl, rfl, rfl, rfl⟩,
    rfl, congrArg (fun q : Seq => q.en &&& 0xF) seq, congrArg (fun q : Seq => q.pg &&& 0xF) seq⟩

end Sys2Proof.Machine
end

section
/-! Power-up, the fixed rails and PKG_RST_N (R382 to R384, R541, R550, R590, R704): one rule for each event and each case of it. -/

namespace Sys2Proof.Machine

variable {s : State}

/-! ### VAON, the crystal and the fixed rails (R541, R590, R703, R704) -/

/-- With power, input, crystal and PKG_RST_N the fixed rails start from the first, unless they wait or one is enabled already. -/
theorem State.startFixed_starts (hv : s.aon.vaon = true) (hi : s.inputPresent = true) (hx : s.clk.xtal = true)
    (hp : s.aon.pkgRstN = true) (hw : s.seq.fixedWait = false) (he : s.seq.en &&& 0xF = 0) :
    s.startFixed = { s with seq := { s.seq with en := bitOn s.seq.en 0 } } := by
  refine if_pos ?_
  rw [hv, hi, hx, hp, hw, he]
  decide

theorem runs_vaonGood (hv : s.aon.vaon = false) :
    Runs .vaonGood s (({ s with aon := { s.aon with vaon := true }, clk := { s.clk with xtal := true } } : State).packageReset
      .powerOn).startFixed :=
  if_neg (not_true_of_eq_false hv)

theorem runs_xtalStartTimeout (hv : s.aon.vaon = true) (hr : s.boot.released = false) :
    Runs .xtalStartTimeout s { s with
      seq := { s.seq with en := s.seq.en &&& 0xFFF0, pg := s.seq.pg &&& 0xFFF0, fixedWait := true }
      clk := { s.clk with locked := false, xtal := false } } := by
  refine if_neg ?_
  rw [hv, hr]
  decide

theorem runs_fixedRailPgTimeout {q : Fin 4} (he : s.seq.en.getLsbD q = true) (hg : s.seq.pg.getLsbD q = false)
    (hr : s.boot.released = false) :
    Runs (.fixedRailPgTimeout q) s { s with
      seq := { s.seq with en := s.seq.en &&& 0xFFF0, pg := s.seq.pg &&& 0xFFF0, fixedWait := true }
      clk := { s.clk with locked := false } } := by
  refine if_neg ?_
  rw [he, hg, hr]
  decide

theorem runs_fixedRailRestartTimer (hw : s.seq.fixedWait = true) (hv : s.aon.vaon = true) (hi : s.inputPresent = true)
    (hp : s.aon.pkgRstN = true) (he : s.seq.en &&& 0xF = 0) :
    Runs .fixedRailRestartTimer s { s with
      seq := { s.seq with fixedWait := false, en := bitOn s.seq.en 0 }, clk := { s.clk with xtal := true } } := by
  let again : State := { s with seq := { s.seq with fixedWait := false }, clk := { s.clk with xtal := true } }
  have starts := again.startFixed_starts hv hi rfl hp rfl he
  exact (if_neg (not_refused hw)).trans (congrArg _ starts)

/-! ### The clock and the release of the reset (R383, R550, R590) -/

theorem runs_rootPllLock (hx : s.clk.xtal = true) (hg : s.seq.pg &&& 0xF = 0xF) (hh : s.clk.holdover = false) :
    Runs .rootPllLock s { s with clk := { s.clk with locked := true } } := by
  refine if_pos ?_
  rw [hx, hg, hh]
  decide

theorem runs_packageResetRelease (hr : s.boot.released = false) (hv : s.aon.vaon = true) (hg : s.seq.pg &&& 0xF = 0xF)
    (hp : s.aon.pkgRstN = true) (hl : s.clk.locked = true) :
    Runs .packageResetRelease s { s with
      boot := { s.boot with released := true, phase := 1 }, sys := { s.sys with windowOpen := true } } := by
  refine if_neg ?_
  rw [hr, hv, hg, hp, hl]
  decide

/-! ### PKG_RST_N (R384, R704) -/

/-- Outside a flush the stores are cut short and the part resets. -/
theorem runs_pkgRstNFall_resets (hv : s.aon.vaon = true) (hf : s.flush = none) (hr : s.boot.released = true) :
    Runs .pkgRstNFall s (({ s with aon := { s.aon with pkgRstN := false } } : State).cutStores.packageReset .pkgResetPin) := by
  refine (if_neg (not_refused hv)).trans ?_
  split
  next f running => cases hf.symm.trans running
  next =>
    refine if_neg ?_
    rw [hr]
    exact Bool.false_ne_true

/-- While a flush runs the reset is put off. -/
theorem runs_pkgRstNFall_deferred {f : FlushRun} (hv : s.aon.vaon = true) (hf : s.flush = some f) :
    Runs .pkgRstNFall s { s with aon := { s.aon with pkgRstN := false }, flush := some { f with pkgRst := true } } := by
  refine (if_neg (not_refused hv)).trans ?_
  split
  next g running => cases hf.symm.trans running; rfl
  next none_runs => cases hf.symm.trans none_runs

/-- Settles O31: each clause is the rule above for the event that it names. -/
theorem powerUpEventsComplete : Obligations.PowerUpEventsComplete := fun _ =>
  ⟨runs_vaonGood, fun hv => if_pos hv, runs_xtalStartTimeout, fun _ => runs_fixedRailPgTimeout, runs_fixedRailRestartTimer,
    runs_rootPllLock, runs_packageResetRelease, fun hr => if_pos hr, runs_pkgRstNFall_resets, fun _ => runs_pkgRstNFall_deferred, rfl⟩

end Sys2Proof.Machine
end

section
/-! The power-fail flush, its end, and the hold-up measurement (R382, R552 to R562, R712): one rule for each event and each case of it. -/

namespace Sys2Proof.Machine

variable {s : State}

/-! ### Power fail and the return of input (R49, R556, R562) -/

theorem runs_powerFailDetect (vin : Bool) (hv : s.aon.vaon = true) (hr : s.boot.released = true) (hf : s.flush = none) :
    Runs (.powerFailDetect vin) s (({ s with aon := { s.aon with
      inputOk := false, vinLow := s.aon.vinLow || vin, pwrfailN := s.aon.pwrfailN && vin } } : State).startFlush
        (if vin then 1 else 0)) := by
  refine (if_neg (not_refused hv)).trans ((if_neg (not_refused hr)).trans ?_)
  rw [hf]
  rfl

/-- Input that returns while a flush runs is recorded. -/
theorem runs_inputReturn {f : FlushRun} (hf : s.flush = some f) (hr : f.returned = false) :
    ∃ t, Runs .inputReturn s t ∧ t.aon.inputOk = true ∧ t.aon.vinLow = false ∧ t.aon.pwrfailN = true ∧ t.aon.flushReturned = true
      ∧ t.flush = some { f with returned := true } := by
  let input : State := { s with aon := { s.aon with inputOk := true, vinLow := false, pwrfailN := true } }
  let u := input.raise (mkEv 0x5004 .warn 15 0)
  have aon : u.aon = input.aon := State.raise_changes.keeps .aon rfl
  refine ⟨{ u with flush := some { f with returned := true }, aon := { u.aon with flushReturned := true } }, ?_,
    congrArg Aon.inputOk aon, congrArg Aon.vinLow aon, congrArg Aon.pwrfailN aon, rfl, rfl⟩
  change execInputReturn s = _
  unfold execInputReturn
  dsimp only
  split
  next g running =>
    cases hf.symm.trans running
    exact if_neg (not_true_of_eq_false hr)
  next idle => cases hf.symm.trans idle

/-! ### The end of the flush work (R557, R558, R560, R712) -/

/-- A DATA_END that is not the last, or comes in the hardware flush of a lone lead, is noted. -/
theorem runs_flushTileDataEnd {t : TileId} {f : FlushRun} (hf : s.flush = some f) (hw : f.workEnded = false) (ht : s.inSvc t = true)
    (hd : f.dataEnd.getLsbD t = false) (hc : s.flushClean t = true)
    (hx : s.sys.loneLost = true ∨ ∃ x ∈ s.svcTiles, (bitOn f.dataEnd t).getLsbD x = false) :
    ∃ u, Runs (.flushTileDataEnd t) s u ∧ u.flush = some { f with dataEnd := bitOn f.dataEnd t } := by
  let j := (s.journalProgress t f.staged[t]).journal t 4 f.staged[t]
  let u : State := { j with flush := some { f with dataEnd := bitOn f.dataEnd t } }
  have hj : Changes [.nv] s j := .step State.journal_changes State.journalProgress_changes
  have sys : u.sys = s.sys := hj.keeps .sys rfl
  have tiles : u.svcTiles = s.svcTiles := by
    rw [State.svcTiles, State.svcTiles]
    refine List.filter_congr fun x _ => ?_
    rw [State.inSvc, State.inSvc, sys, hf]
    rfl
  refine ⟨u, ?_, rfl⟩
  change execFlushTileDataEnd t s = _
  rw [execFlushTileDataEnd, hf]
  refine (if_neg ?_).trans (if_neg ?_)
  · rw [hw, ht, hd, hc]
    decide
  · change ¬ (!u.sys.loneLost && u.svcTiles.all fun x : TileId => (bitOn f.dataEnd t).getLsbD x) = true
    rw [sys, tiles, Bool.and_eq_true, List.all_eq_true]
    rintro ⟨served, last⟩
    obtain lone | ⟨x, hx, more⟩ := hx
    · exact not_refused lone served
    · exact not_true_of_eq_false more (last x hx)

theorem runs_flushWatchdog {f : FlushRun} (hf : s.flush = some f) (hl : s.sys.loneLost = false) :
    Runs .flushWatchdog s (s.endFlushWork true) := by
  refine if_pos ?_
  rw [hf, hl]
  rfl

/-! ### The hold-down (R382, R558, R562) -/

theorem runs_vholdCollapse {f : FlushRun} (hf : s.flush = some f) (hw : f.workEnded = true) (hv : s.aon.vaon = true)
    (hi : s.inputPresent = false) : Runs .vholdCollapse s (s.finishStores.packageReset .powerOn).fixedOff := by
  refine if_pos ?_
  rw [hv, hi, hf, Option.map_some, hw]
  rfl

theorem runs_brownoutHoldEnd {f : FlushRun} (hf : s.flush = some f) (hb : f.brownHold = true) (hp : f.pkgRst = false)
    (hi : s.inputPresent = true) :
    Runs .brownoutHoldEnd s (s.finishStores.packageReset .brownoutReturn f.railReset).startFixed := by
  change execBrownoutHoldEnd s = _
  rw [execBrownoutHoldEnd, hf]
  dsimp only
  rw [hb, hi, hp]
  rfl

/-! ### The hold-up measurement (R552 to R555) -/

theorem runs_holdupMeasurementStart (hd : s.hld.due = true) (hm : s.hld.measuring = false) (hf : s.flush = none)
    (hs : s.sys.state.isSleep = false) (ht : s.pwr.transition = 0) :
    Runs .holdupMeasurementStart s { s with hld := { s.hld with
      measuring := true, chargeOff := true, sinking := true, due := false, vrest := s.aon.vholdMv } } := by
  refine if_neg ?_
  rw [hd, hm, hf, hs, ht]
  simp

/-- A sink that ends when VHOLD has fallen gives the capacitance that its time shows. -/
theorem runs_holdupSinkEnd_fallen (us : BitVec 32) (hs : s.hld.sinking = true) :
    ∃ t, Runs (.holdupSinkEnd us false) s t ∧ t.hld.sinking = false ∧ t.hld.chargeOff = false ∧ t.hld.sinkUs = us
      ∧ t.hld.cap.toNat = us.toNat / 2 :=
  have fits : us.toNat / 2 < 2 ^ 32 := Nat.lt_of_le_of_lt (Nat.div_le_self ..) us.isLt
  ⟨_, if_neg (not_refused hs), rfl, rfl, rfl, (BitVec.toNat_ofNat ..).trans (Nat.mod_eq_of_lt fits)⟩

/-- A sink that reaches its limit of time gives the greatest capacitance. -/
theorem runs_holdupSinkEnd_limit (us : BitVec 32) (hs : s.hld.sinking = true) :
    ∃ t, Runs (.holdupSinkEnd us true) s t ∧ t.hld.sinking = false ∧ t.hld.sinkUs = 200000 ∧ t.hld.cap = 100000 :=
  ⟨_, if_neg (not_refused hs), rfl, rfl, rfl⟩

/-- The hold-up state once VHOLD has recovered: the budget follows from the energy at rest, the usable energy from VHOLD now. -/
def State.holdupMeasured (s : State) (v : BitVec 16) : State :=
  { s with hld := { s.hld with
    measuring := false, cap := BitVec.ofNat 32 s.hld.cap.toNat
    measured := measuredBudget (usableUj s.hld.cap.toNat s.hld.vrest.toNat) s.svcTiles.length
    usable := usableUj s.hld.cap.toNat v.toNat, firstDone := true, lastAt := s.aon.seconds } }

theorem State.raise_hld (s : State) (e : EventRec) : (s.raise e).hld = s.hld := State.raise_changes.keeps .hld rfl
theorem State.applyBudgets_hld (s : State) : s.applyBudgets.hld = s.hld := State.applyBudgets_changes.keeps .hld rfl
theorem State.writeHoldup_hld (s : State) : s.writeHoldup.hld = s.hld := State.writeHoldup_changes.keeps .hld rfl

/-- Recovery in time completes the measurement: neither the budgets that follow nor its events change what it found. -/
theorem exec_holdupMeasurementComplete (v : BitVec 16) (hm : s.hld.measuring = true) (hs : s.hld.sinking = false)
    (hr : s.hld.vrest.toNat ≤ v.toNat + 50) :
    ∃ (u : State) (r : List Byte), u.hld = (s.holdupMeasured v).hld ∧
      Runs (.holdupMeasurementComplete false v) s ({ u with hld := { u.hld with report := r } } : State).writeHoldup := by
  have back : ¬ (!s.hld.measuring || s.hld.sinking || (!false && decide (v.toNat + 50 < s.hld.vrest.toNat))) = true := by
    rw [hm, hs, decide_eq_false (Nat.not_lt_of_le hr)]
    decide
  refine ⟨_, _, (apply_ite State.hld ..).trans ?_, if_neg back⟩
  simp only [State.raise_hld, State.applyBudgets_hld, ite_self]
  rfl

/-- The capacitance stays that of the sink. -/
theorem runs_holdupMeasurementComplete (v : BitVec 16) (hm : s.hld.measuring = true) (hs : s.hld.sinking = false)
    (hr : s.hld.vrest.toNat ≤ v.toNat + 50) :
    ∃ t, Runs (.holdupMeasurementComplete false v) s t ∧ t.hld.measuring = false ∧ t.hld.cap = s.hld.cap
      ∧ t.hld.measured = measuredBudget (usableUj s.hld.cap.toNat s.hld.vrest.toNat) s.svcTiles.length
      ∧ t.hld.usable = usableUj s.hld.cap.toNat v.toNat ∧ t.hld.lastAt = s.aon.seconds := by
  obtain ⟨u, r, hu, run⟩ := exec_holdupMeasurementComplete v hm hs hr
  refine ⟨_, run, ?_⟩
  rw [State.writeHoldup_hld, hu]
  exact ⟨rfl, (BitVec.ofNat_toNat ..).trans (BitVec.setWidth_eq _), rfl, rfl, rfl⟩

/-- Settles O35: each clause is the rule above for the event that it names. -/
theorem flushEventsComplete : Obligations.FlushEventsComplete := fun _ =>
  ⟨fun vin hv hr hf _ => runs_powerFailDetect vin hv hr hf, fun _ => runs_inputReturn, fun _ _ => runs_flushTileDataEnd,
    fun _ => runs_flushWatchdog, fun _ => runs_vholdCollapse, fun _ => runs_brownoutHoldEnd, runs_holdupMeasurementStart,
    runs_holdupSinkEnd_fallen, runs_holdupSinkEnd_limit, runs_holdupMeasurementComplete⟩

end Sys2Proof.Machine
end

section
/-! Events and the recorder (R574, R631, R632, R637): where a raised record goes, and how the recorder enters one. -/

namespace Sys2Proof.Machine

theorem Evr.take_full (v : Evr) {q : TileId} (e : EventRec) (h : 32 ≤ v.queues[q].length) : v.take false q e = v.drop e.sev :=
  if_neg (Nat.not_lt_of_le h)

/-- Settles O20: a raised record goes where R574 and R631 say, and beside that only the logs of the heads may change. -/
theorem eventsAreQueued : Obligations.EventsAreQueued := by
  intro s e
  refine ⟨fun held => ?_, fun state flush room => ?_, fun state flush full => ?_, State.raise_changes.keeps⟩
  · have inVelvet : (decide (s.sys.state = .flushing) || s.flush.isSome) = true := by simpa using held
    rw [State.raise_evr, inVelvet]
    exact s.evr.take_held _ _
  · have queued : (decide (s.sys.state = .flushing) || s.flush.isSome) = false := by simp [state, flush]
    rw [State.raise_evr, queued]
    exact s.evr.take_room _ room
  · have queued : (decide (s.sys.state = .flushing) || s.flush.isSome) = false := by simp [state, flush]
    rw [State.raise_evr, queued]
    exact s.evr.take_full _ full

/-! ### The recorder -/

/-- The held records stand in ascending SEQ below the next one, at most 16,384. -/
structure Evr.Ordered (e : Evr) : Prop where
  order : e.held.Pairwise fun a b => a.r.seq < b.r.seq
  below : ∀ h ∈ e.held, h.r.seq < e.nextSeq
  atMost : e.held.length ≤ 16384

/-- A record of severity `v` may overwrite the held record. -/
def HeldRec.yields (h : HeldRec) (v : Severity) : Bool := h.r.sev ≠ .fatal && decide (h.r.sev.code ≤ v.code)

theorem HeldRec.yields_iff (h : HeldRec) (v : Severity) : h.yields v = true ↔ h.r.sev ≠ .fatal ∧ h.r.sev.code ≤ v.code := by
  simp [HeldRec.yields]

theorem HeldRec.yields_of_find? {l : List HeldRec} {v : Severity} {x : HeldRec} (found : l.find? (fun h => h.yields v) = some x) :
    x.r.sev ≠ .fatal ∧ x.r.sev.code ≤ v.code :=
  (x.yields_iff v).mp (List.find?_some (p := fun h : HeldRec => h.yields v) found)

/-- The record as it is held. -/
def Evr.entry (e : Evr) (r : EventRec) : HeldRec := { r := { r with seq := e.nextSeq } }

section
variable {e : Evr} {r : EventRec}

theorem Evr.assign_beyond (h : e.nextSeq > e.limit ∨ e.nextSeq ≥ 2 ^ 48 - 1) : e.assign r = e.drop r.sev := if_pos h

theorem Evr.assign_entered {f : Evr} (h : ¬ (e.nextSeq > e.limit ∨ e.nextSeq ≥ 2 ^ 48 - 1))
    (hf : e.enter (e.entry r).r = some f) :
    (e.assign r).held = f.held ∧ (e.assign r).nextSeq = f.nextSeq + 1 ∧ (e.assign r).drops = f.drops := by
  have entered : e.assign r = { f with nextSeq := f.nextSeq + 1, flushDue := f.flushDue || f.due (e.entry r).r } := by
    refine (if_neg h).trans ?_
    dsimp only
    have hf : e.enter { r with seq := e.nextSeq } = some f := hf
    rw [hf]
    rfl
  rw [entered]
  exact ⟨rfl, rfl, rfl⟩

theorem Evr.assign_refused (h : ¬ (e.nextSeq > e.limit ∨ e.nextSeq ≥ 2 ^ 48 - 1)) (hf : e.enter (e.entry r).r = none) :
    e.assign r = e.drop r.sev := by
  refine (if_neg h).trans ?_
  dsimp only
  have hf : e.enter { r with seq := e.nextSeq } = none := hf
  rw [hf]

theorem Evr.enter_room (h : e.held.length < 16384) (r : EventRec) : e.enter r = some { e with held := e.held ++ [{ r := r }] } :=
  if_pos h

/-- A full recorder overwrites the first held record that yields. -/
theorem Evr.enter_full (h : e.held.length = 16384) (r : EventRec) :
    e.enter r = (e.held.find? (·.yields r.sev)).map fun x => { e with held := e.held.erase x ++ [{ r := r }] } := by
  refine (if_neg (by omega)).trans ?_
  cases found : e.held.find? (·.yields r.sev) with
  | none =>
    have found : (e.held.find? fun h => h.r.sev ≠ .fatal && h.r.sev.code ≤ r.sev.code) = none := found
    rw [found]
    rfl
  | some x =>
    have found : (e.held.find? fun h => h.r.sev ≠ .fatal && h.r.sev.code ≤ r.sev.code) = some x := found
    rw [found]
    rfl

/-- What entering a record does: it is dropped beyond the limit or where no held record yields to it, it takes the end where there is
room, and else it takes the place of the first held record that yields. -/
theorem Evr.assign_cases (full : e.held.length ≤ 16384) :
    (e.nextSeq > e.limit ∨ e.nextSeq ≥ 2 ^ 48 - 1) ∧ e.assign r = e.drop r.sev ∨
    ¬ (e.nextSeq > e.limit ∨ e.nextSeq ≥ 2 ^ 48 - 1) ∧
      (e.held.length < 16384 ∧ (e.assign r).held = e.held ++ [e.entry r] ∧
          (e.assign r).nextSeq = e.nextSeq + 1 ∧ (e.assign r).drops = e.drops ∨
       e.held.length = 16384 ∧ (e.held.find? (·.yields r.sev) = none ∧ e.assign r = e.drop r.sev ∨
        ∃ x, e.held.find? (·.yields r.sev) = some x ∧ (e.assign r).held = e.held.erase x ++ [e.entry r] ∧
          (e.assign r).nextSeq = e.nextSeq + 1 ∧ (e.assign r).drops = e.drops)) := by
  by_cases beyond : e.nextSeq > e.limit ∨ e.nextSeq ≥ 2 ^ 48 - 1
  · exact .inl ⟨beyond, Evr.assign_beyond beyond⟩
  refine .inr ⟨beyond, ?_⟩
  by_cases room : e.held.length < 16384
  · exact .inl ⟨room, Evr.assign_entered beyond (Evr.enter_room room _)⟩
  have full : e.held.length = 16384 := by omega
  refine .inr ⟨full, ?_⟩
  have enter := Evr.enter_full full (e.entry r).r
  cases found : e.held.find? (·.yields r.sev) with
  | none =>
    have found : e.held.find? (·.yields (e.entry r).r.sev) = none := found
    rw [found] at enter
    exact .inl ⟨rfl, Evr.assign_refused beyond enter⟩
  | some x =>
    have found : e.held.find? (·.yields (e.entry r).r.sev) = some x := found
    rw [found] at enter
    exact .inr ⟨x, rfl, Evr.assign_entered beyond enter⟩

theorem Evr.Ordered.drop (h : e.Ordered) (v : Severity) : (e.drop v).Ordered := ⟨h.order, h.below, h.atMost⟩

/-- Held records in order, fewer than the limit and below the next SEQ, stay in order with the new one at their end. -/
theorem Evr.Ordered.entered {f : Evr} {l : List HeldRec} (h : e.Ordered) (sub : l.Sublist e.held) (hl : l.length < 16384)
    (held : f.held = l ++ [e.entry r]) (next : f.nextSeq = e.nextSeq + 1) : f.Ordered := by
  have before : ∀ x ∈ l, x.r.seq < e.nextSeq := fun x hx => h.below x (sub.subset hx)
  refine ⟨?order, ?below, ?atMost⟩
  case order =>
    rw [held]
    refine List.pairwise_append.mpr ⟨h.order.sublist sub, List.pairwise_singleton .., fun x hx y hy => ?_⟩
    rw [List.mem_singleton.mp hy]
    exact before x hx
  case below =>
    rw [held, next]
    intro x hx
    obtain hx | hx := List.mem_append.mp hx
    · exact Nat.lt_succ_of_lt (before x hx)
    · rw [List.mem_singleton.mp hx]
      exact Nat.lt_succ_self _
  case atMost =>
    rw [held, List.length_append]
    exact hl

theorem Evr.Ordered.assign (h : e.Ordered) : (e.assign r).Ordered := by
  obtain ⟨-, drop⟩ | ⟨-, ⟨room, held, next, -⟩ | ⟨full, ⟨-, drop⟩ | ⟨x, found, held, next, -⟩⟩⟩ := Evr.assign_cases (r := r) h.atMost
  · rw [drop]
    exact h.drop _
  · exact h.entered (.refl _) room held next
  · rw [drop]
    exact h.drop _
  · have erased := List.length_erase_of_mem (List.mem_of_find?_eq_some found)
    exact h.entered List.erase_sublist (by omega) held next

/-- A FATAL record yields to none. -/
theorem Evr.fatal_mem_assign (full : e.held.length ≤ 16384) {x : HeldRec} (hx : x ∈ e.held) (fatal : x.r.sev = .fatal) :
    x ∈ (e.assign r).held := by
  obtain ⟨-, drop⟩ | ⟨-, ⟨-, held, -⟩ | ⟨-, ⟨-, drop⟩ | ⟨y, found, held, -⟩⟩⟩ := Evr.assign_cases (r := r) full
  · rw [drop]
    exact hx
  · rw [held]
    exact List.mem_append_left _ hx
  · rw [drop]
    exact hx
  · have yields := HeldRec.yields_of_find? found
    have other : x ≠ y := fun same => yields.1 (same ▸ fatal)
    rw [held]
    exact List.mem_append_left _ ((List.mem_erase_of_ne other).mpr hx)

/-- In a list that ascends by SEQ the first that yields is the lowest that does. -/
theorem seq_le_of_find? {l : List HeldRec} (order : l.Pairwise fun a b => a.r.seq < b.r.seq) {p : HeldRec → Bool} {x : HeldRec}
    (found : l.find? p = some x) {y : HeldRec} (hy : y ∈ l) (py : p y = true) : x.r.seq ≤ y.r.seq := by
  obtain ⟨-, before, after, rfl, none⟩ := List.find?_eq_some_iff_append.mp found
  obtain hy | hy := List.mem_append.mp hy
  · have := none y hy
    simp [py] at this
  · obtain rfl | hy := List.mem_cons.mp hy
    · exact Nat.le_refl _
    · obtain ⟨-, later, -⟩ := List.pairwise_append.mp order
      exact (List.rel_of_pairwise_cons later hy).le

end

/-- Settles O21: each clause is one of the cases of entering a record. -/
theorem recorderEntersInOrder : Obligations.RecorderEntersInOrder := by
  intro e r order below full
  have ordered : e.Ordered := ⟨order, below, full⟩
  obtain ⟨order', below', atMost'⟩ := ordered.assign (r := r)
  refine ⟨⟨order', below', atMost'⟩, Evr.assign_beyond, fun limit last => ?_, fun x hx fatal => Evr.fatal_mem_assign full hx fatal⟩
  have within : ¬ (e.nextSeq > e.limit ∨ e.nextSeq ≥ 2 ^ 48 - 1) := by omega
  obtain ⟨beyond, -⟩ | ⟨-, entry⟩ := Evr.assign_cases (r := r) full
  · exact absurd beyond within
  obtain ⟨room, entered⟩ | ⟨whole, overwritten⟩ := entry
  · exact ⟨fun _ => entered, fun whole => absurd whole room.ne, fun whole => absurd whole room.ne⟩
  refine ⟨fun room => absurd whole room.ne, fun _ some => ?_, fun _ none => ?_⟩
  · obtain ⟨y, hy, yields⟩ := some
    obtain ⟨none, -⟩ | ⟨x, found, held, -, drops⟩ := overwritten
    · exact absurd ((HeldRec.yields_iff y r.sev).mpr yields) (List.find?_eq_none.mp none y hy)
    · have yields := HeldRec.yields_of_find? found
      exact ⟨x, List.mem_of_find?_eq_some found, yields.1, yields.2, held, drops, fun y hy other low =>
        seq_le_of_find? order found hy ((HeldRec.yields_iff y r.sev).mpr ⟨other, low⟩)⟩
  · obtain ⟨-, drop⟩ | ⟨x, found, -⟩ := overwritten
    · exact drop
    · have yields := HeldRec.yields_of_find? found
      obtain fatal | above := none x (List.mem_of_find?_eq_some found)
      · exact absurd fatal yields.1
      · exact absurd above (Nat.not_lt_of_le yields.2)

end Sys2Proof.Machine
end

section
/-! The byte memories (R409, R428, R430, R473, R474): what a store to one of them leaves, and that every step keeps their canonical form. -/

namespace Sys2Proof.Machine

/-- Settles O4: an idle step changes nothing, and what a command changes keeps the byte memories. -/
theorem stepKeepsMemory : Obligations.StepKeepsMemory := by
  intro s t ok run
  obtain ⟨-, rfl⟩ | ⟨c, rest, -, changes⟩ := step_next run
  · exact ok
  · exact changes.mem ok

/-- Every byte of a memory after a store. -/
theorem Memory.getF_writeBytes_eq (d : Nat → Byte) {m : List Host.Cell} (a : Nat) (bs : List Byte) (k : Nat)
    (h : Memory.wf d m = true) :
    Sparse.getF d (Memory.writeBytes d m a bs) k = afterStore (Sparse.getF d m k) a bs k := by
  unfold afterStore
  split
  next inside =>
    obtain ⟨i, rfl⟩ := Nat.exists_eq_add_of_le inside.1
    have hi : i < bs.length := by omega
    rw [Memory.getF_writeBytes d h hi, Nat.add_sub_cancel_left, List.getD_eq_getElem _ _ hi]
  next outside => exact Memory.getF_writeBytes_ne d h (by omega)

/-- Settles O7: by the laws of a read after a store, inside and outside the stored range. -/
theorem byteMemoryLaws : Obligations.ByteMemoryLaws := fun d _ a bs h =>
  ⟨Memory.wf_writeBytes d h, Memory.readBytes_writeBytes d h, fun k => Memory.getF_writeBytes_eq d a bs k h⟩

/-- A second store of the same bytes at the same place changes nothing. -/
theorem afterStore_idem (old : Byte) (a : Nat) (bs : List Byte) (k : Nat) :
    afterStore (afterStore old a bs k) a bs k = afterStore old a bs k := by
  unfold afterStore
  split <;> rfl

/-- What is read of an element of a vector once one element has changed. -/
theorem vmod_apply {α β : Type} {n : Nat} (v : Vector α n) (i x : Fin n) (f : α → α) (g : α → β) :
    g (vmod v i f)[x] = if x = i then g (f v[i]) else g v[x] := by
  split
  next same => subst same; exact congrArg g (vmod_self v x f)
  next other => exact congrArg g (vmod_other v f (Ne.symm other))

/-- A store to the byte memory of one element, as the bytes of each element read. -/
theorem vmod_writeBytes {α : Type} {n : Nat} (v : Vector α n) (i x : Fin n) (f : α → α) (mem : α → List Host.Cell) (d : Nat → Byte)
    (a : Nat) (bs : List Byte) (k : Nat) (hf : mem (f v[i]) = Memory.writeBytes d (mem v[i]) a bs)
    (h : Memory.wf d (mem v[i]) = true) :
    Sparse.getF d (mem (vmod v i f)[x]) k =
      if x = i then afterStore (Sparse.getF d (mem v[x]) k) a bs k else Sparse.getF d (mem v[x]) k := by
  refine (vmod_apply v i x f fun e => Sparse.getF d (mem e) k).trans ?_
  split
  next same => subst same; rw [hf, Memory.getF_writeBytes_eq d a bs k h]
  next => rfl

/-! ### What the groups of a change say about single bytes -/

section Bytes
variable {gs : List Group} {s t : State} (x : TileId) (k : Nat)

theorem Keeps.prmByte (h : Keeps gs s t) (hg : gs.contains .prmData = false) : t.prmByte x k = s.prmByte x k :=
  congrArg (Sparse.getF Factory.prm · k) (h .prmData hg x)
theorem Keeps.lsaByte (h : Keeps gs s t) (hg : gs.contains .lsa = false) : t.lsaByte x k = s.lsaByte x k :=
  congrArg (Sparse.getF _ · k) (h .lsa hg x)
theorem Keeps.tcmByte (h : Keeps gs s t) (hg : gs.contains .tcm = false) : t.tcmByte x k = s.tcmByte x k :=
  congrArg (Sparse.getF _ · k) (h .tcm hg x)
theorem Keeps.velvetCell (h : Keeps gs s t) (hg : gs.contains .velvet = false) : t.velvetCell x k = s.velvetCell x k :=
  congrArg (Sparse.getF _ · k) (h .velvet hg x)
theorem Keeps.scratchByte (h : Keeps gs s t) (hg : gs.contains .scratch = false) : t.scratchByte x k = s.scratchByte x k :=
  congrArg (Sparse.getF _ · k) (h .scratch hg x)

end Bytes

end Sys2Proof.Machine
end

section
/-! Page writes of the parameter store (R430, R431, R680): what the end of one leaves in the stores of the tiles. -/

namespace Sys2Proof.Machine

variable {s : State}

theorem State.mem_svcTiles (s : State) (t : TileId) : t ∈ s.svcTiles ↔ s.inSvc t = true := by
  simp [State.svcTiles, mem_allTiles]

theorem State.prmPut_prmByte (h : s.MemOk) (t x : TileId) (a : Nat) (bs : List Byte) (k : Nat) :
    (s.prmPut t a bs).prmByte x k = if x = t then afterStore (s.prmByte x k) a bs k else s.prmByte x k :=
  vmod_writeBytes s.nv t x _ TileNv.prm Factory.prm a bs k rfl (h.1 t).1

/-- The same bytes stored in several tiles. -/
theorem forAll_prmPut_prmByte (ts : List TileId) (h : s.MemOk) (x : TileId) (a : Nat) (bs : List Byte) (k : Nat) :
    (forAll ts (fun t s => s.prmPut t a bs) s).prmByte x k =
      if x ∈ ts then afterStore (s.prmByte x k) a bs k else s.prmByte x k := by
  induction ts generalizing s with
  | nil => rfl
  | cons t ts ih =>
    refine (ih (State.prmPut_changes.mem h)).trans ?_
    rw [State.prmPut_prmByte h]
    by_cases here : x = t <;> by_cases later : x ∈ ts <;> simp [here, later, afterStore_idem]

/-- A write by the lead reaches its own store, and for a Standby page the store of every tile in service (R431). -/
theorem State.prmWrite_prmByte (h : s.MemOk) (x : TileId) (a : Nat) (bs : List Byte) (k : Nat) :
    (s.prmWrite a bs).prmByte x k = if x = s.lead ∨ (standbyPage (a / 64) = true ∧ s.inSvc x = true)
      then afterStore (s.prmByte x k) a bs k else s.prmByte x k := by
  unfold State.prmWrite
  split
  next standby =>
    have others : x ∈ (s.prmPut s.lead a bs).svcTiles.filter (· ≠ (s.prmPut s.lead a bs).lead) ↔ s.inSvc x = true ∧ x ≠ s.lead := by
      rw [List.mem_filter, State.mem_svcTiles, decide_eq_true_iff]
      rfl
    rw [forAll_prmPut_prmByte _ (State.prmPut_changes.mem h), State.prmPut_prmByte h]
    simp only [others]
    by_cases lead : x = s.lead <;> by_cases inService : s.inSvc x = true <;> simp [lead, inService, standby]
  next kept =>
    rw [State.prmPut_prmByte h]
    simp [kept]

/-- The state in which the oldest page write has ended, before its requester goes on. -/
def State.pageWritten (s : State) (w : PageWrite) (rest : List PageWrite) : State :=
  { s.prmWrite w.addr w.bytes with prm := { s.prm with queue := rest } }

theorem State.pageWritten_changes {w : PageWrite} {rest : List PageWrite} :
    Changes [.nv, .prmData, .prm] s (s.pageWritten w rest) := by
  unfold State.pageWritten
  exact .upd (State.prmWrite_changes.step .refl)

theorem runs_prmPageWriteDone_idle (hq : s.prm.queue = []) : Runs .prmPageWriteDone s s := by
  change execPrmPageWriteDone s = _
  unfold execPrmPageWriteDone
  rw [hq]

/-- Whatever the requester of the page write does next, it leaves every byte memory as the write left it; only a key set (tag 5) queues
more page writes (R680). -/
theorem exec_prmPageWriteDone {w : PageWrite} {rest : List PageWrite} (hq : s.prm.queue = w :: rest) :
    ∃ t, Runs .prmPageWriteDone s t ∧ (w.tag ≠ 5 → t.prm.queue = rest) ∧
      Keeps [.nv, .sys, .prm, .evr, .sec, .tiles, .heads, .svc] (s.pageWritten w rest) t := by
  change ∃ t, execPrmPageWriteDone s = .next t ∧ _
  unfold execPrmPageWriteDone
  split
  next none => cases none.symm.trans hq
  next w' rest' front =>
    cases front.symm.trans hq
    extract_lets stored old u
    have here : Changes [.nv, .sys, .prm, .evr, .sec, .tiles, .heads, .svc] (s.pageWritten w rest) u := .refl
    split
    next => exact ⟨u, rfl, fun _ => rfl, here.keeps⟩
    next =>
      split
      next => exact ⟨_, rfl, fun _ => congrArg _ (State.waitDone_changes.keeps .prm rfl), (State.waitDone_changes.step here).keeps⟩
      next => exact ⟨_, rfl, fun _ => congrArg _ (State.rdpMarked_changes.keeps .prm rfl), (State.rdpMarked_changes.step here).keeps⟩
      next keys => exact ⟨_, rfl, fun other => absurd keys other, (State.keyWritten_changes.step here).keeps⟩
      next => exact ⟨u, rfl, fun _ => rfl, here.keeps⟩

/-- Settles O8: the requester goes on outside the byte memories, and the write itself reaches the stores that R431 names. -/
theorem parameterPageWrites : Obligations.ParameterPageWrites := by
  intro s ok
  refine ⟨runs_prmPageWriteDone_idle, fun w rest hq => ?_⟩
  have written := (State.pageWritten_changes (s := s) (w := w) (rest := rest)).keeps
  obtain ⟨t, run, rest', after⟩ := exec_prmPageWriteDone hq
  refine ⟨t, run, rest', fun x k => ?_, fun x k => ⟨?_, ?_, ?_, ?_⟩⟩
  · exact (after.prmByte x k rfl).trans (State.prmWrite_prmByte ok x w.addr w.bytes k)
  · exact (after.lsaByte x k rfl).trans (written.lsaByte x k rfl)
  · exact (after.tcmByte x k rfl).trans (written.tcmByte x k rfl)
  · exact (after.velvetCell x k rfl).trans (written.velvetCell x k rfl)
  · exact (after.scratchByte x k rfl).trans (written.scratchByte x k rfl)

end Sys2Proof.Machine
end

section
/-! The config flash (R409, R410, R414 to R416, R428): the end of a sector's erase and of its page programs, and what they leave in the
label storage area and in the sector's tag. -/

namespace Sys2Proof.Machine

/-! ### Tables -/

theorem Sparse.getF_cons {α : Type} (d : Nat → α) (i : Nat) (v : α) (r : List (Nat × α)) (k : Nat) :
    Sparse.getF d ((i, v) :: r) k = if i = k then v else if k < i then d k else Sparse.getF d r k := rfl

/-- An entry that is not kept reads as the default. -/
theorem Sparse.getF_keep {α : Type} (d : Nat → α) [DecidableEq α] {m : List (Nat × α)} {j : Nat} (p : Nat → Bool) (k : Nat)
    (h : Sparse.wfFrom d j m = true) :
    Sparse.getF d (Sparse.keep p m) k = if p k = true then Sparse.getF d m k else d k := by
  induction m generalizing j with
  | nil => exact (ite_self _).symm
  | cons e r ih =>
    obtain ⟨i, v⟩ := e
    simp only [Sparse.wfFrom, Bool.and_eq_true, decide_eq_true_eq] at h
    obtain ⟨-, rest⟩ := h
    have tail := ih rest
    have below : k < i → Sparse.getF d r k = d k := fun lt => Sparse.getF_lt d rest (by omega)
    by_cases kept : p i = true
    · have keeps : Sparse.keep p ((i, v) :: r) = (i, v) :: Sparse.keep p r := List.filter_cons_of_pos kept
      rw [keeps, Sparse.getF_cons, Sparse.getF_cons, tail]
      by_cases same : i = k
      · simp [same, same ▸ kept]
      · by_cases lt : k < i <;> simp [same, lt]
    · have drops : Sparse.keep p ((i, v) :: r) = Sparse.keep p r := List.filter_cons_of_neg kept
      rw [drops, Sparse.getF_cons, tail]
      by_cases same : i = k
      · simp [same ▸ kept]
      · by_cases lt : k < i <;> simp [same, lt, below]

/-- A table gives back the value that it was last given at a key. -/
theorem tabGet_tabPut {α : Type} (m : List (Nat × α)) (k : Nat) (v : α) : tabGet (tabPut m k v) k = some v := by
  induction m with
  | nil => simp [tabPut, tabGet]
  | cons e r ih =>
    obtain ⟨j, w⟩ := e
    unfold tabPut
    split
    next => simp [tabGet]
    next =>
      split
      next => simp [tabGet]
      next other =>
        have : j ≠ k := fun same => other same.symm
        simpa [tabGet, this] using ih

/-! ### The events -/

/-- The bank that an event names. -/
def bankOf (b : Bool) : Fin 2 := if b then 1 else 0

/-- The state in which a sector's erase has ended, with its tag and its journal entry (R414, R416). -/
def State.sectorErased (s : State) (t : TileId) (bank : Fin 2) (op : FlashOp) : State :=
  (s.modNv t fun v => eraseContent bank op (jClose v bank op.sector)).journalReuse t bank

section Events
variable {s : State} {t : TileId} {b : Bool} {op : FlashOp} (hop : s.tiles[t].cfl.ops[bankOf b] = some op)
include hop

/-- The erase of a sector to be programmed has ended. -/
theorem runs_flashEraseDone_programs (he : op.erasing = true) (hp : op.pages ≠ 0) :
    Runs (.flashEraseDone t b) s ((s.sectorErased t (bankOf b) op).modCfl t fun c =>
      { c with ops := c.ops.set (bankOf b) (some { op with erasing := false, suspended := false }) }) := by
  change execFlashEraseDone t b s = _
  unfold execFlashEraseDone
  extract_lets bank
  have running : s.tiles[t].cfl.ops[bank] = some op := hop
  rw [running]
  exact (if_neg (not_refused he)).trans (if_neg hp)

/-- The erase of a sector that stays erased has ended. -/
theorem runs_flashEraseDone_ends (he : op.erasing = true) (hp : op.pages = 0) :
    Runs (.flashEraseDone t b) s (((s.sectorErased t (bankOf b) op).flashNext t (bankOf b)).flashCommand) := by
  change execFlashEraseDone t b s = _
  unfold execFlashEraseDone
  extract_lets bank
  have running : s.tiles[t].cfl.ops[bank] = some op := hop
  rw [running]
  exact (if_neg (not_refused he)).trans (if_pos hp)

/-- A page program of an operation that is no event flush. -/
theorem exec_flashPageProgramDone (he : op.erasing = false) (hu : op.use ≠ .eventFlush) :
    execFlashPageProgramDone t b s = if op.pages > 1
      then .next (s.modCfl t fun c => { c with ops := c.ops.set (bankOf b) (some { op with pages := op.pages - 1 }) })
      else .next (((s.modNv t (opContent (bankOf b) op)).flashNext t (bankOf b)).flashCommand) := by
  unfold execFlashPageProgramDone
  extract_lets bank
  have running : s.tiles[t].cfl.ops[bank] = some op := hop
  rw [running]
  refine (if_neg (not_true_of_eq_false he)).trans ?_
  rw [if_neg hu]
  rfl

theorem runs_flashPageProgramDone_more (he : op.erasing = false) (hp : 1 < op.pages) (hu : op.use ≠ .eventFlush) :
    Runs (.flashPageProgramDone t b) s (s.modCfl t fun c =>
      { c with ops := c.ops.set (bankOf b) (some { op with pages := op.pages - 1 }) }) :=
  (exec_flashPageProgramDone hop he hu).trans (if_pos hp)

theorem runs_flashPageProgramDone_last (he : op.erasing = false) (hp : op.pages ≤ 1) (hu : op.use ≠ .eventFlush) :
    Runs (.flashPageProgramDone t b) s (((s.modNv t (opContent (bankOf b) op)).flashNext t (bankOf b)).flashCommand) :=
  (exec_flashPageProgramDone hop he hu).trans (if_neg (Nat.not_lt_of_le hp))

end Events

/-! ### Label storage -/

/-- The end of the erase of a label storage sector, 4,096 bytes from `a` on. -/
theorem State.sectorErased_lsaByte {s : State} (ok : s.MemOk) {t : TileId} {bank : Fin 2} {op : FlashOp} {bs : List Byte}
    (hu : op.use = .lsa bs) (x : TileId) (k : Nat) :
    (s.sectorErased t bank op).lsaByte x k =
      if x = t ∧ 4096 * (op.sector - 516) ≤ k ∧ k < 4096 * (op.sector - 515) then 0xFF else s.lsaByte x k := by
  have content : (eraseContent bank op (jClose s.nv[t] bank op.sector)).lsa = Sparse.keep
      (fun a => !(decide (4096 * (op.sector - 516) ≤ a ∧ a < 4096 * (op.sector - 515)))) s.nv[t].lsa := by
    unfold eraseContent
    rw [hu]
    rfl
  refine (State.journalReuse_changes.keeps.lsaByte x k rfl).trans ?_
  refine (vmod_apply s.nv t x _ fun v => Sparse.getF (fun _ => (0xFF : Byte)) v.lsa k).trans ?_
  rw [content, Sparse.getF_keep _ _ _ (ok.1 t).2]
  by_cases here : x = t
  · subst here
    by_cases inside : 4096 * (op.sector - 516) ≤ k ∧ k < 4096 * (op.sector - 515) <;> simp [inside, State.lsaByte]
  · simp [here, State.lsaByte]

/-- The last page program of a label storage sector. -/
theorem State.opContent_lsaByte {s : State} (ok : s.MemOk) {t : TileId} {bank : Fin 2} {op : FlashOp} {bs : List Byte}
    (hu : op.use = .lsa bs) (x : TileId) (k : Nat) :
    (s.modNv t (opContent bank op)).lsaByte x k =
      if x = t then afterStore (s.lsaByte x k) (4096 * (op.sector - 516)) bs k else s.lsaByte x k := by
  have content : (opContent bank op s.nv[t]).lsa =
      Memory.writeBytes (fun _ => 0xFF) s.nv[t].lsa (4096 * (op.sector - 516)) bs := by
    unfold opContent
    rw [hu]
  exact vmod_writeBytes s.nv t x _ TileNv.lsa _ _ bs k content (ok.1 t).2

/-- The next operation of the bank, and the command that waited, leave the label storage area alone. -/
theorem State.flashNext_flashCommand_lsaByte (s : State) (t x : TileId) (bank : Fin 2) (k : Nat) :
    ((s.flashNext t bank).flashCommand).lsaByte x k = s.lsaByte x k :=
  (State.flashCommand_changes.keeps.lsaByte x k rfl).trans (State.flashNext_changes.keeps.lsaByte x k rfl)

/-- Settles O9: the end of the erase and the last page program change the sector of the operation; what follows them, and every page
program before the last, change no label storage area. -/
theorem labelSectorWrites : Obligations.LabelSectorWrites := by
  intro s t op bs ok hop hu _ _
  have noFlush : op.use ≠ .eventFlush := fun flush => nomatch hu.symm.trans flush
  refine ⟨fun he => ?_, fun he hp => ?_, fun he hp => ?_⟩
  · by_cases stays : op.pages = 0
    · exact ⟨_, runs_flashEraseDone_ends (b := false) hop he stays, fun x k =>
        (State.flashNext_flashCommand_lsaByte ..).trans (State.sectorErased_lsaByte ok hu x k)⟩
    · exact ⟨_, runs_flashEraseDone_programs (b := false) hop he stays, fun x k =>
        ((Changes.modCfl (gs := [.tiles]) .refl).keeps.lsaByte x k rfl).trans (State.sectorErased_lsaByte ok hu x k)⟩
  · exact ⟨_, runs_flashPageProgramDone_last (b := false) hop he hp noFlush, fun x k =>
      (State.flashNext_flashCommand_lsaByte ..).trans (State.opContent_lsaByte ok hu x k)⟩
  · exact ⟨_, runs_flashPageProgramDone_more (b := false) hop he hp noFlush, fun x k =>
      (Changes.modCfl (gs := [.tiles]) .refl).keeps.lsaByte x k rfl⟩

end Sys2Proof.Machine
end

section
/-! Writes over Widar to the windows of a tile's memories (R470 to R476): what each leaves in the byte memories. -/

namespace Sys2Proof.Machine

section
variable {s : State} {t : TileId} {m : Msg} {p : Nat} {u : State} (ht : s.wTake t m = some (p, u))
include ht

/-- A write that is performed outside the DPA window is done by its window; what follows is the answer to it. -/
theorem exec_widarWr_window {w : Window} (ho : m.opcode = 2) (hj : u.wJudge t m = none) (hw : u.window t m.addr = w)
    (hd : ∀ a, w ≠ .dpa a) :
    ∃ v, Runs (.widarWr t m) s v ∧
      Changes [.fv, .pmc, .fab, .mesh] (u.windowWrite t w (bytesAt m.data 0 m.len.toNat)) v := by
  change ∃ v, execWidarWr t m s = .next v ∧ _
  unfold execWidarWr
  rw [if_neg (not_not_intro ho), ht]
  dsimp only
  rw [hj, hw]
  cases w with
  | dpa a => exact absurd rfl (hd a)
  | cache a => exact ⟨_, rfl, State.wReply_changes.step (State.draw_changes.step .refl)⟩
  | _ => exact ⟨_, rfl, State.wReply_changes.step .refl⟩

end

/-- Settles O10: the message is taken, its window stores the data, and the answer to it changes no byte memory. -/
theorem widarWindowWrites : Obligations.WidarWindowWrites := by
  intro s u t msg p a ok ho ht hj
  have taken := State.wTake_changes ht
  have okU := taken.mem ok
  let data := bytesAt msg.data 0 msg.len.toNat
  refine ⟨fun hw => ?_, fun hw => ?_, fun hw => ?_⟩
  · obtain ⟨v, run, after⟩ := exec_widarWr_window ht ho hj hw nofun
    have wrote : Changes [.fab, .mesh, .tcm] s (u.windowWrite t (.tcm a) data) :=
      .modFab' (taken.step .refl) fun _ h => ⟨Memory.wf_writeBytes _ h.1, h.2⟩
    refine ⟨v, run, fun x k => (after.keeps.tcmByte x k rfl).trans ?_, (after.step (wrote.step .refl)).keeps⟩
    rw [← taken.keeps.tcmByte x k rfl]
    exact vmod_writeBytes u.fab t x _ Fabric.tcm _ a data k rfl (okU.2.1 t).1
  · obtain ⟨v, run, after⟩ := exec_widarWr_window ht ho hj hw nofun
    have wrote : Changes [.nv, .fab, .mesh, .velvet] s (u.windowWrite t (.velvet a) data) :=
      .modNv (.modFab' (taken.step .refl) fun _ h => ⟨h.1, Memory.wf_writeBytes _ h.2⟩)
    refine ⟨v, run, fun x k => (after.keeps.velvetCell x k rfl).trans ?_, (after.step (wrote.step .refl)).keeps⟩
    rw [← taken.keeps.velvetCell x k rfl]
    exact vmod_writeBytes u.fab t x _ Fabric.velvet _ a data k rfl (okU.2.1 t).2
  · obtain ⟨v, run, after⟩ := exec_widarWr_window ht ho hj hw nofun
    have wrote : Changes [.fab, .mesh, .tiles, .scratch] s
        (u.modD t fun d => { d with scratch := Memory.writeBytes (fun _ => 0) d.scratch a data }) :=
      .modD' (taken.step .refl) fun _ h => Memory.wf_writeBytes _ h
    refine ⟨v, run, fun x k => (after.keeps.scratchByte x k rfl).trans ?_, (after.step (wrote.step .refl)).keeps⟩
    rw [← taken.keeps.scratchByte x k rfl]
    exact vmod_writeBytes u.tiles t x _ (·.d.scratch) _ a data k rfl (okU.2.2 t)

end Sys2Proof.Machine
end

section
/-! Ladders and twins of the parameter store (R432, R437, R438): what a reader finds after a write, whole or interrupted. -/

namespace Sys2Proof.Machine

/-! ### Bytes that are replaced -/

@[simp] theorem bytesAt_length (bs : List Byte) (o n : Nat) : (bytesAt bs o n).length = n := by
  simp [bytesAt]

theorem bytesAt_eq_map (bs : List Byte) (o n : Nat) : bytesAt bs o n = (List.range n).map fun i => bs.getD (o + i) 0 := by
  refine List.ext_getElem (by simp) fun i hi _ => ?_
  simp only [bytesAt_length] at hi
  by_cases inside : o + i < bs.length
  · have : i < bs.length - o := by omega
    simp [bytesAt, hi, this, inside]
  · have : ¬ i < bs.length - o := by omega
    simp [bytesAt, List.getElem_append, this, inside]

/-- Bytes that read alike one by one read alike together. -/
theorem bytesAt_congr {xs ys : List Byte} {o n : Nat} (h : ∀ i, o ≤ i → i < o + n → xs[i]? = ys[i]?) :
    bytesAt xs o n = bytesAt ys o n := by
  rw [bytesAt_eq_map, bytesAt_eq_map]
  refine List.map_congr_left fun i hi => ?_
  have hi := List.mem_range.mp hi
  rw [List.getD_eq_getElem?_getD, List.getD_eq_getElem?_getD, h (o + i) (by omega) (by omega)]

@[simp] theorem putBytes_length (bs : List Byte) (o : Nat) (new : List Byte) (h : o + new.length ≤ bs.length) :
    (putBytes bs o new).length = bs.length := by
  simp [putBytes]
  omega

theorem putBytes_eq (bs : List Byte) (o : Nat) (new : List Byte) (h : o + new.length ≤ bs.length) :
    putBytes bs o new = bs.take o ++ new ++ bs.drop (o + new.length) :=
  List.take_of_length_le (by simp; omega)

theorem getElem?_putBytes_outside (bs : List Byte) (o : Nat) (new : List Byte) {i : Nat} (h : o + new.length ≤ bs.length)
    (hi : i < o ∨ o + new.length ≤ i) : (putBytes bs o new)[i]? = bs[i]? := by
  have front : (bs.take o).length = o := by simp; omega
  rw [putBytes_eq bs o new h]
  obtain before | behind := hi
  · rw [List.append_assoc, List.getElem?_append_left (by omega), List.getElem?_take_of_lt before]
  · rw [List.getElem?_append_right (by simp; omega), List.getElem?_drop]
    congr 1
    simp
    omega

/-- One of the equal blocks of a list is replaced, and every other reads as before. -/
theorem bytesAt_putBytes_block (bs new : List Byte) {w k : Nat} (j : Nat) (hn : new.length = w) (hk : w * k + w ≤ bs.length) :
    bytesAt (putBytes bs (w * k) new) (w * j) w = if j = k then new else bytesAt bs (w * j) w := by
  subst hn
  split
  next same =>
    subst same
    rw [putBytes_eq bs _ new hk, List.append_assoc]
    exact bytesAt_middle _ _ _ (by simp; omega) rfl
  next other =>
    refine bytesAt_congr fun i low high => getElem?_putBytes_outside bs _ new hk ?_
    obtain before | behind := Nat.lt_or_gt_of_ne other
    · have := Nat.mul_le_mul_left new.length (show j + 1 ≤ k from before)
      rw [Nat.mul_succ] at this
      omega
    · have := Nat.mul_le_mul_left new.length (show k + 1 ≤ j from behind)
      rw [Nat.mul_succ] at this
      omega

/-- The number at the start of a list. -/
theorem fieldAt_prefix (n v : Nat) (rest : List Byte) (h : v < 256 ^ n) : fieldAt (leBytes n v ++ rest) 0 n = v := by
  unfold fieldAt bytesAt
  simp [leNat_leBytes, Nat.mod_eq_of_lt h]

theorem crc16_lt (bs : List Byte) : (crc16 bs).toNat < 256 ^ 2 := (crc16 bs).isLt

/-! ### Ladders (R437, R438) -/

@[simp] theorem ladderImage_length (k v : Nat) : (ladderImage k v).length = 8 := by simp [ladderImage]

/-- A slot is read by its own eight bytes alone. -/
theorem ladderSlot_congr {xs ys : List Byte} {k : Nat} (h : bytesAt xs (8 * k) 8 = bytesAt ys (8 * k) 8) :
    ladderSlot xs k = ladderSlot ys k := by
  unfold ladderSlot
  rw [h]

/-- A slot whose bytes are an image holds the value of the image. -/
theorem ladderSlot_image {bs : List Byte} {k v : Nat} (h : bytesAt bs (8 * k) 8 = ladderImage k v) (hv : v < 2 ^ 48) :
    ladderSlot bs k = some v := by
  have value : (ladderImage k v).take 6 = leBytes 6 v := List.take_left' (leBytes_length 6 v)
  have number : fieldAt (ladderImage k v) 0 6 = v := fieldAt_prefix 6 v _ hv
  have check : fieldAt (ladderImage k v) 6 2 = (crc16 (BitVec.ofNat 8 k :: leBytes 6 v)).toNat :=
    leBytes_length 6 v ▸ fieldAt_append (leBytes 6 v) 2 _ (crc16_lt _)
  unfold ladderSlot
  rw [h]
  dsimp only
  rw [value, number, check]
  exact if_pos rfl

section
variable {bs new : List Byte} {k : Nat} (hb : bs.length = 128) (hn : new.length = 8) (hk : k < 16)
include hb hn hk

theorem ladderSlot_putBytes_other {j : Nat} (hj : j ≠ k) : ladderSlot (putBytes bs (8 * k) new) j = ladderSlot bs j :=
  ladderSlot_congr ((bytesAt_putBytes_block bs new j hn (by omega)).trans (if_neg hj))

end

theorem ladderSlot_putBytes_image {bs : List Byte} {k v : Nat} (hb : bs.length = 128) (hk : k < 16) (hv : v < 2 ^ 48) :
    ladderSlot (putBytes bs (8 * k) (ladderImage k v)) k = some v :=
  ladderSlot_image ((bytesAt_putBytes_block bs _ k (ladderImage_length k v) (by omega)).trans (if_pos rfl)) hv

/-- The value and the slot that a reader holds after the first `n` slots. -/
def ladderBest (bs : List Byte) (n : Nat) : Nat × Option Nat :=
  (List.range n).foldl
    (fun best k => match ladderSlot bs k with
      | none => best
      | some v => if best.2 = none ∨ v ≥ best.1 then (v, some k) else best) (0, none)

theorem ladderBest_succ_none {bs : List Byte} {n : Nat} (h : ladderSlot bs n = none) : ladderBest bs (n + 1) = ladderBest bs n := by
  unfold ladderBest
  rw [List.range_succ, List.foldl_append, List.foldl_cons, List.foldl_nil, h]

theorem ladderBest_succ_some {bs : List Byte} {n v : Nat} (h : ladderSlot bs n = some v) :
    ladderBest bs (n + 1) =
      if (ladderBest bs n).2 = none ∨ v ≥ (ladderBest bs n).1 then (v, some n) else ladderBest bs n := by
  unfold ladderBest
  rw [List.range_succ, List.foldl_append, List.foldl_cons, List.foldl_nil, h]

/-- What a reader holds is the highest valid value, in a slot that holds it; nothing where no slot is valid. -/
theorem ladderBest_spec (bs : List Byte) (n : Nat) :
    (∀ k v, k < n → ladderSlot bs k = some v → v ≤ (ladderBest bs n).1 ∧ (ladderBest bs n).2 ≠ none) ∧
    (∀ j, (ladderBest bs n).2 = some j → j < n ∧ ladderSlot bs j = some (ladderBest bs n).1) ∧
    ((ladderBest bs n).2 = none → (ladderBest bs n).1 = 0) := by
  induction n with
  | zero => exact ⟨nofun, nofun, fun _ => rfl⟩
  | succ n ih =>
    obtain ⟨highest, holds, empty⟩ := ih
    cases slot : ladderSlot bs n with
    | none =>
      rw [ladderBest_succ_none slot]
      refine ⟨fun k v hk hv => highest k v ?_ hv, fun j hj => ?_, empty⟩
      · have : k ≠ n := fun same => Option.some_ne_none v ((same ▸ hv).symm.trans slot)
        omega
      · exact ⟨Nat.lt_succ_of_lt (holds j hj).1, (holds j hj).2⟩
    | some w =>
      rw [ladderBest_succ_some slot]
      split
      next better =>
        refine ⟨fun k v hk hv => ⟨?_, nofun⟩, fun j hj => ?_, nofun⟩
        · by_cases last : k = n
          · cases slot.symm.trans (last ▸ hv)
            exact Nat.le_refl _
          · have before := highest k v (by omega) hv
            exact before.1.trans (better.resolve_left before.2)
        · cases hj
          exact ⟨Nat.lt_succ_self _, slot⟩
      next worse =>
        refine ⟨fun k v hk hv => ?_, fun j hj => ⟨Nat.lt_succ_of_lt (holds j hj).1, (holds j hj).2⟩, empty⟩
        by_cases last : k = n
        · cases slot.symm.trans (last ▸ hv)
          exact ⟨by omega, fun none => worse (.inl none)⟩
        · exact highest k v (by omega) hv

theorem le_ladderRead {bs : List Byte} {k v : Nat} (hk : k < 16) (h : ladderSlot bs k = some v) : v ≤ (ladderRead bs).1 :=
  ((ladderBest_spec bs 16).1 k v hk h).1

theorem ladderRead_ne_none {bs : List Byte} {k v : Nat} (hk : k < 16) (h : ladderSlot bs k = some v) : (ladderRead bs).2 ≠ none :=
  ((ladderBest_spec bs 16).1 k v hk h).2

theorem ladderRead_slot {bs : List Byte} {j : Nat} (h : (ladderRead bs).2 = some j) :
    j < 16 ∧ ladderSlot bs j = some (ladderRead bs).1 := (ladderBest_spec bs 16).2.1 j h

theorem ladderRead_empty {bs : List Byte} (h : (ladderRead bs).2 = none) : (ladderRead bs).1 = 0 := (ladderBest_spec bs 16).2.2 h

/-- The slot that an advance writes. -/
def ladderNext (bs : List Byte) : Nat := ((ladderRead bs).2.getD 15 + 1) % 16

theorem ladderNext_lt (bs : List Byte) : ladderNext bs < 16 := Nat.mod_lt _ (by decide)

/-- An advance does not write the slot that holds the current value. -/
theorem ne_ladderNext {bs : List Byte} {j : Nat} (h : (ladderRead bs).2 = some j) : j ≠ ladderNext bs := by
  have := (ladderRead_slot h).1
  unfold ladderNext
  rw [h]
  dsimp only [Option.getD_some]
  omega

/-- A new value above the current one governs: no other slot holds as much. -/
theorem ladderRead_advance {bs : List Byte} (hb : bs.length = 128) {v : Nat} (above : (ladderRead bs).1 < v) (hv : v < 2 ^ 48) :
    ladderRead (putBytes bs (8 * ladderNext bs) (ladderImage (ladderNext bs) v)) = (v, some (ladderNext bs)) := by
  have hk := ladderNext_lt bs
  have written := ladderSlot_putBytes_image hb hk hv
  obtain ⟨j, hj⟩ := Option.ne_none_iff_exists'.mp (ladderRead_ne_none hk written)
  obtain ⟨hj16, holds⟩ := ladderRead_slot hj
  have atLeast := le_ladderRead hk written
  have here : j = ladderNext bs := by
    by_contra other
    rw [ladderSlot_putBytes_other hb (ladderImage_length ..) hk other] at holds
    have := le_ladderRead hj16 holds
    omega
  subst here
  exact Prod.ext (Option.some.inj (holds.symm.trans written)) hj

/-- Whatever stands in the slot that an advance was writing, the slot of the current value still reads. -/
theorem ladderRead_torn {bs torn : List Byte} (hb : bs.length = 128) (ht : torn.length = 8) :
    (ladderRead bs).1 ≤ (ladderRead (putBytes bs (8 * ladderNext bs) torn)).1 := by
  cases held : (ladderRead bs).2 with
  | none => exact (ladderRead_empty held).trans_le (Nat.zero_le _)
  | some j =>
    obtain ⟨hj, holds⟩ := ladderRead_slot held
    exact le_ladderRead hj ((ladderSlot_putBytes_other hb ht (ladderNext_lt bs) (ne_ladderNext held)).trans holds)

/-! ### Twins (R432) -/

/-- A copy of a twin page, its generation and its content. -/
def twinCopy (page : List Byte) (c : Nat) : List Byte := bytesAt page (32 * c) 32
def copyGen (c : List Byte) : Nat := fieldAt c 0 4
def copyBody (c : List Byte) : List Byte := (c.drop 4).take 26

theorem twinCopy_putBytes {page new : List Byte} {k : Nat} (c : Nat) (hp : page.length = 64) (hk : k ≤ 1) (hn : new.length = 32) :
    twinCopy (putBytes page (32 * k) new) c = if c = k then new else twinCopy page c :=
  bytesAt_putBytes_block page new c hn (by omega)

section
variable {page : List Byte} (hp : page.length = 64)
include hp

theorem twin_firstCopy : page.take 32 = twinCopy page 0 := by simp [twinCopy, bytesAt, hp]
theorem twin_secondCopy : (page.drop 32).take 32 = twinCopy page 1 := by simp [twinCopy, bytesAt, hp]

/-- The first copy governs: it is valid, and the second is not newer. -/
theorem twinRead_first (v0 : twinValid (twinCopy page 0) = true)
    (governs : twinValid (twinCopy page 1) = true → copyGen (twinCopy page 1) ≤ copyGen (twinCopy page 0)) :
    (twinRead page).1 = some (copyBody (twinCopy page 0)) := by
  unfold twinRead
  rw [twin_firstCopy hp, twin_secondCopy hp]
  dsimp only
  rw [v0]
  cases v1 : twinValid (twinCopy page 1) with
  | true => exact congrArg some (if_neg (Nat.not_lt_of_le (governs v1)))
  | false => rfl

/-- Copies of different generations do not conflict. -/
theorem twinRead_agrees (differ : twinValid (twinCopy page 0) = true → twinValid (twinCopy page 1) = true →
    copyGen (twinCopy page 0) ≠ copyGen (twinCopy page 1)) : (twinRead page).2 = false := by
  unfold twinRead
  rw [twin_firstCopy hp, twin_secondCopy hp]
  dsimp only
  cases v0 : twinValid (twinCopy page 0) <;> cases v1 : twinValid (twinCopy page 1)
  case true.true => exact decide_eq_false fun same => differ v0 v1 same.1
  all_goals rfl

/-- The second copy governs: it is valid, and newer than the first. -/
theorem twinRead_second (v1 : twinValid (twinCopy page 1) = true)
    (governs : twinValid (twinCopy page 0) = true → copyGen (twinCopy page 0) < copyGen (twinCopy page 1)) :
    (twinRead page).1 = some (copyBody (twinCopy page 1)) := by
  unfold twinRead
  rw [twin_firstCopy hp, twin_secondCopy hp]
  dsimp only
  rw [v1]
  cases v0 : twinValid (twinCopy page 0) with
  | true => exact congrArg some (if_pos (governs v0))
  | false => rfl

theorem twinRead_none (v0 : twinValid (twinCopy page 0) = false) (v1 : twinValid (twinCopy page 1) = false) :
    (twinRead page).1 = none := by
  unfold twinRead
  rw [twin_firstCopy hp, twin_secondCopy hp]
  dsimp only
  rw [v0, v1]

/-- A writer overwrites the copy that does not govern. -/
theorem twinTarget_cases :
    (twinTarget page = 1 ∧ twinValid (twinCopy page 0) = true ∧
      (twinValid (twinCopy page 1) = true → copyGen (twinCopy page 1) ≤ copyGen (twinCopy page 0))) ∨
    (twinTarget page = 0 ∧ (twinValid (twinCopy page 0) = true →
      twinValid (twinCopy page 1) = true ∧ copyGen (twinCopy page 0) < copyGen (twinCopy page 1))) := by
  unfold twinTarget
  rw [twin_firstCopy hp, twin_secondCopy hp]
  dsimp only
  cases v0 : twinValid (twinCopy page 0) <;> cases v1 : twinValid (twinCopy page 1)
  case true.true =>
    by_cases older : copyGen (twinCopy page 0) < copyGen (twinCopy page 1)
    · exact .inr ⟨if_pos older, fun _ => ⟨rfl, older⟩⟩
    · exact .inl ⟨if_neg older, rfl, fun _ => Nat.le_of_not_lt older⟩
  case true.false => exact .inl ⟨rfl, rfl, nofun⟩
  all_goals exact .inr ⟨rfl, nofun⟩

theorem twinTarget_le : twinTarget page ≤ 1 := by
  obtain ⟨h, -⟩ | ⟨h, -⟩ := twinTarget_cases hp <;> omega

theorem twinGen_eq : twinGen page = max (if twinValid (twinCopy page 0) = true then copyGen (twinCopy page 0) else 0)
    (if twinValid (twinCopy page 1) = true then copyGen (twinCopy page 1) else 0) := by
  unfold twinGen
  rw [twin_firstCopy hp, twin_secondCopy hp]
  rfl

theorem copyGen_le_twinGen {c : Nat} (hc : c = 0 ∨ c = 1) (v : twinValid (twinCopy page c) = true) :
    copyGen (twinCopy page c) ≤ twinGen page := by
  rw [twinGen_eq hp]
  obtain rfl | rfl := hc <;> rw [if_pos v] <;> omega

end

/-! #### The image that a writer stores -/

section
variable (page : List Byte) {content : List Byte}

@[simp] theorem twinImage_length : (twinImage page content).length = 32 := by simp [twinImage]

theorem twinImage_valid : twinValid (twinImage page content) = true := by
  have body : (leBytes 4 (twinGen page + 1) ++ bytesAt content 0 26).length = 30 := by simp
  unfold twinValid twinImage
  dsimp only
  rw [List.take_left' body, ← body, fieldAt_append _ 2 _ (crc16_lt _)]
  exact decide_eq_true rfl

theorem twinImage_gen (h : twinGen page + 1 < 2 ^ 32) : copyGen (twinImage page content) = twinGen page + 1 := by
  unfold copyGen twinImage
  rw [List.append_assoc]
  exact fieldAt_prefix 4 _ _ h

theorem twinImage_body (hc : content.length = 26) : copyBody (twinImage page content) = content := by
  have whole : bytesAt content 0 26 = content := by rw [← hc]; simp [bytesAt]
  unfold copyBody twinImage
  rw [List.append_assoc, List.drop_left' (leBytes_length ..), whole, List.take_left' hc]

end

section
variable {page : List Byte} (hp : page.length = 64)
include hp

theorem twinPut_length {new : List Byte} (hn : new.length = 32) : (putBytes page (32 * twinTarget page) new).length = 64 := by
  have := twinTarget_le hp
  rw [putBytes_length _ _ _ (by omega), hp]

/-- The image is newer than what the other copy holds, so it governs. -/
theorem twin_written {content : List Byte} (hc : content.length = 26) (hg : twinGen page + 1 < 2 ^ 32) :
    twinRead (putBytes page (32 * twinTarget page) (twinImage page content)) = (some content, false) ∧
    twinGen (putBytes page (32 * twinTarget page) (twinImage page content)) = twinGen page + 1 := by
  have valid := twinImage_valid page (content := content)
  have gen := twinImage_gen page (content := content) hg
  have body := twinImage_body page hc
  have copy (c : Nat) := twinCopy_putBytes c hp (twinTarget_le hp) (twinImage_length page (content := content))
  have length := twinPut_length hp (twinImage_length page (content := content))
  have older {c : Nat} (hc : c = 0 ∨ c = 1) (v : twinValid (twinCopy page c) = true) : copyGen (twinCopy page c) < twinGen page + 1 :=
    Nat.lt_succ_of_le (copyGen_le_twinGen hp hc v)
  generalize putBytes page (32 * twinTarget page) (twinImage page content) = new at *
  obtain ⟨target, -, -⟩ | ⟨target, -⟩ := twinTarget_cases hp
  · have c0 : twinCopy new 0 = twinCopy page 0 := by rw [copy, target]; rfl
    have c1 : twinCopy new 1 = twinImage page content := by rw [copy, target]; rfl
    refine ⟨Prod.ext ?_ (twinRead_agrees length fun v _ => ?_), ?_⟩
    · rw [twinRead_second length (c1 ▸ valid) fun v => ?_, c1, body]
      rw [c0] at v ⊢
      rw [c1, gen]
      exact older (.inl rfl) v
    · rw [c0] at v ⊢
      rw [c1, gen]
      exact (older (.inl rfl) v).ne
    · rw [twinGen_eq length, c0, c1, if_pos valid, gen]
      split
      next v => exact max_eq_right (older (.inl rfl) v).le
      next => exact max_eq_right (Nat.zero_le _)
  · have c0 : twinCopy new 0 = twinImage page content := by rw [copy, target]; rfl
    have c1 : twinCopy new 1 = twinCopy page 1 := by rw [copy, target]; rfl
    refine ⟨Prod.ext ?_ (twinRead_agrees length fun _ v => ?_), ?_⟩
    · rw [twinRead_first length (c0 ▸ valid) fun v => ?_, c0, body]
      rw [c1] at v ⊢
      rw [c0, gen]
      exact (older (.inr rfl) v).le
    · rw [c1] at v ⊢
      rw [c0, gen]
      exact (older (.inr rfl) v).ne'
    · rw [twinGen_eq length, c0, c1, if_pos valid, gen]
      split
      next v => exact max_eq_left (older (.inr rfl) v).le
      next => exact max_eq_left (Nat.zero_le _)

/-- The copy that governs is not the one that a writer overwrites, so it still governs beside one that does not check. -/
theorem twinRead_torn {torn : List Byte} (ht : torn.length = 32) (hv : twinValid torn = false) :
    (twinRead (putBytes page (32 * twinTarget page) torn)).1 = (twinRead page).1 := by
  have copy (c : Nat) := twinCopy_putBytes c hp (twinTarget_le hp) ht
  have length := twinPut_length hp ht
  generalize putBytes page (32 * twinTarget page) torn = new at *
  obtain ⟨target, v0, governs⟩ | ⟨target, governs⟩ := twinTarget_cases hp
  · have c0 : twinCopy new 0 = twinCopy page 0 := by rw [copy, target]; rfl
    have c1 : twinCopy new 1 = torn := by rw [copy, target]; rfl
    rw [twinRead_first hp v0 governs, twinRead_first length (c0 ▸ v0) fun v => ?_, c0]
    rw [c1, hv] at v
    cases v
  · have c0 : twinCopy new 0 = torn := by rw [copy, target]; rfl
    have c1 : twinCopy new 1 = twinCopy page 1 := by rw [copy, target]; rfl
    cases v1 : twinValid (twinCopy page 1) with
    | true =>
      rw [twinRead_second hp v1 fun v0 => (governs v0).2, twinRead_second length (c1 ▸ v1) fun v => ?_, c1]
      rw [c0, hv] at v
      cases v
    | false =>
      have v0 : twinValid (twinCopy page 0) = false :=
        Bool.eq_false_iff.mpr fun v0 => Bool.noConfusion (v1.symm.trans (governs v0).1)
      rw [twinRead_none hp v0 v1, twinRead_none length (c0 ▸ hv) (c1 ▸ v1)]

end

/-- Settles O26: the slot of the current value, and the copy that governs, are not the ones that a write touches; a new value and a new
generation are above every other. -/
theorem laddersAndTwins : Obligations.LaddersAndTwins :=
  ⟨fun _ hb => ⟨fun _ above hv => ladderRead_advance hb above hv, fun _ ht => ladderRead_torn hb ht⟩,
    fun _ _ hp hc => ⟨twin_written hp hc, fun _ ht hv => twinRead_torn hp ht hv⟩⟩

end Sys2Proof.Machine
end

section
/-! Numbers of the hold-up energy (R553), of the temperature bands (R605) and of request tagging (R649). -/

namespace Sys2Proof.Machine

/-! ### The measured budget (R553) -/

theorem measuredBudget_of_le {u n : Nat} (h : u ≤ 36000 * n) : measuredBudget u n = 0 := if_pos h

/-- The microjoules that each tile may spend on its flush, its reserve and the margin taken off. -/
def flushShare (u n : Nat) : Nat := (u - 36000 * n) * 4 / (5 * n)

/-- The budget is the whole multiple of 256 lines that the share of a tile beyond its fixed part pays for. -/
theorem measuredBudget_eq (u n : Nat) : measuredBudget u n = 256 * (min 130816 ((flushShare u n - 20000) * 10 / 16) / 256) := by
  unfold measuredBudget flushShare
  split
  next low => simp [Nat.sub_eq_zero_of_le low]
  next =>
    dsimp only
    split
    next low => simp [Nat.sub_eq_zero_of_le low]
    next => omega

theorem measuredBudget_mono {u u' : Nat} (n : Nat) (h : u ≤ u') : measuredBudget u n ≤ measuredBudget u' n := by
  have share : flushShare u n ≤ flushShare u' n :=
    Nat.div_le_div_right (Nat.mul_le_mul_right 4 (Nat.sub_le_sub_right h _))
  rw [measuredBudget_eq, measuredBudget_eq]
  omega

/-- The flush of the budget in every tile with its margin, and the reserve, fit the energy. -/
theorem measuredBudget_fits {u n : Nat} (hb : 0 < measuredBudget u n) :
    n * (20000 + measuredBudget u n * 16 / 10) * 5 / 4 + 36000 * n ≤ u := by
  have reserve : 36000 * n ≤ u := by
    by_contra low
    rw [measuredBudget_of_le (by omega)] at hb
    exact absurd hb (Nat.lt_irrefl 0)
  have lines := measuredBudget_eq u n
  have share : 20000 + measuredBudget u n * 16 / 10 ≤ flushShare u n := by omega
  have all : flushShare u n * (5 * n) ≤ (u - 36000 * n) * 4 := Nat.div_mul_le_self ..
  have each : n * (20000 + measuredBudget u n * 16 / 10) ≤ n * flushShare u n := Nat.mul_le_mul_left n share
  have same : flushShare u n * (5 * n) = 5 * (n * flushShare u n) := by ring
  omega

/-- Settles O25: the budget is a multiple of 256 that the energy pays for. -/
theorem budgetFitsEnergy : Obligations.BudgetFitsEnergy := by
  refine ⟨fun u n _ _ => ⟨?_, ?_, measuredBudget_fits⟩, fun u u' n => measuredBudget_mono n, fun _ _ low => if_pos low, rfl⟩
  · rw [measuredBudget_eq]
    exact Nat.mul_mod_right ..
  · rw [measuredBudget_eq]
    omega

/-! ### Temperature bands (R605) -/

/-- The lower boundary of a band above the lowest. -/
def bandBound (k : Nat) : Int := [160, 480, 800, 1120, 1360].getD (k - 1) 0

/-- The band whose boundaries enclose a reading. -/
def bandOf (r : Int) : Nat := (bandBounds.filter fun b => decide (b ≤ r)).length

theorem bandOf_le (r : Int) : bandOf r ≤ 5 := List.length_filter_le ..

/-- Of an ascending list, how many elements a value has reached. -/
theorem lt_length_filter_le_iff (r : Int) : ∀ (l : List Int), l.Pairwise (· < ·) → ∀ (k : Nat) (hk : k < l.length),
    (k < (l.filter fun b => decide (b ≤ r)).length ↔ l[k] ≤ r)
  | [], _, _, hk => absurd hk (Nat.not_lt_zero _)
  | b :: l, ascending, k, hk => by
    obtain ⟨above, ascending⟩ := List.pairwise_cons.mp ascending
    by_cases reached : b ≤ r
    · rw [List.filter_cons_of_pos (p := fun b : Int => decide (b ≤ r)) (decide_eq_true reached), List.length_cons]
      cases k with
      | zero => simp [reached]
      | succ k => rw [Nat.add_lt_add_iff_right, List.getElem_cons_succ, lt_length_filter_le_iff r l ascending k]
    · have least : b ≤ (b :: l)[k] := by
        obtain same | later := List.mem_cons.mp (List.getElem_mem hk)
        · exact same.ge
        · exact (above _ later).le
      have none : (b :: l).filter (fun b => decide (b ≤ r)) = [] := List.filter_eq_nil_iff.mpr fun c mem => by
        obtain rfl | later := List.mem_cons.mp mem
        · simpa using reached
        · have := above c later
          simp only [decide_eq_true_eq]
          omega
      rw [none, List.length_nil]
      omega

theorem le_bandOf_iff (r : Int) {k : Nat} (hk : k ≤ 5) : k ≤ bandOf r ↔ k = 0 ∨ bandBound k ≤ r := by
  cases k with
  | zero => simp
  | succ k =>
    have bound : bandBound (k + 1) = bandBounds[k]'hk := List.getD_eq_getElem ..
    rw [bound, ← lt_length_filter_le_iff r bandBounds (by decide) k hk]
    simp [bandOf]

theorem bandOf_lt_iff (r : Int) {k : Nat} (hk : k < 5) : bandOf r ≤ k ↔ r < bandBound (k + 1) := by
  have := le_bandOf_iff r (k := k + 1) hk
  omega

theorem bandOf_add (r : Int) : bandOf r ≤ bandOf (r + 32) := by
  obtain zero | low := (le_bandOf_iff r (bandOf_le r)).mp (Nat.le_refl _)
  · omega
  · exact (le_bandOf_iff _ (bandOf_le r)).mpr (.inr (by omega))

section
variable (r : BitVec 16)

/-- The highest band that a reading is not more than 2 °C below. -/
theorem downBand_eq : (bandBounds.filter fun b => decide (b - 32 ≤ r.toInt)).length = bandOf (r.toInt + 32) :=
  congrArg List.length (List.filter_congr fun b _ => decide_eq_decide.mpr (by omega))

theorem bandStep_none : bandStep none r = BitVec.ofNat 3 (bandOf r.toInt) := rfl

theorem bandStep_some (c : BitVec 3) : bandStep (some c) r =
    if c.toNat < bandOf r.toInt then BitVec.ofNat 3 (bandOf r.toInt)
    else if bandOf (r.toInt + 32) < c.toNat then BitVec.ofNat 3 (bandOf (r.toInt + 32)) else c := by
  rw [← downBand_eq]
  rfl

end

/-- A band as its code. -/
theorem toNat_ofNat_bandOf (r : Int) : (BitVec.ofNat 3 (bandOf r)).toNat = bandOf r := by
  have := bandOf_le r
  rw [BitVec.toNat_ofNat]
  omega

/-- Settles O24: the bands are compared by the boundaries that a reading has reached, with 2 °C added for the way down. -/
theorem temperatureBands : Obligations.TemperatureBands := by
  intro r bound
  have limits : ∀ k, bound k = bandBound k := fun _ => rfl
  simp only [limits]
  clear_value bound
  have up := bandOf_le r.toInt
  have down := bandOf_le (r.toInt + 32)
  have rises := bandOf_add r.toInt
  refine ⟨fun b hb => ?_, fun c hc => ⟨fun hc5 above => ?_, fun hc0 below => ?_, fun above below => ?_⟩⟩
  · have lower := le_bandOf_iff r.toInt hb
    have upper : b < 5 → _ := fun hb5 => bandOf_lt_iff r.toInt hb5
    rw [bandStep_none, ← BitVec.toNat_inj, toNat_ofNat_bandOf, BitVec.toNat_ofNat]
    omega
  · have := bandOf_lt_iff r.toInt hc5
    rw [bandStep_some, if_pos (by omega), bandStep_none]
  · have lower := le_bandOf_iff (r.toInt + 32) hc
    have enclosing := le_bandOf_iff (r.toInt + 32) down
    have upper := bandOf_lt_iff (r.toInt + 32) (k := bandOf (r.toInt + 32)) (by omega)
    rw [bandStep_some, if_neg (by omega), if_pos (by omega), toNat_ofNat_bandOf]
    omega
  · have lower := le_bandOf_iff (r.toInt + 32) hc
    have upper : c.toNat < 5 → _ := fun hc5 => bandOf_lt_iff r.toInt hc5
    rw [bandStep_some, if_neg (by omega), if_neg (by omega)]

/-! ### Request tagging (R649) -/

theorem lfsrStep_ne_zero {x : BitVec 32} (h : x ≠ 0) : lfsrStep x ≠ 0 := by
  unfold lfsrStep
  split
  next =>
    intro zero
    have top := congrArg (·.getLsbD 31) zero
    simp at top
  next even =>
    intro zero
    have half : x.toNat / 2 = 0 := by simpa [Nat.shiftRight_eq_div_pow] using congrArg BitVec.toNat zero
    have low : x.toNat % 2 ≠ 1 := by simpa [BitVec.getLsbD, Nat.testBit_zero] using even
    exact h (BitVec.eq_of_toNat_eq (by simp; omega))

section
variable {s : State} {h : TileId}

theorem State.tagStep_idle (off : s.pmc.tagging = false ∨ s.pmc.heads.getLsbD h = false) : s.tagStep h = (false, 0, s) := by
  refine if_neg ?_
  rw [Bool.and_eq_true]
  rintro ⟨on, head⟩
  obtain off | off := off
  · exact Bool.noConfusion (on.symm.trans off)
  · exact Bool.noConfusion (head.symm.trans off)

/-- A head in HEADS: its LFSR steps whether or not it tags. -/
theorem State.tagStep_steps (on : s.pmc.tagging = true) (head : s.pmc.heads.getLsbD h = true) :
    (s.tagStep h).1 = lfsrTags s.pmc.lfsr[h] s.pmc.log2n.toNat ∧
    (s.tagStep h).2.2.pmc = { s.pmc with lfsr := s.pmc.lfsr.set h (lfsrStep s.pmc.lfsr[h]) } := by
  have runs : (s.pmc.tagging && s.pmc.heads.getLsbD h) = true := Bool.and_eq_true_iff.mpr ⟨on, head⟩
  unfold State.tagStep
  rw [if_pos runs]
  dsimp only
  split
  next tags => exact ⟨tags.symm, rfl⟩
  next quiet => exact ⟨(eq_false_of_ne_true quiet).symm, rfl⟩

end

/-- Settles O28: a head in HEADS steps its LFSR, every other request leaves the state, and a step keeps the LFSR from 0. -/
theorem requestTagging : Obligations.RequestTagging := by
  refine fun s h => ⟨fun on head => ?_, fun off => ?_, fun x => lfsrStep_ne_zero⟩
  · obtain ⟨tags, steps⟩ := State.tagStep_steps on head
    exact ⟨tags ▸ decide_eq_true_iff, steps⟩
  · rw [State.tagStep_idle off]
    exact ⟨rfl, rfl⟩

end Sys2Proof.Machine
end

section
/-! The link layer (R454, R460): sequence numbers, what is sent while credits last, and what an acknowledgement takes
from the replay buffer. -/

namespace Sys2Proof.Machine

/-! ### The ports of the part -/

section Ports
variable {s t : State} (l h : PortId) (f : Link → Link)

theorem State.link_modLink_self : (s.modLink l f).link l = f (s.link l) := by
  cases l with
  | widar t p => exact (congrArg (fun x : Fabric => x.ports[p]) (vmod_self s.fab t _)).trans (vmod_self s.fab[t].ports p f)
  | peer p => exact vmod_self s.mesh.ports p f

theorem State.link_modLink_other (ne : l ≠ h) : (s.modLink l f).link h = s.link h := by
  cases l with
  | widar t p =>
    cases h with
    | widar t' p' =>
      refine (vmod_apply s.fab t t' (fun x => { x with ports := vmod x.ports p f }) fun x => x.ports[p']).trans ?_
      split
      next same =>
        subst same
        exact vmod_other s.fab[t'].ports f fun port => ne (port ▸ rfl)
      next => rfl
    | peer p' => rfl
  | peer p =>
    cases h with
    | widar t' p' => rfl
    | peer p' => exact vmod_other s.mesh.ports f fun port => ne (port ▸ rfl)

/-- What `f` keeps of a link, a change of any port by `f` keeps of every port. -/
theorem State.link_modLink_same {α : Type} (p : Link → α) {f : Link → Link} (hf : ∀ k, p (f k) = p k) :
    p ((s.modLink l f).link h) = p (s.link h) := by
  by_cases here : l = h
  · subst here
    exact (congrArg p (State.link_modLink_self l f)).trans (hf _)
  · exact congrArg p (State.link_modLink_other l h f here)

theorem Keeps.link {gs : List Group} (k : Keeps gs s t) (hf : gs.contains .fab = false) (hm : gs.contains .mesh = false) :
    t.link h = s.link h := by
  have fab : t.fab = s.fab := k .fab hf
  have mesh : t.mesh = s.mesh := k .mesh hm
  unfold State.link
  rw [fab, mesh]

end Ports

/-! ### Sequence numbers (R460) -/

theorem newer_iff (s a : BitVec 10) : newer s a = true ↔ 1 ≤ (s - a).toNat ∧ (s - a).toNat ≤ 512 := decide_eq_true_iff

theorem newer_iff_steps (s a : BitVec 10) : newer s a = true ↔ ∃ d : Nat, 1 ≤ d ∧ d ≤ 512 ∧ s = a + BitVec.ofNat 10 d := by
  rw [newer_iff]
  constructor
  · rintro ⟨one, most⟩
    exact ⟨(s - a).toNat, one, most, by bv_omega⟩
  · rintro ⟨d, one, most, rfl⟩
    bv_omega

theorem newer_both {s a : BitVec 10} (up : newer s a = true) (back : newer a s = true) : s = a + 512 := by
  rw [newer_iff] at up back
  bv_omega

/-! ### Sending (R460) -/

theorem Link.sendOne_no_credit {k : Link} (none : k.flitCredits = 0) : k.sendOne = k := by
  refine if_pos ?_
  simp [none]

/-- A link sends into a replay buffer of at most 255 flits. -/
theorem Link.sendOne_unacked {k : Link} (held : k.unacked.length ≤ 256) : k.sendOne.unacked.length ≤ 256 := by
  unfold Link.sendOne
  split
  next => exact held
  next room =>
    simp only [Bool.or_eq_true, decide_eq_true_eq, not_or, ge_iff_le] at room
    obtain ⟨-, room⟩ := room
    dsimp only
    split
    next => exact held
    next => simp only [List.length_append, List.length_singleton]; omega

section
variable {s : State} {h : PortId}

/-- A flit that starts is no change of the replay buffers. -/
theorem State.startFlit_unacked (m g : PortId) (type : BitVec 2) (seq : BitVec 10) (ms : List Msg) (mms : List MMsg) :
    ((s.startFlit h m type seq ms mms).link g).unacked = (s.link g).unacked := by
  unfold State.startFlit
  extract_lets f
  refine (State.link_modLink_same h g Link.unacked ?_).trans (State.link_modLink_same m g Link.unacked ?_)
  · exact fun _ => rfl
  · exact fun _ => rfl

theorem State.count_link (tile block index n : Nat) (g : PortId) : (s.count tile block index n).link g = s.link g :=
  State.count_changes.keeps.link g rfl rfl

theorem State.sendOne_unacked (held : (s.link h).unacked.length ≤ 256) : ((s.sendOne h).link h).unacked.length ≤ 256 := by
  unfold State.sendOne
  extract_lets k k'
  have room : k'.unacked.length ≤ 256 := Link.sendOne_unacked held
  split
  next u m _ _ =>
    split
    next => exact held
    next =>
      extract_lets sent
      have after : (sent.link h).unacked = k'.unacked :=
        (State.startFlit_unacked ..).trans ((congrArg Link.unacked (State.link_modLink_self h _)).trans rfl)
      have room : (sent.link h).unacked.length ≤ 256 := after ▸ room
      split
      next => rwa [State.count_link]
      next => exact room
  next => exact held

theorem State.sendOne_no_credit (none : (s.link h).flitCredits = 0) : s.sendOne h = s := by
  unfold State.sendOne
  extract_lets k k'
  have idle : k'.flitsSent = k.flitsSent :=
    (congrArg Link.flitsSent (Link.sendOne_no_credit (k := { k with up := (s.membersUp h) ≠ [], retraining := false }) none)).trans rfl
  split
  next => exact if_pos idle
  next => rfl

theorem State.pump_unacked (held : (s.link h).unacked.length ≤ 256) : ((s.pump h).link h).unacked.length ≤ 256 :=
  List.foldlRecOn _ _ (motive := fun u : State => (u.link h).unacked.length ≤ 256) held fun _ held _ _ => State.sendOne_unacked held

theorem State.pump_no_credit (none : (s.link h).flitCredits = 0) : s.pump h = s :=
  List.foldlRecOn _ _ (motive := fun u => u = s) rfl fun _ same _ _ => by
    subst same
    exact State.sendOne_no_credit none

end

/-! ### Acknowledgement (R460) -/

/-- Of a list without repeated keys, what follows the entry with a key. -/
theorem drop_dropWhile_key {α β : Type} [DecidableEq α] (l : List (α × β)) (distinct : (l.map (·.1)).Nodup) (i : Nat)
    (hi : i < l.length) :
    (l.dropWhile fun e => e.1 ≠ l[i].1).drop 1 = l.drop (i + 1) := by
  induction l generalizing i with
  | nil => exact absurd hi (Nat.not_lt_zero i)
  | cons e l ih =>
    obtain ⟨new, distinct⟩ := List.nodup_cons.mp distinct
    cases i with
    | zero => simp
    | succ i =>
      have later : i < l.length := Nat.lt_of_succ_lt_succ hi
      have ne : e.1 ≠ l[i].1 := fun same => new (List.mem_map.mpr ⟨l[i], List.getElem_mem later, same.symm⟩)
      rw [List.getElem_cons_succ, List.dropWhile_cons_of_pos (p := fun e : α × β => decide (e.1 ≠ l[i].1)) (decide_eq_true ne)]
      exact ih distinct i later

theorem Link.takeHeader_unacked {k : Link} {f : Flit} (distinct : (k.unacked.map (·.1)).Nodup) {i : Nat} (hi : i < k.unacked.length)
    (ack : f.ackV = true) (names : f.ackSeq = k.unacked[i].1) (fresh : newer f.ackSeq k.peerAck = true) :
    (k.takeHeader f).unacked = k.unacked.drop (i + 1) := by
  have held : (k.unacked.any fun u => u.1 = f.ackSeq) = true :=
    List.any_eq_true.mpr ⟨k.unacked[i], List.getElem_mem hi, decide_eq_true names.symm⟩
  have takes : (f.ackV && newer f.ackSeq k.peerAck && (k.unacked.any fun u => u.1 = f.ackSeq)) = true := by
    rw [ack, fresh, held]; rfl
  unfold Link.takeHeader
  rw [if_pos takes, names]
  exact drop_dropWhile_key k.unacked distinct i hi

/-- Settles O27: by the step distance of two numbers, what a link may send, and the position of the acknowledged flit. -/
theorem linkSequenceNumbers : Obligations.LinkSequenceNumbers :=
  ⟨newer_iff_steps, fun _ _ => newer_both, fun _ => Link.sendOne_unacked, fun _ => Link.sendOne_no_credit,
    fun _ _ => State.pump_unacked, fun _ _ => State.pump_no_credit,
    fun _ distinct _ _ hi ack names fresh => Link.takeHeader_unacked distinct hi ack names fresh⟩

end Sys2Proof.Machine
end

section
/-! The events of the links of both fabrics (R453, R454, R458 to R466, R485, R498 to R501): what each one leaves. -/

namespace Sys2Proof.Machine

variable {s : State} {l : PortId} {t : TileId} {p : Fin 4} {wire : List Byte}

/-! ### Training and INIT (R464, R501) -/

/-- A port that trains asks for the same number and advertises the same slots as before. -/
theorem State.ownInit_modLink_draw (f : Link → Link) (hf : ∀ k, (f k).expect = k.expect) (key : BitVec 64) :
    (s.modLink l f).draw.2.ownInit l key = s.ownInit l key := by
  have expects : ((s.modLink l f).link (s.linkHome l)).expect = (s.link (s.linkHome l)).expect :=
    State.link_modLink_same l _ Link.expect hf
  cases l with
  | widar t p => exact congrArg (fun e : BitVec 10 => { s.ownInit (.widar t p) key with expectSeq := e.zeroExtend 16 }) expects
  | peer p => exact congrArg (fun e : BitVec 10 => { s.ownInit (.peer p) key with expectSeq := e.zeroExtend 16 }) expects

theorem State.modLink_fv (f : Link → Link) : (s.modLink l f).fv = s.fv := State.modLink_changes.keeps .fv rfl

/-- The INIT that a port sends once its other fields have changed. -/
theorem State.sendInit_modLink (f : Link → Link) (hf : ∀ k, (f k).expect = k.expect) :
    (s.modLink l f).sendInit l = (s.modLink l f).draw.2.modLink l fun k => { k with
      initSent := true, txKey := (s.ownInit l (BitVec.ofNat 64 s.draw.1)).key, txFrame := 0
      sent := initBytes (s.ownInit l (BitVec.ofNat 64 s.draw.1)) } := by
  have key : (s.modLink l f).draw.1 = s.draw.1 := congrArg Config.free (State.modLink_fv f)
  rw [← State.ownInit_modLink_draw f hf, ← key]
  rfl

theorem runs_widarLinkTrained {v w : BitVec 2} (r : BitVec 4) (released : s.boot.released = true) (enabled : s.portEnabled l = true)
    (awake : s.linksSleep = false) (down : (s.link l).up = false) (steady : (s.link l).retraining = false) (hv : v = 1 ∨ v = 2)
    (hw : w = 1 ∨ w = 2) :
    Runs (.widarLinkTrained l v w r) s
      ((s.modLink l fun k => { k with trained := true, speed := v, width := w, repaired := r }).sendInit l) := by
  refine if_neg ?_
  obtain rfl | rfl := hv <;> obtain rfl | rfl := hw <;> simp [released, enabled, awake, down, steady]

/-- A port that can take an INIT. -/
theorem awaitsInit (trained : (s.link l).trained = true) (down : (s.link l).up = false) :
    ¬ (!(s.link l).trained || (s.link l).up) = true := by
  rw [trained, down]
  exact Bool.false_ne_true

/-- The guest's links as they now are (R485). -/
def State.guestCounted (s : State) : State := { s with guest := { s.guest with links := s.guestLinks } }

theorem State.guestCounted_fuses (s : State) : s.guestCounted.fuses = s.fuses := rfl

/-- The port is in service (R464). -/
def State.initTaken (s : State) (t : TileId) (p : Fin 4) (i : InitFlit) : State :=
  ((s.linkUp (.widar t p) i).linkUpEvents (.widar t p) []).guestCounted

theorem State.initTaken_fuses (i : InitFlit) : (s.initTaken t p i).fuses = s.fuses := by
  have up : (s.linkUp (.widar t p) i).fuses = s.fuses := State.linkUp_changes.keeps .fuses rfl
  have events : ((s.linkUp (.widar t p) i).linkUpEvents (.widar t p) []).fuses = (s.linkUp (.widar t p) i).fuses :=
    State.linkUpEvents_changes.keeps .fuses rfl
  exact (State.guestCounted_fuses _).trans (events.trans up)

theorem exec_widarInit {i : InitFlit} (reads : readInit wire = some i) (trained : (s.link (.widar t p)).trained = true)
    (down : (s.link (.widar t p)).up = false) (taken : s.initRefused t p i = false) (agrees : s.initDisagrees t p i = false) :
    Runs (.widarInit t p wire) s
      (if s.fuses.variant = .yd4871g && neighbour s.fuses.variant t.val p.val = some 7
        then (s.initTaken t p i).guestAdmit i else s.initTaken t p i).applyRoutes := by
  change execWidarInit t p wire s = _
  unfold execWidarInit
  extract_lets l k
  rw [reads]
  refine (if_neg (awaitsInit trained down)).trans ?_
  rw [if_neg (not_true_of_eq_false taken), if_neg (not_true_of_eq_false agrees)]
  subst l
  have fuses : (s.initTaken t p i).fuses = s.fuses := State.initTaken_fuses i
  unfold State.initTaken at fuses ⊢
  generalize (s.linkUp (.widar t p) i).linkUpEvents (.widar t p) [] = u at fuses ⊢
  rw [← fuses]
  rfl

theorem runs_widarInit_refused {i : InitFlit} (reads : readInit wire = some i) (trained : (s.link (.widar t p)).trained = true)
    (down : (s.link (.widar t p)).up = false) (refused : s.initRefused t p i = true) :
    Runs (.widarInit t p wire) s (s.raise (mkEv 0x3013 .error t.val (p.val + 1))) := by
  change execWidarInit t p wire s = _
  unfold execWidarInit
  extract_lets l k
  rw [reads]
  exact (if_neg (awaitsInit trained down)).trans (if_pos refused)

theorem runs_widarInit_unread (reads : readInit wire = none) : Runs (.widarInit t p wire) s s := by
  change execWidarInit t p wire s = _
  unfold execWidarInit
  rw [reads]

theorem runs_meshInit_unread (reads : readInit wire = none) : Runs (.meshInit p wire) s s := by
  change execMeshInit p wire s = _
  unfold execMeshInit
  rw [reads]

/-- What a peer port checks of an INIT (R501). -/
theorem State.meshRefused_iff (i : InitFlit) : s.meshRefused p i = true ↔
    i.role ≠ 2 ∨ i.serialCrc = s.serialCrc (peerTile s.fuses.variant p) ∨ i.position.toNat % 64 = s.pkgId ∨ initRangeOk i = false ∨
      i.flags ≠ 0 := by
  unfold State.meshRefused State.initClash State.initLoop
  simp only [Bool.or_eq_true, Bool.and_eq_true, Bool.not_eq_true', decide_eq_true_eq, decide_eq_false_iff_not]
  tauto

theorem exec_meshInit {i : InitFlit} (reads : readInit wire = some i) (trained : (s.link (.peer p)).trained = true)
    (down : (s.link (.peer p)).up = false) :
    Runs (.meshInit p wire) s (if s.meshRefused p i then s.meshRefuse p i else
      let u := s.modLink (.peer p) fun k => { k with peer := i.position.setWidth 6 }
      ((u.linkUp (.peer p) i).linkUpEvents (.peer p) [(1, i.position.toNat % 64)]).startDiscovery) := by
  change execMeshInit p wire s = _
  unfold execMeshInit
  extract_lets l k
  rw [reads]
  refine (if_neg (awaitsInit trained down)).trans ?_
  exact (apply_ite Host.Outcome.next _ _ _).symm

/-! ### Flits (R460 to R462) -/

/-- A port that takes flits. -/
theorem takesFlits (up : (s.link l).up = true) (steady : (s.link l).retraining = false) :
    ¬ (!(s.link l).up || (s.link l).retraining) = true := by
  rw [up, steady]
  exact Bool.false_ne_true

/-- The frame number of the direction that a flit came from has gone on (R466). -/
def State.flitTaken (s : State) (l : PortId) : State := s.modLink l fun k => { k with rxFrame := k.rxFrame + 1 }

/-- The header of a PAYLOAD flit is taken, and its buffer is free (R460, R461). -/
def State.payloadTaken (s : State) (l : PortId) (f : Flit) : State :=
  (s.flitTaken l).modLink (s.linkHome l) fun k => { k.takeHeader f with fcrdDue := k.fcrdDue + 1, nullDue := true }

/-- The flit is the one that the link expects (R460). -/
def State.payloadInOrder (s : State) (l : PortId) (f : Flit) : State :=
  (s.payloadTaken l f).modLink (s.linkHome l) fun k =>
    { k with expect := k.expect + 1, heard := true, ackDue := true, discarding := false, retryTries := 0 }

section Flits
variable (up : (s.link l).up = true) (steady : (s.link l).retraining = false)
include up steady

section Bad
variable (bad : (s.link l).receive l wire = none)
include bad

theorem runs_widarPayloadFlit_bad : Runs (.widarPayloadFlit l wire) s ((s.flitTaken l).badFlit l) := by
  change execWidarPayloadFlit l wire s = _
  unfold execWidarPayloadFlit
  dsimp only
  rw [if_neg (takesFlits up steady), bad]
  rfl

theorem runs_widarNullFlit_bad : Runs (.widarNullFlit l wire) s ((s.flitTaken l).badFlit l) := by
  change execWidarNullFlit l wire s = _
  unfold execWidarNullFlit
  dsimp only
  rw [if_neg (takesFlits up steady), bad]
  rfl

theorem runs_widarRetryReq_bad : Runs (.widarRetryReq l wire) s ((s.flitTaken l).badFlit l) := by
  change execWidarRetryReq l wire s = _
  unfold execWidarRetryReq
  dsimp only
  rw [if_neg (takesFlits up steady), bad]
  rfl

end Bad

section Good
variable {f : Flit} (good : (s.link l).receive l wire = some f)
include good

theorem exec_widarPayloadFlit (payload : f.type = 1) :
    execWidarPayloadFlit l wire s =
      if f.seq ≠ ((s.payloadTaken l f).link (s.linkHome l)).expect then .next ((s.payloadTaken l f).sendReturns (s.linkHome l))
      else match l with
        | .widar t p => .next ((((s.payloadInOrder l f).count t 9 1).msgsIn t p 0 f.msgs).sendReturns (s.linkHome l))
        | .peer p => .next ((((s.payloadInOrder l f).ungatePkg p.val).mmsgsIn p 0 f.mmsgs).sendReturns (s.linkHome l)) := by
  unfold execWidarPayloadFlit
  dsimp only
  rw [if_neg (takesFlits up steady), good]
  refine (if_neg (not_not.mpr payload)).trans ?_
  cases l <;> rfl

theorem runs_widarNullFlit (null : f.type = 0) :
    Runs (.widarNullFlit l wire) s (((s.flitTaken l).modLink (s.linkHome l) fun k => k.takeHeader f).pump (s.linkHome l)) := by
  change execWidarNullFlit l wire s = _
  unfold execWidarNullFlit
  dsimp only
  rw [if_neg (takesFlits up steady), good]
  exact if_neg (not_not.mpr null)

end Good
end Flits

/-- A RETRY_REQ at a peer port: it names a flit that is held, or is malformed (R462). -/
theorem exec_widarRetryReq_peer {f : Flit} (up : (s.link (.peer p)).up = true) (steady : (s.link (.peer p)).retraining = false)
    (good : (s.link (.peer p)).receive (.peer p) wire = some f) (retry : f.type = 2) :
    let h := s.linkHome (.peer p)
    let u := (s.flitTaken (.peer p)).modLink h fun k => k.takeHeader f
    let again := (u.link h).unacked.dropWhile fun x => x.1 ≠ f.seq
    Runs (.widarRetryReq (.peer p) wire) s (
      if !((u.link h).unacked.any fun x => x.1 = f.seq) then u.modLink (.peer p) fun k => { k with flags := bitOn k.flags 1 }
      else ((((u.modLink (.peer p) fun k => { k with replays := satAdd k.replays 1, roundReplays := k.roundReplays + 1 }).modLink h
        fun k => { k with flitCredits := k.flitCredits - again.length }).replay h again).pump h)) := by
  intro h u again
  change execWidarRetryReq (.peer p) wire s = _
  unfold execWidarRetryReq
  dsimp only
  rw [if_neg (takesFlits up steady), good]
  refine (if_neg (not_not.mpr retry)).trans ?_
  exact (apply_ite Host.Outcome.next _ _ _).symm

/-! ### Timers, retrain and loss (R458, R462, R463, R466, R485) -/

section Timers
variable (up : (s.link l).up = true) (steady : (s.link l).retraining = false)
include up steady

theorem exec_retryReqResendTimer (discards : (s.link (s.linkHome l)).discarding = true) :
    Runs (.retryReqResendTimer l) s (if (s.link (s.linkHome l)).retryTries ≥ 4
      then (s.modLink (s.linkHome l) fun k => { k with retryTries := 0 }).retrain l else s.sendRetry (s.linkHome l)) := by
  refine (if_neg ?_).trans ?_
  · rw [up, steady, discards]
    exact Bool.false_ne_true
  · split <;> rfl

theorem State.rxTimeout_inService : s.rxTimeout l = (s.modLink l fun k => { k with flags := bitOn k.flags 5 }).retrain l :=
  if_neg (takesFlits up steady)

end Timers

theorem runs_widarTxIdleTimer_peer (up : (s.link (.peer p)).up = true) (steady : (s.link (.peer p)).retraining = false) :
    Runs (.widarTxIdleTimer (.peer p)) s (s.startFlit (s.linkHome (.peer p)) (.peer p) 0 0) :=
  if_neg (takesFlits up steady)

theorem runs_widarTxIdleTimer_widar (up : (s.link (.widar t p)).up = true) (steady : (s.link (.widar t p)).retraining = false) :
    Runs (.widarTxIdleTimer (.widar t p)) s ((s.startFlit (s.linkHome (.widar t p)) (.widar t p) 0 0).count t 9 2) :=
  if_neg (takesFlits up steady)

theorem runs_frameNumberExhausted_widar (up : (s.link (.widar t p)).up = true) (steady : (s.link (.widar t p)).retraining = false) :
    Runs (.frameNumberExhausted (.widar t p)) s (((s.modLink (.widar t p) fun k =>
      { k with flags := bitOn k.flags 4 }).retrain (.widar t p)).raise (mkEv 0x3060 .warn t.val (p.val + 1))) :=
  if_neg (takesFlits up steady)

section Retrain
variable (retrains : (s.link l).retraining = true)
include retrains

/-- A retrain without an INIT of the peer. -/
theorem runs_widarRetrainDone_unread {ok : Bool} (unread : (if ok then readInit wire else none) = none) :
    Runs (.widarRetrainDone l ok wire) s (s.linkOut l) := by
  change execWidarRetrainDone l ok wire s = _
  unfold execWidarRetrainDone
  rw [if_neg (not_refused retrains), unread]

theorem exec_widarRetrainDone {i : InitFlit} (reads : readInit wire = some i) :
    Runs (.widarRetrainDone l true wire) s (if s.retrainRefused l i then s.refuseRetrain l i
      else if ((s.retrained l i).link l).recent.length > 3 then (s.retrained l i).linkOut l
      else (s.retrained l i).resumeLink ((s.retrained l i).linkHome l) i.flitBuf.toNat (i.expectSeq.setWidth 10)) := by
  change execWidarRetrainDone l true wire s = _
  unfold execWidarRetrainDone
  rw [if_neg (not_refused retrains), if_pos rfl, reads]
  dsimp only
  split
  next => rfl
  next => split <;> rfl

end Retrain

/-- New routes alone leave every link as it is. -/
theorem State.linkOk_newRoutes (q : Fin 4) (route : Vector (BitVec 3) 8) (alt : BitVec 8) :
    (s.modFab t fun x => { x with route := route, alt := alt }).linkOk t q = s.linkOk t q := by
  unfold State.linkOk
  simp only [Fin.getElem_fin, State.modFab_self]
  rfl

/-- A route update with every link of the tile in service and the position within reach (R458). -/
theorem runs_routeUpdate {q : BitVec 3} (served : s.inSvc t = true) (reached : (s.routeTo t q.toNat).1 ≠ 7)
    (alive : s.fab[t].dead.getLsbD q.toNat = false) (links : ∀ p : Fin 4, s.linkOk t p = true) :
    Runs (.routeUpdate t q) s (s.modFab t fun x => { x with
      route := Vector.ofFn fun (d : Fin 8) => (s.routeTo t d.val).1
      alt := (List.range 8).foldl (fun m d => bitSet m d (s.routeTo t d).2) 0 }) := by
  change execRouteUpdate t q s = _
  unfold execRouteUpdate
  rw [if_neg (not_refused served)]
  extract_lets gone hit u v down
  have none : hit = [] := if_neg (by simp only [gone, reached, alive]; decide)
  have same : v = u := by simp only [v, none]; rfl
  have noneDown : down = [] := List.filter_eq_nil_iff.mpr fun q _ lost => by
    rw [same, State.linkOk_newRoutes, links q] at lost
    simp at lost
  rw [noneDown, same]
  rfl

theorem runs_guestHeartbeatTimeout (admitted : s.guest.admitted = true) (lost : 3 ≤ s.guest.missed.toNat ∨ s.guestLinks = 0) :
    Runs .guestHeartbeatTimeout s s.guestLost := by
  refine if_pos ?_
  rw [admitted, Bool.true_and, Bool.or_eq_true, decide_eq_true_eq, decide_eq_true_eq]
  exact lost

end Sys2Proof.Machine
end

section
/-! The links of both fabrics (R454, R457 to R466, R485, R487, R498 to R501, R504, R527, R528): every clause by its event's rule. -/

namespace Sys2Proof.Machine

/-- Settles O57, one rule of an event for each clause. -/
theorem linkEventsComplete : Obligations.LinkEventsComplete := by
  intro s l wire
  refine ⟨?trained, ?taken, ?refused, ?unread, ?mesh, ?bad, ?widarPayload, ?peerPayload, ?null, ?retry, ?resend, ?gaveUp, ?idlePeer,
    ?idleWidar, ?peerTimeout, ?retrained, ?train, ?frames, ?routes, ?guest⟩
  case trained =>
    intro v w r released enabled awake down steady hv hw
    exact (runs_widarLinkTrained r released enabled awake down steady hv hw).trans
      (congrArg Host.Outcome.next (State.sendInit_modLink _ fun _ => rfl))
  case taken =>
    intro t p i reads trained down taken agrees
    have run := exec_widarInit reads trained down taken agrees
    refine ⟨fun other => ?_, fun variant guest => ?_⟩
    · rwa [if_neg (by simp [other])] at run
    · rwa [if_pos (by simp [variant, ← guest])] at run
  case refused => exact fun t p i reads trained down refused => runs_widarInit_refused reads trained down refused
  case unread => exact fun unread => ⟨fun _ _ => runs_widarInit_unread unread, fun _ => runs_meshInit_unread unread⟩
  case mesh =>
    intro p i reads trained down
    have run := exec_meshInit reads trained down
    refine ⟨fun role serial package range flags => ?_, fun refused => ?_⟩
    · rwa [if_neg fun refused => by simp [State.meshRefused_iff, role, serial, package, range, flags] at refused] at run
    · rwa [if_pos ((State.meshRefused_iff i).mpr refused)] at run
  case bad =>
    exact fun up steady bad =>
      ⟨runs_widarPayloadFlit_bad up steady bad, runs_widarNullFlit_bad up steady bad, runs_widarRetryReq_bad up steady bad⟩
  case widarPayload =>
    intro t p f up steady good payload
    have run := exec_widarPayloadFlit up steady good payload
    exact ⟨fun other => run.trans (if_pos other), fun expected => run.trans (if_neg (not_not.mpr expected))⟩
  case peerPayload =>
    intro p f up steady good payload h u expected
    exact (exec_widarPayloadFlit up steady good payload).trans (if_neg (not_not.mpr expected))
  case null => exact fun f up steady good null => runs_widarNullFlit up steady good null
  case retry =>
    intro p f up steady good retry
    have run := exec_widarRetryReq_peer up steady good retry
    refine ⟨fun lost => ?_, fun held => ?_⟩
    · exact run.trans (congrArg _ (if_pos (congrArg not lost)))
    · exact run.trans (congrArg _ (if_neg (not_refused held)))
  case resend =>
    intro up steady discards tries
    have run := exec_retryReqResendTimer up steady discards
    rwa [if_neg (Nat.not_le_of_lt tries)] at run
  case gaveUp =>
    intro up steady discards tries
    have run := exec_retryReqResendTimer up steady discards
    rwa [if_pos tries] at run
  case idlePeer => exact fun p up steady => runs_widarTxIdleTimer_peer up steady
  case idleWidar =>
    exact fun t p up steady =>
      ⟨runs_widarTxIdleTimer_widar up steady, congrArg Host.Outcome.next (State.rxTimeout_inService up steady)⟩
  case peerTimeout => exact fun p up steady => congrArg Host.Outcome.next (State.rxTimeout_inService up steady)
  case retrained =>
    intro retrains
    refine ⟨runs_widarRetrainDone_unread retrains rfl, fun unread => runs_widarRetrainDone_unread retrains unread,
      fun i reads refused => ?_, fun i reads taken => ⟨fun often => ?_, fun seldom => ?_⟩⟩
    all_goals have run := exec_widarRetrainDone retrains reads
    · rwa [if_pos refused] at run
    · rwa [if_neg (not_true_of_eq_false taken), if_pos often] at run
    · rwa [if_neg (not_true_of_eq_false taken), if_neg (Nat.not_lt_of_le seldom)] at run
  case train => exact fun out down => if_pos ⟨out, by rw [down]; rfl⟩
  case frames => exact fun t p up steady => runs_frameNumberExhausted_widar up steady
  case routes => exact fun t q served reached alive links => runs_routeUpdate served reached alive links
  case guest => exact fun admitted lost => runs_guestHeartbeatTimeout admitted lost

end Sys2Proof.Machine
end

section
/-! Departure messages (R507, R520): what an MBYE that names no departure does. -/

namespace Sys2Proof.Machine

variable {s u : State} {p : Fin 4} {m : MMsg}

/-- An MBYE whose AUX names no departure of R507 changes nothing beyond its arrival. -/
theorem runs_mbye_undefined (arrives : s.meshArrive p m = (true, u)) (none : m.aux = 0) : Runs (.mbye p m) s u := by
  change execMbye p m s = _
  unfold execMbye
  rw [arrives, none]
  exact ite_self _

/-- An MBYE with AUX 0, and the pair in sync that hears it. -/
def mbyeWithoutReason : MMsg := Tests.mMsg 0x29 0 0 0
def hearsMbye : State := (Tests.paired.meshArrive 0 mbyeWithoutReason).2

theorem arrives_mbyeWithoutReason : Tests.paired.meshArrive 0 mbyeWithoutReason = (true, hearsMbye) := rfl

/-- Refutes O59: an MBYE with AUX 0 from the peer of a pair in sync declares nothing, though its AUX is neither 2 nor 5. -/
theorem not_meshMessagesComplete : ¬ Obligations.MeshMessagesComplete := by
  intro complete
  have stays : Runs (.mbye 0 mbyeWithoutReason) Tests.paired hearsMbye := runs_mbye_undefined arrives_mbyeWithoutReason rfl
  obtain ⟨-, -, -, -, -, -, -, -, -, -, -, departs, -⟩ := complete Tests.paired 0 mbyeWithoutReason hearsMbye arrives_mbyeWithoutReason
  have same : hearsMbye = hearsMbye.peerDead 1 :=
    Host.Outcome.next.inj (stays.symm.trans (departs rfl rfl (by decide) (by decide) rfl))
  have alive : hearsMbye.mesh.peerDead = false := by decide +kernel
  have declared : (hearsMbye.peerDead 1).mesh.peerDead = true := by decide +kernel
  rw [← same, alive] at declared
  exact Bool.false_ne_true declared

end Sys2Proof.Machine
end

section
/-! Discovery, the mesh timers and the resync walk (R504, R509, R517, R518, R520, R524). -/

namespace Sys2Proof.Machine

variable {s : State} {p : Fin 4} {m : MMsg}

/-! ### What sending on a port leaves of the mesh -/

/-- The mesh state beside the links of the peer ports. -/
def Mesh.besidePorts (x : Mesh) : Mesh := { x with ports := Vector.replicate 4 {} }

theorem State.modLink_besidePorts (l : PortId) (f : Link → Link) (s : State) :
    (s.modLink l f).mesh.besidePorts = s.mesh.besidePorts := by
  cases l <;> rfl

theorem State.startFlit_besidePorts (h m : PortId) (type : BitVec 2) (seq : BitVec 10) (ms : List Msg) (mms : List MMsg) (s : State) :
    (s.startFlit h m type seq ms mms).mesh.besidePorts = s.mesh.besidePorts :=
  (State.modLink_besidePorts h _ _).trans (State.modLink_besidePorts m _ s)

theorem State.count_mesh (tile block index n : Nat) (s : State) : (s.count tile block index n).mesh = s.mesh :=
  State.count_changes.keeps .mesh rfl

theorem State.sendOne_besidePorts (h : PortId) (s : State) : (s.sendOne h).mesh.besidePorts = s.mesh.besidePorts := by
  unfold State.sendOne
  extract_lets k k'
  split
  next =>
    split
    next => rfl
    next =>
      extract_lets sent
      have started : sent.mesh.besidePorts = s.mesh.besidePorts :=
        (State.startFlit_besidePorts ..).trans (State.modLink_besidePorts h _ s)
      split
      next => rw [State.count_mesh, started]
      next => exact started
  next => rfl

theorem State.pump_besidePorts (h : PortId) (s : State) : (s.pump h).mesh.besidePorts = s.mesh.besidePorts :=
  forAll_same (fun u => u.mesh.besidePorts) (fun _ u => State.sendOne_besidePorts h u) s

theorem State.peerPut_besidePorts (p : Fin 4) (m : MMsg) (s : State) : (s.peerPut p m).mesh.besidePorts = s.mesh.besidePorts := by
  have awake : (s.ungatePkg p.val).mesh = s.mesh := State.ungatePkg_changes.keeps .mesh rfl
  unfold State.peerPut
  rw [State.pump_besidePorts, State.modLink_besidePorts, awake]

/-- A message put into several peer ports. -/
theorem forAll_peerPut_besidePorts (ps : List (Fin 4)) (m : MMsg) (s : State) :
    (forAll ps (fun p s => s.peerPut p m) s).mesh.besidePorts = s.mesh.besidePorts :=
  forAll_same (fun u => u.mesh.besidePorts) (fun p u => State.peerPut_besidePorts p m u) s

/-- A discovery of this package's own keeps what it knows of the others' (R504). -/
theorem State.startDiscovery_keeps : s.startDiscovery.mesh.epochs = s.mesh.epochs ∧
    (s.mesh.discovering = true → s.startDiscovery.mesh.discovering = true) := by
  unfold State.startDiscovery
  split
  next => exact ⟨rfl, id⟩
  next =>
    extract_lets e old u serial hello
    have beside := forAll_peerPut_besidePorts (([0, 1, 2, 3] : List (Fin 4)).filter u.peerUp) hello u
    have epochs := congrArg Mesh.epochs beside
    have discovering := congrArg Mesh.discovering beside
    exact ⟨epochs, fun _ => discovering⟩

/-! ### HELLO and the end of a discovery (R503, R504) -/

section Hello
variable (talks : (s.meshTake p m).meshTalks = true)
include talks

theorem runs_hello_conflict (own : m.src.toNat = (s.meshTake p m).pkgId)
    (other : m.addr.toNat % 2 ^ 32 ≠ (crc32c (leBytes 8 (s.meshTake p m).fuses.serials[(s.meshTake p m).lead].toNat)).toNat)
    (clear : (s.meshTake p m).mesh.conflict = false) :
    Runs (.hello p m) s ({ s.meshTake p m with mesh := { (s.meshTake p m).mesh with conflict := true } }.raise
      (mkEv 0x4021 .error 15 (p.val + 1))) := by
  refine (if_neg (not_refused talks)).trans ((if_pos own).trans (if_neg ?_))
  rintro (same | conflict)
  · exact other same
  · exact Bool.noConfusion (clear.symm.trans conflict)

/-- The first HELLO of another package, while a discovery runs. -/
theorem runs_hello_first (other : m.src.toNat ≠ (s.meshTake p m).pkgId) (unknown : (s.meshTake p m).mesh.epochs = []) :
    ∃ u, Runs (.hello p m) s u ∧ u.mesh.epochs = [(m.src.toNat, m.aux)] ∧ u.mesh.discovering = true := by
  change ∃ u, execHello p m s = .next u ∧ _
  unfold execHello
  extract_lets +onlyGivenNames u
  rw [if_neg (not_refused talks), if_neg other]
  extract_lets +onlyGivenNames o who old1 u1 d old stale
  have first : old = none := by
    have none : u1.mesh.epochs = [] := unknown
    simp only [old, none]
    rfl
  have fresh : stale = false := by simp only [stale, first]
  rw [if_neg (not_true_of_eq_false fresh)]
  extract_lets +onlyGivenNames isNew dist best old2 u2 u3
  have noted : u2.mesh.epochs = [(o, m.aux)] := by
    have none : u1.mesh.epochs = [] := unknown
    simp only [u2, none]
    rfl
  have flooded : u3.mesh.besidePorts = u2.mesh.besidePorts := by
    simp only [u3]
    split
    next => exact forAll_peerPut_besidePorts ..
    next => rfl
  have known : u3.mesh.epochs = [(o, m.aux)] := (congrArg Mesh.epochs flooded).trans noted
  have runs : u3.mesh.discovering = true := congrArg Mesh.discovering flooded
  refine ⟨_, rfl, ?_⟩
  split
  next =>
    obtain ⟨epochs, discovering⟩ := State.startDiscovery_keeps (s := u3)
    exact ⟨epochs.trans known, discovering runs⟩
  next => exact ⟨known, runs⟩

end Hello

theorem runs_discoveryEnd (runs : s.mesh.discovering = true) :
    ∃ u : State, Runs .discoveryEnd s u.sendHeld.holdMwrs ∧ u.mesh.discovering = false := by
  change ∃ u : State, execDiscoveryEnd s = .next u.sendHeld.holdMwrs ∧ _
  unfold execDiscoveryEnd
  rw [if_neg (not_refused runs)]
  exact ⟨_, rfl, congrArg Mesh.discovering (State.raise_changes.keeps .mesh rfl)⟩

/-! ### Timers (R509, R517, R520, R524) -/

section Paired
variable (paired : s.mesh.paired = true)
include paired

/-- A period without a message from the peer is counted; the heartbeats that leave do not touch the count. -/
theorem runs_meshHeartbeatTimer (talks : s.meshTalks = true) (clear : s.mesh.conflict = false) (routed : s.mesh.dropTable = false) :
    ∃ u, Runs .meshHeartbeatTimer s u ∧ u.mesh.missed = if 50 ≤ s.mesh.silentUs then satAdd s.mesh.missed 1 else s.mesh.missed := by
  change ∃ u, execMeshHeartbeatTimer s = .next u ∧ _
  unfold execMeshHeartbeatTimer
  rw [if_neg (by rw [paired, talks, clear, routed]; decide)]
  extract_lets +onlyGivenNames m first u
  have beside : u.mesh.besidePorts = s.mesh.besidePorts := forAll_peerPut_besidePorts ..
  have silent : u.mesh.silentUs = s.mesh.silentUs := by have := congrArg Mesh.silentUs beside; exact this
  have missed : u.mesh.missed = s.mesh.missed := by have := congrArg Mesh.missed beside; exact this
  refine ⟨_, rfl, ?_⟩
  rw [← silent, ← missed]
  split <;> rfl

theorem exec_peerSilenceCheck (contact : s.mesh.contact = true) :
    Runs .peerSilenceCheck s (
      let u : State := { s with mesh := { s.mesh with silentUs := s.mesh.silentUs + 10 } }
      if 250 ≤ s.mesh.silentUs + 10 ∧ s.sys.state.isServing = true then u.peerDead 0 else u) := by
  refine (if_neg (by rw [paired, contact]; decide)).trans ?_
  exact (apply_ite Host.Outcome.next _ _ _).symm

theorem runs_pairContactTimeout (absent : s.mesh.contact = false) (serves : s.sys.state.isServing = true) :
    Runs .pairContactTimeout s
      { s.peerDead 2 false with mesh := { (s.peerDead 2 false).mesh with heldRegions := 0 } } :=
  if_pos ⟨paired, by rw [absent]; rfl, serves⟩

end Paired

theorem runs_meshForwardExpiry_waiting (waits : s.mesh.ports[p].mwaiting.contains m = true) (passes : m.src.toNat ≠ s.pkgId) :
    Runs (.meshForwardExpiry p m) s
      ((s.modLink (.peer p) fun k => { k with mwaiting := k.mwaiting.erase m }).meshForward { m with hops := 0 }) :=
  if_pos ⟨waits, passes⟩

/-! ### The resync walk (R518) -/

section Walk
variable {t : TileId} {w : Walk} (walks : (s.mesh.walks.find? fun w => w.tile = t && w.phase = 0) = some w)
include walks

/-- No line is left to walk. -/
theorem runs_resyncWalkStep_end (none : s.svc.extents = []) : Runs (.resyncWalkStep t) s (s.walkBarrier t true) := by
  change execResyncWalkStep t s = _
  unfold execResyncWalkStep
  rw [walks]
  have primary : s.primaryExtents = [] := by
    unfold State.primaryExtents
    rw [none]
    rfl
  dsimp only
  rw [primary]
  rfl

/-- The next line goes out as an RWR, between two barriers. -/
theorem runs_resyncWalkStep_line {n : Nat} (between : w.since + 1 < 256)
    (next : ((sortBy (fun (a b : Extent) => decide (a.base ≤ b.base)) s.primaryExtents).findSome? fun e =>
      ((List.range (32768 * e.blocks)).map (· + 32768 * e.base)).find? fun n => decide (n ≥ w.next) && s.walks t n) = some n) :
    let r := s.newest n
    let g := r.2.2.meshTag
    let u : State := { g.2 with mesh := { g.2.mesh with rwrs := g.2.mesh.rwrs ++ [(g.1, t, n)] } }
    let v := ((u.meshSend { opcode := 0x23, dslots := 4, poison := r.2.1, tag := g.1, dst := u.mesh.peer,
                            addr := BitVec.ofNat 44 (64 * n), data := lineBytes r.1 }).2).count 15 10 2
    let x := v.modWalk t fun w => { w with next := n + 1, since := w.since + 1 }
    ∃ q : BitVec 7, Runs (.resyncWalkStep t) s { x with mesh := { x.mesh with resyncPercent := q } } := by
  intro r g u v x
  change ∃ q : BitVec 7, execResyncWalkStep t s = .next { x with mesh := { x.mesh with resyncPercent := q } }
  unfold execResyncWalkStep
  rw [walks]
  dsimp only
  rw [next]
  exact ⟨_, congrArg Host.Outcome.next (if_neg (Nat.not_le_of_lt between))⟩

end Walk

/-- Settles O60, one rule of an event for each clause. -/
theorem meshTimersComplete : Obligations.MeshTimersComplete := by
  refine fun s => ⟨?conflict, ?first, runs_discoveryEnd, ?heartbeat, ?silence, ?dead, ?expiry, ?hold, ?absent, ?last, ?walk⟩
  case conflict => exact fun p m talks own other clear => runs_hello_conflict talks own other clear
  case first => exact fun p m talks other unknown _ => runs_hello_first talks other unknown
  case heartbeat => exact fun paired talks clear routed => runs_meshHeartbeatTimer paired talks clear routed
  case silence =>
    intro paired contact recent
    have run := exec_peerSilenceCheck paired contact
    rwa [if_neg fun long => Nat.not_le_of_lt recent long.1] at run
  case dead =>
    intro paired contact long serves
    have run := exec_peerSilenceCheck paired contact
    rwa [if_pos ⟨long, serves⟩] at run
  case expiry => exact fun p m waits passes => runs_meshForwardExpiry_waiting waits passes
  case hold => exact fun n held => if_pos held
  case absent => exact fun paired absent serves => runs_pairContactTimeout paired absent serves
  case last => exact fun t w walks none => runs_resyncWalkStep_end walks none
  case walk => exact fun t w n walks between next => runs_resyncWalkStep_line walks between next

end Sys2Proof.Machine
end

section
/-! The media rails (R541, R544 to R548, R550, R704): what each event of a rail leaves. -/

namespace Sys2Proof.Machine

variable {s : State}

/-! ### A rail that becomes good, or does not (R541, R544 to R547) -/

/-- SEQ_PG of an enabled rail has risen. -/
def State.railGood (s : State) (q : Nat) : State :=
  { s with seq := { s.seq with pg := bitOn s.seq.pg q, ignored := bitOff s.seq.ignored q } }

section Ramp
variable {q : Fin 16} (enabled : s.seq.en.getLsbD q = true) (down : s.seq.pg.getLsbD q = false)
include enabled down

/-- The rail shows SEQ_PG; a media rail enables those that wait for it. -/
theorem exec_railPowerGood : Runs (.railPowerGood q) s (
    if q.val < 3 then { s.railGood q with seq := { (s.railGood q).seq with en := bitOn s.seq.en (q.val + 1) } }
    else if q.val = 3 then s.railGood q
    else if s.seq.retryRail = some q.val then
      let u := (s.railGood q).enableRails.stillRaising
      { u with seq := { u.seq with retryRail := none } }.raise (mkEv 0x5012 .info 15 0 [(1, q.val)])
    else (s.railGood q).enableRails.stillRaising) := by
  have waits : ¬ ((!s.seq.en.getLsbD q) = true ∨ s.seq.pg.getLsbD q = true) := by
    rw [enabled, down]
    decide
  refine (if_neg waits).trans ?_
  rw [apply_ite Host.Outcome.next, apply_ite Host.Outcome.next, apply_ite Host.Outcome.next]
  rfl

/-- A media rail that does not come up at its first attempt holds its group off. -/
theorem runs_railRampTimeout_holdsOff (media : 4 ≤ q.val) (minded : s.seq.ignored.getLsbD q = false) (noFlush : s.flush = none)
    (noRetry : s.seq.retryRail = none) :
    Runs (.railRampTimeout q) s ((({ s with seq := { s.seq with
      en := bitOff s.seq.en q, fault := bitOn s.seq.fault q, lastRail := BitVec.ofNat 4 q } }.raise
        (mkEv 0x5010 .error 15 0 [(1, q)])).railRecord q 0 (recRailReact s.cfg.record q)).holdGroupOff q) := by
  change execRailRampTimeout q s = _
  unfold execRailRampTimeout
  extract_lets +onlyGivenNames n old u v
  have waits : ¬ (n < 4 ∨ (!s.seq.en.getLsbD n) = true ∨ s.seq.pg.getLsbD n = true ∨ s.seq.ignored.getLsbD n = true ∨
      s.flush.isSome = true) := by
    rw [show s.seq.en.getLsbD n = true from enabled, show s.seq.pg.getLsbD n = false from down,
      show s.seq.ignored.getLsbD n = false from minded, noFlush]
    simpa using media
  have once : v.seq.retryRail ≠ some n := by
    have same : v.seq = u.seq := (State.railRecord_changes.keeps .seq rfl).trans (State.raise_changes.keeps .seq rfl)
    have none : u.seq.retryRail = none := noRetry
    rw [same, none]
    exact Option.some_ne_none _ ∘ Eq.symm
  exact (if_neg waits).trans (if_neg once)

end Ramp

/-! ### Running faults (R541, R547, R704) -/

section Fault
variable {q : Fin 16} (enabled : s.seq.en.getLsbD q = true) (good : s.seq.pg.getLsbD q = true)
include enabled good

theorem exec_railRunningFault : Runs (.railRunningFault q) s
    (if !s.boot.released then { s.fixedOff with seq := { s.fixedOff.seq with fixedWait := true } } else s.railFault q) := by
  have runs : ¬ ((!s.seq.en.getLsbD q) = true ∨ (!s.seq.pg.getLsbD q) = true) := by
    rw [enabled, good]
    decide
  exact (if_neg runs).trans (apply_ite Host.Outcome.next _ _ _).symm

end Fault

theorem runs_pmbAlert (released : s.boot.released = true) (enabled : s.seq.en.getLsbD 0 = true) : Runs .pmbAlert s (s.railFault 0) := by
  refine if_neg ?_
  rw [released, enabled]
  decide

/-! ### Retry and lowering (R544, R547) -/

theorem runs_railRetryTimer {q : Nat} (retries : s.seq.retryRail = some q) (off : s.seq.en.getLsbD q = false) (left : s.seq.retries ≠ 3)
    (noFlush : s.flush = none) :
    Runs .railRetryTimer s { s with seq := { s.seq with
      retries := s.seq.retries + 1, wanted := s.seq.wanted ||| groupMask s.cfg.record q, raising := true } }.enableRails := by
  change execRailRetryTimer s = _
  unfold execRailRetryTimer
  rw [retries]
  refine if_neg ?_
  rw [off, noFlush, decide_eq_false left]
  decide

/-- Outside a flush the fixed rails stay. -/
theorem runs_mediaRailLowerStep (lowers : s.seq.lowering = true) (noFlush : s.flush = none) :
    Runs .mediaRailLowerStep s { s with seq := { s.seq with
      en := s.seq.en &&& ~~~railMask s.lowerNow, pg := s.seq.pg &&& ~~~railMask s.lowerNow
      ignored := s.seq.ignored &&& ~~~railMask s.lowerNow
      lowering := s.toLower.any fun q => !s.lowerNow.contains q } } := by
  change execMediaRailLowerStep s = _
  unfold execMediaRailLowerStep
  refine (if_neg (not_refused lowers)).trans ?_
  refine congrArg Host.Outcome.next (if_neg ?_)
  simp [noFlush]

/-- Settles O34, one rule of an event for each clause. -/
theorem railEventsComplete : Obligations.RailEventsComplete := by
  refine fun s => ⟨?fixed, ?media, ?ramp, ?fault, ?early, runs_pmbAlert, ?retry, runs_mediaRailLowerStep⟩
  case fixed =>
    intro q fixed enabled down
    have run := exec_railPowerGood enabled down
    rw [if_pos fixed] at run
    exact run
  case media =>
    intro q media enabled down noRetry
    have run := exec_railPowerGood enabled down
    rw [if_neg (Nat.not_lt_of_le (Nat.le_of_succ_le media)), if_neg (Nat.ne_of_gt media), if_neg noRetry] at run
    exact run
  case ramp =>
    exact fun q media enabled down minded noFlush noRetry =>
      ⟨_, runs_railRampTimeout_holdsOff enabled down media minded noFlush noRetry, rfl⟩
  case fault =>
    intro q released enabled good
    have run := exec_railRunningFault enabled good
    rwa [if_neg (not_refused released)] at run
  case early =>
    intro q unreleased enabled good
    exact (exec_railRunningFault enabled good).trans (congrArg Host.Outcome.next (if_pos (congrArg not unreleased)))
  case retry => exact fun q retries off left noFlush => runs_railRetryTimer retries off left noFlush

end Sys2Proof.Machine
end

section
/-! Performance levels, sleep and clocks (R564, R565, R567, R568, R570, R572, R592, R594 to R596, R607): what each event leaves. -/

namespace Sys2Proof.Machine

variable {s : State}

/-! ### Performance levels (R564, R565) -/

/-- No level changes in a sleep state, in a transition or after a trip, nor to the level in effect. -/
theorem changesLevel (still : s.pwr.changing = false) (awake : s.pwr.sleep = 0) (settled : s.pwr.transition = 0) (cool : s.thm.trip = false)
    (other : s.wantedLevel ≠ s.pwr.effective) :
    ¬ (s.pwr.changing || s.wantedLevel = s.pwr.effective || s.pwr.sleep ≠ 0 || s.pwr.transition ≠ 0 || s.thm.trip) = true := by
  simp [still, awake, settled, cool, other]

/-- Towards a lower number VCORE rises first. -/
theorem runs_plevelChange_raises (still : s.pwr.changing = false) (awake : s.pwr.sleep = 0) (settled : s.pwr.transition = 0)
    (cool : s.thm.trip = false) (faster : s.wantedLevel.toNat < s.pwr.effective.toNat) :
    Runs .plevelChange s { s with pwr := { s.pwr with
      changing := true, target := s.wantedLevel, vcoreMv := vcoreOf s.wantedLevel } } := by
  have other : s.wantedLevel ≠ s.pwr.effective := fun same => Nat.ne_of_lt faster (congrArg BitVec.toNat same)
  exact (if_neg (changesLevel still awake settled cool other)).trans (if_pos faster)

/-- Towards a higher number the change is complete at once. -/
theorem runs_plevelChange_lowers (still : s.pwr.changing = false) (awake : s.pwr.sleep = 0) (settled : s.pwr.transition = 0)
    (cool : s.thm.trip = false) (slower : s.pwr.effective.toNat < s.wantedLevel.toNat) :
    Runs .plevelChange s ({ s with pwr := { s.pwr.setLevel s.wantedLevel with vcoreMv := vcoreOf s.wantedLevel } }.raise
      (mkEv 0x5040 .info 15 0)) := by
  have other : s.wantedLevel ≠ s.pwr.effective := fun same => Nat.ne_of_gt slower (congrArg BitVec.toNat same)
  exact (if_neg (changesLevel still awake settled cool other)).trans (if_neg (Nat.lt_asymm slower))

theorem State.raise_pwr (s : State) (e : EventRec) : (s.raise e).pwr = s.pwr := State.raise_changes.keeps .pwr rfl

theorem runs_plevelVcoreSettled (rises : s.pwr.changing = true) (good : s.seq.pg.getLsbD 0 = true) :
    Runs .plevelVcoreSettled s ({ s with pwr := s.pwr.setLevel s.pwr.target }.raise (mkEv 0x5040 .info 15 0)) := by
  refine if_neg ?_
  rw [rises, good]
  decide

theorem State.wantedLevel_congr {t : State} (thm : t.thm = s.thm) (requested : t.pwr.requested = s.pwr.requested) :
    t.wantedLevel = s.wantedLevel := by
  unfold State.wantedLevel
  rw [thm, requested]

/-! ### Sleep and resume (R567, R568, R570, R572) -/

theorem State.reversal_idle (none : s.pwr.queued = 0) : s.reversal = s := if_pos none

/-- The entry of S1 by a part without a mesh pair. -/
theorem runs_sleepEntryDrained_s1 (enters : s.pwr.transition = 1) (noFlush : s.flush = none) (drained : s.sleepDrain.drained = true)
    (alone : s.sleepDrain.mesh.paired = false) (s1 : s.sleepDrain.pwr.transTarget = 1) :
    let d := s.sleepDrain
    let v := { d with pwr := { d.pwr with held := d.sys.state, sleep := 1, transition := 0, ctrlDone := false } }.setDev .sleepS1
    Runs .sleepEntryDrained s (forAll v.svcTiles (fun t s => s.tileSleeps t 1) v).reversal := by
  intro d v
  have entry : ¬ (s.pwr.transition ≠ 1 || s.flush.isSome) = true := by
    rw [noFlush, enters]
    decide
  change execSleepEntryDrained s = _
  unfold execSleepEntryDrained
  rw [if_neg entry]
  refine (if_neg (not_refused drained)).trans ?_
  have noPair : ¬ (s.sleepDrain.meshTalks && s.sleepDrain.mesh.paired) = true := by
    rw [alone, Bool.and_false]
    exact Bool.false_ne_true
  rw [s1, if_neg noPair]
  rfl

/-- A resume with nothing queued ends at the wanted level; the work that it starts touches no level, no boot state and no
configuration. -/
theorem runs_resumeEnd (us : BitVec 32) (resumes : s.pwr.transition = 2) (done : s.resumed = true) (none : s.pwr.queued = 0)
    (whole : s.sys.wakeNeeded = false) :
    ∃ t, Runs (.resumeEnd us) s t ∧ t.boot = s.boot ∧ t.cfg = s.cfg ∧
      t.pwr = { s.pwr.setLevel s.wantedLevel with
        transition := 0, sleep := 0, lastResumeUs := us, vcoreMv := vcoreOf s.wantedLevel
        s3Exits := if s.sys.state = .sleepS3 then satAdd s.pwr.s3Exits 1 else s.pwr.s3Exits } := by
  have ends : ¬ (s.pwr.transition ≠ 2 || !s.resumed) = true := by
    rw [resumes, done]
    decide
  change ∃ t, execResumeEnd us s = .next t ∧ _
  unfold execResumeEnd
  rw [if_neg ends]
  extract_lets +onlyGivenNames old oldPwr u v l changed newPwr w x
  have tiles : Changes [.tiles] u v := .forAll .refl fun _ _ h => .modTile h
  have pwr : v.pwr = u.pwr := tiles.keeps .pwr rfl
  have level : l = s.wantedLevel := State.wantedLevel_congr (tiles.keeps .thm rfl) (by rw [pwr])
  have noted : Changes [.evr, .heads] w x := by
    simp only [x]
    split
    next => exact State.raise_changes
    next => exact .refl
  have asleep : ¬ x.sys.wakeNeeded = true := by
    have sys : x.sys = u.sys := (noted.keeps .sys rfl).trans (tiles.keeps .sys rfl)
    rw [sys]
    exact not_true_of_eq_false whole
  rw [if_neg asleep]
  extract_lets +onlyGivenNames y oldSys z
  have serves : Changes [.fv, .sys, .evr, .pmc, .clk, .tiles, .heads, .loads, .nextReq, .fab, .mesh, .svc, .poison] x
      (forAll z.svcTiles (fun t s => s.wake t) z) :=
    .forAll (.upd (t := y) (State.stateHeld_changes.step .refl)) fun _ _ h => State.wake_changes.step h
  have reached : (forAll z.svcTiles (fun t s => s.wake t) z).pwr = w.pwr := (serves.keeps .pwr rfl).trans (noted.keeps .pwr rfl)
  have idle : (forAll z.svcTiles (fun t s => s.wake t) z).pwr.queued = 0 := by
    rw [reached]
    exact (congrArg Pwr.queued pwr).trans none
  refine ⟨_, congrArg Host.Outcome.next (State.reversal_idle idle), ?_, ?_, ?_⟩
  · exact (serves.keeps .boot rfl).trans ((noted.keeps .boot rfl).trans (tiles.keeps .boot rfl))
  · exact (serves.keeps .cfg rfl).trans ((noted.keeps .cfg rfl).trans (tiles.keeps .cfg rfl))
  · rw [reached, ← level]
    simp only [w, newPwr, pwr]
    rfl

/-- The pads of a tile whose media rails are good. -/
theorem runs_pwrPadRelease {t : TileId} (latched : s.pwr.padLatched.getLsbD t = true) (resumes : s.pwr.transition = 2)
    (good : ∀ c : ChanId, ∀ q ∈ chanRails s.cfg.record t c, s.seq.pg.getLsbD q = true) :
    Runs (.pwrPadRelease t) s { s with pwr := { s.pwr with padLatched := bitOff s.pwr.padLatched t } } := by
  change execPwrPadRelease t s = _
  unfold execPwrPadRelease
  extract_lets ready
  have rails : ready = true := List.all_eq_true.mpr fun c _ => List.all_eq_true.mpr fun q hq => by rw [good c q hq, Bool.true_or]
  refine if_neg ?_
  rw [latched, resumes, rails]
  decide

/-! ### Clocks (R592, R594, R595) -/

theorem runs_pllHoldoverTimeout (holds : s.clk.holdover = true) (short : s.clk.holdoverLong = false) :
    Runs .pllHoldoverTimeout s ({ s with clk := { s.clk with holdoverLong := true } }.raise (mkEv 0x6040 .error 15 0)) := by
  refine if_neg ?_
  rw [holds, short]
  decide

theorem exec_pllRelock (holds : s.clk.holdover = true) : Runs .pllRelock s (
    let u : State := { s with clk := { s.clk with locked := true, holdover := false, holdoverLong := false } }
    if s.clk.holdoverLong then u.raise (mkEv 0x6041 .info 15 0) else u) :=
  if_neg (not_refused holds)

theorem runs_clockDomainIdleGate_tile {t : TileId} {k : Fin 37} (served : s.inSvc t = true) (own : k.val < 30) :
    Runs (.clockDomainIdleGate t k) s { s with clk := { s.clk with gate := vmod s.clk.gate t (bitOn · k) } } := by
  refine (if_neg (by omega)).trans (if_neg ?_)
  rw [served, decide_eq_false (Nat.ne_of_lt own)]
  decide

/-- Settles O36, one rule of an event for each clause. -/
theorem powerClockEventsComplete : Obligations.PowerClockEventsComplete := by
  refine fun s => ⟨runs_plevelChange_raises, ?lowers, ?settled, runs_sleepEntryDrained_s1, runs_resumeEnd, ?pads, ?lost,
    runs_pllHoldoverTimeout, ?short, ?long, ?gate, ?package, ?second, ?delay⟩
  case lowers =>
    exact fun still awake settled cool slower => ⟨_, runs_plevelChange_lowers still awake settled cool slower, State.raise_pwr ..⟩
  case settled => exact fun rises good => ⟨_, runs_plevelVcoreSettled rises good, State.raise_pwr ..⟩
  case pads => exact fun t latched resumes good => runs_pwrPadRelease latched resumes good
  case lost => exact fun locked => if_neg (not_refused locked)
  case short =>
    exact fun holds short => (exec_pllRelock holds).trans (congrArg Host.Outcome.next (if_neg (not_true_of_eq_false short)))
  case long => exact fun holds long => (exec_pllRelock holds).trans (congrArg Host.Outcome.next (if_pos long))
  case gate => exact fun t k served own => runs_clockDomainIdleGate_tile served own
  case package => exact fun t k package => if_pos package
  case second => exact fun good => if_neg (not_refused good)
  case delay => exact fun t served => if_neg (not_refused served)

end Sys2Proof.Machine
end

section
/-! The housekeeping round and the thermal trip (R598 to R604, R610, R611): what each event leaves. -/

namespace Sys2Proof.Machine

variable {s : State}

/-! ### The strobe (R598 to R600) -/

/-- What the strobe starts reads no voltage and touches no temperature of the package. -/
theorem runs_housekeepingStrobe (vin vhold vaon vcore : BitVec 16) (edges : BitVec 64) (good : s.aon.vaon = true) :
    ∃ t, Runs (.housekeepingStrobe vin vhold vaon vcore edges) s t ∧ t.aon = { s.aon with vinMv := vin, vholdMv := vhold } ∧
      t.thm = { s.thm with vcoreMv := vcore, vaonMv := vaon } := by
  change ∃ t, execHousekeepingStrobe vin vhold vaon vcore edges s = .next t ∧ _
  unfold execHousekeepingStrobe
  rw [if_neg (not_refused good)]
  extract_lets +onlyGivenNames oldAon oldThm oldClk oldPmc u v asleep w x
  have counted : Changes [.fv, .pmc, .clk, .tiles] u w :=
    .ite (State.ungatePkg_changes.step .refl) (.forAll (State.ungatePkg_changes.step .refl)
      fun _ _ h => State.cycleCounters_changes.step (State.count_changes.step h))
  have cleared : Changes [.fv, .pmc, .clk, .tiles] u x := by
    refine .upd (t := w) ?_ (ht := by with_reducible exact tiles_vmap)
    exact counted
  split
  next =>
    have read : Changes [.fv, .pmc, .clk, .tiles] u (forAll x.svcTiles (fun t s => s.readTemps t) x) :=
      .forAll cleared fun _ _ h => State.readTemps_changes.step h
    exact ⟨_, rfl, read.keeps .aon rfl, read.keeps .thm rfl⟩
  next => exact ⟨x, rfl, cleared.keeps .aon rfl, cleared.keeps .thm rfl⟩

/-! ### Sensors (R602) -/

/-- A mask of the elements that fail a test. -/
theorem getLsbD_foldl_bitOn_passes {n w : Nat} (good : Fin n → Bool) (ks : List (Fin n)) (m : BitVec w) {k : Fin n} (hk : k.val < w)
    (passes : good k = true) :
    (ks.foldl (fun m k => if good k then m else bitOn m k.val) m).getLsbD k = m.getLsbD k := by
  induction ks generalizing m with
  | nil => rfl
  | cons j ks ih =>
    refine (ih _).trans ?_
    change (if good j then m else bitOn m j.val).getLsbD k = _
    split
    next => rfl
    next fails =>
      have other : j.val ≠ k.val := fun same => fails ((Fin.ext same) ▸ passes)
      rw [getLsbD_bitOn m hk, decide_eq_false other, Bool.or_false]

/-- A good conversion is the sensor's reading, and the sensor is not bad. -/
theorem runs_sensorResultHold (t : TileId) (r : Vector (Option (BitVec 16)) 12) (good : s.aon.vaon = true)
    (powered : s.sys.state ≠ .sleepS3) :
    ∃ u, Runs (.sensorResultHold t r) s u ∧
      ∀ k : Fin 12, goodReading r[k] = true → u.tiles[t].thm.sensor[k] = r[k].getD 0 ∧ u.tiles[t].thm.bad.getLsbD k = false := by
  change ∃ u, execSensorResultHold t r s = .next u ∧ _
  unfold execSensorResultHold
  rw [if_neg (by simp [good, powered])]
  extract_lets +onlyGivenNames x ks bad new u
  have tiles : (forAll new (fun k s => s.raise (mkEv 0x6021 .warn t 0 [(1, k.val)])) u).tiles = u.tiles :=
    forAll_same State.tiles (fun _ u => State.raise_tiles u _) u
  refine ⟨_, rfl, fun k goodReading => ?_⟩
  have badBit : bad.getLsbD k = false :=
    (getLsbD_foldl_bitOn_passes (fun k => Machine.goodReading r[k]) ks 0 k.isLt goodReading).trans BitVec.getLsbD_zero
  rw [Fin.getElem_fin, tiles]
  simp only [u, Fin.getElem_fin, State.modTherm_self, vmap_get]
  refine ⟨?_, badBit⟩
  have taken : Machine.goodReading r[k.val] = true := goodReading
  rw [if_pos taken]
  cases reading : r[k.val] with
  | none =>
    rw [reading] at taken
    exact nomatch taken
  | some v => rfl

/-! ### The deciding point (R598, R604) -/

/-- The lead's report reaches the rail supervisor, where a tile in service leads (R604). -/
def State.reported (s : State) : State :=
  match s.sys.lead with
  | none => s
  | some l =>
    if !s.inSvc l || s.sys.loneLost then s
    else { s with clk := { s.clk with
      noReport := 0, report := some (s.sys.state, s.sys.inService, s.sys.rescueLead) } }

theorem State.reported_sys : s.reported.sys = s.sys := by
  unfold State.reported
  split
  next => rfl
  next => split <;> rfl

theorem State.reported_flush : s.reported.flush = s.flush := by
  unfold State.reported
  split
  next => rfl
  next => split <;> rfl

theorem State.reported_inSvc (x : TileId) : s.reported.inSvc x = s.inSvc x := by
  unfold State.inSvc
  rw [State.reported_sys, State.reported_flush]

theorem State.reported_clk {x : TileId} (lead : s.sys.lead = some x) (served : s.inSvc x = true) (held : s.sys.loneLost = false) :
    s.reported.clk = { s.clk with noReport := 0, report := some (s.sys.state, s.sys.inService, s.sys.rescueLead) } := by
  unfold State.reported
  rw [lead]
  refine congrArg State.clk (if_neg ?_)
  rw [served, held]
  decide

theorem exec_housekeepingDecide (good : s.aon.vaon = true) : ∃ u : State, execHousekeepingDecide s = .next u.reported := by
  unfold execHousekeepingDecide
  rw [if_neg (not_refused good)]
  exact ⟨_, rfl⟩

/-! ### The thermal trip (R610, R611) -/

/-- Staging what is dirty moves no level and admits nothing. -/
theorem runs_thermalTrip {t : TileId} {k : Fin 12} (calm : s.thm.trip = false) (counted : s.tiles[t].thm.excluded.getLsbD k = false)
    (good : s.aon.vaon = true) (noFlush : s.flush = none) (alive : s.sys.state ≠ .failed) :
    ∃ u, Runs (.thermalTrip t k) s u ∧ u.thm = { s.thm with trip := true, tripAt := some (t, k) } ∧ u.pwr.vcoreMv = 700 ∧
      u.sys.admitStop = true := by
  have trips : ¬ (s.thm.trip || s.tiles[t].thm.excluded.getLsbD k || !s.aon.vaon) = true := by
    rw [calm, counted, good]
    decide
  change ∃ u, execThermalTrip t k s = .next u ∧ _
  unfold execThermalTrip
  rw [if_neg trips]
  extract_lets +onlyGivenNames old u
  have serves : ¬ (u.flush.isSome || u.sys.state = .failed) = true := by simp [u, noFlush, alive]
  rw [if_neg serves]
  extract_lets +onlyGivenNames oldSys oldPwr v stays
  refine ⟨_, rfl, ?_⟩
  have staged : Changes [.clk, .tiles] v (forAll v.svcTiles (fun t s =>
      (s.modEng t fun e => { e with queues := e.queues.map (·.filter stays), full := e.full.filter stays }).stageAll t
        ((dirtyLines s.tiles[t].d).map (·.line))) v) :=
    .forAll .refl fun _ _ h => State.stageAll_changes.step (.modEng h)
  have pwr := congrArg Pwr.vcoreMv (staged.keeps .pwr rfl)
  have sys := congrArg Sys.admitStop (staged.keeps .sys rfl)
  exact ⟨staged.keeps .thm rfl, pwr, sys⟩

theorem runs_tripStaged {t : TileId} {k : Fin 12} (tripped : s.thm.tripAt = some (t, k)) (noFlush : s.flush = none)
    (clean : ∀ x ∈ s.svcTiles, s.flushClean x = true) :
    Runs .tripStaged s
      (({ s with thm := { s.thm with tripAt := none } }.raise (mkEv 0x6010 .fatal t 0 [(1, k.val)])).fail .thermalTrip) := by
  change execTripStaged s = _
  unfold execTripStaged
  rw [tripped]
  extract_lets +onlyGivenNames ready
  have all : ready = true := by
    simp only [ready, noFlush]
    exact List.all_eq_true.mpr clean
  refine (if_neg (not_refused all)).trans (congrArg Host.Outcome.next (if_neg ?_))
  have still : ({ s with thm := { s.thm with tripAt := none } }.raise (mkEv 0x6010 .fatal t 0 [(1, k.val)])).flush = none :=
    (State.raise_changes.keeps .flush rfl).trans noFlush
  exact not_isSome still

/-- Settles O37, one rule of an event for each clause. -/
theorem housekeepingEventsComplete : Obligations.HousekeepingEventsComplete := by
  refine fun s => ⟨runs_housekeepingStrobe, runs_sensorResultHold, ?decide, ?trip, ?staged⟩
  case decide =>
    intro l good _
    obtain ⟨t, run, changes⟩ := execHousekeepingDecide_changes (s := s)
    obtain ⟨u, reports⟩ := exec_housekeepingDecide good
    obtain rfl := Host.Outcome.next.inj (run.symm.trans reports)
    refine ⟨u.reported, run, changes.keeps .flush rfl, changes.keeps .guest rfl, changes.keeps .fuses rfl, fun x => ?_⟩
    rw [State.reported_sys, State.reported_inSvc]
    intro lead served held
    rw [State.reported_clk lead served held]
    exact ⟨rfl, rfl⟩
  case trip => exact fun t k calm counted good noFlush alive => runs_thermalTrip calm counted good noFlush alive
  case staged => exact fun t k tripped noFlush clean => runs_tripStaged tripped noFlush clean

end Sys2Proof.Machine
end

section
/-! The config flash, the parameter store, the event recorder and the commit (R410, R414, R416, R422, R430, R436, R631, R632, R635 to R640):
what each event leaves. -/

namespace Sys2Proof.Machine

variable {s : State} {t : TileId}

/-! ### The config flash (R414, R416) -/

/-- An operation that starts programs no tag. -/
theorem State.flashStart_tags (u t : TileId) (bank : Fin 2) (op : FlashOp) : (s.flashStart u bank op).nv[t].tags = s.nv[t].tags := by
  unfold State.flashStart
  split
  next => rfl
  next =>
    extract_lets v
    split
    next =>
      refine (vmod_apply v.nv u t _ TileNv.tags).trans ?_
      split
      next same => subst same; rfl
      next => rfl
    next => rfl

theorem State.journalReuse_tags (u t : TileId) (bank : Fin 2) : (s.journalReuse u bank).nv[t].tags = s.nv[t].tags := by
  unfold State.journalReuse
  split
  next => rfl
  next =>
    dsimp only
    split
    next => rfl
    next => exact State.flashStart_tags ..

theorem eraseContent_tags (bank : Fin 2) (op : FlashOp) (v : TileNv) : (eraseContent bank op v).tags = v.tags := by
  unfold eraseContent
  split <;> rfl

/-- The sector's tag counts the erase. -/
theorem State.sectorErased_tag (bank : Fin 2) (op : FlashOp) :
    tabGet (s.sectorErased t bank op).nv[t].tags (sectorKey bank op.sector) =
      some (sectorTag (erasesOf s.nv[t] (sectorKey bank op.sector) + 1)) := by
  have tags : (s.sectorErased t bank op).nv[t].tags = (jClose s.nv[t] bank op.sector).tags := by
    unfold State.sectorErased
    rw [State.journalReuse_tags, Fin.getElem_fin, State.modNv_self]
    exact eraseContent_tags bank op _
  rw [tags]
  exact tabGet_tabPut ..

/-! ### The event recorder (R631, R632, R635 to R638) -/

/-- A record that is not FATAL takes no black box copy. -/
theorem runs_eventEntry {r : EventRec} {l : List EventRec} (rebuilt : s.sys.mbReady = true) (queue : s.evr.queues[t] = r :: l)
    (mild : r.sev ≠ .fatal) :
    Runs (.eventEntry t) s { s with evr := { s.evr with queues := s.evr.queues.set t l }.assign r } := by
  change execEventEntry t s = _
  unfold execEventEntry
  rw [if_neg (not_refused rebuilt), queue]
  dsimp only
  rw [if_neg mild]

/-- A flush that is due outside FLUSHING takes every record that no flush has written. -/
theorem runs_eventFlushStart (due : s.evr.flushDue = true) (idle : s.evr.flushRunning = false) (noFlush : s.flush = none)
    (waits : (s.evr.held.filter fun h => !h.flushed) ≠ [])
    (supply : s.supplyOk (100 * (((s.evr.held.filter fun h => !h.flushed).length + 7) / 8 + 1)) 1 = true) :
    ∃ u, Runs .eventFlushStart s u ∧ u.evr = { s.evr with
      flushRunning := true, flushDue := false, batch := (s.evr.held.filter fun h => !h.flushed).map (·.r)
      batchTop := s.evr.nextSeq - 1, written := 0 } := by
  have starts : ¬ ((!s.evr.flushDue) = true ∨ s.evr.flushRunning = true) := by
    rw [due, idle]
    decide
  have some : 0 < (s.evr.held.filter fun h => !h.flushed).length := List.length_pos_iff.mpr waits
  change ∃ u, execEventFlushStart s = .next u ∧ _
  unfold execEventFlushStart
  rw [if_neg starts, if_neg (not_isSome noFlush)]
  dsimp only
  rw [List.length_map, if_neg (fun refused => not_refused supply refused.2), if_neg (by omega)]
  exact ⟨_, rfl, State.flashStart_changes.keeps .evr rfl⟩

/-- A running flush with nothing left ends; no power fail has cut it short. -/
theorem runs_eventFlushDone (runs : s.evr.flushRunning = true) (written : s.evr.batch = []) (noFlush : s.flush = none) :
    Runs .eventFlushDone s (s.flushMarker 0) := by
  refine (if_neg ?_).trans (congrArg Host.Outcome.next (if_pos (.inl ?_)))
  · rw [runs, written]
    decide
  · rw [noFlush]
    rfl

/-! ### The parameter store (R430, R436) -/

section Pages
variable {w : PageWrite} {l : List PageWrite} (queue : s.prm.queue = w :: l)
include queue

/-- More pages of the same requester wait. -/
theorem runs_prmPageWriteDone_more (more : ∃ x ∈ l, x.tag = w.tag) : Runs .prmPageWriteDone s (s.pageWritten w l) := by
  obtain ⟨x, waits, same⟩ := more
  change execPrmPageWriteDone s = _
  unfold execPrmPageWriteDone
  rw [queue]
  exact if_pos (List.any_eq_true.mpr ⟨x, waits, decide_eq_true same⟩)

/-- The last page of a waiting command. -/
theorem runs_prmPageWriteDone_command (last : ∀ x ∈ l, x.tag ≠ w.tag) (command : w.tag = 1) :
    Runs .prmPageWriteDone s ((s.pageWritten w l).waitDone .prm) := by
  have none : ¬ (l.any fun x => x.tag = w.tag) = true := fun more => by
    obtain ⟨x, waits, same⟩ := List.any_eq_true.mp more
    exact last x waits (of_decide_eq_true same)
  change execPrmPageWriteDone s = _
  unfold execPrmPageWriteDone
  rw [queue]
  refine (if_neg none).trans ?_
  rw [command]
  rfl

end Pages

/-! ### The commit (R422) -/

theorem filter_ne_head {k x : Nat} (other : x ≠ k) : [k, x].filter (· ≠ k) = [x] := by simp [other]

theorem bankOf_val (b : Bool) : (bankOf b).val = if b then 1 else 0 := by cases b <;> rfl

/-- A copy that checks leaves the commit's list, and the next copy of the tile is written. -/
theorem runs_commitCopyReadback {b : Bool} {r : CommitRun} {x : Nat} (commits : s.cfg.commit = some r)
    (todo : (r.todo.filter fun x => x / 2 = t.val) = [2 * t.val + (bankOf b).val, x]) (other : x ≠ 2 * t.val + (bankOf b).val)
    (free : s.tiles[t].cfl.ops[bankOf b] = none) (spare : s.tiles[t].cfl.spare[bankOf b] = []) :
    ∃ u, Runs (.commitCopyReadback t b true) s u ∧
      u.cfg.commit = some { r with todo := r.todo.filter (· ≠ 2 * t.val + (bankOf b).val) } := by
  change ∃ u, execCommitCopyReadback t b true s = .next u ∧ _
  unfold execCommitCopyReadback
  rw [commits]
  dsimp -zeta only
  extract_lets +onlyGivenNames bank k mine busy
  have first : (r.todo.filter fun x => x / 2 = t.val).head? = some k := congrArg List.head? todo
  have idle : busy = false := by
    have none : s.tiles[t].cfl.ops[bank] = none := free
    have empty : s.tiles[t].cfl.spare[bank] = [] := spare
    simp only [busy, none, empty]
    rfl
  have awaited : ¬ ((r.todo.filter fun x => x / 2 = t.val).head? ≠ some k || busy) = true := by
    simp [first, idle]
  rw [if_neg awaited, if_pos rfl]
  extract_lets +onlyGivenNames r' oldCfg u
  have next : (r'.todo.filter fun x => x / 2 = t.val).head? = some x := by
    have rest : (r'.todo.filter fun x => x / 2 = t.val) = [x] := by
      exact (List.filter_comm _ _ r.todo).trans ((congrArg (List.filter (· ≠ k)) todo).trans (filter_ne_head other))
    rw [rest]
    rfl
  rw [next]
  exact ⟨_, rfl, congrArg Cfg.commit (State.flashStart_changes.keeps .cfg rfl)⟩

/-- Settles O48, one rule of an event for each clause. -/
theorem storageEventsComplete : Obligations.StorageEventsComplete := by
  refine fun s t b => ⟨?erased, ?program, ?last, ?entry, ?start, runs_eventFlushDone, ?more, ?command, ?commit⟩
  case erased =>
    intro op hop erases programs
    refine ⟨_, runs_flashEraseDone_programs hop erases programs, ?_, ?_⟩
    · exact (congrArg (fun x : Tile => x.cfl.ops[bankOf b]) (State.modCfl_self _ t _)).trans (Vector.getElem_set_self ..)
    · exact State.sectorErased_tag (bankOf b) op
  case program => exact fun op hop programs more other => runs_flashPageProgramDone_more hop programs more other
  case last => exact fun op hop programs last other => runs_flashPageProgramDone_last hop programs last other
  case entry => exact fun r l rebuilt queue mild => runs_eventEntry rebuilt queue mild
  case start => exact fun due idle noFlush waits supply => runs_eventFlushStart due idle noFlush waits supply
  case more => exact fun w l queue more => runs_prmPageWriteDone_more queue more
  case command => exact fun w l queue last command => runs_prmPageWriteDone_command queue last command
  case commit =>
    intro r x commits
    rw [← bankOf_val]
    exact fun todo other free spare => runs_commitCopyReadback commits todo other free spare

end Sys2Proof.Machine
end

section
/-! The map of addresses (R112 to R115, R117): the ring-slots of a ring and its gap, the places of the lines of a page, and the home of a
granule, with the granule that a home names. -/

namespace Sys2Proof.Machine

/-! ### The rotation of a ring (R112 step 4, R117) -/

section Ring
variable {m m' ring jj j : Nat}

/-- The 65,280 moves of a full cycle end with a full turn of the gap. -/
theorem turn_mod (n : Nat) : n % 65280 % 256 = n % 256 := by omega

theorem ringSlotOf_lt : ringSlotOf m ring jj < 256 := by
  unfold ringSlotOf
  dsimp only
  split <;> omega

theorem ringSlotOf_ne_gapSlot : ringSlotOf m ring jj ≠ gapSlot m ring := by
  unfold ringSlotOf gapSlot
  dsimp only
  split <;> omega

theorem ringSlotOf_injective (hj : j < 255) (hjj : jj < 255) (h : ringSlotOf m ring j = ringSlotOf m ring jj) : j = jj := by
  unfold ringSlotOf at h
  dsimp only at h
  split at h <;> split at h <;> omega

/-- Where the page is that the next move takes to the gap. -/
def moveSource (m ring : Nat) : Nat := if ringMoves m ring % 256 < 255 then 254 - ringMoves m ring % 256 else 255

theorem gapSlot_of_move (h : ringMoves m' ring = ringMoves m ring + 1) : gapSlot m' ring = moveSource m ring := by
  unfold gapSlot moveSource
  rw [h, turn_mod]
  split <;> omega

theorem ringSlotOf_of_move (h : ringMoves m' ring = ringMoves m ring + 1) :
    ringSlotOf m' ring jj = if ringSlotOf m ring jj = moveSource m ring then gapSlot m ring else ringSlotOf m ring jj := by
  unfold ringSlotOf moveSource gapSlot
  rw [h]
  dsimp only
  generalize ringMoves m ring = n
  have turn := turn_mod n
  have next := turn_mod (n + 1)
  by_cases last : n % 256 = 255
  · have wraps : (n + 1) % 65280 % 256 = 0 := by omega
    have base : (jj + (n + 1) % 65280 / 256) % 255 = ((jj + n % 65280 / 256) % 255 + 1) % 255 := by omega
    simp only [turn, last, wraps, base]
    split_ifs <;> omega
  · have same : (n + 1) % 65280 / 256 = n % 65280 / 256 := by omega
    have goes : (n + 1) % 256 = n % 256 + 1 := by omega
    simp only [turn, next, same, goes]
    split_ifs <;> omega

end Ring

/-- Settles O12, by the rules of a ring's slots above. -/
theorem gapMoveShiftsOnePage : Obligations.GapMoveShiftsOnePage :=
  fun _ _ _ _ _ hjj => ⟨⟨ringSlotOf_lt, ringSlotOf_ne_gapSlot⟩, fun _ hj => ringSlotOf_injective hj hjj,
    fun move => ⟨ringSlotOf_of_move move, gapSlot_of_move move⟩⟩

/-! ### The lines of a page and their media addresses (R114, R115) -/

/-- The page line that die `d` holds at position `pos` of page slot `slot`. -/
def lineAt (slot d pos : Nat) : Nat := 8 * pos + (d + 7 * slot) % 8

section Lines
variable {slot d pos l : Nat}

theorem lineAt_lt (hp : pos < 10) : lineAt slot d pos < 80 := by unfold lineAt; omega

theorem lineDie_lineAt (hd : d < 8) : lineDie slot (lineAt slot d pos) = d := by unfold lineDie lineAt; omega

theorem lineAt_div : lineAt slot d pos / 8 = pos := by unfold lineAt; omega

theorem eq_lineAt (hd : lineDie slot l = d) (hp : l / 8 = pos) : l = lineAt slot d pos := by unfold lineDie at hd; unfold lineAt; omega

end Lines

/-- The high field of a number of two fields, the low one of `w` values. -/
theorem fields_eq {w a b a' b' : Nat} (hb : b < w) (hb' : b' < w) (h : a' * w + b' = a * w + b) : a' = a ∧ b' = b := by
  have low : b' = b := by
    have := congrArg (· % w) h
    simpa [Nat.mod_eq_of_lt hb, Nat.mod_eq_of_lt hb', Nat.add_comm] using this
  subst low
  exact ⟨Nat.eq_of_mul_eq_mul_right (Nat.zero_lt_of_lt hb) (Nat.add_right_cancel h), rfl⟩

/-- The fields of a media address, the mode first: the address is a number in a mixed base. -/
theorem mediaAddress_eq (mode tile chan die part slot pos : Nat) : mediaAddress mode tile chan die part slot pos =
    (((((mode * 2 ^ 3 + tile) * 2 ^ 2 + chan) * 2 ^ 3 + die) * 2 ^ 4 + part) * 2 ^ 23 + slot) * 2 ^ 4 + pos := by
  unfold mediaAddress
  omega

/-- Settles O13: the line of a die at a position is `lineAt`, and the fields of an address are read off one after the other. -/
theorem linesHaveDistinctPlaces : Obligations.LinesHaveDistinctPlaces := by
  refine ⟨fun slot d pos hd hp => ⟨lineAt slot d pos, ⟨lineAt_lt hp, lineDie_lineAt hd, lineAt_div⟩, fun _ _ => eq_lineAt⟩, ?_⟩
  intro mode tile chan die part slot pos hm ht hc hd hp hs hl
  simp only [mediaAddress_eq]
  refine ⟨by omega, fun mode' tile' chan' die' part' slot' pos' _ ht' hc' hd' hp' hs' hl' h => ?_⟩
  obtain ⟨h, eqPos⟩ := fields_eq hl hl' h
  obtain ⟨h, eqSlot⟩ := fields_eq hs hs' h
  obtain ⟨h, eqPart⟩ := fields_eq hp hp' h
  obtain ⟨h, eqDie⟩ := fields_eq hd hd' h
  obtain ⟨h, eqChan⟩ := fields_eq hc hc' h
  obtain ⟨eqMode, eqTile⟩ := fields_eq ht ht' h
  exact ⟨eqMode, eqTile, eqChan, eqDie, eqPart, eqSlot, eqPos⟩

/-! ### The rings of the rows (R112 step 3) -/

theorem coprime_rows {x : Nat} (h2 : x % 2 ≠ 0) (h3 : x % 3 ≠ 0) (h283 : x % 283 ≠ 0) : Nat.Coprime 20376 x := by
  have prime : ∀ p : Nat, p.Prime → x % p ≠ 0 → Nat.Coprime p x := fun p hp h =>
    hp.coprime_iff_not_dvd.mpr fun d => h (Nat.mod_eq_zero_of_dvd d)
  have c2 := (prime 2 (by norm_num) h2).pow_left 3
  have c3 := (prime 3 (by norm_num) h3).pow_left 2
  exact (c2.mul_left c3).mul_left (prime 283 (by norm_num) h283)

/-- What the search of step 3 stops at. -/
def Scatters (a : Nat) : Prop := a % 2 = 1 ∧ a % 3 ≠ 0 ∧ a % 283 ≠ 0

theorem scatterStep_of_scatters (n : Nat) {a : Nat} (h : Scatters a) : scatterStep n a = a := by
  obtain ⟨-, h3, h283⟩ := h
  cases n with
  | zero => rfl
  | succ n => exact if_neg (by omega)

theorem scatterStep_succ (n : Nat) {a : Nat} (h : a % 3 = 0 ∨ a % 283 = 0) : scatterStep (n + 1) a = scatterStep n (a + 2) := if_pos h

/-- Of three odd numbers in a row at most two are passed over. -/
theorem scatters_of_passed {a : Nat} (odd : a % 2 = 1) (h0 : a % 3 = 0 ∨ a % 283 = 0) (h2 : (a + 2) % 3 = 0 ∨ (a + 2) % 283 = 0) :
    Scatters (a + 4) := by
  have third : (a + 4) % 3 ≠ 0 := by omega
  obtain h0 | h0 := h0
  · have h2 : (a + 2) % 283 = 0 := h2.resolve_left (by omega)
    exact ⟨by omega, third, by omega⟩
  · exact ⟨by omega, third, by omega⟩

theorem scatters_scatterStep {a : Nat} (odd : a % 2 = 1) : Scatters (scatterStep 4 a) := by
  have odd2 : (a + 2) % 2 = 1 := by omega
  by_cases h0 : a % 3 = 0 ∨ a % 283 = 0
  · by_cases h2 : (a + 2) % 3 = 0 ∨ (a + 2) % 283 = 0
    · have good : Scatters (a + 4) := scatters_of_passed odd h0 h2
      rwa [scatterStep_succ 3 h0, scatterStep_succ 2 h2, scatterStep_of_scatters 2 good]
    · have good : Scatters (a + 2) := ⟨odd2, not_or.mp h2⟩
      rwa [scatterStep_succ 3 h0, scatterStep_of_scatters 3 good]
  · have good : Scatters a := ⟨odd, not_or.mp h0⟩
    rwa [scatterStep_of_scatters 4 good]

theorem scatterMul_coprime (key : Nat) : Nat.Coprime 20376 (scatterMul key) := by
  obtain ⟨h2, h3, h283⟩ : Scatters (scatterMul key) := scatters_scatterStep (by omega)
  exact coprime_rows (by omega) h3 h283

theorem ringOfRow_lt (key k : Nat) : ringOfRow key k < 20376 := Nat.mod_lt _ (by decide)

theorem ringOfRow_injective {key k k' : Nat} (hk : k < 20376) (hk' : k' < 20376) (h : ringOfRow key k = ringOfRow key k') : k = k' := by
  have same : scatterMul key * k ≡ scatterMul key * k' [MOD 20376] := Nat.ModEq.add_right_cancel' _ h
  exact (Nat.ModEq.cancel_left_of_coprime (scatterMul_coprime key) same).eq_of_lt_of_lt hk hk'

/-! ### The layout of a record (R418) -/

theorem length_eraseDups_le (l : List Nat) : l.eraseDups.length ≤ l.length := by
  induction n : l.length using Nat.strong_induction_on generalizing l with
  | _ n ih =>
    subst n
    cases l with
    | nil => simp
    | cons a l =>
      have shorter : (l.filter fun b => !b == a).length ≤ l.length := List.length_filter_le ..
      have rest := ih _ (Nat.lt_succ_of_le shorter) _ rfl
      rw [List.eraseDups_cons, List.length_cons, List.length_cons]
      omega

theorem nodup_of_distinct {l : List Nat} (h : distinct l = true) : l.Nodup := by
  induction l with
  | nil => exact List.nodup_nil
  | cons a l ih =>
    have len : (l.filter fun b => !b == a).eraseDups.length = l.length := by
      simpa [distinct, List.eraseDups_cons] using h
    have kept : (l.filter fun b => !b == a) = l :=
      List.filter_eq_self.mpr (List.length_filter_eq_length_iff.mp
        (Nat.le_antisymm (List.length_filter_le ..) (len ▸ length_eraseDups_le _)))
    rw [kept] at len
    refine List.nodup_cons.mpr ⟨fun mem => ?_, ih (by simpa [distinct] using len)⟩
    simpa using List.filter_eq_self.mp kept a mem

theorem recFieldsOk_layout {r : List Byte} (h : recFieldsOk r = true) :
    (2 ≤ fieldAt r 16 1 ∧ fieldAt r 16 1 ≤ 8) ∧ (fieldAt r 17 1 = 2 ∨ fieldAt r 17 1 = 4) ∧ distinct (recTiles r) = true := by
  unfold recFieldsOk at h
  simp only [Bool.and_eq_true, Bool.or_eq_true, decide_eq_true_eq, and_assoc] at h
  obtain ⟨-, -, -, -, two, eight, chans, -, once, -⟩ := h
  exact ⟨⟨two, eight⟩, chans, once⟩

/-- What R112 needs of a record: layout tiles, none of them twice, with a power of two of units each. -/
structure Layout (r : List Byte) : Prop where
  tiles : 0 < recT r
  units : ∃ k, recC r * 16 = 2 ^ k
  once : (recTiles r).Nodup

theorem layout_of_recFieldsOk {r : List Byte} (h : recFieldsOk r = true) : Layout r := by
  obtain ⟨tiles, chans, once⟩ := recFieldsOk_layout h
  refine ⟨by unfold recT; omega, ?_, nodup_of_distinct once⟩
  unfold recC
  obtain two | four := chans
  · exact ⟨5, by rw [two]; rfl⟩
  · exact ⟨6, by rw [four]; rfl⟩

section Layout
variable {r : List Byte} (ok : Layout r)
include ok

theorem Layout.units_pos : 0 < recC r * 16 := by
  obtain ⟨k, hk⟩ := ok.units
  exact hk ▸ Nat.two_pow_pos k

theorem Layout.xor_lt {a : Nat} (x : Nat) (ha : a < recC r * 16) : a ^^^ (x &&& (recC r * 16 - 1)) < recC r * 16 := by
  have mask : x &&& (recC r * 16 - 1) < recC r * 16 := Nat.lt_of_le_of_lt Nat.and_le_right (Nat.sub_one_lt ok.units_pos.ne')
  obtain ⟨k, hk⟩ := ok.units
  rw [hk] at ha mask ⊢
  exact Nat.xor_lt_two_pow ha mask

/-- Two entries of the tile list that name one tile are the same entry. -/
theorem Layout.index_eq {i j : Nat} (hi : i < recT r) (hj : j < recT r) (h : toTile (recTile r i) = toTile (recTile r j)) : i = j := by
  have small : ∀ k, recTile r k < 8 := fun _ => Nat.mod_lt _ (by decide)
  have same : recTile r i = recTile r j := by
    have val := congrArg Fin.val h
    simpa [toTile, Nat.mod_eq_of_lt (small _)] using val
  have inj := (List.nodup_map_iff_inj_on List.nodup_range).mp ok.once
  exact inj i (List.mem_range.mpr hi) j (List.mem_range.mpr hj) same

end Layout

/-! ### Steps 1 and 2 of R112 and their inverse (R113) -/

section Home
variable (r : List Byte) (key : Nat)

/-- The unit that block `b` gives to its granules in place `n`, and the place of those that unit `n` takes. -/
def unitIn (b n : Nat) : Nat := n ^^^ (fold8 b &&& (recC r * 16 - 1))

theorem unitIn_unitIn (b n : Nat) : unitIn r b (unitIn r b n) = n := Nat.xor_xor_cancel_right ..

/-- The entry of the tile list for remainder `i`, when the quotient is `q`. -/
def entryIn (q i : Nat) : Nat := (i + fold8 q % recT r) % recT r

/-- The remainder whose entry of the tile list is `i`. -/
def remainderIn (q i : Nat) : Nat := (i + (recT r - fold8 q % recT r)) % recT r

/-- The granule of block `b` whose home is unit `n` of entry `i` of the tile list. -/
def granuleAt (b i n : Nat) : Nat :=
  recT r * (recC r * 16 * b + unitIn r b n) + remainderIn r (recC r * 16 * b + unitIn r b n) i

variable {r} in
theorem entryIn_injective {q i j : Nat} (hi : i < recT r) (hj : j < recT r) (h : entryIn r q i = entryIn r q j) : i = j :=
  (Nat.ModEq.add_right_cancel' (fold8 q % recT r) h).eq_of_lt_of_lt hi hj

variable (g : Nat)

theorem homeOf_pidx : (homeOf r key (64 * g)).pidx = g / recT r / (recC r * 16) := by
  unfold homeOf
  rw [Nat.mul_div_cancel_left g (by decide)]

theorem homeOf_unit : (homeOf r key (64 * g)).unit = unitIn r (g / recT r / (recC r * 16)) (g / recT r % (recC r * 16)) := by
  unfold homeOf
  rw [Nat.mul_div_cancel_left g (by decide)]
  rfl

theorem homeOf_tile : (homeOf r key (64 * g)).tile = toTile (recTile r (entryIn r (g / recT r) (g % recT r))) := by
  unfold homeOf
  rw [Nat.mul_div_cancel_left g (by decide)]
  rfl

end Home

section Home
variable {r : List Byte} (ok : Layout r) (key : Nat)
include ok

theorem Layout.entryIn_remainderIn {q i : Nat} (hi : i < recT r) : entryIn r q (remainderIn r q i) = i := by
  have part : fold8 q % recT r < recT r := Nat.mod_lt _ ok.tiles
  have whole : i + (recT r - fold8 q % recT r) + fold8 q % recT r = i + recT r := by omega
  unfold entryIn remainderIn
  rw [Nat.mod_add_mod, whole, Nat.add_mod_right, Nat.mod_eq_of_lt hi]

/-- The granules of block `b` are those of page index `b`. -/
theorem Layout.homeOf_pidx_iff (b g : Nat) :
    (homeOf r key (64 * g)).pidx = b ↔ b * (recT r * (recC r * 16)) ≤ g ∧ g < (b + 1) * (recT r * (recC r * 16)) := by
  rw [homeOf_pidx, Nat.div_div_eq_div_mul, Nat.div_eq_iff (Nat.mul_pos ok.tiles ok.units_pos), Nat.succ_mul]
  have pos := Nat.mul_pos ok.tiles ok.units_pos
  omega

theorem Layout.homeOf_granuleAt {b i n : Nat} (hi : i < recT r) (hn : n < recC r * 16) :
    (homeOf r key (64 * granuleAt r b i n)).pidx = b ∧ (homeOf r key (64 * granuleAt r b i n)).unit = n ∧
      (homeOf r key (64 * granuleAt r b i n)).tile = toTile (recTile r i) := by
  have place : unitIn r b n < recC r * 16 := ok.xor_lt _ hn
  have rem : remainderIn r (recC r * 16 * b + unitIn r b n) i < recT r := Nat.mod_lt _ ok.tiles
  have quot : granuleAt r b i n / recT r = recC r * 16 * b + unitIn r b n := by
    unfold granuleAt
    rw [Nat.mul_add_div ok.tiles, Nat.div_eq_of_lt rem, Nat.add_zero]
  have low : granuleAt r b i n % recT r = remainderIn r (recC r * 16 * b + unitIn r b n) i := by
    unfold granuleAt
    rw [Nat.mul_add_mod, Nat.mod_eq_of_lt rem]
  have block : (recC r * 16 * b + unitIn r b n) / (recC r * 16) = b := by
    rw [Nat.mul_add_div ok.units_pos, Nat.div_eq_of_lt place, Nat.add_zero]
  have inBlock : (recC r * 16 * b + unitIn r b n) % (recC r * 16) = unitIn r b n := by
    rw [Nat.mul_add_mod, Nat.mod_eq_of_lt place]
  rw [homeOf_pidx, homeOf_unit, homeOf_tile, quot, low, block, inBlock, unitIn_unitIn, ok.entryIn_remainderIn hi]
  exact ⟨rfl, rfl, rfl⟩

/-- Tile, unit and page index name one granule. -/
theorem Layout.homeOf_injective {g g' : Nat} (tile : (homeOf r key (64 * g)).tile = (homeOf r key (64 * g')).tile)
    (unit : (homeOf r key (64 * g)).unit = (homeOf r key (64 * g')).unit)
    (pidx : (homeOf r key (64 * g)).pidx = (homeOf r key (64 * g')).pidx) : g = g' := by
  rw [homeOf_pidx, homeOf_pidx] at pidx
  rw [homeOf_unit, homeOf_unit, pidx] at unit
  have place : g / recT r % (recC r * 16) = g' / recT r % (recC r * 16) := by
    rw [← unitIn_unitIn r _ (g / recT r % _), unit, unitIn_unitIn]
  have quot : g / recT r = g' / recT r := by
    rw [← Nat.div_add_mod (g / recT r) (recC r * 16), pidx, place, Nat.div_add_mod]
  rw [homeOf_tile, homeOf_tile, quot] at tile
  have low : g % recT r = g' % recT r :=
    entryIn_injective (Nat.mod_lt _ ok.tiles) (Nat.mod_lt _ ok.tiles)
      (ok.index_eq (Nat.mod_lt _ ok.tiles) (Nat.mod_lt _ ok.tiles) tile)
  rw [← Nat.div_add_mod g (recT r), quot, low, Nat.div_add_mod]

end Home

/-! ### Steps 3 to 5 of R112 -/

/-- Remapping keeps two slots of the home area apart: the pool lies beyond it, and no two entries of a unit share a pool slot (R125). -/
theorem remapped_injective {l : List RemapEntry} {unit a b : Nat}
    (once : ∀ e ∈ l, ∀ e' ∈ l, e.unit = e'.unit → e.pool = e'.pool → e.slot = e'.slot) (ha : a < 256 * 20376) (hb : b < 256 * 20376)
    (h : remapped l unit a = remapped l unit b) : a = b := by
  unfold remapped at h
  split at h
  next e first =>
    have found := List.find?_some first
    obtain ⟨unitA, slotA⟩ : e.unit = unit ∧ e.slot = a := of_decide_eq_true found
    split at h
    next e' second =>
      have found' := List.find?_some second
      obtain ⟨unitB, slotB⟩ : e'.unit = unit ∧ e'.slot = b := of_decide_eq_true found'
      have same := once e (List.mem_of_find?_eq_some first) e' (List.mem_of_find?_eq_some second)
        (unitA.trans unitB.symm) (Nat.add_left_cancel h)
      exact slotA.symm.trans (same.trans slotB)
    next => omega
  next =>
    split at h
    next => omega
    next => exact h

section Slot
variable {r : List Byte} {key n n' : Nat}

theorem homeOf_ring (r : List Byte) (key n : Nat) : (homeOf r key n).ring = ringOfRow key ((homeOf r key n).pidx / 255) := rfl

theorem homeOf_jj (r : List Byte) (key n : Nat) :
    (homeOf r key n).jj = ((homeOf r key n).pidx % 255 + ((key / 2 ^ 48) ^^^ (homeOf r key n).ring) % 255) % 255 := rfl

theorem homeSlotRaw_lt (p : Placement) : homeSlotRaw p (homeOf r key n) < 256 * 20376 := by
  have ring : (homeOf r key n).ring < 20376 := ringOfRow_lt key _
  have slot := ringSlotOf_lt (m := Sparse.get 0 p.moves (homeOf r key n).unit) (ring := (homeOf r key n).ring) (jj := (homeOf r key n).jj)
  unfold homeSlotRaw
  omega

/-- The ring and the page of the ring name the page index. -/
theorem homeOf_pidx_injective (hn : (homeOf r key n).pidx < 20376 * 255) (hn' : (homeOf r key n').pidx < 20376 * 255)
    (ring : (homeOf r key n).ring = (homeOf r key n').ring) (jj : (homeOf r key n).jj = (homeOf r key n').jj) :
    (homeOf r key n).pidx = (homeOf r key n').pidx := by
  rw [homeOf_jj, homeOf_jj, ring] at jj
  have row : (homeOf r key n).pidx / 255 = (homeOf r key n').pidx / 255 :=
    ringOfRow_injective (by omega) (by omega) ring
  have page : (homeOf r key n).pidx % 255 = (homeOf r key n').pidx % 255 :=
    (Nat.ModEq.add_right_cancel' _ jj).eq_of_lt_of_lt (Nat.mod_lt _ (by decide)) (Nat.mod_lt _ (by decide))
  omega

/-- The slot of a home in the rows of the part names its page index. -/
theorem homeSlot_injective {p : Placement}
    (once : ∀ e ∈ p.remap, ∀ e' ∈ p.remap, e.unit = e'.unit → e.pool = e'.pool → e.slot = e'.slot)
    (hn : (homeOf r key n).pidx < 20376 * 255) (hn' : (homeOf r key n').pidx < 20376 * 255)
    (unit : (homeOf r key n).unit = (homeOf r key n').unit)
    (h : homeSlot p (homeOf r key n) = homeSlot p (homeOf r key n')) : (homeOf r key n).pidx = (homeOf r key n').pidx := by
  unfold homeSlot at h
  rw [unit] at h
  have raw := remapped_injective once (homeSlotRaw_lt p) (homeSlotRaw_lt p) h
  unfold homeSlotRaw at raw
  rw [unit, Nat.mul_comm, Nat.mul_comm 256] at raw
  obtain ⟨ring, slot⟩ := fields_eq ringSlotOf_lt ringSlotOf_lt raw
  rw [ring] at slot
  exact homeOf_pidx_injective hn hn' ring (ringSlotOf_injective (Nat.mod_lt _ (by decide)) (Nat.mod_lt _ (by decide)) slot)

end Slot

theorem Layout.homeOf_pidx_lt {r : List Byte} (ok : Layout r) (key : Nat) {g : Nat} (h : g < 20376 * 255 * (recT r * (recC r * 16))) :
    (homeOf r key (64 * g)).pidx < 20376 * 255 := by
  rw [homeOf_pidx, Nat.div_div_eq_div_mul]
  exact (Nat.div_lt_iff_lt_mul (Nat.mul_pos ok.tiles ok.units_pos)).mpr h

/-- Settles O11: a block is a page index, `granuleAt` is the granule of a unit in it, and a page slot names the page index. -/
theorem homesAreBijective : Obligations.HomesAreBijective := by
  intro r key fields v u
  have ok := layout_of_recFieldsOk fields
  refine ⟨fun b g low high => (ok.homeOf_pidx_iff key b g).mpr ⟨low, high⟩, ?takes, ?apart⟩
  case takes =>
    intro b t n listed hn
    obtain ⟨i, inList, rfl⟩ := List.mem_map.mp listed
    obtain ⟨pidx, unit, tile⟩ := ok.homeOf_granuleAt key (b := b) (List.mem_range.mp inList) hn
    obtain ⟨low, high⟩ := (ok.homeOf_pidx_iff key b _).mp pidx
    refine ⟨granuleAt r b i n, ⟨low, high, tile, unit⟩, fun g' low' high' tile' unit' => ?_⟩
    have pidx' := (ok.homeOf_pidx_iff key b g').mpr ⟨low', high'⟩
    exact ok.homeOf_injective key (tile'.trans tile.symm) (unit'.trans unit.symm) (pidx'.trans pidx.symm)
  case apart =>
    intro p g g' hg hg' once h h' tile unit slot
    rw [← tile] at slot
    have pidx := homeSlot_injective (once h.tile) (ok.homeOf_pidx_lt key hg) (ok.homeOf_pidx_lt key hg') unit slot
    exact ok.homeOf_injective key tile unit pidx

end Sys2Proof.Machine
end

section
/-! The Dynamic Capacity commands of the host and of the fabric manager (R129 to R132, R319 to R322, R346, R353, R476, R512): one rule for
each command that is served. -/

namespace Sys2Proof.Machine

section
variable {s : State} {m : Iface} {i : List Byte}

/-! ### Length rules -/

/-- A fixed length, a field that is not all ones, and a bound on what the payload asks for. -/
theorem lenIs_bounded {n f v : Nat} {b : Prop} [Decidable b] (hi : i.length = n) (known : v ≠ 256 ^ f - 1) (hb : b) :
    (lenIs n i && !allOnes f v && decide b) = true := by
  have defined : allOnes f v = false := decide_eq_false known
  rw [lenIs, decide_eq_true hi, defined, decide_eq_true hb]
  rfl

/-- A payload of entries of `w` bytes after a head of `o` bytes. -/
theorem entriesFit {o w n : Nat} (ho : o ≤ i.length) (known : n ≠ 2 ^ 32 - 1) (hi : i.length = o + w * n) :
    (decide (o ≤ i.length) && !allOnes 4 n && decide (i.length = o + w * n)) = true := by
  have defined : allOnes 4 n = false := decide_eq_false known
  rw [decide_eq_true ho, defined, decide_eq_true hi]
  rfl

/-! ### Reports -/

/-- The bytes that a payload begins with. -/
theorem bytesAt_start {a : List Byte} {n : Nat} (b : List Byte) (h : a.length = n) : bytesAt (a ++ b) 0 n = a := by
  subst h
  simp [bytesAt]

theorem State.extentTotals_length (s : State) : s.extentTotals.length = 16 := lay_length _

/-- A list of regions, of `w` bytes each. -/
theorem flatMap_regions_length {w : Nat} (fs : Nat → List (Nat × Nat)) (hw : ∀ k, ((fs k).map Prod.fst).sum = w) (l : List Nat) :
    (l.flatMap fun k => lay (fs k)).length = w * l.length := by
  simp [List.length_flatMap, lay_length, hw, Nat.mul_comm]

/-- The fields of a region in a report: its base, its lengths and its block size, and then what the report adds. -/
def State.regionFields (s : State) (k : Nat) (rest : List (Nat × Nat)) : List (Nat × Nat) :=
  [(8, recRegBase s.cfg.record k), (8, s.regionLen k / 2 ^ 28), (8, s.regionLen k), (8, recRegBlock s.cfg.record k)] ++ rest

theorem runs_getDynamicCapacityConfiguration (h : s.Served m 0x4800 i false false .capacity) (hi : i.length = 2)
    (hn : fieldAt i 0 1 ≠ 0xFF) (hr : fieldAt i 0 1 + fieldAt i 1 1 ≤ 8) :
    ∃ o : List Byte, Runs (.getDynamicCapacityConfiguration m) s (s.reply m o) ∧ o.length = 8 + 40 * fieldAt i 0 1 + 16 := by
  have run : Runs (.getDynamicCapacityConfiguration m) s (s.reply m (lay [(1, 8), (1, fieldAt i 0 1), (6, 0)]
      ++ ((List.range (fieldAt i 0 1)).map (· + fieldAt i 1 1)).flatMap (fun k => lay (s.regionFields k [(4, k + 1), (1, 1), (3, 0)]))
      ++ s.extentTotals)) :=
    show execGetDynamicCapacityConfiguration m s = _ from State.command_served h (lenIs_bounded hi hn hr) _
  refine ⟨_, run, ?_⟩
  rw [List.length_append, List.length_append, State.extentTotals_length, lay_length, flatMap_regions_length (w := 40) _ fun _ => rfl,
    List.length_map, List.length_range]
  rfl

theorem runs_getDynamicCapacityExtentList (h : s.Served m 0x4801 i false false .capacity) (hi : i.length = 8)
    (hn : fieldAt i 0 4 ≠ 2 ^ 32 - 1) (hr : fieldAt i 0 4 + fieldAt i 4 4 ≤ 16384) :
    let l := s.grantedTo (s.headOf m)
    let x := (l.drop (fieldAt i 4 4)).take (fieldAt i 0 4)
    Runs (.getDynamicCapacityExtentList m) s (s.reply m
      (lay [(4, x.length), (4, l.length), (4, s.svc.dcGen.toNat), (4, 0)] ++ x.flatMap extentBytes)) :=
  show execGetDynamicCapacityExtentList m s = _ from State.command_served h (lenIs_bounded hi hn hr) _

theorem runs_getDcdInfo (h : s.Served m 0x5600 i true false .capacity) (hi : i.length = 0) :
    ∃ o : List Byte, Runs (.getDcdInfo m) s (s.reply m o) ∧ bytesAt o 1 1 = [8] :=
  ⟨_, show execGetDcdInfo m s = _ from State.command_served h (decide_eq_true hi) _, rfl⟩

theorem runs_getHostDcRegionConfiguration {h : TileId} (served : s.Served m 0x5601 i true false .capacity) (hi : i.length = 4)
    (hn : fieldAt i 2 1 ≠ 0xFF) (hr : fieldAt i 2 1 + fieldAt i 3 1 ≤ 8) (hh : s.fmHead (fieldAt i 0 2) = some h) :
    ∃ o : List Byte, Runs (.getHostDcRegionConfiguration m) s (s.reply m o) ∧
      bytesAt o 0 4 = lay [(2, h.val), (1, 8), (1, fieldAt i 2 1)] := by
  have run : Runs (.getHostDcRegionConfiguration m) s (s.reply m (lay [(2, h.val), (1, 8), (1, fieldAt i 2 1)]
      ++ ((List.range (fieldAt i 2 1)).map (· + fieldAt i 3 1)).flatMap (fun k => lay (s.regionFields k
        [(1, 4 + 8 * (recRegFlags s.cfg.record k / 2 % 2)), (3, 0), (1, 1), (3, 0)])) ++ s.extentTotals)) := by
    refine (show execGetHostDcRegionConfiguration m s = _ from State.command_served served (lenIs_bounded hi hn hr) _).trans ?_
    dsimp only
    rw [hh]
    rfl
  rw [List.append_assoc] at run
  exact ⟨_, run, bytesAt_start _ (lay_length _)⟩

theorem runs_getDcRegionExtentLists {h : TileId} (served : s.Served m 0x5603 i true false .capacity) (hi : i.length = 12)
    (hn : fieldAt i 4 4 ≠ 2 ^ 32 - 1) (hr : fieldAt i 4 4 + fieldAt i 8 4 ≤ 16384) (hh : s.fmHead (fieldAt i 0 2) = some h) :
    let x := ((s.grantedTo h).drop (fieldAt i 8 4)).take (fieldAt i 4 4)
    Runs (.getDcRegionExtentLists m) s (s.reply m (lay [(2, h.val), (2, 0), (4, fieldAt i 8 4), (4, x.length),
      (4, (s.grantedTo h).length), (4, s.svc.dcGen.toNat), (4, 0)] ++ x.flatMap extentBytes)) := by
  refine (show execGetDcRegionExtentLists m s = _ from State.command_served served (lenIs_bounded hi hn hr) _).trans ?_
  dsimp only
  rw [hh]

/-! ### The host's answer and release (R321, R322) -/

/-- One offered extent is accepted; the command waits for what its grant still needs. -/
theorem runs_addDynamicCapacityResponse {o : Offer} {b k : Nat} (h : s.Served m 0x4802 i false false .capacity) (hi : i.length = 32)
    (one : fieldAt i 0 4 = 1) (entry : payloadExtents i 8 24 1 = [(b, k, true)])
    (offer : (s.svc.offers.find? fun o => o.head = s.headOf m) = some o) (offered : (b, k) ∈ o.exts) :
    let u := (s.answerOffer o [(b, k)] (fieldAt i 4 1 % 2 = 1)).acceptExtent (b, k)
    Runs (.addDynamicCapacityResponse m) s
      { u with svc := { u.svc with waiting := some (m, .add (s.headOf m) [(b, k)]), waitOut := [] } }.addProceed := by
  have fits := entriesFit (i := i) (o := 8) (w := 24) (n := fieldAt i 0 4) (by omega) (by omega) (by omega)
  refine (show execAddDynamicCapacityResponse m s = _ from State.command_served h fits _).trans (congrArg _ ?_)
  dsimp only
  have known : ¬ ([(b, k, true)].any fun e => !e.2.2 || !o.exts.contains (e.1, e.2.1)) = true := by simp [offered]
  rw [offer, one, entry]
  exact if_neg known

theorem runs_releaseDynamicCapacity {u : State} (h : s.Served m 0x4803 i false false .capacity) (hl : 8 ≤ i.length)
    (hn : fieldAt i 0 4 ≠ 2 ^ 32 - 1) (hi : i.length = 8 + 24 * fieldAt i 0 4)
    (released : s.releaseRanges (s.headOf m) (payloadExtents i 8 24 (fieldAt i 0 4)) = .ok u) :
    Runs (.releaseDynamicCapacity m) s
      ((u.releasesEnd (s.headOf m) (payloadExtents i 8 24 (fieldAt i 0 4))).mbFinish m .success) := by
  refine (show execReleaseDynamicCapacity m s = _ from State.command_served h (entriesFit hl hn hi) _).trans ?_
  dsimp only
  rw [released]

/-! ### The fabric manager (R129, R131, R319, R512) -/

/-- A region with no extent and no offer takes a block size that its length and base are multiples of. -/
theorem runs_setDcRegionConfiguration {c : Nat} (idle : s.cfg.commit = none) (h : s.Served m 0x5602 i true false .capacity)
    (hi : i.length = 16) :
    let k := fieldAt i 0 1
    k ≤ 7 → s.regionLen k ≠ 0 → ((List.range 4).find? fun c => 2 ^ (21 + 3 * c) = fieldAt i 4 8) = some c →
    s.svc.extents = [] → s.svc.offers = [] → recRegLen s.cfg.record k % fieldAt i 4 8 = 0 →
    recRegBase s.cfg.record k % fieldAt i 4 8 = 0 →
    Runs (.setDcRegionConfiguration m) s (s.dcrChange m (fun r => putBytes r (88 + 16 * k)
      [BitVec.ofNat 8 c, BitVec.ofNat 8 (recRegFlags r k % 2 + 2 * (fieldAt i 12 1 / 8 % 2))]) id) := by
  intro k hk some_len code noExtents noOffers len base
  have commits : ¬ s.cfg.commit.isSome = true := by simp [idle]
  refine (if_neg commits).trans ((State.command_served h (decide_eq_true hi) _).trans (congrArg _ ?_))
  refine (if_neg (not_or.mpr ⟨Nat.not_lt.mpr hk, some_len⟩)).trans ?_
  rw [code, noExtents, noOffers]
  refine (if_neg fun used => Bool.false_ne_true used.2).trans (if_neg ?_)
  exact not_or.mpr ⟨not_not_intro len, not_not_intro base⟩

section Manager
variable {h : TileId} (hl : 32 ≤ i.length) (hn : fieldAt i 28 4 ≠ 2 ^ 32 - 1) (hi : i.length = 32 + 40 * fieldAt i 28 4)
  (hh : s.fmHead (fieldAt i 0 2) = some h) (some_entry : 1 ≤ fieldAt i 28 4)
include hl hn hi hh some_entry

/-- Extents that pass the checks are offered to the host, and a record tells it so. -/
theorem runs_initiateDynamicCapacityAdd (served : s.Served m 0x5604 i true false .capacity) (policy : fieldAt i 2 1 % 16 = 2)
    (most : fieldAt i 28 4 ≤ 1024) (checked : s.checkAdds h [] (payloadExtents i 32 40 (fieldAt i 28 4)) = none)
    (host : s.isGuest h = false) (room : (s.svc.offers.filter fun o => o.head = h).length < 16) :
    let x : List (Nat × Nat) := (payloadExtents i 32 40 (fieldAt i 28 4)).map fun e => (e.1, e.2.1)
    Runs (.initiateDynamicCapacityAdd m) s
      (({ s with svc := { s.svc with offers := s.svc.offers ++ [Offer.mk h x] } }.dcRecords h 0 x).mbFinish m .success) := by
  refine (show execInitiateDynamicCapacityAdd m s = _ from State.command_served served (entriesFit hl hn hi) _).trans (congrArg _ ?_)
  dsimp only
  rw [hh]
  refine (if_neg (by omega)).trans ?_
  rw [checked, host]
  exact (if_neg Bool.false_ne_true).trans (if_neg (Nat.not_le.mpr room))

/-- A release that is forced, or that the guest die is told of, takes the extents at once. -/
theorem runs_initiateDynamicCapacityRelease_forced {u : State} (served : s.Served m 0x5605 i true false .capacity)
    (policy : fieldAt i 2 1 % 16 = 1) (released : s.releaseRanges h (payloadExtents i 32 40 (fieldAt i 28 4)) = .ok u)
    (forced : fieldAt i 2 1 / 16 % 2 = 1 ∨ s.isGuest h = true) :
    let e := payloadExtents i 32 40 (fieldAt i 28 4)
    Runs (.initiateDynamicCapacityRelease m) s
      (((u.releasesEnd h e).dcRecords h 2 (e.map fun e => (e.1, e.2.1))).mbFinish m .success) := by
  refine (show execInitiateDynamicCapacityRelease m s = _ from State.command_served served (entriesFit hl hn hi) _).trans (congrArg _ ?_)
  dsimp only
  rw [hh]
  refine (if_neg (by omega)).trans ?_
  rw [released]
  exact if_pos forced

/-- Any other release waits for the host. -/
theorem runs_initiateDynamicCapacityRelease_asked {u : State} (served : s.Served m 0x5605 i true false .capacity)
    (policy : fieldAt i 2 1 % 16 = 1) (released : s.releaseRanges h (payloadExtents i 32 40 (fieldAt i 28 4)) = .ok u)
    (asked : fieldAt i 2 1 / 16 % 2 = 0) (host : s.isGuest h = false) :
    let x : List (Nat × Nat) := (payloadExtents i 32 40 (fieldAt i 28 4)).map fun e => (e.1, e.2.1)
    Runs (.initiateDynamicCapacityRelease m) s (({ s with svc := { s.svc with
      releases := s.svc.releases ++ x.map fun (e : Nat × Nat) => Release.mk h e.1 e.2 true } }.dcRecords h 1 x).mbFinish m .success) := by
  refine (show execInitiateDynamicCapacityRelease m s = _ from State.command_served served (entriesFit hl hn hi) _).trans (congrArg _ ?_)
  dsimp only
  rw [hh]
  refine (if_neg (by omega)).trans ?_
  rw [released, host, asked]
  exact if_neg (by decide)

end Manager
end

/-- Settles O51: each clause is the rule above for the command and the case that it names. -/
theorem capacityCommandsComplete : Obligations.CapacityCommandsComplete := by
  refine fun s m i => ⟨runs_getDynamicCapacityConfiguration, runs_getDynamicCapacityExtentList,
    fun _ _ _ => runs_addDynamicCapacityResponse, fun _ => runs_releaseDynamicCapacity, runs_getDcdInfo,
    fun _ => runs_getHostDcRegionConfiguration, fun _ => runs_setDcRegionConfiguration,
    fun _ => runs_getDcRegionExtentLists, ?add, ?release⟩
  case add =>
    intro h served hl hn hi hh policy some_entry most e
    exact runs_initiateDynamicCapacityAdd hl hn hi hh some_entry served policy most
  case release =>
    intro h u served hl hn hi hh policy some_entry e x released
    exact ⟨runs_initiateDynamicCapacityRelease_forced hl hn hi hh some_entry served policy released,
      runs_initiateDynamicCapacityRelease_asked hl hn hi hh some_entry served policy released⟩

end Sys2Proof.Machine
end

section
/-! The start of replay (R391): the pages that replay folds again are counted in CFG_REPLAY. -/

namespace Sys2Proof.Machine

/-- A part in phase 10 of the bring-up in which tile 0 owes a page its fold; its performance counters are frozen. -/
def owesFold : State :=
  Tests.onD (fun d => { d with urgent := [(0, 0)] }) (Tests.onPmc (fun p => { p with frozen := true }) (Tests.initAt 10))

/-- What the start of replay makes of it. -/
def countsFold : State := match execReplayStart owesFold with
  | .next t => t
  | _ => owesFold

theorem runs_replayStart_owesFold : Runs .replayStart owesFold countsFold := rfl

/-- Refutes O33: where a page is still to be folded, the start of replay counts it in CFG_REPLAY, so more of the boot state than the
phase changes. -/
theorem not_mediaInitEventsComplete : ¬ Obligations.MediaInitEventsComplete := by
  intro complete
  obtain ⟨-, -, -, -, -, -, -, start, -⟩ := complete owesFold
  obtain ⟨t, run, -, -, boot⟩ := start rfl rfl
  obtain rfl : countsFold = t := Host.Outcome.next.inj (runs_replayStart_owesFold.symm.trans run)
  have counted : countsFold.boot.refolded = 1 := by decide +kernel
  have before : owesFold.boot.refolded = 0 := by decide +kernel
  rw [boot] at counted
  exact absurd (before.symm.trans counted) (by decide)

end Sys2Proof.Machine
end

section
/-! The counts of completed gap moves (R117): no operation but the end of a move changes them, neither a program's failure nor the end of a
fold, a stripe or a die. -/

namespace Sys2Proof.Machine

/-- M of the units of tile `x`. -/
def State.movesOf (x : TileId) (s : State) : List (Nat × Nat) := s.tiles[x].pl.moves

variable (x t : TileId) (s : State)

/-! ### The parts of a tile -/

theorem State.movesOf_of_tiles {x : TileId} {u s : State} (h : u.tiles = s.tiles) : u.movesOf x = s.movesOf x := by
  rw [movesOf, h, movesOf]

theorem State.modTile_movesOf {f : Tile → Tile} (hf : (f s.tiles[t]).pl.moves = s.tiles[t].pl.moves) :
    (s.modTile t f).movesOf x = s.movesOf x := by
  refine (vmod_apply s.tiles t x f fun y => y.pl.moves).trans ?_
  split
  next same => subst same; exact hf
  next => rfl

@[simp] theorem State.modD_movesOf (f : TileData → TileData) : (s.modD t f).movesOf x = s.movesOf x := modTile_movesOf x t s rfl
@[simp] theorem State.modEng_movesOf (f : Engine → Engine) : (s.modEng t f).movesOf x = s.movesOf x := modTile_movesOf x t s rfl
@[simp] theorem State.modIt_movesOf (f : Integrity → Integrity) : (s.modIt t f).movesOf x = s.movesOf x := modTile_movesOf x t s rfl
@[simp] theorem State.modCh_movesOf (c : ChanId) (f : Chan → Chan) : (s.modCh t c f).movesOf x = s.movesOf x :=
  modTile_movesOf x t s rfl
theorem State.modPl_movesOf {f : Placement → Placement} (hf : (f s.tiles[t].pl).moves = s.tiles[t].pl.moves) :
    (s.modPl t f).movesOf x = s.movesOf x := modTile_movesOf x t s hf

/-! ### Operations beside the tiles -/

@[simp] theorem State.count_movesOf (b i n k : Nat) : (s.count b i n k).movesOf x = s.movesOf x := movesOf_of_tiles (s.count_tiles ..)
@[simp] theorem State.raise_movesOf (e : EventRec) : (s.raise e).movesOf x = s.movesOf x := movesOf_of_tiles (s.raise_tiles e)
@[simp] theorem State.ungate_movesOf (m : BitVec 31) : (s.ungate t m).movesOf x = s.movesOf x := rfl
@[simp] theorem State.addCause_movesOf (c : DegradeCause) : (s.addCause c).movesOf x = s.movesOf x :=
  movesOf_of_tiles (State.addCause_changes.keeps .tiles rfl)
@[simp] theorem State.putPage_movesOf (unit slot : Nat) (p : Page) : (s.putPage t unit slot p).movesOf x = s.movesOf x := rfl
@[simp] theorem State.cutPage_movesOf (unit slot : Nat) : (s.cutPage t unit slot).movesOf x = s.movesOf x := rfl
@[simp] theorem State.poison_movesOf (p : Poison) : movesOf x { s with poison := p } = s.movesOf x := rfl
@[simp] theorem State.listPoison_movesOf (n : Nat) (src : PoisonSrc) : (s.listPoison n src).movesOf x = s.movesOf x :=
  movesOf_of_tiles (State.listPoison_changes.keeps .tiles rfl)
@[simp] theorem State.noteIn_movesOf (l : List (Nat × Nat)) (key item : Nat) : (s.noteIn l key item).2.2.movesOf x = s.movesOf x :=
  movesOf_of_tiles (State.noteIn_changes.keeps .tiles rfl)

/-! ### Work items and the staging log -/

@[simp] theorem State.enqueue_movesOf (w : WorkItem) : (s.enqueue t w).movesOf x = s.movesOf x := by simp [enqueue]

@[simp] theorem State.closeStripe_movesOf (a : Fin 5) : (s.closeStripe t a).movesOf x = s.movesOf x := by
  unfold closeStripe
  dsimp only
  split
  next => rfl
  next => simp [enqueueStripe]

@[simp] theorem State.append_movesOf (a : Fin 5) (e : StripeEntry) : (s.append t a e).movesOf x = s.movesOf x := by
  unfold append
  simp only [apply_ite (movesOf x), modD_movesOf, closeStripe_movesOf, ite_self]

@[simp] theorem State.placementRec_movesOf (unit : Nat) (r : PlacementRec) : (s.placementRec t unit r).movesOf x = s.movesOf x :=
  (append_movesOf ..).trans (modPl_movesOf x t s rfl)

/-! ### Failed dies (R242 to R248) -/

@[simp] theorem State.lowerMedia_movesOf : s.lowerMedia.movesOf x = s.movesOf x := by
  unfold lowerMedia movesOf
  rw [Fin.getElem_fin, vmap_get]
  rfl

@[simp] theorem State.fail_movesOf (c : FailCause) : (s.fail c).movesOf x = s.movesOf x := by
  unfold fail
  split
  next => rfl
  next =>
    refine (lowerMedia_movesOf ..).trans (movesOf_of_tiles ?_)
    exact (State.setMemActive_changes.keeps .tiles rfl).trans
      ((State.setDev_changes.keeps .tiles rfl).trans (State.bye_changes.keeps .tiles rfl))

@[simp] theorem State.mediaGone_movesOf : s.mediaGone.movesOf x = s.movesOf x := by
  unfold mediaGone
  simp only [apply_ite (movesOf x), fail_movesOf, ite_self]

@[simp] theorem State.appendAgain_movesOf (y : Stripe) : (s.appendAgain t y).movesOf x = s.movesOf x :=
  forAll_same (movesOf x) (fun _ u => u.append_movesOf ..) s

@[simp] theorem State.channelOff_movesOf (c : ChanId) : (s.channelOff t c).movesOf x = s.movesOf x := by
  unfold channelOff
  split
  next => rfl
  next =>
    extract_lets u v w z lost z' again
    have entered : z'.movesOf x = s.movesOf x := by simp only [z', z, w, v, u, modD_movesOf, raise_movesOf, addCause_movesOf, modCh_movesOf]
    have appended : again.movesOf x = z'.movesOf x := forAll_same (movesOf x) (fun y u => u.appendAgain_movesOf x t y) z'
    rw [mediaGone_movesOf, raise_movesOf, poison_movesOf]
    exact appended.trans entered

@[simp] theorem State.startRebuild_movesOf (c : ChanId) (ld : Nat) : (s.startRebuild t c ld).movesOf x = s.movesOf x := by
  simp [startRebuild]

@[simp] theorem State.failDie_movesOf (c : ChanId) (pos : Fin 9) (crit : Nat) : (s.failDie t c pos crit).movesOf x = s.movesOf x := by
  unfold failDie
  dsimp only
  split
  next => rfl
  next =>
    split
    next => simp
    next =>
      simp only [apply_ite (movesOf x), startRebuild_movesOf, channelOff_movesOf, raise_movesOf, addCause_movesOf, modCh_movesOf,
        ite_self]

@[simp] theorem State.noteSlot_movesOf (c : ChanId) (pos : Fin 9) (slot : Nat) : (s.noteSlot t c pos slot).movesOf x = s.movesOf x := by
  unfold noteSlot
  simp only [apply_ite (movesOf x), failDie_movesOf, modIt_movesOf, noteIn_movesOf, ite_self]

@[simp] theorem State.notePage_movesOf (c : ChanId) (pos : Fin 9) (page : Nat) : (s.notePage t c pos page).movesOf x = s.movesOf x := by
  unfold notePage
  simp only [apply_ite (movesOf x), failDie_movesOf, modIt_movesOf, noteIn_movesOf, ite_self]

@[simp] theorem State.noteProgram_movesOf (unit slot : Nat) (failed : BitVec 8) :
    (s.noteProgram t unit slot failed).movesOf x = s.movesOf x := by
  unfold noteProgram
  dsimp only
  split
  next => exact noteSlot_movesOf ..
  next => rfl

@[simp] theorem State.remapSlot_movesOf (unit slot : Nat) : (s.remapSlot t unit slot).movesOf x = s.movesOf x := by
  unfold remapSlot
  extract_lets p cur q
  have same : q.moves = p.moves := by
    unfold q
    cases cur <;> rfl
  split
  next k hk =>
    rw [placementRec_movesOf, raise_movesOf]
    exact modPl_movesOf x t s same
  next => exact (raise_movesOf ..).trans (modPl_movesOf x t s rfl)

/-! ### Reads of the part's own (R242, R261, R263) -/

@[simp] theorem State.noteRead_movesOf (c : ChanId) (r : LineRead) : (s.noteRead t c r).movesOf x = s.movesOf x := by
  unfold noteRead noteCorrected
  split
  next => simp only [apply_ite (movesOf x), count_movesOf, modIt_movesOf, ite_self]
  next => exact modIt_movesOf ..
  next => rfl

@[simp] theorem State.noteReads_movesOf (c : ChanId) (lines shares : Nat) (rs : List LineRead) :
    (s.noteReads t c lines shares rs).movesOf x = s.movesOf x :=
  (forAll_same (movesOf x) (fun r u => u.noteRead_movesOf x t c r) _).trans (by simp)

@[simp] theorem State.noteFailedPage_movesOf (unit slot : Nat) (dead : List Nat) (rs : List (Nat × LineRead)) :
    (s.noteFailedPage t unit slot dead rs).movesOf x = s.movesOf x := by
  unfold noteFailedPage
  dsimp only
  split
  next => exact notePage_movesOf ..
  next => rfl

@[simp] theorem State.pageRead_movesOf (unit slot : Nat) (noise : PageNoise) :
    (s.pageRead t unit slot noise).2.movesOf x = s.movesOf x := by
  unfold pageRead
  dsimp only
  split
  next => simp
  next =>
    split
    next => simp [apply_ite (movesOf x)]
    next => simp [apply_ite (movesOf x)]

@[simp] theorem State.uncorrectable_movesOf (n unit ld rung : Nat) : (s.uncorrectable t n unit ld rung).movesOf x = s.movesOf x := by
  unfold uncorrectable
  extract_lets u v
  have kept : v.movesOf x = s.movesOf x := by simp only [v, u, raise_movesOf, modIt_movesOf]
  split
  next => exact kept
  next =>
    unfold poisonCached
    extract_lets w
    rw [listPoison_movesOf, poison_movesOf, modD_movesOf]
    exact kept

@[simp] theorem State.movePage_movesOf (unit src ring raw : Nat) (noise : PageNoise) :
    (s.movePage t unit src ring raw noise).2.movesOf x = s.movesOf x := by
  unfold movePage
  extract_lets page first
  dsimp only
  refine Eq.trans ?_ (pageRead_movesOf x t s unit src noise)
  exact List.foldlRecOn (pageLost (s.pageRead t unit src noise).1) _
    (motive := fun b : Page × State => b.2.movesOf x = (s.pageRead t unit src noise).2.movesOf x) rfl
    fun b hb l _ => (uncorrectable_movesOf ..).trans hb

/-! ### Programs and folds -/

@[simp] theorem State.stampNow_movesOf (unit slot : Nat) : (s.stampNow t unit slot).movesOf x = s.movesOf x := modD_movesOf ..

@[simp] theorem State.counted_movesOf (unit n : Nat) : (s.counted t unit n).movesOf x = s.movesOf x :=
  (count_movesOf ..).trans (modPl_movesOf x t s rfl)

@[simp] theorem State.endCtx_movesOf (c : Context) : (s.endCtx t c).movesOf x = s.movesOf x := by
  unfold endCtx
  dsimp only
  split
  next => exact (forAll_same (movesOf x) (fun _ u => u.modCh_movesOf ..) _).trans (modEng_movesOf ..)
  next => exact modEng_movesOf ..

@[simp] theorem State.endContexts_movesOf (w : WorkUse) : (s.endContexts t w).movesOf x = s.movesOf x :=
  (forAll_same (movesOf x) (fun c u => u.endCtx_movesOf x t c) _).trans (modEng_movesOf ..)

@[simp] theorem State.foldProgram_movesOf (unit pidx : Nat) : (s.foldProgram t unit pidx).movesOf x = s.movesOf x := by
  unfold foldProgram modFold
  split
  next => rfl
  next => simp only [apply_ite (movesOf x), enqueue_movesOf, modD_movesOf, ite_self]

@[simp] theorem State.unpark_movesOf (unit : Nat) : (s.unpark t unit).movesOf x = s.movesOf x :=
  forAll_same (movesOf x) (fun _ u => u.foldProgram_movesOf ..) s

@[simp] theorem State.zeroSome_movesOf : (s.zeroSome t).movesOf x = s.movesOf x := by
  refine forAll_same (movesOf x) (fun z u => ?_) s
  simp only [apply_ite (movesOf x), count_movesOf, stampNow_movesOf, counted_movesOf, putPage_movesOf, modD_movesOf, ite_self]

@[simp] theorem State.moveCopy_movesOf (unit src dst : Nat) : (s.moveCopy t unit src dst).movesOf x = s.movesOf x :=
  (enqueue_movesOf ..).trans (forAll_same (movesOf x) (fun _ u => u.enqueue_movesOf ..) s)

/-! ### The end of a move (R117) -/

theorem Sparse.get_set_self {α : Type} [DecidableEq α] {d v : α} (m : List (Nat × α)) (k : Nat) (hv : v ≠ d) :
    Sparse.get d (Sparse.set d m k v) k = v := by
  unfold Sparse.get Sparse.set
  induction m with
  | nil => simp [Sparse.setF, Sparse.getF, hv]
  | cons e r ih =>
    obtain ⟨j, w⟩ := e
    unfold Sparse.setF
    split
    next => simp [Sparse.getF]
    next above =>
      split
      next => simp [Sparse.getF]
      next other => rw [Sparse.getF_cons, if_neg (Ne.symm other), if_neg above, ih]

theorem State.moveDone_movesOf (unit : Nat) :
    (s.moveDone t unit).movesOf t = Sparse.set 0 (s.movesOf t) unit (Sparse.get 0 (s.movesOf t) unit + 1) := by
  unfold moveDone
  extract_lets old u again v
  rw [zeroSome_movesOf, unpark_movesOf, placementRec_movesOf, count_movesOf, modD_movesOf]
  exact congrArg (fun y : Tile => y.pl.moves) (State.modPl_self s t _)

end Sys2Proof.Machine
end

section
/-! The staging log, folds, gap moves and unit records (R116 to R119, R123, R127, R149, R152, R160, R161, R168, R171): one rule of an event
for each case. -/

namespace Sys2Proof.Machine

/-! ### What joins a queue leaves the tile as it is -/

theorem State.enqueue_pl (s : State) (t : TileId) (w : WorkItem) : (s.enqueue t w).tiles[t].pl = s.tiles[t].pl :=
  (congrArg Tile.pl (State.modEng_self s t (Machine.enqueue · w))).trans rfl

theorem State.enqueue_d (s : State) (t : TileId) (w : WorkItem) : (s.enqueue t w).tiles[t].d = s.tiles[t].d :=
  (congrArg Tile.d (State.modEng_self s t (Machine.enqueue · w))).trans rfl

theorem State.moveCopy_pl (s : State) (t : TileId) (unit src dst : Nat) : (s.moveCopy t unit src dst).tiles[t].pl = s.tiles[t].pl :=
  (enqueue_pl ..).trans (forAll_same (fun u : State => u.tiles[t].pl) (fun _ u => u.enqueue_pl ..) s)

theorem State.foldShares_d (s : State) (t : TileId) (f : Fold) (slot : Nat) : (s.foldShares t f slot).tiles[t].d = s.tiles[t].d :=
  forAll_same (fun u : State => u.tiles[t].d) (fun _ u => u.enqueue_d ..) s

theorem State.foldGather_d (s : State) (t : TileId) (f : Fold) : (s.foldGather t f).tiles[t].d = s.tiles[t].d := by
  unfold foldGather
  extract_lets u
  have claimed : u.tiles[t].d = s.tiles[t].d :=
    forAll_same (fun v : State => v.tiles[t].d) (fun _ v => forAll_same (fun v : State => v.tiles[t].d) (fun _ v => v.enqueue_d ..) v) s
  split
  next => exact claimed
  next => exact (foldShares_d ..).trans claimed

variable {s : State} {t : TileId}

/-! ### Stripes (R149, R160, R161) -/

section Program
variable {x : Stripe} (closed : (s.tiles[t].d.closed.find? fun y => y.seq = x.seq && y.program) = some x)
include closed

theorem runs_stripeProgramEnd_verified (passed : progResult s.tiles[t].eng (.stripe x.seq) = some 0) :
    Runs (.stripeProgramEnd t x.seq ()) s ((s.endContexts t (.stripe x.seq)).stripeVerified t x) := by
  change execStripeProgramEnd t x.seq () s = _
  unfold execStripeProgramEnd
  rw [closed, passed]
  rfl

theorem runs_stripeProgramEnd_abandoned {f : BitVec 8} (bad : f ≠ 0) (failed : progResult s.tiles[t].eng (.stripe x.seq) = some f) :
    Runs (.stripeProgramEnd t x.seq ()) s ((s.endContexts t (.stripe x.seq)).stripeAbandoned t x f) := by
  change execStripeProgramEnd t x.seq () s = _
  unfold execStripeProgramEnd
  rw [closed, failed]
  exact congrArg Host.Outcome.next (if_neg bad)

end Program

/-! ### Waiting lines, stores and the stall (R149, R152, R168) -/

/-- The one waiting line enters the directory where it has room. -/
theorem runs_bucketSlotFreed_one {w : Nat × DirEntry} (waits : s.tiles[t].d.waiting = [w]) (room : s.dirRoom t w.2 = true) :
    let u := (s.modD t fun d => { d with waiting := d.waiting.filter (· ≠ w) }).dirInsert t w.2
    Runs (.bucketSlotFreed t) s
      (((if copyPending u.tiles[t].d w.2.line then u else u.lineVerified t w.2.line).endExcluded t).wake t) := by
  intro u
  change execBucketSlotFreed t s = _
  unfold execBucketSlotFreed
  rw [waits]
  exact congrArg (fun v : State => Host.Outcome.next ((v.endExcluded t).wake t)) (if_pos room)

theorem runs_stagingStallTimeout_fails {a : Fin 5} (holds : s.areaHolds t a = true) (serves : s.inSvc t = true)
    (stalled : s.tiles[t].d.lastFold[a] = false) : Runs (.stagingStallTimeout t a) s (s.fail .stagingStalled) := by
  refine (if_pos ⟨holds, serves⟩).trans (congrArg Host.Outcome.next (if_neg ?_))
  rw [stalled]
  exact Bool.false_ne_true

/-- An empty area, and one that has folded in the period, start the next period. -/
theorem runs_stagingStallTimeout_restarts {a : Fin 5} (rests : s.areaHolds t a = false ∨ s.tiles[t].d.lastFold[a] = true) :
    Runs (.stagingStallTimeout t a) s (s.modD t fun d => { d with lastFold := d.lastFold.set a false }) := by
  change execStagingStallTimeout t a s = _
  unfold execStagingStallTimeout
  split
  next watched =>
    have folded : s.tiles[t].d.lastFold[a] = true := rests.resolve_left fun empty => by simp [empty] at watched
    exact congrArg Host.Outcome.next (if_pos folded)
  next => rfl

/-! ### Folds (R123, R169, R171) -/

/-- A page that may be chosen has no open fold. -/
theorem State.not_isPage_of_mayFold {u p : Nat} (may : s.mayFold t u p = true) : ∀ f ∈ s.tiles[t].d.folds, f.isPage u p = false := by
  have unblocked : s.foldBlocked t u p = false := by
    unfold mayFold at may
    simp only [Bool.and_eq_true, Bool.not_eq_true'] at may
    exact may.1.2
  unfold foldBlocked at unblocked
  simp only [Bool.or_eq_false_iff, List.any_eq_false, Bool.not_eq_true, and_assoc] at unblocked
  obtain ⟨-, -, noFold, -⟩ := unblocked
  exact noFold

theorem runs_foldClaim {u p : Nat} (may : s.mayFold t u p = true) :
    ∃ v, Runs (.foldClaim t u p) s v ∧ v.tiles[t].d.folds = s.tiles[t].d.folds ++
      [{ unit := u, pidx := p, step := 1, foldSeq := horizon s.tiles[t].d
         claimed := (s.pageEntries t u p).map fun e => { e with fold := true }
         refresh := s.tiles[t].d.refresh.contains (u, p) || s.tiles[t].d.refreshLow.contains (u, p)
         opens := !ringWritten s.tiles[t].pl u (s.pageHome t u p).ring }] := by
  refine ⟨_, if_pos may, ?_⟩
  have others : (s.tiles[t].d.folds.filter fun f => !f.isPage u p) = s.tiles[t].d.folds :=
    List.filter_eq_self.mpr fun f open_ => by rw [State.not_isPage_of_mayFold may f open_]; rfl
  refine (congrArg TileData.folds (State.foldGather_d ..)).trans ?_
  refine (congrArg (fun y : Tile => y.d.folds) (State.modD_self ..)).trans ?_
  exact congrArg (· ++ _) others

theorem Fold.page_of_foldOf {u p : Nat} {f : Fold} (fold : s.foldOf t u p = some f) : f.unit = u ∧ f.pidx = p := by
  have found := List.find?_some fold
  simp only [isPage, Bool.and_eq_true, decide_eq_true_eq] at found
  exact found.1

section Fold
variable {u p : Nat} {f : Fold} (fold : s.foldOf t u p = some f)
include fold

/-- A fold that opens its ring reads no page and carries no line. -/
theorem runs_foldReadDone_opens {g : List (Nat × Noise)} {b : PageNoise} (step : f.step = 1) (opens : f.opens = true)
    (read : workLeft s.tiles[t].eng (.fold u p) = false) :
    let r := (List.range 64).foldl (fun (x : List (Nat × StoredLine) × State) l =>
      let y := x.2.foldLine t f (s.slotOf (s.pageHome t u p)) (pageLine s.cfg.record t u p) g [] l
      (x.1 ++ [(l, y.1)], y.2)) ([], s)
    Runs (.foldReadDone t u p (g, b)) s (r.2.modFold t u p fun f => { f with step := 5, buf := r.1, carries := [] }) := by
  intro r
  change execFoldReadDone t u p (g, b) s = _
  unfold execFoldReadDone
  rw [fold]
  dsimp only
  rw [step, read, opens]
  rfl

theorem runs_foldCarryVerified_starts (step : f.step = 5) (verified : f.carries = [])
    (good : s.tiles[t].d.remapNext.contains (u, p) = false) : Runs (.foldCarryVerified t u p) s (s.foldProgram t u p) := by
  change execFoldCarryVerified t u p s = _
  unfold execFoldCarryVerified
  rw [fold]
  refine (if_pos ⟨step, verified⟩).trans ?_
  rw [good]
  rfl

section ProgramEnd
variable (step : f.step = 6) (runs : f.parked = false) (started : f.started = true)

omit fold in
include step runs started in
theorem Fold.programs_end : ¬ (decide (f.step ≠ 6) || f.parked || !f.started) = true := by
  rw [step, runs, started]
  decide

include step runs started

/-- The page of the fold holds its buffer, and is read back. -/
theorem runs_foldProgramEnd_page (written : f.opens = false) (passed : progResult s.tiles[t].eng (.fold u p) = some 0) :
    let v := (s.endContexts t (.fold u p)).count t 7 3
    Runs (.foldProgramEnd t u p ()) s ((v.putPage t u (v.foldSlot t f)
      { defined := true, keys := v.sec.engine, foldSeq := f.foldSeq, lines := f.buf }).foldProgrammed t f) := by
  intro v
  change execFoldProgramEnd t u p () s = _
  unfold execFoldProgramEnd
  rw [fold, passed]
  refine (if_neg (Fold.programs_end step runs started)).trans ((if_neg (not_not_intro rfl)).trans ?_)
  have own : v.foldTarget t f = (v.pageHome t u p).jj := by
    obtain ⟨unit, pidx⟩ := Fold.page_of_foldOf fold
    unfold State.foldTarget
    rw [written, unit, pidx]
    rfl
  dsimp only
  rw [decide_eq_true own, written]
  rfl

/-- Another page of the ring that the fold opens holds zeros, and the next one is programmed. -/
theorem runs_foldProgramEnd_opens (opens : f.opens = true) (more : f.opened + 1 < 255)
    (passed : progResult s.tiles[t].eng (.fold u p) = some 0) :
    let v := (s.endContexts t (.fold u p)).count t 7 3
    v.foldTarget t f ≠ (v.pageHome t u p).jj →
    Runs (.foldProgramEnd t u p ()) s (((((v.putPage t u (v.foldSlot t f) { defined := true, keys := v.sec.engine }).counted t u 1).stampNow
      t u (v.foldSlot t f)).modFold t u p fun f => { f with opened := f.opened + 1, tries := 0 }).foldProgram t u p) := by
  intro v other
  change execFoldProgramEnd t u p () s = _
  unfold execFoldProgramEnd
  rw [fold, passed]
  refine (if_neg (Fold.programs_end step runs started)).trans ((if_neg (not_not_intro rfl)).trans ?_)
  refine (if_pos opens).trans ((if_pos more).trans ?_)
  rw [decide_eq_false other]
  rfl

theorem runs_foldProgramEnd_failed {b : BitVec 8} (bad : b ≠ 0) (failed : progResult s.tiles[t].eng (.fold u p) = some b) :
    let v := (s.endContexts t (.fold u p)).count t 7 3
    Runs (.foldProgramEnd t u p ()) s
      (((v.cutPage t u (v.foldSlot t f)).noteProgram t u (v.foldSlot t f) b).foldRepeat t f) := by
  intro v
  change execFoldProgramEnd t u p () s = _
  unfold execFoldProgramEnd
  rw [fold, failed]
  exact (if_neg (Fold.programs_end step runs started)).trans (if_pos bad)

end ProgramEnd

section Readback
variable {noise : Noise} (step : f.step = 7) (read : workLeft s.tiles[t].eng (.fold u p) = false)
include step read

theorem runs_foldReadbackDone_good (written : f.opens = false) :
    let slot := s.slotOf (s.pageHome t u p)
    let dead := s.deadLines t u slot
    let rs := readPage dead noise
    let v := s.noteReads t (toChan (u / 16)) 0 (s.readDies t u (slot / 256) []).length ((rs.filter fun r => !dead.contains r.1).map (·.2))
    let w := ((v.counted t u 1).stampNow t u slot).modFold t u p fun f => { f with step := 8 }
    readbackOk dead rs = true →
    Runs (.foldReadbackDone t u p noise) s (if w.foldDurable t f then w.foldRelease t f else w) := by
  intro slot dead rs v w good
  change execFoldReadbackDone t u p noise s = _
  unfold execFoldReadbackDone
  rw [fold]
  dsimp only
  rw [step, read, written]
  exact (if_neg (by decide)).trans (if_pos good)

theorem runs_foldReadbackDone_bad :
    let slot := s.slotOf (s.pageHome t u p)
    let dead := s.deadLines t u slot
    let rs := readPage dead noise
    let v := s.noteReads t (toChan (u / 16)) 0 (s.readDies t u (slot / 256) []).length ((rs.filter fun r => !dead.contains r.1).map (·.2))
    readbackOk dead rs = false → Runs (.foldReadbackDone t u p noise) s (v.foldRepeat t f) := by
  intro slot dead rs v bad
  change execFoldReadbackDone t u p noise s = _
  unfold execFoldReadbackDone
  rw [fold]
  dsimp only
  rw [step, read]
  exact (if_neg (by decide)).trans (if_neg (ne_true_of_eq_false bad))

end Readback
end Fold

/-! ### Gap moves (R117 to R119) -/

section Move
variable {u : Nat} (quiet : s.background = true) (due : Sparse.get 0 s.tiles[t].pl.due u ≠ 0)
  (rests : s.tiles[t].pl.moving.contains u = false) (recorded : movePending s.tiles[t].d u = false)
  (up : s.chanOut t (toChan (u / 16)) = false) (noFold : s.tiles[t].d.folds = [])
include quiet due rests recorded up noFold

/-- A due move waits for nothing: the checks of GAP_MOVE_START pass, whatever folds meet it. -/
theorem gapMove_starts (meets : Fold → Bool) : ¬ (((!s.background) = true) ∨ Sparse.get 0 s.tiles[t].pl.due u = 0 ∨
    s.tiles[t].pl.moving.contains u = true ∨ movePending s.tiles[t].d u = true ∨ s.chanOut t (toChan (u / 16)) = true ∨
    s.tiles[t].d.folds.any meets = true) := by
  rw [quiet, rests, recorded, up, noFold]
  simpa using due

theorem runs_gapMoveStart_unwritten (unwritten : ringWritten s.tiles[t].pl u (Sparse.get 0 s.tiles[t].pl.moves u % 20376) = false) :
    Runs (.gapMoveStart t u) s (s.moveDone t u) :=
  (if_neg (gapMove_starts quiet due rests recorded up noFold _)).trans (if_pos (.inl unwritten))

theorem runs_gapMoveStart_written (kept : s.tiles[t].d.lent = [])
    (written : ringWritten s.tiles[t].pl u (Sparse.get 0 s.tiles[t].pl.moves u % 20376) = true) :
    ∃ v, Runs (.gapMoveStart t u) s v ∧ v.tiles[t].pl.moving = s.tiles[t].pl.moving ++ [u] := by
  refine ⟨_, (if_neg (gapMove_starts quiet due rests recorded up noFold _)).trans (if_neg ?_), ?_⟩
  · rw [kept, written]
    rintro (absent | found)
    · exact absurd absent (by decide)
    · exact Bool.false_ne_true found
  · refine (congrArg Placement.moving (State.moveCopy_pl ..)).trans ?_
    exact congrArg (fun y : Tile => y.pl.moving) (State.modPl_self ..)

end Move

section Copy
variable {u : Nat} {noise : PageNoise} (copies : s.tiles[t].pl.copying.contains u = true)
include copies

/-- The copy stands in its slot, and M increases. -/
theorem runs_gapMoveVerify_passed (passed : progResult s.tiles[t].eng (.gapMove u) = some 0) :
    ∃ v, Runs (.gapMoveVerify t u noise) s v ∧ Sparse.get 0 v.tiles[t].pl.moves u = Sparse.get 0 s.tiles[t].pl.moves u + 1 := by
  have run : ∃ w : State, w.movesOf t = s.movesOf t ∧ Runs (.gapMoveVerify t u noise) s (w.moveDone t u) := by
    change ∃ w : State, _ ∧ execGapMoveVerify t u noise s = _
    unfold execGapMoveVerify
    dsimp only
    rw [passed]
    generalize moveSlots (Sparse.get 0 s.tiles[t].pl.moves u) (Sparse.get 0 s.tiles[t].pl.moves u % 20376) = slots
    obtain ⟨src, dst⟩ := slots
    refine ⟨_, ?_, (if_neg (by rw [copies]; decide)).trans (if_pos rfl)⟩
    simp only [State.stampNow_movesOf, State.modIt_movesOf, State.putPage_movesOf, State.movePage_movesOf, State.count_movesOf,
      State.endContexts_movesOf]
  obtain ⟨w, kept, run⟩ := run
  have counted := State.moveDone_movesOf t w u
  rw [kept, State.movesOf, State.movesOf] at counted
  refine ⟨w.moveDone t u, run, ?_⟩
  rw [counted, Sparse.get_set_self _ _ (Nat.succ_ne_zero _)]

theorem runs_gapMoveVerify_failed {b : BitVec 8} (bad : b ≠ 0) (failed : progResult s.tiles[t].eng (.gapMove u) = some b) :
    ∃ v, Runs (.gapMoveVerify t u noise) s v ∧
      Sparse.get 0 v.tiles[t].pl.moves u = Sparse.get 0 s.tiles[t].pl.moves u ∧ v.tiles[t].pl.copying.contains u = false := by
  change ∃ v, execGapMoveVerify t u noise s = _ ∧ _
  unfold execGapMoveVerify
  dsimp only
  rw [failed]
  generalize moveSlots (Sparse.get 0 s.tiles[t].pl.moves u) (Sparse.get 0 s.tiles[t].pl.moves u % 20376) = slots
  obtain ⟨src, dst⟩ := slots
  refine ⟨_, (if_neg (by rw [copies]; decide)).trans (if_neg bad), ?_, ?_⟩
  · refine congrArg (Sparse.get 0 · u) (?_ : State.movesOf t _ = s.movesOf t)
    rw [State.moveCopy_movesOf, State.modPl_movesOf, State.remapSlot_movesOf, State.noteProgram_movesOf, State.cutPage_movesOf,
      State.count_movesOf, State.endContexts_movesOf]
    rfl
  · rw [State.moveCopy_pl, Fin.getElem_fin, State.modPl_self]
    simp

end Copy

/-- Settles O44, one rule of an event for each clause. -/
theorem stagingEventsComplete : Obligations.StagingEventsComplete := by
  intro s t
  refine ⟨fun _ => runs_stripeProgramEnd_verified, fun _ _ closed => runs_stripeProgramEnd_abandoned closed, fun _ => rfl,
    fun _ => runs_bucketSlotFreed_one, rfl, rfl, fun _ => runs_stagingStallTimeout_fails, fun _ => runs_stagingStallTimeout_restarts,
    fun _ _ => runs_foldClaim, fun _ _ _ _ _ fold => runs_foldReadDone_opens fold, fun _ _ _ => runs_foldCarryVerified_starts,
    ?page, ?opens, ?failed, ?good, ?bad, fun _ => runs_gapMoveStart_unwritten, fun _ => runs_gapMoveStart_written,
    fun _ _ => runs_gapMoveVerify_passed, fun _ _ _ copies => runs_gapMoveVerify_failed copies, fun _ full => if_pos full⟩
  case page => exact fun u p f fold step written runs started => runs_foldProgramEnd_page fold step runs started written
  case opens =>
    exact fun u p f fold step opens more runs started => runs_foldProgramEnd_opens fold step runs started opens more
  case failed => exact fun u p f b fold step runs started => runs_foldProgramEnd_failed fold step runs started
  case good => exact fun u p f noise fold step written read => runs_foldReadbackDone_good fold step read written
  case bad => exact fun u p f noise fold step read => runs_foldReadbackDone_bad fold step read

end Sys2Proof.Machine
end
